-- ==== Sys2Proof/Word.lean ====
section
/-! DEFINITION. The word types of the model and the plainest arithmetic on them. -/

namespace Sys2Proof

/-- A 32-bit register word (R34). -/
abbrev Word := BitVec 32

/-- A byte of memory. -/
abbrev Byte := BitVec 8

/-- A 64-byte line (R121), byte 0 in the low eight bits. -/
abbrev Line := BitVec 512

/-- A 128-bit long value (R71) and a 64-bit quantity. -/
abbrev Long := BitVec 128
abbrev Dword := BitVec 64

end Sys2Proof
end

