-- ==== Sys2Proof/Syntax.lean ====
section
/-! DEFINITION. The commands of the block: one constructor of `Instr` per row of spec/opcode_table.json, with the
operands the row's rules name. Operands that a rule takes from outside the module (a requester, a received message, a
sensor's sample) are carried by the command. -/

namespace Sys2Proof

/-- A requester of the register arbiter (Table 2.6). -/
inductive Req where
  | glade | canopyA | canopyB | host
  | svc (core : Fin 8)
  | sideband | debug
  | remote (member : BitVec 13)
  deriving DecidableEq, Repr

/-- A 32-bit write as it arrives at the register arbiter: requester, data and byte enables (R34). -/
structure WriteReq where
  req  : Req
  data : Word
  be   : BitVec 4
  deriving DecidableEq, Repr

/-- A SYNC message as presented (R50): receiving link, ROOT_ID, hop count and the sender's transmit-tick time. -/
structure SyncMsg where
  link   : Fin 96
  rootId : Word
  hops   : BitVec 6
  time   : Dword
  deriving DecidableEq, Repr

/-- A logical engine: grove g and engine e (R120). -/
structure Eng where
  g : Fin 16
  e : Fin 8
  deriving DecidableEq, Repr

/-- What the codes find when one line or block is read (R128, R129, R132, R234): words corrected by the inner code, erased
bytes, erroneous bytes, and the bytes as read, which are delivered when the line is uncorrectable. -/
structure LineObs where
  inner  : BitVec 4
  erased : BitVec 7
  errors : BitVec 7
  asRead : Line
  deriving DecidableEq, Repr

/-- Where the tensor array's residue check mismatches (R87): nothing, or the first mismatching row. -/
abbrev ResidueObs := Option (Fin 128)

/-- Source or destination of a crossbar line (R144, R221, R240): an engine's queue, a grove DMA channel, a link
controller, an LPDDR5X controller, a reduction unit's local queue, the PCIe endpoint, a service core, background. -/
inductive Port where
  | queue (g : Fin 16) (e : Fin 8) (q : Fin 8)
  | dma (g : Fin 16) (ch : Fin 16)
  | link (l : Fin 96)
  | lpddr (m : Fin 16)
  | reduce (l : Fin 96) (q : Bool)
  | pcie
  | svc (c : Fin 8)
  | background
  | sample
  deriving DecidableEq, Repr

/-- By which way a background access comes (R136, R262, R266). -/
inductive BgVia where
  | bar2 | core | remote
  | dma (c : Fin 4)
  deriving DecidableEq, Repr

/-- A background access to module memory (R136, R243): who asks, where, a write's bytes or a read's length, and a tag that its
completion carries. -/
structure BgAccess where
  req   : Req
  via   : BgVia
  addr  : Dword
  len   : Nat
  write : Option (List Byte)
  tag   : BitVec 32
  deriving DecidableEq, Repr

/-! ## The stand image (Table 7.1), as the loader reads it -/

/-- A step window: copy-0 base, length and copy-1 base, in lines (grove SRAM) or 1 KiB units (LPDDR5X). -/
structure Win where
  base : Nat
  len  : Nat
  alt  : Nat
  deriving DecidableEq, Repr

/-- A dynamic region (R137). -/
structure DynRegion where
  dreg : Fin 16
  bb   : Nat
  nb   : Nat
  rb   : Nat
  len  : Nat
  deriving DecidableEq, Repr

/-- A region of lines or runs: base and length. -/
structure Region where
  base : Nat
  len  : Nat
  deriving DecidableEq, Repr

/-- One logical engine's stream: entry segment (its bundles, from bundle address `segBase`), entry address and the
further segments it uses, each as the grove line it is placed at and its bundles. -/
structure EngStream where
  a       : Eng
  segBase : Nat
  entry   : BitVec 13
  bundles : List (BitVec 256)
  further : List (Nat × List (BitVec 256))
  deriving DecidableEq, Repr

/-- A grove DMA descriptor of channel `ch`, as its 32 bytes (Table 6.2), and its number. -/
structure DmaDescr where
  g    : Fin 16
  ch   : Fin 16
  desc : BitVec 8
  raw  : BitVec 256
  deriving DecidableEq, Repr

/-- A scheduled grove DMA start (R145): step-relative schedule tick. -/
structure DmaStart where
  g    : Fin 16
  ch   : Fin 16
  desc : BitVec 8
  tick : Nat
  deriving DecidableEq, Repr

/-- A crossbar line slot (R144): the line leaves `src` at `tick` for `dst`. -/
structure XbarSlot where
  tick : Nat
  src  : Port
  dst  : Port
  deriving DecidableEq, Repr

/-- Where a presented scheduled flit goes (R201, R226): forwarded on a link, into a run of a reduction unit, or into the
crossbar. -/
inductive FlitDest where
  | forward (l : Fin 96)
  | reduceIn (l : Fin 96)
  | xbar (dst : Port)
  deriving DecidableEq, Repr

/-- A scheduled flit of one link direction: step-relative schedule tick, half-line, and (receive) its destinations. -/
structure FlitSlot where
  tick  : Nat
  half  : Bool
  dests : List FlitDest
  deriving DecidableEq, Repr

/-- What drives a scheduled transmit tick of a link (R201, R208, R209, R220). -/
inductive TxSource where
  | xbar | forward | reduce
  deriving DecidableEq, Repr

/-- A scheduled transmit flit. -/
structure TxSlot where
  tick : Nat
  half : Bool
  src  : TxSource
  deriving DecidableEq, Repr

/-- The image's part for one link (Table 7.1): group link or not, both schedules, and both latency-table entries. -/
structure LinkPlan where
  l     : Fin 96
  group : Bool
  rx    : List FlitSlot
  tx    : List TxSlot
  latRx : Option Nat
  latTx : Option Nat
  deriving DecidableEq, Repr

/-- A reduction run descriptor (Table 9.1) as its 16 bytes. -/
structure ReducePlan where
  l    : Fin 96
  runs : List (BitVec 128)
  deriving DecidableEq, Repr

/-- One channel's entry of one LPDDR5X frame (Table 10.4) with the crossbar ports of its lines in block order. -/
structure FramePlan where
  m     : Fin 16
  ch    : Fin 8
  frame : Nat
  entry : BitVec 64
  ports : List Port
  deriving DecidableEq, Repr

/-- What one grove must offer: logical engines and usable banks. -/
structure GroveNeed where
  g       : Fin 16
  engines : Nat
  banks   : Nat
  deriving DecidableEq, Repr

/-- One grove's memory declarations. -/
structure GroveMem where
  g       : Fin 16
  wins    : List Win
  dyn     : List DynRegion
  scratch : List Region
  deriving DecidableEq, Repr

/-- A member's stand image. -/
structure Image where
  standId  : Word
  member   : Nat
  lead     : Nat
  nEpochs  : Nat
  dMax     : Nat
  seed     : Dword
  groves   : List GroveNeed
  links    : List (Fin 96)
  pagesU   : Nat
  reduceU  : List (Fin 96)
  sample   : Bool
  streams  : List EngStream
  descrs   : List DmaDescr
  starts   : List DmaStart
  xbar     : List XbarSlot
  plans    : List LinkPlan
  gmem     : List GroveMem
  lwins    : List Win
  lscratch : List Region
  lread    : List Region
  reduce   : List ReducePlan
  frames   : List FramePlan
  deriving DecidableEq, Repr

/-- The verdict field of a group control message (Table 7.4). -/
inductive Verdict where
  | none | commit | abort
  deriving DecidableEq, Repr

/-- A group control message (Table 7.4); the bit-exact layout is `Machine.gcmBytes`. -/
structure Gcm where
  gepoch     : Word
  step       : Word
  pApplied   : BitVec 14
  confirm    : BitVec 14
  confirmV   : Bool
  abortOr    : Bool
  voteV      : Bool
  verdict    : Verdict
  endReq     : Bool
  unload     : Bool
  startStep  : Dword
  startEpoch : Word
  startV     : Bool
  /-- WAVE[0..31] -/
  wave       : List (BitVec 14)
  deriving DecidableEq, Repr

/-- An ABORT flit's payload (Table 8.5). -/
structure AbortMsg where
  origin  : BitVec 13
  cause   : BitVec 8
  step    : Word
  standId : Word
  deriving DecidableEq, Repr

/-- The classes of service messages that this model passes as typed bodies (Table 8.7). -/
inductive SvcClass where
  | gcm | sync | linkmgt | event | regReq | regRsp | image | repair | arm
  deriving DecidableEq, Repr

/-- A forwarded event (R419): origin member and the entry's fields. -/
structure FwdEvent where
  origin : BitVec 13
  stamp  : Dword
  code   : BitVec 16
  sev    : BitVec 2
  page   : BitVec 10
  data0  : Word
  data1  : Word
  deriving DecidableEq, Repr

/-- A remote register request (R207): initiator, remaining hops, the links it came by (nearest first) and the access. -/
structure RegReqMsg where
  standId : Word
  member  : BitVec 13
  hops    : List (Fin 96)
  back    : List (Fin 96)
  write   : Bool
  addr    : BitVec 22
  data    : Word
  deriving DecidableEq, Repr

/-- A remote register response (R207): the remaining way back, its RESULT and the data of a read. -/
structure RegRspMsg where
  back   : List (Fin 96)
  result : BitVec 3
  data   : Word
  deriving DecidableEq, Repr

/-- One member of a manifest (Table 18.2). -/
structure ManMember where
  serial : Dword
  length : Dword
  chunks : List (BitVec 256)
  deriving DecidableEq, Repr

/-- What a stand manifest says (Table 18.2). -/
structure Manifest where
  standId   : Word
  lead      : BitVec 16
  dMax      : BitVec 8
  members   : List ManMember
  signature : BitVec 512
  deriving DecidableEq, Repr

/-- Verdict state a member answers a resume with (R406). -/
inductive VerdictState where
  | none | commit | abort | uncommitted
  deriving DecidableEq, Repr

/-- RELEASE of an arm or resume barrier (R406, R415). -/
structure ReleaseMsg where
  resume  : Bool
  tRel    : Dword
  gR      : Dword
  pace    : BitVec 14
  verdict : VerdictState
  deriving DecidableEq, Repr

/-- The answer of a member to RESUME_REQ (R406). -/
structure ResumeAns where
  member  : BitVec 13
  ready   : Bool
  cause   : BitVec 3
  q       : BitVec 14
  verdict : VerdictState
  deriving DecidableEq, Repr

/-- A 4 KiB chunk of an image (R410), as its 64-byte lines in order. -/
abbrev Chunk := List Line

/-- The typed bodies of the acknowledged service messages (R203 to R207, R406 to R415, R419). -/
inductive SvcBody where
  | event (e : FwdEvent)
  | regReq (r : RegReqMsg)
  | regRsp (r : RegRspMsg)
  | manifest (raw : List Byte)
  | chunk (digest : BitVec 256) (data : Chunk)
  | imageEnd
  | repairReq (digests : List (BitVec 256))
  | repairReply (digest : BitVec 256) (data : Option Chunk)
  | armReady (member : BitVec 13) (q : BitVec 14)
  | armRefused (member : BitVec 13) (reason : BitVec 8)
  | release (r : ReleaseMsg)
  | cancel
  | resumeReq
  | resumeAnswer (a : ResumeAns)
  | unload
  deriving DecidableEq, Repr

/-- What one receiver found in a training phase (R186 to R190). -/
structure PhaseObs where
  /-- physical receive lanes that failed so far, and of those the ones that failed loopback too. -/
  failed    : List (Fin 9)
  localFail : List (Fin 9)
  polarity  : BitVec 9
  /-- the failed lane the partner reported for this module's transmitter. -/
  txFailed  : Option (Fin 9)
  /-- partner's serial and link number as exchanged in DETECT, and whether both records and both FORCE_COLD bits allow warm. -/
  serial    : Dword
  plink     : BitVec 8
  partnerWarm : Bool
  /-- transmit taps and receive peaking the phase settled on. -/
  eq        : Word
  deriving DecidableEq, Repr

/-- Where in the group epoch a flit is presented: a schedule tick, a pace idle tick, or a tick outside group epochs. -/
inductive TickPos where
  | sched (tau : Fin 4096)
  | paceIdle
  | free
  deriving DecidableEq, Repr

/-- What a controller finds of one channel when it trains it (R248): whether the journal record's CRC passes, the device's
identity and temperature, and whether a warm verification passes. -/
structure ChanObs where
  crcOk    : Bool := false
  ident    : Word := 0
  temp     : Nat := 0
  verified : Bool := false
  deriving DecidableEq, Repr, Inhabited

/-- A PCIe error as AER reports it (R258). -/
inductive AerKind where
  | receiverError | badTlp | badDllp | replayRollover | replayTimeout | advisoryNonFatal
  | poisonedTlp | completionTimeout | completerAbort | unexpectedCompletion | unsupportedRequest
  | dlProtocol | fcProtocol | receiverOverflow | malformedTlp
  deriving DecidableEq, Repr

/-- A host completion for a read of a host DMA channel (R265, R266): the descriptor's 32 bytes, data from byte `off` of the
transfer with its EP bit, or a failed request (UR or CA). -/
inductive DmaCpl where
  | desc (raw : BitVec 256)
  | data (off : Nat) (bytes : List Byte) (ep : Bool)
  | failed
  deriving DecidableEq, Repr

/-- A Glade input that can time out (Table 15.1): inlet flow, inlet and outlet temperatures, inlet and outlet pressure, 48 V voltage
and current, a pump's tach and current, a leak channel. -/
inductive GladeInput where
  | flow | tinA | tinB | toutA | toutB | pin | pout | vin | iin
  | pump (n : Fin 3)
  | leak (k : Fin 4)
  deriving DecidableEq, Repr

/-- The raw coolant readings of one 10 kHz sample period (Table 13.2), none where the input gave no sample: flow in mL/min, temperatures
in 0.01 °C, gauge pressures in mbar. -/
structure CoolantObs where
  flow  : Option Int
  tinA  : Option Int
  tinB  : Option Int
  toutA : Option Int
  toutB : Option Int
  pin   : Option Int
  pout  : Option Int
  deriving DecidableEq, Repr

/-- A sample period of temperature sensors (Table 14.1) in 0.01 °C, none where a sensor did not update: both sensors of a grove, a floor
sensor, an LPDDR5X package or an area sensor. -/
inductive TempObs where
  | grove (g : Fin 16) (a b : Option Int)
  | floor (k : Fin 8) (t : Option Int)
  | package (p : Fin 32) (t : Option Int)
  | area (z : Fin 4) (t : Option Int)
  deriving DecidableEq, Repr

/-- What a start sequence found: an LPDDR5X controller's channels (R248); the failed banks of a grove's SRAM self-test (512 × die + position,
Table 17.3) and whether its repair record passes its CRC (R380); the version and header of a service core's image and the owner slot that
signed it, none for Aedant's (R279, R297). -/
structure StartObs where
  chans   : List ChanObs := []
  banks   : List (BitVec 10) := []
  crcOk   : Bool := false
  version : Word := 0
  head    : List Byte := []
  owner   : Option (Fin 2) := none
  deriving DecidableEq, Repr


/-- What the verification of a Glade image found (R354, R437): its 176-byte header and its table, TM_ENTRY0_LO first. -/
structure GladeImg where
  head  : List Byte
  table : List Word
  deriving DecidableEq, Repr

/-- What the first core to boot at a cold start finds in the firmware copies (R371, R437): whether the copy that is not preferred verifies, the
header of the Canopy image that runs, and the Glade and engine-microcode images of that copy, none where one fails verification. -/
structure FwObs where
  other : Bool := false
  head  : List Byte := []
  glade : Option GladeImg := none
  ucode : Option (List Byte) := none
  deriving DecidableEq, Repr

/-- What one physical engine reports of the known-answer run (R384): its signature, and whether it matches the image. -/
structure KatObs where
  g   : Fin 16
  p   : Fin 9
  sig : Word
  ok  : Bool
  deriving DecidableEq, Repr

/-- The commands (spec/opcode_table.json), in the table's order within each chapter. -/
inductive Instr where
  -- Register access and function control (02_register_pages)
  /-- A write of the register at `off`; `same` are the other writes that reach the same register in the same KCLK cycle (R37). -/
  | registerWrite (off : BitVec 22) (w : WriteReq) (same : List WriteReq)
  | readClear (req : Req) (off : BitVec 22)
  | pairLoRead (req : Req) (off : BitVec 22)
  | pairLoWrite (off : BitVec 22) (w : WriteReq)
  | pairHiWrite (off : BitVec 22) (w : WriteReq)
  | debugRead (off : BitVec 22)
  -- FN_* rows name the page by its number (BAR0 offset divided by 4,096)
  | fnEnable (req : Req) (page : BitVec 10)
  | fnDisable (req : Req) (page : BitVec 10)
  | fnReset (req : Req) (page : BitVec 10)
  | fnResetDone (page : BitVec 10)
  | startSeqDone (page : BitVec 10) (obs : StartObs)
  /-- `detail`: the channel that failed training on an LPDDR page; 4 on an SVC page whose image failed verification. -/
  | startSeqFail (page : BitVec 10) (detail : BitVec 8)
  /-- `detail`: the FAULT_INFO code on an SVC page. -/
  | internalFault (page : BitVec 10) (detail : BitVec 8)
  | shutdownDone (page : BitVec 10)
  | fenceTagWrite (w : WriteReq)
  | fenceDoneRead (req : Req)
  | fenceDoneTimeout (req : Req)

  -- Clocks and fabric time (03_clocks_and_fabric_time)
  | refLost
  | holdoverExpired
  | refAccepted
  | refRestored
  | pllUnlock
  | pllRelock
  | refclkWaitTimeout
  | syncStart (req : Req)
  /-- the SYNC messages presented in one tick (at least one). -/
  | syncRx (first : SyncMsg) (rest : List SyncMsg)
  | checkSend
  | checkRx (link : Fin 96) (rootId : Word) (time : Dword)
  | syncTimeout

  -- The engine (05_engine_instruction_set): every row names the logical engine and the slot's fields
  | nop (a : Eng)
  | wait (a : Eng) (nM1 : BitVec 16)
  | waitExpire (a : Eng)
  | loop (a : Eng) (countM1 : BitVec 16)
  | endloop (a : Eng) (x : BitVec 3) (xen : Bool) (xstep : BitVec 16)
  | epochWait (a : Eng) (epoch : BitVec 16)
  | epochWaitRelease (a : Eng)
  | fence (a : Eng) (mask : BitVec 6)
  | fenceResume (a : Eng)
  | seg (a : Eng) (target : BitVec 13)
  | evt (a : Eng) (code : BitVec 8)
  | halt (a : Eng)
  | xset (a : Eng) (x : BitVec 3) (value : BitVec 16)
  | tenNop (a : Eng)
  | mma (a : Eng) (afmt : BitVec 4) (kbM1 : BitVec 3) (rowsM1 : BitVec 7) (rbase : BitVec 7) (buf : Bool) (clr : Bool) (wsel : Bool) (we : BitVec 16) (xsel : BitVec 3) (osa : BitVec 15) (residue : ResidueObs)
  | loadw (a : Eng) (wfmt : BitVec 4) (kbM1 : BitVec 3) (wsel : Bool) (xsel : BitVec 3) (osa : BitVec 15)
  | drain (a : Eng) (fmt : BitVec 4) (rm : BitVec 2) (raw : Bool) (smode : BitVec 2) (buf : Bool) (rowsM1 : BitVec 7) (rbase : BitVec 7) (os : BitVec 8) (xsel : BitVec 3) (osa : BitVec 15)
  | accadd (a : Eng) (buf : Bool) (rowsM1 : BitVec 7) (rbase : BitVec 7) (clr : Bool) (we : BitVec 16) (xsel : BitVec 3) (osa : BitVec 15)
  | vnop (a : Eng)
  | vadd (a : Eng) (vd : BitVec 6) (va : BitVec 6) (vb : BitVec 6)
  | vsub (a : Eng) (vd : BitVec 6) (va : BitVec 6) (vb : BitVec 6)
  | vmul (a : Eng) (vd : BitVec 6) (va : BitVec 6) (vb : BitVec 6)
  | vfma (a : Eng) (vd : BitVec 6) (va : BitVec 6) (vb : BitVec 6) (vc : BitVec 6)
  | vmax (a : Eng) (vd : BitVec 6) (va : BitVec 6) (vb : BitVec 6)
  | vmin (a : Eng) (vd : BitVec 6) (va : BitVec 6) (vb : BitVec 6)
  | vabs (a : Eng) (vd : BitVec 6) (va : BitVec 6)
  | vneg (a : Eng) (vd : BitVec 6) (va : BitVec 6)
  | vaddi (a : Eng) (vd : BitVec 6) (va : BitVec 6) (imm : Word)
  | vmuli (a : Eng) (vd : BitVec 6) (va : BitVec 6) (imm : Word)
  | vmovi (a : Eng) (vd : BitVec 6) (imm : Word)
  | vmov (a : Eng) (vd : BitVec 6) (va : BitVec 6)
  | vcmp (a : Eng) (vd : BitVec 6) (va : BitVec 6) (vb : BitVec 6) (cond : BitVec 3)
  | vsel (a : Eng) (vd : BitVec 6) (va : BitVec 6) (vb : BitVec 6) (vc : BitVec 6)
  | viadd (a : Eng) (vd : BitVec 6) (va : BitVec 6) (vb : BitVec 6)
  | visub (a : Eng) (vd : BitVec 6) (va : BitVec 6) (vb : BitVec 6)
  | vand (a : Eng) (vd : BitVec 6) (va : BitVec 6) (vb : BitVec 6)
  | vor (a : Eng) (vd : BitVec 6) (va : BitVec 6) (vb : BitVec 6)
  | vxor (a : Eng) (vd : BitVec 6) (va : BitVec 6) (vb : BitVec 6)
  | vshl (a : Eng) (vd : BitVec 6) (va : BitVec 6) (count : BitVec 5)
  | vshr (a : Eng) (vd : BitVec 6) (va : BitVec 6) (count : BitVec 5)
  | vshra (a : Eng) (vd : BitVec 6) (va : BitVec 6) (count : BitVec 5)
  | vexp2 (a : Eng) (vd : BitVec 6) (va : BitVec 6)
  | vlog2 (a : Eng) (vd : BitVec 6) (va : BitVec 6)
  | vrcp (a : Eng) (vd : BitVec 6) (va : BitVec 6)
  | vrsqrt (a : Eng) (vd : BitVec 6) (va : BitVec 6)
  | vcvtf (a : Eng) (vd : BitVec 6) (va : BitVec 6) (vb : BitVec 6) (fmt : BitVec 4) (rm : BitVec 2)
  | vcvtn (a : Eng) (vd : BitVec 6) (va : BitVec 6) (vb : BitVec 6) (fmt : BitVec 4) (rm : BitVec 2)
  | vbmax (a : Eng) (vd : BitVec 6) (va : BitVec 6) (fmt : BitVec 4) (rm : BitVec 2)
  | vftoi (a : Eng) (vd : BitVec 6) (va : BitVec 6) (rm : BitVec 2)
  | vitof (a : Eng) (vd : BitVec 6) (va : BitVec 6) (rm : BitVec 2)
  | vrsum (a : Eng) (vd : BitVec 6) (va : BitVec 6)
  | vrmax (a : Eng) (vd : BitVec 6) (va : BitVec 6)
  | vld (a : Eng) (vd : BitVec 6) (xsel : BitVec 3) (osa : BitVec 15)
  | vst (a : Eng) (va : BitVec 6) (xsel : BitVec 3) (osa : BitVec 15)
  -- memory slots; `slot` is false for MEMA and true for MEMB
  | mnop (a : Eng) (slot : Bool)
  /-- `obs` gives what the codes find at line i of the transfer, where that is anything but a clean line. -/
  | ld (a : Eng) (slot : Bool) (rate : BitVec 3) (lenM1 : BitVec 7) (areg : BitVec 4) (ainc : Bool) (off : BitVec 9) (xsel : BitVec 3) (osa : BitVec 15) (obs : List (Nat × LineObs))
  | st (a : Eng) (slot : Bool) (rate : BitVec 3) (lenM1 : BitVec 7) (areg : BitVec 4) (ainc : Bool) (off : BitVec 9) (xsel : BitVec 3) (osa : BitVec 15)
  | seta (a : Eng) (slot : Bool) (areg : BitVec 4) (value : Word)
  | adda (a : Eng) (slot : Bool) (areg : BitVec 4) (addend : Word)
  | send (a : Eng) (slot : Bool) (q : BitVec 3) (lenM1 : BitVec 8) (xsel : BitVec 3) (osa : BitVec 15)
  | recv (a : Eng) (slot : Bool) (q : BitVec 3) (lenM1 : BitVec 8) (xsel : BitVec 3) (osa : BitVec 15)
  | gather (a : Eng) (slot : Bool) (vs : BitVec 6) (dreg : BitVec 4) (countM1 : BitVec 8) (xsel : BitVec 3) (osa : BitVec 15) (obs : List (Nat × LineObs))
  | scatter (a : Eng) (slot : Bool) (vs : BitVec 6) (dreg : BitVec 4) (countM1 : BitVec 8) (xsel : BitVec 3) (osa : BitVec 15)
  | dmat (a : Eng) (slot : Bool) (ch : BitVec 4) (desc : BitVec 8)
  | opResultVisible (a : Eng)

  -- Groves, background access and the crossbar (06)
  /-- `obs0` and `obs1` are what the codes find in the owned bank of each die. -/
  | scrubTick (g : Fin 16) (obs0 : Option LineObs) (obs1 : Option LineObs)
  | bgAccess (b : BgAccess) (obs : List (Nat × LineObs))
  | bgHeldServe (obs : List (Nat × LineObs))
  /-- the head line of `src` is delivered at `dst`, and its multicast `copies` (R226); `obs` is what the receiving port's decoder finds. -/
  | xbarLineRx (src : Port) (dst : Port) (copies : List Port) (obs : Option LineObs)
  | dmaSchedStart (g : Fin 16) (ch : Fin 16) (desc : BitVec 8)
  | dmaComplete (g : Fin 16) (ch : Fin 16) (obs : List (Nat × LineObs))
  | foldDone (g : Fin 16)

  -- Steps, pace and the stand (07_static_schedule_and_pace)
  | issue (req : Req)
  | unload (req : Req)
  | abortVote (req : Req)
  | endReq (req : Req)
  | groupEpochStart
  | gcmRx (link : Fin 96) (m : Gcm)
  | stepStart
  | voteSample
  | commitTick
  | paceFaultLinkDown
  | holdReached
  | idleReached
  | abortRx (link : Fin 96) (a : AbortMsg)
  | standDisarm

  -- Link margin, from 03 and 08
  | marginLow (link : Fin 96)
  | skipFlitRx (link : Fin 96) (drop : Bool)
  | elasticOverrun (link : Fin 96)
  | laneLockLoss (link : Fin 96) (lane : Fin 9)
  -- Links (08_links)
  | trainPhaseDone (link : Fin 96) (obs : PhaseObs)
  | trainPhaseTimeout (link : Fin 96) (obs : PhaseObs)
  | detectTimeout (link : Fin 96)
  /-- a MARK presented: its carried phase and this module's phase at the presentation tick. -/
  | markRx (link : Fin 96) (carried : BitVec 4) (phase : BitVec 4)
  /-- an ECHO presented: transmit tick a0 of the MARK, presentation tick a1, and the residue the partner measured. -/
  | echoRx (link : Fin 96) (a0 : BitVec 32) (a1 : BitVec 32) (rhoPartner : BitVec 4)
  /-- 320 received bits (byte 0 lowest) and the tick they are presented in. -/
  | flitRx (link : Fin 96) (flit : BitVec 320) (pos : TickPos)
  | serviceMsgRx (link : Fin 96) (msgno : BitVec 16) (body : SvcBody)
  | serviceAckRx (link : Fin 96) (cls : SvcClass) (msgno : BitVec 16)
  | serviceResendTimeout (link : Fin 96) (cls : SvcClass) (msgno : BitVec 16)
  | rreqGo (link : Fin 96) (w : WriteReq)
  | regReqRx (link : Fin 96) (r : RegReqMsg)
  | regRspRx (link : Fin 96) (r : RegRspMsg)
  | rreqTimeout (link : Fin 96)
  | takedownNoticeRx (link : Fin 96)
  | takedownComplete (link : Fin 96)

  -- In-link reduction (09): one output of the lane's current run at its tick
  | reduceAdd (link : Fin 96) (incoming : BitVec 256) (poisoned : Bool)
  | reduceSink (link : Fin 96) (incoming : BitVec 256) (poisoned : Bool)

  -- LPDDR5X (10)
  /-- frame number `frame` of the step (42 per epoch) begins at controller m; `obs` gives, per channel × 16 + block, what the codes find. -/
  | lpddrFrame (m : Fin 16) (frame : Nat) (obs : List (Nat × LineObs))
  | lpddrRefresh (m : Fin 16) (ch : Fin 8) (bank : Fin 16)
  | refreshRateChange (m : Fin 16) (ch : Fin 8) (mult : BitVec 2)
  | lpddrScrub (m : Fin 16) (obs : List (Nat × LineObs))
  | lpddrFoldDone (m : Fin 16)


  -- The host interface (11)
  /-- the PCIe link trains at `width` lanes and speed code `speed` (Table 11.9). -/
  | pcieLinkUp (width : BitVec 4) (speed : BitVec 3)
  | pcieLinkDown
  | aerError (k : AerKind)
  | flr
  | hotReset
  | perstAssert
  | perstDeassert
  | configRequest (tag : BitVec 32)
  /-- a BAR2 read of `len` bytes at BAR2 offset `off`; `obs` gives what the codes find in line i of the access. -/
  | bar2Read (off : BitVec 34) (len : Nat) (tag : BitVec 32) (obs : List (Nat × LineObs))
  | bar2Write (off : BitVec 34) (bytes : List Byte) (ep : Bool) (tag : BitVec 32) (obs : List (Nat × LineObs))
  | bar2ReadAbort (tag : BitVec 32)
  | msixSend (v : Fin 64)
  /-- a vector (none: the function) is unmasked, with the message address and data host software has put in its table entry. -/
  | msixUnmask (v : Option (Fin 64)) (addr : Dword) (data : Word)
  /-- a write of CHc_START_HI. -/
  | dmaStart (c : Fin 4) (w : WriteReq)
  | dmaCompletionRx (c : Fin 4) (cpl : DmaCpl) (obs : List (Nat × LineObs))
  | dmaDescComplete (c : Fin 4)
  | dmaStop (c : Fin 4) (req : Req)
  | dmaStopDone (c : Fin 4)
  /-- a non-posted request of the module times out: of a host DMA channel, or another. -/
  | completionTimeout (c : Option (Fin 4))
  | submitScan
  | cqRecordWrite (r : Fin 16)
  | cqHeadWrite (r : Fin 16) (w : WriteReq)
  | hostAlive (w : WriteReq)
  | aliveLost
  | coreHang (c : Fin 8)


  -- The serving sequencer and sampling unit (12): a record taken from the submission window is processed by its type's row
  | generate
  | cancel
  | admissionPoint
  /-- `obs`: what the codes find in line j of slot s's token record, numbered 512 × s + j. -/
  | tokenHarvest (obs : List (Nat × LineObs))
  | seqStandEnd
  | seqFault
  | sampleStream
  | sampleResult
  | svcHeartbeatAdvance (c : Fin 8)

  -- Pumps, valves and leak protection (13): `rpm` and `ma` are a pump's filtered speed and regulator current
  | pumpEn (n : Fin 3) (req : Req)
  | pumpStartOk (n : Fin 3) (rpm ma : BitVec 16)
  | pumpStartTimeout (n : Fin 3) (rpm ma : BitVec 16)
  | pumpRetry (n : Fin 3)
  | pumpCheck (n : Fin 3) (rpm ma : BitVec 16)
  | pumpDis (n : Fin 3) (req : Req)
  | pumpStopDone (n : Fin 3) (rpm ma : BitVec 16)
  | valveSet (v : Fin 24) (w : WriteReq)
  | valvePeakStart (v : Fin 24)
  | valveStartLate (v : Fin 24)
  | valvePeakEnd (v : Fin 24)
  | valveDecayEnd (v : Fin 24)
  /-- bank `b` has carried `ma` for 1 ms. -/
  | bankFault (b : Fin 7) (ma : BitVec 12)
  | bankReclose (b : Fin 7)
  /-- the coil of valve `v` has carried `ma` for 50 ms. -/
  | coilFault (v : Fin 24) (ma : BitVec 12)
  | openIn (req : Req)
  | closeIn (req : Req)
  | openOut (req : Req)
  | closeOut (req : Req)
  | isoMoved
  /-- one 1 kHz sample period: each channel's raw reading in kΩ, none where it gave no sample. -/
  | leakSample (l0 l1 l2 l3 : Option Int)
  | leakPumpsOff
  | leakCloseV24
  | leakCloseV25
  | coolantSample (o : CoolantObs)
  | inputTimeout (i : GladeInput)
  | flowStopClear
  -- Thermal control and power caps (14): `v` and `i` are the raw 48 V voltage in 10 mV and current in 10 mA, none without a sample
  | powerSample (v i : Option Int)
  | tempSample (o : TempObs)
  | governorRun
  | coolingLevelFall
  | flowEnd
  | runOkSet
  | rackCapWrite (w : WriteReq)
  | hostCapWrite (w : WriteReq)
  | telemModeWrite (w : WriteReq)
  | telemWindowClose
  -- Glade (15): `ppm` is the measured oscillator error; `groves` the groves whose diode exceeds the threshold
  | oscMeasure (ppm : BitVec 16)
  | noHolderTimeout
  | tableModeExit
  | analogTrip (groves : BitVec 16)
  | shdnRelease
  | islandLogForward

  -- Canopy, the management pair (16): `k` is the core whose page is written; in a claim, whether the other core writes CLAIM of its own
  -- page in the same KCLK cycle
  | claim (k : Fin 2) (req : Req) (other : Bool)
  | release (k : Fin 2) (req : Req)
  | heartbeat (k : Fin 2) (req : Req)
  | resumed (k : Fin 2) (req : Req)
  | watchdogExpire (k : Fin 2)
  /-- a run of Table 16.3 completes: failed checks in the order of DIAG[3:0], and words corrected. -/
  | selfDiag (k : Fin 2) (fails : BitVec 4) (corrected : BitVec 17)
  | seizeOk
  | overlapEnd
  | tokenRevoke
  | shadowRebuildDone (k : Fin 2)
  /-- the restart, or the boot at a cold start, ends: whether the firmware copy verified (at a cold start the preferred one, for the first
  core to boot), its version, the failed checks of the first run, and what the first core found besides. -/
  | coreRestart (k : Fin 2) (verified : Bool) (version : Word) (fails : BitVec 4) (fw : FwObs)
  | watchdogService (k : Fin 2)


  -- Starts, bring-up and Deadwood (17), power (22)
  | standbyRailGood (tripSel : BitVec 2)
  | standbyRailLost
  /-- the straps as they read, and the groves whose diode is above the trip threshold (R356). -/
  | pwrOkAssert (slotId : BitVec 6) (bootMode : BitVec 2) (hot : BitVec 16)
  | staggerDone
  | pwrOkDeassert
  | vinUndervolt
  /-- the step that is complete: 1 for Glade's step, which runs alongside step 2. -/
  | bootStepDone (step : BitVec 3)
  | bootStepFail
  | katPassDone (obs : List KatObs)
  | bootCtrlGo (req : Req) (step : BitVec 3)
  | bootCtrlDone (req : Req) (step : BitVec 3)
  | serviceReq (req : Req)
  | restart (req : Req)
  | hold (req : Req)
  | wake (req : Req)
  | dwoodSel (w : WriteReq)
  | dwoodClear (req : Req)

  -- Faults, recovery and events (18)
  | rejoin (req : Req)
  | resume (req : Req)
  | resumeReqRx (link : Fin 96)
  | resumeAnswerRx (link : Fin 96) (a : ResumeAns)
  | resumeTimeout
  | releaseRx (link : Fin 96) (r : ReleaseMsg)
  | releaseTick
  | unloadMsgRx (link : Fin 96)
  | loadStart (req : Req)
  | manifestRx (link : Fin 96) (raw : List Byte)
  | chunkRx (link : Fin 96) (digest : BitVec 256) (data : Chunk)
  | imageEndRx (link : Fin 96)
  | repairReqRx (link : Fin 96) (digests : List (BitVec 256))
  | repairReplyRx (link : Fin 96) (digest : BitVec 256) (data : Option Chunk)
  | repairRetry
  | armReadyRx (link : Fin 96) (member : BitVec 13) (q : BitVec 14)
  | armRefusedRx (link : Fin 96) (member : BitVec 13) (reason : BitVec 8)
  | loadCancel (req : Req)
  | cancelRx (link : Fin 96)
  | loadTimeout
  | armTick
  /-- a source page raises an event with its data. -/
  | eventRaise (page : BitVec 10) (code : BitVec 16) (sev : BitVec 2) (d0 d1 : Word)
  | eventSequence
  | eventFwdRx (link : Fin 96) (e : FwdEvent)
  | inject (w : WriteReq)

  -- Ringlog (19)
  | rlogWrite
  | rlogIndexDone
  | rlogSel (w : WriteReq)
  /-- a write of SEEK_HI. -/
  | rlogSeek (w : WriteReq)
  | rlogClear (w : WriteReq)
  | rlogClearDone
  /-- `smbus`: whether the message came by an SMBus transaction, here and in the side-band rows. -/
  | rlogStatus (smbus : Bool)
  | rlogRead (smbus : Bool) (start : Dword) (max sevMin : BitVec 8)

  -- Security (20)
  /-- `random` is the nonce the module generates. -/
  | newNonce (req : Req) (random : BitVec 128)
  | nonceExpire
  | verify (req : Req)
  | tokenVerifyDone
  | discard (req : Req)
  | tokenExpire
  /-- whether the blown bits read back as intended. -/
  | fuseBlowDone (ok : Bool)
  | fwUpdate (w : WriteReq)
  /-- whether writing and reading back the copy succeeded. -/
  | fwUpdateDone (flashOk : Bool)
  | extend (w : WriteReq)
  | reportGo (w : WriteReq)
  | reportDone

  -- The tray side-band (21)
  | entdaa (addr : BitVec 7)
  | setdasa (static addr : BitVec 7)
  | rstdaa
  | setnewda (addr : BitVec 7)
  | getpid
  | getbcr
  | getdcr
  | getstatus
  | enec
  | disec
  | setEndpointId (smbus : Bool) (eid : BitVec 8)
  | getEndpointId (smbus : Bool)
  | getEndpointUuid (smbus : Bool)
  | getMctpVersionSupport (smbus : Bool) (type : BitVec 8)
  | getMessageTypeSupport (smbus : Bool)
  | getVendorDefinedMessageSupport (smbus : Bool) (selector : BitVec 8)
  | mctpMsgTimeout (tag : BitVec 3)
  | setTid (smbus : Bool) (tid : BitVec 8)
  | getTid (smbus : Bool)
  | getPldmVersion (smbus : Bool) (type : BitVec 8)
  | getPldmTypes (smbus : Bool)
  | getPldmCommands (smbus : Bool) (type : BitVec 8)
  /-- the receiver's endpoint ID; none disables event messages. -/
  | setEventReceiver (smbus : Bool) (eid : Option (BitVec 8))
  | platformEventMessage
  /-- a poll for the oldest entry, or the acknowledgement of the entry it took. -/
  | pollForPlatformEventMessage (smbus : Bool) (ack : Bool)
  | eventMessageSupported (smbus : Bool)
  | eventMessageBufferSize (smbus : Bool)
  | getSensorReading (smbus : Bool) (sensor : BitVec 16)
  | setNumericEffecterValue (smbus : Bool) (effecter : BitVec 16) (value : Word)
  | getNumericEffecterValue (smbus : Bool) (effecter : BitVec 16)
  | getPdrRepositoryInfo (smbus : Bool)
  | getPdr (smbus : Bool) (handle : Word)
  | regRead (smbus : Bool) (off : Word) (n : BitVec 8)
  | regWrite (smbus : Bool) (off : Word) (value : Word)
  | traySilent
  | platformEventAck
  deriving DecidableEq, Repr

end Sys2Proof
end

