-- ==== Sys2Proof/Decode.lean ====
section
/-! DEFINITION. The commands of spec/opcode_table.json have no bits: the table gives none of its rows an encoding. -/

namespace Sys2Proof

/-- The command that a word of the table's bits spells: none, as no row gives bits. -/
def decodeTableWord (_nbits _w : Nat) : Option Instr := none

end Sys2Proof
end

