-- ==== Sys2Proof/Config.lean ====
section
/-! DEFINITION. Free values: what the specification leaves open and this model leaves open with it. Each is an opaque
constant, so that nothing can be proved of its value; the assumption log names each one. -/

namespace Sys2Proof.Config

/-- Event data of an event whose raising rule defines none (Table 18.3): by event code, word 0 or 1, and stamp. -/
opaque eventFill : Nat → Nat → Dword → Word

/-- A value the specification leaves open, by the number of free values taken before it. -/
opaque freeWord : Nat → Word

/-- NFLITS of a service message whose body format the specification does not give (R205): 1 to 255, by class code and the
message's place in its class. -/
opaque msgFlits : Nat → Nat → Nat

/-- The two data words of COMPUTE.STAND_EVT: R101 names four values they carry and no rule lays them out. By word 0 or 1, CODE,
stand-global logical engine, low step number and bundle count. -/
opaque standEvt : Nat → Nat → Nat → Word → Word → Word

/-- The member number that ARM_REFUSED carries when the module's serial is not in the manifest (R411), by that serial. -/
opaque unlistedMember : Dword → BitVec 13

/-- Bytes 8 to 59 of a slot that a clear has emptied (R432 gives bytes 0 to 7), by what the slot held. -/
opaque emptiedSlot : BitVec 512 → BitVec 416

/-- EVENT of a Deadwood entry that no event added (Table 17.2), by its KIND. -/
opaque entryEvent : Nat → BitVec 16

/-- Percent busy of a service core over the last 10 ms (SVC.LOAD), by core and tick. -/
opaque svcLoad : Nat → Nat → Nat

/-! The security engine's algorithms are standards that the specification names and does not restate (R435, R442). -/

/-- SM3. -/
opaque sm3 : List Byte → BitVec 256

/-- Whether an SM2 signature (r ‖ s) of a message verifies under a 64-byte public key (R435). -/
opaque sm2Verify : BitVec 512 → List Byte → BitVec 512 → Bool

/-- The identity key's SM2 signature of a message, and its public key, by IDENTITY_SECRET (R442). -/
opaque sm2Sign : BitVec 256 → List Byte → BitVec 512
opaque idPub : BitVec 256 → BitVec 512

/-! What the standards of Table 21.1 put into an answer and the specification does not give (R447). -/

/-- Data of GETPID (0), GETBCR (1) and GETDCR (2), and of GETSTATUS by whether an interrupt is pending. -/
opaque i3cData : Nat → List Byte
opaque i3cStatus : Bool → List Byte

/-- Get Endpoint UUID, by module serial; the versions of an MCTP message type and of a PLDM type; Aedant's IANA enterprise number. -/
opaque endpointUuid : Dword → List Byte
opaque mctpVersions : Nat → List Byte
opaque pldmVersions : Nat → List Byte
opaque enterprise : Word

/-- What a stand image's bytes say (R153): Table 7.1 lists a stand image's parts and no rule lays out their bytes. None where they say
nothing. -/
opaque stand : List Byte → Option Image

end Sys2Proof.Config
end

