-- ==== Sys2Proof/Machine/Regs.lean ====
section
/-! DEFINITION. The register tables of the specification: page bases (Table 2.9), register offsets, fields and
EVT_SUMMARY bits of every page, and one row per register with its access masks and reset value.
Each constant is named PAGE_REGISTER, PAGE_REGISTER_FIELD or PAGE_BIT after the tables it comes from. -/

namespace Sys2Proof.Machine

/-- A field of a register: the register's BAR0 offset, the field's lowest bit and its width. -/
structure Fld where
  off : Nat
  lo  : Nat
  w   : Nat
  deriving DecidableEq, Repr

/-- One row of a register table: `count` registers `stride` apart from page offset `off`. `rw`, `w1c` and `wp` are the
bits each access code of R6 covers (all three zero: ro or rc); `rc` marks a read-clear register; `reset` is the table's
reset value, or the value the assumption log names where the table gives none; `kept` marks a register whose reset value
is what bring-up, the fuses, the straps or MRAM gave it, which FN_RESET therefore leaves. -/
structure RegRow where
  off    : Nat
  count  : Nat
  stride : Nat
  rw     : Nat
  w1c    : Nat
  wp     : Nat
  rc     : Bool
  reset  : Nat
  kept   : Bool
  deriving DecidableEq, Repr

/-- The block types of Table 2.9. -/
inductive PageKind where
  | module | arb | evt | clk | hwood | sec | rlog | dwood | canopy | glade | therm | telem | pump | valve | coolant
  | hostdma | submit | serve | sample | sideband | svc | stand | grove | engine | gsram | gwin | gdma | gsens | link
  | reduce | lpddr | floor
  deriving DecidableEq, Repr

/-! ## Page bases (Table 2.9) -/

namespace P

abbrev MODULE : Nat := 0x0
abbrev ARB : Nat := 0x1000
abbrev EVT : Nat := 0x2000
abbrev CLK : Nat := 0x3000
abbrev HWOOD : Nat := 0x4000
abbrev SEC : Nat := 0x5000
abbrev RLOG : Nat := 0x6000
abbrev DWOOD : Nat := 0x7000
abbrev GLADE : Nat := 0xA000
abbrev THERM : Nat := 0xB000
abbrev TELEM : Nat := 0xC000
abbrev PUMP : Nat := 0xD000
abbrev VALVE : Nat := 0xE000
abbrev COOLANT : Nat := 0xF000
abbrev HOSTDMA : Nat := 0x10000
abbrev SUBMIT : Nat := 0x11000
abbrev SERVE : Nat := 0x12000
abbrev SAMPLE : Nat := 0x13000
abbrev SIDEBAND : Nat := 0x14000
abbrev STAND : Nat := 0x20000
abbrev FLOOR : Nat := 0x310000
abbrev CANOPY (k : Nat) : Nat := 0x8000 + 0x1000 * k
abbrev SVC (c : Nat) : Nat := 0x18000 + 0x1000 * c
abbrev GROVE (g : Nat) : Nat := 0x100000 + 0x10000 * g
abbrev ENGINE (g p : Nat) : Nat := 0x101000 + 0x10000 * g + 0x1000 * p
abbrev GSRAM (g : Nat) : Nat := 0x10A000 + 0x10000 * g
abbrev GWIN (g : Nat) : Nat := 0x10B000 + 0x10000 * g
abbrev GDMA (g : Nat) : Nat := 0x10C000 + 0x10000 * g
abbrev GSENS (g : Nat) : Nat := 0x10D000 + 0x10000 * g
abbrev LINK (l : Nat) : Nat := 0x200000 + 0x1000 * l
abbrev REDUCE (l : Nat) : Nat := 0x260000 + 0x1000 * l
abbrev LPDDR (m : Nat) : Nat := 0x300000 + 0x1000 * m

end P

/-! ## Header registers (Table 2.1), by page base -/

namespace Hdr

abbrev PAGE_ID (pg : Nat) : Nat := pg
abbrev PAGE_VER (pg : Nat) : Nat := pg + 0x4
abbrev CAPS (pg : Nat) : Nat := pg + 0x8
abbrev STATE (pg : Nat) : Nat := pg + 0xC
abbrev CTRL (pg : Nat) : Nat := pg + 0x10
abbrev EVT_SUMMARY (pg : Nat) : Nat := pg + 0x14
abbrev EVT_MASK (pg : Nat) : Nat := pg + 0x18
abbrev FENCE_TAG (pg : Nat) : Nat := pg + 0x1C
abbrev ERR_COUNT (pg : Nat) : Nat := pg + 0x20
abbrev OWNER (pg : Nat) : Nat := pg + 0x24
abbrev FUSED (pg : Nat) : Fld := ⟨pg + 0x8, 31, 1⟩
abbrev RETIRED (pg : Nat) : Fld := ⟨pg + 0x8, 30, 1⟩
abbrev BLOCK_CAPS (pg : Nat) : Fld := ⟨pg + 0x8, 0, 30⟩
abbrev FNSTATE (pg : Nat) : Fld := ⟨pg + 0xC, 0, 3⟩
abbrev PENDING_ENABLE (pg : Nat) : Fld := ⟨pg + 0xC, 8, 1⟩
abbrev RESET_BUSY (pg : Nat) : Fld := ⟨pg + 0xC, 9, 1⟩

end Hdr

/-! ## Register offsets -/

namespace Reg

abbrev ARB_FENCE_DONE : Nat := P.ARB + 0x40
abbrev ARB_TOKEN : Nat := P.ARB + 0x44
abbrev ARB_REQ_ID : Nat := P.ARB + 0x48
abbrev ARB_REFUSED_INFO : Nat := P.ARB + 0x4C
abbrev ARB_REFUSED_ADDR : Nat := P.ARB + 0x50
abbrev ARB_CONFLICT_COUNT : Nat := P.ARB + 0x54
abbrev CLK_STATUS : Nat := P.CLK + 0x40
abbrev CLK_SYNC_CTRL : Nat := P.CLK + 0x44
abbrev CLK_SYNC_ROOT_ID : Nat := P.CLK + 0x48
abbrev CLK_SYNC_RESULT : Nat := P.CLK + 0x4C
abbrev CLK_SYNC_INFO : Nat := P.CLK + 0x50
abbrev CLK_SYNC_BASE_LO : Nat := P.CLK + 0x54
abbrev CLK_SYNC_BASE_HI : Nat := P.CLK + 0x58
abbrev CLK_HOLDOVER_TIME : Nat := P.CLK + 0x5C
abbrev CLK_FTIME_LO : Nat := P.CLK + 0x60
abbrev CLK_FTIME_HI : Nat := P.CLK + 0x64
abbrev CLK_REF_LOSS_COUNT : Nat := P.CLK + 0x68
abbrev CLK_SYNC_MISM0 : Nat := P.CLK + 0x6C
abbrev CLK_SYNC_MISM1 : Nat := P.CLK + 0x70
abbrev CLK_SYNC_MISM2 : Nat := P.CLK + 0x74
abbrev ENGINE_MAP (g p : Nat) : Nat := P.ENGINE g p + 0x40
abbrev ENGINE_STATUS (g p : Nat) : Nat := P.ENGINE g p + 0x44
abbrev ENGINE_STEP_FLAGS (g p : Nat) : Nat := P.ENGINE g p + 0x48
abbrev ENGINE_FLAGS_ACC (g p : Nat) : Nat := P.ENGINE g p + 0x4C
abbrev ENGINE_FLAGS_STEP (g p : Nat) : Nat := P.ENGINE g p + 0x50
abbrev ENGINE_ISSUE_LO (g p : Nat) : Nat := P.ENGINE g p + 0x54
abbrev ENGINE_ISSUE_HI (g p : Nat) : Nat := P.ENGINE g p + 0x58
abbrev ENGINE_LAST_PC (g p : Nat) : Nat := P.ENGINE g p + 0x5C
abbrev ENGINE_KAT_SIG (g p : Nat) : Nat := P.ENGINE g p + 0x60
abbrev ENGINE_DYN_INFO (g p : Nat) : Nat := P.ENGINE g p + 0x64
abbrev GROVE_LMAP (g : Nat) : Nat := P.GROVE g + 0x40
abbrev GROVE_SHAPE (g : Nat) : Nat := P.GROVE g + 0x44
abbrev GROVE_STATUS (g : Nat) : Nat := P.GROVE g + 0x48
abbrev GROVE_BG_WAIT_MAX (g : Nat) : Nat := P.GROVE g + 0x4C
abbrev GSRAM_CORR_INNER (g : Nat) : Nat := P.GSRAM g + 0x40
abbrev GSRAM_CORR_OUTER (g : Nat) : Nat := P.GSRAM g + 0x44
abbrev GSRAM_SCRUB_PASS (g : Nat) : Nat := P.GSRAM g + 0x48
abbrev GSRAM_LAST_ERR (g : Nat) : Nat := P.GSRAM g + 0x4C
abbrev GSRAM_WEAR_THRESH (g : Nat) : Nat := P.GSRAM g + 0x50
abbrev GSRAM_SPARE_USED (g : Nat) : Nat := P.GSRAM g + 0x54
abbrev GSRAM_RETIRED_COUNT (g : Nat) : Nat := P.GSRAM g + 0x58
abbrev GSRAM_RETIRED (g i : Nat) : Nat := P.GSRAM g + 0x80 + 0x4 * i
abbrev GWIN_STATUS (g : Nat) : Nat := P.GWIN g + 0x40
abbrev GWIN_COMMITS (g : Nat) : Nat := P.GWIN g + 0x44
abbrev GWIN_ABORTS (g : Nat) : Nat := P.GWIN g + 0x48
abbrev GWIN_WIN_LINES (g : Nat) : Nat := P.GWIN g + 0x4C
abbrev GWIN_ALT_ADDR (g : Nat) : Nat := P.GWIN g + 0x50
abbrev GWIN_BASE (g i : Nat) : Nat := P.GWIN g + 0x100 + 0x10 * i
abbrev GWIN_LEN (g i : Nat) : Nat := P.GWIN g + 0x104 + 0x10 * i
abbrev GWIN_ALT (g i : Nat) : Nat := P.GWIN g + 0x108 + 0x10 * i
abbrev GWIN_DIRTY (g i : Nat) : Nat := P.GWIN g + 0x10C + 0x10 * i
abbrev GDMA_BUSY (g : Nat) : Nat := P.GDMA g + 0x40
abbrev GDMA_STARTS (g : Nat) : Nat := P.GDMA g + 0x44
abbrev GDMA_LINES_LO (g : Nat) : Nat := P.GDMA g + 0x48
abbrev GDMA_LINES_HI (g : Nat) : Nat := P.GDMA g + 0x4C
abbrev GDMA_CH_STATE (g i : Nat) : Nat := P.GDMA g + 0x80 + 0x4 * i
abbrev FLOOR_STATUS : Nat := P.FLOOR + 0x40
abbrev FLOOR_LINES_LO : Nat := P.FLOOR + 0x44
abbrev FLOOR_LINES_HI : Nat := P.FLOOR + 0x48
abbrev FLOOR_BG_LINES : Nat := P.FLOOR + 0x4C
abbrev STAND_STATUS : Nat := P.STAND + 0x40
abbrev STAND_COMMAND : Nat := P.STAND + 0x44
abbrev STAND_STAND_ID : Nat := P.STAND + 0x48
abbrev STAND_MEMBERSHIP : Nat := P.STAND + 0x4C
abbrev STAND_GEOM : Nat := P.STAND + 0x50
abbrev STAND_SEED_LO : Nat := P.STAND + 0x54
abbrev STAND_SEED_HI : Nat := P.STAND + 0x58
abbrev STAND_NEXT_STEP_LO : Nat := P.STAND + 0x5C
abbrev STAND_NEXT_STEP_HI : Nat := P.STAND + 0x60
abbrev STAND_CUR_STEP_LO : Nat := P.STAND + 0x64
abbrev STAND_CUR_STEP_HI : Nat := P.STAND + 0x68
abbrev STAND_LAST_COMMIT_LO : Nat := P.STAND + 0x6C
abbrev STAND_LAST_COMMIT_HI : Nat := P.STAND + 0x70
abbrev STAND_GEPOCH_LO : Nat := P.STAND + 0x74
abbrev STAND_GEPOCH_HI : Nat := P.STAND + 0x78
abbrev STAND_START_EPOCH_LO : Nat := P.STAND + 0x7C
abbrev STAND_START_EPOCH_HI : Nat := P.STAND + 0x80
abbrev STAND_PACE : Nat := P.STAND + 0x84
abbrev STAND_PACE_SETTLED : Nat := P.STAND + 0x88
abbrev STAND_PACE_FLOOR : Nat := P.STAND + 0x8C
abbrev STAND_PACE_MAX : Nat := P.STAND + 0x90
abbrev STAND_IDLE_LO : Nat := P.STAND + 0x94
abbrev STAND_IDLE_HI : Nat := P.STAND + 0x98
abbrev STAND_COMMITS : Nat := P.STAND + 0x9C
abbrev STAND_ABORTS : Nat := P.STAND + 0xA0
abbrev STAND_FAULT_INFO : Nat := P.STAND + 0xA4
abbrev STAND_FAULT_TICK_LO : Nat := P.STAND + 0xA8
abbrev STAND_FAULT_TICK_HI : Nat := P.STAND + 0xAC
abbrev STAND_LOAD_STATUS : Nat := P.STAND + 0xB0
abbrev STAND_LOAD_DETAIL : Nat := P.STAND + 0xB4
abbrev LINK_STATUS (l : Nat) : Nat := P.LINK l + 0x40
abbrev LINK_LANES (l : Nat) : Nat := P.LINK l + 0x44
abbrev LINK_LAT (l : Nat) : Nat := P.LINK l + 0x48
abbrev LINK_MEAS (l : Nat) : Nat := P.LINK l + 0x4C
abbrev LINK_PAD (l : Nat) : Nat := P.LINK l + 0x50
abbrev LINK_PARTNER (l : Nat) : Nat := P.LINK l + 0x54
abbrev LINK_CORR_BITS (l : Nat) : Nat := P.LINK l + 0x58
abbrev LINK_UNCORR (l : Nat) : Nat := P.LINK l + 0x5C
abbrev LINK_POISON_RX (l : Nat) : Nat := P.LINK l + 0x60
abbrev LINK_SLIPS (l : Nat) : Nat := P.LINK l + 0x64
abbrev LINK_TRAIN_CFG (l : Nat) : Nat := P.LINK l + 0x68
abbrev LINK_LANE_WEAR_THRESH (l : Nat) : Nat := P.LINK l + 0x6C
abbrev LINK_LANE_CORR (l i : Nat) : Nat := P.LINK l + 0x70 + 0x4 * i
abbrev LINK_EQ (l : Nat) : Nat := P.LINK l + 0x94
abbrev LINK_CREDIT0 (l : Nat) : Nat := P.LINK l + 0x98
abbrev LINK_CREDIT1 (l : Nat) : Nat := P.LINK l + 0x9C
abbrev LINK_SVC_RESENT (l : Nat) : Nat := P.LINK l + 0xA0
abbrev LINK_RREQ_CTRL (l : Nat) : Nat := P.LINK l + 0xC0
abbrev LINK_RREQ_ADDR (l : Nat) : Nat := P.LINK l + 0xC4
abbrev LINK_RREQ_DATA (l : Nat) : Nat := P.LINK l + 0xC8
abbrev LINK_ROUTE (l i : Nat) : Nat := P.LINK l + 0xD0 + 0x4 * i
abbrev REDUCE_STATUS (l : Nat) : Nat := P.REDUCE l + 0x40
abbrev REDUCE_PROG (l : Nat) : Nat := P.REDUCE l + 0x44
abbrev REDUCE_CUR_RUN (l : Nat) : Nat := P.REDUCE l + 0x48
abbrev REDUCE_ADDS_LO (l : Nat) : Nat := P.REDUCE l + 0x4C
abbrev REDUCE_ADDS_HI (l : Nat) : Nat := P.REDUCE l + 0x50
abbrev REDUCE_SINK_LINES (l : Nat) : Nat := P.REDUCE l + 0x54
abbrev REDUCE_SPEC_COUNT (l : Nat) : Nat := P.REDUCE l + 0x58
abbrev REDUCE_POISON_OUT (l : Nat) : Nat := P.REDUCE l + 0x5C
abbrev REDUCE_OVF_INFO (l : Nat) : Nat := P.REDUCE l + 0x60
abbrev LPDDR_STATUS (m : Nat) : Nat := P.LPDDR m + 0x40
abbrev LPDDR_CONFIG (m : Nat) : Nat := P.LPDDR m + 0x44
abbrev LPDDR_GEOMETRY (m : Nat) : Nat := P.LPDDR m + 0x48
abbrev LPDDR_CORR_ODECC (m : Nat) : Nat := P.LPDDR m + 0x4C
abbrev LPDDR_CORR_OUTER (m : Nat) : Nat := P.LPDDR m + 0x50
abbrev LPDDR_LAST_ERR (m : Nat) : Nat := P.LPDDR m + 0x54
abbrev LPDDR_LAST_ERR_PAGE (m : Nat) : Nat := P.LPDDR m + 0x58
abbrev LPDDR_WEAR_THRESH (m : Nat) : Nat := P.LPDDR m + 0x5C
abbrev LPDDR_SCRUB_PASS (m : Nat) : Nat := P.LPDDR m + 0x60
abbrev LPDDR_SCRUB_POS (m : Nat) : Nat := P.LPDDR m + 0x64
abbrev LPDDR_BG_BLOCKS (m : Nat) : Nat := P.LPDDR m + 0x68
abbrev LPDDR_SCHED_LO (m : Nat) : Nat := P.LPDDR m + 0x6C
abbrev LPDDR_SCHED_HI (m : Nat) : Nat := P.LPDDR m + 0x70
abbrev LPDDR_WIN_STATUS (m : Nat) : Nat := P.LPDDR m + 0x74
abbrev LPDDR_WIN_DIRTY (m : Nat) : Nat := P.LPDDR m + 0x78
abbrev LPDDR_WIN_ALT_ADDR (m : Nat) : Nat := P.LPDDR m + 0x7C
abbrev LPDDR_CH_STATUS (m i : Nat) : Nat := P.LPDDR m + 0x80 + 0x4 * i
abbrev LPDDR_BASE (m i : Nat) : Nat := P.LPDDR m + 0x100 + 0xC * i
abbrev LPDDR_LEN (m i : Nat) : Nat := P.LPDDR m + 0x104 + 0xC * i
abbrev LPDDR_ALT (m i : Nat) : Nat := P.LPDDR m + 0x108 + 0xC * i
abbrev HOSTDMA_STATUS : Nat := P.HOSTDMA + 0x40
abbrev HOSTDMA_BAR2_BASE_LO : Nat := P.HOSTDMA + 0x44
abbrev HOSTDMA_BAR2_BASE_HI : Nat := P.HOSTDMA + 0x48
abbrev HOSTDMA_BAR2_CFG : Nat := P.HOSTDMA + 0x4C
abbrev HOSTDMA_HOST_ALIVE : Nat := P.HOSTDMA + 0x50
abbrev HOSTDMA_HOST_TIMEOUT : Nat := P.HOSTDMA + 0x54
abbrev HOSTDMA_ALIVE_AGE : Nat := P.HOSTDMA + 0x58
abbrev HOSTDMA_AER_UNCORR : Nat := P.HOSTDMA + 0x5C
abbrev HOSTDMA_CH_START_LO (i : Nat) : Nat := P.HOSTDMA + 0x60 + 0x20 * i
abbrev HOSTDMA_CH_START_HI (i : Nat) : Nat := P.HOSTDMA + 0x64 + 0x20 * i
abbrev HOSTDMA_CH_CTRL (i : Nat) : Nat := P.HOSTDMA + 0x68 + 0x20 * i
abbrev HOSTDMA_CH_STATE (i : Nat) : Nat := P.HOSTDMA + 0x6C + 0x20 * i
abbrev HOSTDMA_CH_CUR_LO (i : Nat) : Nat := P.HOSTDMA + 0x70 + 0x20 * i
abbrev HOSTDMA_CH_CUR_HI (i : Nat) : Nat := P.HOSTDMA + 0x74 + 0x20 * i
abbrev HOSTDMA_CH_DONE (i : Nat) : Nat := P.HOSTDMA + 0x78 + 0x20 * i
abbrev SUBMIT_STATUS : Nat := P.SUBMIT + 0x40
abbrev SUBMIT_WIN_BASE_LO : Nat := P.SUBMIT + 0x44
abbrev SUBMIT_WIN_BASE_HI : Nat := P.SUBMIT + 0x48
abbrev SUBMIT_WIN_SLOTS : Nat := P.SUBMIT + 0x4C
abbrev SUBMIT_START_SEQ : Nat := P.SUBMIT + 0x50
abbrev SUBMIT_CONSUMED_SEQ : Nat := P.SUBMIT + 0x54
abbrev SUBMIT_SCAN_CFG : Nat := P.SUBMIT + 0x58
abbrev SUBMIT_SHADOW_LO : Nat := P.SUBMIT + 0x5C
abbrev SUBMIT_SHADOW_HI : Nat := P.SUBMIT + 0x60
abbrev SUBMIT_SCANS : Nat := P.SUBMIT + 0x64
abbrev SUBMIT_REJECTED : Nat := P.SUBMIT + 0x68
abbrev SUBMIT_CQ_BASE_LO (i : Nat) : Nat := P.SUBMIT + 0x80 + 0x20 * i
abbrev SUBMIT_CQ_BASE_HI (i : Nat) : Nat := P.SUBMIT + 0x84 + 0x20 * i
abbrev SUBMIT_CQ_SIZE (i : Nat) : Nat := P.SUBMIT + 0x88 + 0x20 * i
abbrev SUBMIT_CQ_VEC (i : Nat) : Nat := P.SUBMIT + 0x8C + 0x20 * i
abbrev SUBMIT_CQ_HEAD (i : Nat) : Nat := P.SUBMIT + 0x90 + 0x20 * i
abbrev SUBMIT_CQ_TAIL (i : Nat) : Nat := P.SUBMIT + 0x94 + 0x20 * i
abbrev SUBMIT_CQ_CSEQ (i : Nat) : Nat := P.SUBMIT + 0x98 + 0x20 * i
abbrev SERVE_STATUS : Nat := P.SERVE + 0x40
abbrev SERVE_SLOT_CFG : Nat := P.SERVE + 0x44
abbrev SERVE_SLOT_TABLE_LO : Nat := P.SERVE + 0x48
abbrev SERVE_SLOT_TABLE_HI : Nat := P.SERVE + 0x4C
abbrev SERVE_TOKOUT_LO : Nat := P.SERVE + 0x50
abbrev SERVE_TOKOUT_HI : Nat := P.SERVE + 0x54
abbrev SERVE_PT_LO : Nat := P.SERVE + 0x58
abbrev SERVE_PT_HI : Nat := P.SERVE + 0x5C
abbrev SERVE_PROMPT_BASE_LO : Nat := P.SERVE + 0x60
abbrev SERVE_PROMPT_BASE_HI : Nat := P.SERVE + 0x64
abbrev SERVE_PROMPT_SIZE : Nat := P.SERVE + 0x68
abbrev SERVE_KV_CFG : Nat := P.SERVE + 0x6C
abbrev SERVE_PAGE_TOKENS : Nat := P.SERVE + 0x70
abbrev SERVE_CTX_MAX : Nat := P.SERVE + 0x74
abbrev SERVE_EOS_TOKEN : Nat := P.SERVE + 0x78
abbrev SERVE_REP_WINDOW : Nat := P.SERVE + 0x7C
abbrev SERVE_KV_FREE : Nat := P.SERVE + 0x80
abbrev SERVE_ADMITTED : Nat := P.SERVE + 0x84
abbrev SERVE_FINISHED : Nat := P.SERVE + 0x88
abbrev SERVE_TOKENS_LO : Nat := P.SERVE + 0x8C
abbrev SERVE_TOKENS_HI : Nat := P.SERVE + 0x90
abbrev SERVE_REISSUES : Nat := P.SERVE + 0x94
abbrev SERVE_LAST_FAULT : Nat := P.SERVE + 0x98
abbrev SAMPLE_STATUS : Nat := P.SAMPLE + 0x40
abbrev SAMPLE_CFG : Nat := P.SAMPLE + 0x44
abbrev SAMPLE_STREAMS_LO : Nat := P.SAMPLE + 0x48
abbrev SAMPLE_STREAMS_HI : Nat := P.SAMPLE + 0x4C
abbrev SAMPLE_NAN_COUNT : Nat := P.SAMPLE + 0x50
abbrev SAMPLE_CLAMP_COUNT : Nat := P.SAMPLE + 0x54
abbrev SVC_STATUS (c : Nat) : Nat := P.SVC c + 0x40
abbrev SVC_FW_VER (c : Nat) : Nat := P.SVC c + 0x44
abbrev SVC_FW_OWNER (c : Nat) : Nat := P.SVC c + 0x48
abbrev SVC_HEARTBEAT (c : Nat) : Nat := P.SVC c + 0x4C
abbrev SVC_LOAD (c : Nat) : Nat := P.SVC c + 0x50
abbrev SVC_FAULT_INFO (c : Nat) : Nat := P.SVC c + 0x54
abbrev SVC_MBOX_IN (c : Nat) : Nat := P.SVC c + 0x58
abbrev SVC_MBOX_OUT (c : Nat) : Nat := P.SVC c + 0x5C
abbrev PUMP_STATUS : Nat := P.PUMP + 0x40
abbrev PUMP_LIMITS : Nat := P.PUMP + 0x44
abbrev PUMP_SET (i : Nat) : Nat := P.PUMP + 0x80 + 0x20 * i
abbrev PUMP_CTL (i : Nat) : Nat := P.PUMP + 0x84 + 0x20 * i
abbrev PUMP_ST (i : Nat) : Nat := P.PUMP + 0x88 + 0x20 * i
abbrev PUMP_TACH (i : Nat) : Nat := P.PUMP + 0x8C + 0x20 * i
abbrev PUMP_MEAS (i : Nat) : Nat := P.PUMP + 0x90 + 0x20 * i
abbrev PUMP_STARTS (i : Nat) : Nat := P.PUMP + 0x94 + 0x20 * i
abbrev PUMP_HOURS (i : Nat) : Nat := P.PUMP + 0x98 + 0x20 * i
abbrev VALVE_STATUS : Nat := P.VALVE + 0x40
abbrev VALVE_ISO_CMD : Nat := P.VALVE + 0x44
abbrev VALVE_ISO_STATE : Nat := P.VALVE + 0x48
abbrev VALVE_BANK_I (i : Nat) : Nat := P.VALVE + 0x4C + 0x4 * i
abbrev VALVE_LATE_COUNT : Nat := P.VALVE + 0x68
abbrev VALVE_SAT_COUNT : Nat := P.VALVE + 0x6C
abbrev VALVE_SET (i : Nat) : Nat := P.VALVE + 0x100 + 0x8 * i
abbrev VALVE_ST (i : Nat) : Nat := P.VALVE + 0x104 + 0x8 * i
abbrev COOLANT_STATUS : Nat := P.COOLANT + 0x40
abbrev COOLANT_FLOW : Nat := P.COOLANT + 0x44
abbrev COOLANT_TIN : Nat := P.COOLANT + 0x48
abbrev COOLANT_TOUT : Nat := P.COOLANT + 0x4C
abbrev COOLANT_TIN_AB : Nat := P.COOLANT + 0x50
abbrev COOLANT_TOUT_AB : Nat := P.COOLANT + 0x54
abbrev COOLANT_PIN : Nat := P.COOLANT + 0x58
abbrev COOLANT_POUT : Nat := P.COOLANT + 0x5C
abbrev COOLANT_LEAK_Z (i : Nat) : Nat := P.COOLANT + 0x60 + 0x4 * i
abbrev COOLANT_LEAK_THRESH : Nat := P.COOLANT + 0x70
abbrev COOLANT_LEAK_INFO : Nat := P.COOLANT + 0x74
abbrev COOLANT_LEAK_T0_LO : Nat := P.COOLANT + 0x78
abbrev COOLANT_LEAK_T0_HI : Nat := P.COOLANT + 0x7C
abbrev COOLANT_LEAK_COUNT : Nat := P.COOLANT + 0x80
abbrev THERM_STATUS : Nat := P.THERM + 0x40
abbrev THERM_CAP_EFF : Nat := P.THERM + 0x44
abbrev THERM_RACK_CAP : Nat := P.THERM + 0x48
abbrev THERM_HOST_CAP : Nat := P.THERM + 0x4C
abbrev THERM_HOST_CAP_APPLIED : Nat := P.THERM + 0x50
abbrev THERM_THERMAL_CAP : Nat := P.THERM + 0x54
abbrev THERM_TERMS : Nat := P.THERM + 0x58
abbrev THERM_POWER : Nat := P.THERM + 0x5C
abbrev THERM_LOOP_GAIN : Nat := P.THERM + 0x60
abbrev THERM_LOOP_OUT : Nat := P.THERM + 0x64
abbrev THERM_JCT_CFG : Nat := P.THERM + 0x68
abbrev THERM_JCT_CFG2 : Nat := P.THERM + 0x6C
abbrev THERM_COOLANT_CFG : Nat := P.THERM + 0x70
abbrev THERM_NOM_FLOW : Nat := P.THERM + 0x74
abbrev THERM_RUN_MIN : Nat := P.THERM + 0x78
abbrev THERM_TCTL_MAX : Nat := P.THERM + 0x7C
abbrev THERM_FLOOR_MAX : Nat := P.THERM + 0x80
abbrev THERM_MEM_MAX : Nat := P.THERM + 0x84
abbrev THERM_AREA_MAX : Nat := P.THERM + 0x88
abbrev THERM_DEGRADED : Nat := P.THERM + 0x8C
abbrev THERM_LIMITS : Nat := P.THERM + 0x90
abbrev THERM_EXCESS_COUNT : Nat := P.THERM + 0x94
abbrev TELEM_MODE : Nat := P.TELEM + 0x40
abbrev TELEM_WINDOW : Nat := P.TELEM + 0x44
abbrev TELEM_INST_POWER : Nat := P.TELEM + 0x48
abbrev TELEM_INST_TEMP : Nat := P.TELEM + 0x4C
abbrev TELEM_WIN_SEQ : Nat := P.TELEM + 0x50
abbrev TELEM_AVG_POWER : Nat := P.TELEM + 0x54
abbrev TELEM_PEAK_POWER : Nat := P.TELEM + 0x58
abbrev TELEM_TEMP_WIN : Nat := P.TELEM + 0x5C
abbrev TELEM_FLOW_WIN : Nat := P.TELEM + 0x60
abbrev TELEM_CAP_WIN : Nat := P.TELEM + 0x64
abbrev TELEM_ENERGY_LO : Nat := P.TELEM + 0x68
abbrev TELEM_ENERGY_HI : Nat := P.TELEM + 0x6C
abbrev GSENS_TA (g : Nat) : Nat := P.GSENS g + 0x40
abbrev GSENS_TB (g : Nat) : Nat := P.GSENS g + 0x44
abbrev GSENS_TCTL (g : Nat) : Nat := P.GSENS g + 0x48
abbrev GSENS_STATUS (g : Nat) : Nat := P.GSENS g + 0x4C
abbrev GSENS_PEAK (g : Nat) : Nat := P.GSENS g + 0x50
abbrev GLADE_STATUS : Nat := P.GLADE + 0x40
abbrev GLADE_INPUT_VALID : Nat := P.GLADE + 0x44
abbrev GLADE_TM_CTRL : Nat := P.GLADE + 0x48
abbrev GLADE_TM_STATE : Nat := P.GLADE + 0x4C
abbrev GLADE_TRIP : Nat := P.GLADE + 0x50
abbrev GLADE_VIN_IIN : Nat := P.GLADE + 0x54
abbrev GLADE_FLOW_STOP_INFO : Nat := P.GLADE + 0x58
abbrev GLADE_ISLAND_LOG : Nat := P.GLADE + 0x5C
abbrev GLADE_OSC_PPM : Nat := P.GLADE + 0x60
abbrev GLADE_TIMEOUTS : Nat := P.GLADE + 0x64
abbrev GLADE_TM_ENTRY_LO (i : Nat) : Nat := P.GLADE + 0x100 + 0x8 * i
abbrev GLADE_TM_ENTRY_HI (i : Nat) : Nat := P.GLADE + 0x104 + 0x8 * i
abbrev CANOPY_STATUS (k : Nat) : Nat := P.CANOPY k + 0x40
abbrev CANOPY_TOKEN_CTL (k : Nat) : Nat := P.CANOPY k + 0x44
abbrev CANOPY_HB_AGE (k : Nat) : Nat := P.CANOPY k + 0x48
abbrev CANOPY_DIAG (k : Nat) : Nat := P.CANOPY k + 0x4C
abbrev CANOPY_DIAG_RUNS (k : Nat) : Nat := P.CANOPY k + 0x50
abbrev CANOPY_SNOOP (k : Nat) : Nat := P.CANOPY k + 0x54
abbrev CANOPY_SNOOP_SEQ (k : Nat) : Nat := P.CANOPY k + 0x58
abbrev CANOPY_FW (k : Nat) : Nat := P.CANOPY k + 0x5C
abbrev CANOPY_FW_VER (k : Nat) : Nat := P.CANOPY k + 0x60
abbrev CANOPY_SWITCH_INFO (k : Nat) : Nat := P.CANOPY k + 0x64
abbrev CANOPY_SWITCH_GAP (k : Nat) : Nat := P.CANOPY k + 0x68
abbrev CANOPY_RESTARTS (k : Nat) : Nat := P.CANOPY k + 0x6C
abbrev CANOPY_SRAM_CORR (k : Nat) : Nat := P.CANOPY k + 0x70
abbrev CANOPY_OVERLAP_FIXES (k : Nat) : Nat := P.CANOPY k + 0x74
abbrev CANOPY_MBOX (k : Nat) : Nat := P.CANOPY k + 0x78
abbrev DWOOD_COUNT : Nat := P.DWOOD + 0x40
abbrev DWOOD_SEL : Nat := P.DWOOD + 0x44
abbrev DWOOD_ENTRY (i : Nat) : Nat := P.DWOOD + 0x48 + 0x4 * i
abbrev DWOOD_ADDED : Nat := P.DWOOD + 0x58
abbrev DWOOD_LAST_ADDED : Nat := P.DWOOD + 0x5C
abbrev DWOOD_CLEAR : Nat := P.DWOOD + 0x60
abbrev DWOOD_CLEARED : Nat := P.DWOOD + 0x64
abbrev MODULE_MSTATE : Nat := P.MODULE + 0x40
abbrev MODULE_COMMAND : Nat := P.MODULE + 0x44
abbrev MODULE_BOOT_CTRL : Nat := P.MODULE + 0x48
abbrev MODULE_BOOT_CFG : Nat := P.MODULE + 0x4C
abbrev MODULE_STRAPS : Nat := P.MODULE + 0x50
abbrev MODULE_BOOT_COUNT : Nat := P.MODULE + 0x54
abbrev MODULE_BOOT_TIME : Nat := P.MODULE + 0x58
abbrev MODULE_PART : Nat := P.MODULE + 0x5C
abbrev MODULE_STEP_TIME (i : Nat) : Nat := P.MODULE + 0x60 + 0x4 * i
abbrev MODULE_SERIAL_LO : Nat := P.MODULE + 0x7C
abbrev MODULE_SERIAL_HI : Nat := P.MODULE + 0x80
abbrev MODULE_SHAPE : Nat := P.MODULE + 0x100
abbrev MODULE_SHAPE_ENG_LO : Nat := P.MODULE + 0x104
abbrev MODULE_SHAPE_ENG_HI : Nat := P.MODULE + 0x108
abbrev MODULE_SHAPE_BANKS (i : Nat) : Nat := P.MODULE + 0x10C + 0x4 * i
abbrev MODULE_SHAPE_LINK (i : Nat) : Nat := P.MODULE + 0x12C + 0x4 * i
abbrev MODULE_SHAPE_REDUCE (i : Nat) : Nat := P.MODULE + 0x138 + 0x4 * i
abbrev MODULE_SHAPE_MEM : Nat := P.MODULE + 0x144
abbrev MODULE_SHAPE_PAGES : Nat := P.MODULE + 0x148
abbrev MODULE_SHAPE_UNITS : Nat := P.MODULE + 0x14C
abbrev MODULE_SHAPE_SEQ : Nat := P.MODULE + 0x150
abbrev EVT_STATUS : Nat := P.EVT + 0x40
abbrev EVT_SEQ : Nat := P.EVT + 0x44
abbrev EVT_ROUTE : Nat := P.EVT + 0x48
abbrev EVT_DROP0 : Nat := P.EVT + 0x4C
abbrev EVT_DROP1 : Nat := P.EVT + 0x50
abbrev EVT_COALESCED : Nat := P.EVT + 0x54
abbrev EVT_PLDM_DROP : Nat := P.EVT + 0x58
abbrev EVT_CANOPY_DROP : Nat := P.EVT + 0x5C
abbrev EVT_FWD_SKIP : Nat := P.EVT + 0x60
abbrev EVT_FWD_RX : Nat := P.EVT + 0x64
abbrev EVT_INJECT : Nat := P.EVT + 0x68
abbrev EVT_LOAD_CTRL : Nat := P.EVT + 0x100
abbrev EVT_LOAD_CFG : Nat := P.EVT + 0x104
abbrev EVT_MANIFEST_LO : Nat := P.EVT + 0x108
abbrev EVT_MANIFEST_HI : Nat := P.EVT + 0x10C
abbrev EVT_STAGE_BASE_LO : Nat := P.EVT + 0x110
abbrev EVT_STAGE_BASE_HI : Nat := P.EVT + 0x114
abbrev EVT_STAGE_SIZE : Nat := P.EVT + 0x118
abbrev EVT_LOAD_STATE : Nat := P.EVT + 0x11C
abbrev EVT_CHUNKS_NEED : Nat := P.EVT + 0x120
abbrev EVT_CHUNKS_HAVE : Nat := P.EVT + 0x124
abbrev EVT_REPAIRS : Nat := P.EVT + 0x128
abbrev EVT_MISSING_COUNT : Nat := P.EVT + 0x12C
abbrev EVT_MISSING_SEL : Nat := P.EVT + 0x130
abbrev EVT_MISSING_MEMBER : Nat := P.EVT + 0x134
abbrev EVT_GROUP_CTRL : Nat := P.EVT + 0x138
abbrev EVT_GROUP_STATUS : Nat := P.EVT + 0x13C
abbrev EVT_RESUME_INFO : Nat := P.EVT + 0x140
abbrev RLOG_STATUS : Nat := P.RLOG + 0x40
abbrev RLOG_CNT_INFO : Nat := P.RLOG + 0x44
abbrev RLOG_CNT_WARN : Nat := P.RLOG + 0x48
abbrev RLOG_CNT_ERR : Nat := P.RLOG + 0x4C
abbrev RLOG_CNT_CRIT : Nat := P.RLOG + 0x50
abbrev RLOG_FREE : Nat := P.RLOG + 0x54
abbrev RLOG_NEXT_LO : Nat := P.RLOG + 0x58
abbrev RLOG_NEXT_HI : Nat := P.RLOG + 0x5C
abbrev RLOG_NEWEST : Nat := P.RLOG + 0x60
abbrev RLOG_DROP_LO : Nat := P.RLOG + 0x64
abbrev RLOG_DROP_HI : Nat := P.RLOG + 0x68
abbrev RLOG_OVERWRITES : Nat := P.RLOG + 0x6C
abbrev RLOG_SEL : Nat := P.RLOG + 0x70
abbrev RLOG_SEEK_LO : Nat := P.RLOG + 0x74
abbrev RLOG_SEEK_HI : Nat := P.RLOG + 0x78
abbrev RLOG_SEL_STATUS : Nat := P.RLOG + 0x7C
abbrev RLOG_WIN (i : Nat) : Nat := P.RLOG + 0x80 + 0x4 * i
abbrev RLOG_CHECK_LO : Nat := P.RLOG + 0xC0
abbrev RLOG_CHECK_HI : Nat := P.RLOG + 0xC4
abbrev RLOG_CLEAR : Nat := P.RLOG + 0xC8
abbrev RLOG_CLEAR_ARG : Nat := P.RLOG + 0xCC
abbrev RLOG_CLEARS : Nat := P.RLOG + 0xD0
abbrev HWOOD_ROOT_DIGEST (i : Nat) : Nat := P.HWOOD + 0x40 + 0x4 * i
abbrev HWOOD_OWNER0_DIGEST (i : Nat) : Nat := P.HWOOD + 0x60 + 0x4 * i
abbrev HWOOD_OWNER1_DIGEST (i : Nat) : Nat := P.HWOOD + 0x80 + 0x4 * i
abbrev HWOOD_KEYSTATE : Nat := P.HWOOD + 0xA0
abbrev HWOOD_PROTECT : Nat := P.HWOOD + 0xA4
abbrev HWOOD_LIMITS : Nat := P.HWOOD + 0xA8
abbrev HWOOD_MIN_FLOW : Nat := P.HWOOD + 0xAC
abbrev HWOOD_VARIANT : Nat := P.HWOOD + 0xB0
abbrev HWOOD_SERIAL_LO : Nat := P.HWOOD + 0xB4
abbrev HWOOD_SERIAL_HI : Nat := P.HWOOD + 0xB8
abbrev HWOOD_DEFECT_COUNT : Nat := P.HWOOD + 0xBC
abbrev HWOOD_DEFECT_SEL : Nat := P.HWOOD + 0xC0
abbrev HWOOD_DEFECT_ENTRY : Nat := P.HWOOD + 0xC4
abbrev HWOOD_FUSE_STATUS : Nat := P.HWOOD + 0xC8
abbrev SEC_STATUS : Nat := P.SEC + 0x40
abbrev SEC_TOKEN_CTL : Nat := P.SEC + 0x44
abbrev SEC_TOKEN_REQ : Nat := P.SEC + 0x48
abbrev SEC_TOKEN_ARG : Nat := P.SEC + 0x4C
abbrev SEC_TOKEN_RESULT : Nat := P.SEC + 0x50
abbrev SEC_NONCE (i : Nat) : Nat := P.SEC + 0x60 + 0x4 * i
abbrev SEC_TOKEN_SIG (i : Nat) : Nat := P.SEC + 0x80 + 0x4 * i
abbrev SEC_TOKEN_DIGEST (i : Nat) : Nat := P.SEC + 0xC0 + 0x4 * i
abbrev SEC_FW_ADDR_LO : Nat := P.SEC + 0xE0
abbrev SEC_FW_ADDR_HI : Nat := P.SEC + 0xE4
abbrev SEC_FW_LEN : Nat := P.SEC + 0xE8
abbrev SEC_FW_CTL : Nat := P.SEC + 0xEC
abbrev SEC_FW_STATUS : Nat := P.SEC + 0xF0
abbrev SEC_MEAS_CTL : Nat := P.SEC + 0xF4
abbrev SEC_EXTEND_DATA (i : Nat) : Nat := P.SEC + 0x100 + 0x4 * i
abbrev SEC_REPORT_NONCE (i : Nat) : Nat := P.SEC + 0x120 + 0x4 * i
abbrev SEC_REPORT_CTL : Nat := P.SEC + 0x140
abbrev SEC_REPORT_LEN : Nat := P.SEC + 0x144
abbrev SEC_CERT_OFF : Nat := P.SEC + 0x148
abbrev SEC_CERT_LEN : Nat := P.SEC + 0x14C
abbrev SEC_MEAS (i : Nat) : Nat := P.SEC + 0x200 + 0x4 * i
abbrev SEC_REPORT (i : Nat) : Nat := P.SEC + 0x400 + 0x4 * i
abbrev SEC_ID_PUB (i : Nat) : Nat := P.SEC + 0x800 + 0x4 * i
abbrev SEC_CERT_WIN (i : Nat) : Nat := P.SEC + 0x900 + 0x4 * i
abbrev SIDEBAND_STATUS : Nat := P.SIDEBAND + 0x40
abbrev SIDEBAND_ADDR : Nat := P.SIDEBAND + 0x44
abbrev SIDEBAND_CONFIG : Nat := P.SIDEBAND + 0x48
abbrev SIDEBAND_RX_MSGS : Nat := P.SIDEBAND + 0x4C
abbrev SIDEBAND_TX_MSGS : Nat := P.SIDEBAND + 0x50
abbrev SIDEBAND_DROPPED : Nat := P.SIDEBAND + 0x54
abbrev SIDEBAND_LAST_RX_AGE : Nat := P.SIDEBAND + 0x58

end Reg

/-! ## Register fields -/

namespace F

abbrev ARB_FENCE_DONE_TAG : Fld := ⟨Reg.ARB_FENCE_DONE, 0, 31⟩
abbrev ARB_FENCE_DONE_PENDING : Fld := ⟨Reg.ARB_FENCE_DONE, 31, 1⟩
abbrev ARB_TOKEN_HOLDER : Fld := ⟨Reg.ARB_TOKEN, 0, 2⟩
abbrev ARB_TOKEN_TRANSFERS : Fld := ⟨Reg.ARB_TOKEN, 16, 16⟩
abbrev ARB_REFUSED_INFO_CAUSE : Fld := ⟨Reg.ARB_REFUSED_INFO, 16, 4⟩
abbrev ARB_REFUSED_INFO_READ : Fld := ⟨Reg.ARB_REFUSED_INFO, 20, 1⟩
abbrev CLK_STATUS_REF_PRESENT : Fld := ⟨Reg.CLK_STATUS, 0, 1⟩
abbrev CLK_STATUS_PLL_LOCK : Fld := ⟨Reg.CLK_STATUS, 1, 1⟩
abbrev CLK_STATUS_HOLDOVER : Fld := ⟨Reg.CLK_STATUS, 2, 1⟩
abbrev CLK_STATUS_HOLDOVER_EXPIRED : Fld := ⟨Reg.CLK_STATUS, 3, 1⟩
abbrev CLK_STATUS_TIME_VALID : Fld := ⟨Reg.CLK_STATUS, 4, 1⟩
abbrev CLK_STATUS_SYNC_BUSY : Fld := ⟨Reg.CLK_STATUS, 5, 1⟩
abbrev CLK_STATUS_IS_ROOT : Fld := ⟨Reg.CLK_STATUS, 6, 1⟩
abbrev CLK_SYNC_CTRL_ROOT : Fld := ⟨Reg.CLK_SYNC_CTRL, 0, 1⟩
abbrev CLK_SYNC_CTRL_START : Fld := ⟨Reg.CLK_SYNC_CTRL, 1, 1⟩
abbrev CLK_SYNC_INFO_HOPS : Fld := ⟨Reg.CLK_SYNC_INFO, 0, 6⟩
abbrev CLK_SYNC_INFO_PARENT_LINK : Fld := ⟨Reg.CLK_SYNC_INFO, 8, 8⟩
abbrev CLK_SYNC_INFO_MISMATCH_COUNT : Fld := ⟨Reg.CLK_SYNC_INFO, 16, 7⟩
abbrev ENGINE_MAP_LOGICAL (g p : Nat) : Fld := ⟨Reg.ENGINE_MAP g p, 0, 3⟩
abbrev ENGINE_MAP_IN_USE (g p : Nat) : Fld := ⟨Reg.ENGINE_MAP g p, 3, 1⟩
abbrev ENGINE_MAP_GROVE (g p : Nat) : Fld := ⟨Reg.ENGINE_MAP g p, 8, 4⟩
abbrev ENGINE_STATUS_ISSUING (g p : Nat) : Fld := ⟨Reg.ENGINE_STATUS g p, 0, 1⟩
abbrev ENGINE_STATUS_HALT_REACHED (g p : Nat) : Fld := ⟨Reg.ENGINE_STATUS g p, 1, 1⟩
abbrev ENGINE_STATUS_KAT_PASS (g p : Nat) : Fld := ⟨Reg.ENGINE_STATUS g p, 2, 1⟩
abbrev ENGINE_STATUS_SPARE (g p : Nat) : Fld := ⟨Reg.ENGINE_STATUS g p, 3, 1⟩
abbrev ENGINE_STEP_FLAGS_STICKY_LO (g p : Nat) : Fld := ⟨Reg.ENGINE_STEP_FLAGS g p, 0, 1⟩
abbrev ENGINE_STEP_FLAGS_WIN_OVF (g p : Nat) : Fld := ⟨Reg.ENGINE_STEP_FLAGS g p, 1, 1⟩
abbrev ENGINE_STEP_FLAGS_SPEC_IN (g p : Nat) : Fld := ⟨Reg.ENGINE_STEP_FLAGS g p, 2, 1⟩
abbrev ENGINE_STEP_FLAGS_TERN_BAD (g p : Nat) : Fld := ⟨Reg.ENGINE_STEP_FLAGS g p, 3, 1⟩
abbrev ENGINE_STEP_FLAGS_OUT_SAT (g p : Nat) : Fld := ⟨Reg.ENGINE_STEP_FLAGS g p, 4, 1⟩
abbrev ENGINE_STEP_FLAGS_OUT_NAN (g p : Nat) : Fld := ⟨Reg.ENGINE_STEP_FLAGS g p, 5, 1⟩
abbrev ENGINE_FLAGS_ACC_FLAGS (g p : Nat) : Fld := ⟨Reg.ENGINE_FLAGS_ACC g p, 0, 6⟩
abbrev ENGINE_LAST_PC_ADDR (g p : Nat) : Fld := ⟨Reg.ENGINE_LAST_PC g p, 0, 13⟩
abbrev ENGINE_LAST_PC_DEPTH (g p : Nat) : Fld := ⟨Reg.ENGINE_LAST_PC g p, 13, 3⟩
abbrev ENGINE_DYN_INFO_DREG (g p : Nat) : Fld := ⟨Reg.ENGINE_DYN_INFO g p, 0, 4⟩
abbrev ENGINE_DYN_INFO_LANE (g p : Nat) : Fld := ⟨Reg.ENGINE_DYN_INFO g p, 4, 8⟩
abbrev GROVE_SHAPE_LENGINES (g : Nat) : Fld := ⟨Reg.GROVE_SHAPE g, 0, 4⟩
abbrev GROVE_SHAPE_USABLE_BANKS (g : Nat) : Fld := ⟨Reg.GROVE_SHAPE g, 4, 10⟩
abbrev GROVE_STATUS_STAND_ARMED (g : Nat) : Fld := ⟨Reg.GROVE_STATUS g, 0, 1⟩
abbrev GROVE_STATUS_STEP_ACTIVE (g : Nat) : Fld := ⟨Reg.GROVE_STATUS g, 1, 1⟩
abbrev GROVE_STATUS_UNCOMMITTED (g : Nat) : Fld := ⟨Reg.GROVE_STATUS g, 2, 1⟩
abbrev GROVE_STATUS_BG_HELD (g : Nat) : Fld := ⟨Reg.GROVE_STATUS g, 3, 1⟩
abbrev GSRAM_LAST_ERR_UNCORR (g : Nat) : Fld := ⟨Reg.GSRAM_LAST_ERR g, 24, 1⟩
abbrev GWIN_STATUS_WIN_COUNT (g : Nat) : Fld := ⟨Reg.GWIN_STATUS g, 0, 7⟩
abbrev GWIN_STATUS_DIRTY (g : Nat) : Fld := ⟨Reg.GWIN_STATUS g, 7, 1⟩
abbrev GWIN_STATUS_FOLD_BUSY (g : Nat) : Fld := ⟨Reg.GWIN_STATUS g, 8, 1⟩
abbrev GDMA_CH_STATE_BUSY (g i : Nat) : Fld := ⟨Reg.GDMA_CH_STATE g i, 8, 1⟩
abbrev GDMA_CH_STATE_TRIGGER (g i : Nat) : Fld := ⟨Reg.GDMA_CH_STATE g i, 9, 1⟩
abbrev FLOOR_STATUS_SCHED_LOADED : Fld := ⟨Reg.FLOOR_STATUS, 0, 1⟩
abbrev FLOOR_STATUS_SCHED_RUNNING : Fld := ⟨Reg.FLOOR_STATUS, 1, 1⟩
abbrev STAND_STATUS_ARMED : Fld := ⟨Reg.STAND_STATUS, 0, 1⟩
abbrev STAND_STATUS_STEP_ACTIVE : Fld := ⟨Reg.STAND_STATUS, 1, 1⟩
abbrev STAND_STATUS_IS_LEAD : Fld := ⟨Reg.STAND_STATUS, 2, 1⟩
abbrev STAND_STATUS_SUSPENDED : Fld := ⟨Reg.STAND_STATUS, 3, 1⟩
abbrev STAND_STATUS_UNCOMMITTED : Fld := ⟨Reg.STAND_STATUS, 4, 1⟩
abbrev STAND_STATUS_ISSUE_PENDING : Fld := ⟨Reg.STAND_STATUS, 5, 1⟩
abbrev STAND_STATUS_END_PENDING : Fld := ⟨Reg.STAND_STATUS, 6, 1⟩
abbrev STAND_STATUS_ABORT_VOTE : Fld := ⟨Reg.STAND_STATUS, 7, 1⟩
abbrev STAND_COMMAND_ISSUE : Fld := ⟨Reg.STAND_COMMAND, 0, 1⟩
abbrev STAND_COMMAND_UNLOAD : Fld := ⟨Reg.STAND_COMMAND, 1, 1⟩
abbrev STAND_COMMAND_ABORT_VOTE : Fld := ⟨Reg.STAND_COMMAND, 2, 1⟩
abbrev STAND_COMMAND_END_REQ : Fld := ⟨Reg.STAND_COMMAND, 3, 1⟩
abbrev STAND_MEMBERSHIP_MEMBER : Fld := ⟨Reg.STAND_MEMBERSHIP, 0, 13⟩
abbrev STAND_MEMBERSHIP_LEAD : Fld := ⟨Reg.STAND_MEMBERSHIP, 16, 13⟩
abbrev STAND_GEOM_N_M1 : Fld := ⟨Reg.STAND_GEOM, 0, 16⟩
abbrev STAND_GEOM_D_MAX : Fld := ⟨Reg.STAND_GEOM, 16, 6⟩
abbrev STAND_PACE_P_APPLIED : Fld := ⟨Reg.STAND_PACE, 0, 14⟩
abbrev STAND_PACE_P_OWN : Fld := ⟨Reg.STAND_PACE, 16, 14⟩
abbrev STAND_FAULT_INFO_CAUSE : Fld := ⟨Reg.STAND_FAULT_INFO, 0, 8⟩
abbrev STAND_FAULT_INFO_DETAIL : Fld := ⟨Reg.STAND_FAULT_INFO, 8, 8⟩
abbrev STAND_FAULT_INFO_ORIGIN : Fld := ⟨Reg.STAND_FAULT_INFO, 16, 13⟩
abbrev STAND_FAULT_INFO_LOCAL : Fld := ⟨Reg.STAND_FAULT_INFO, 29, 1⟩
abbrev STAND_FAULT_INFO_AFTER_SAMPLE : Fld := ⟨Reg.STAND_FAULT_INFO, 30, 1⟩
abbrev STAND_LOAD_STATUS_RESULT : Fld := ⟨Reg.STAND_LOAD_STATUS, 0, 4⟩
abbrev STAND_LOAD_STATUS_REASON : Fld := ⟨Reg.STAND_LOAD_STATUS, 8, 8⟩
abbrev STAND_LOAD_STATUS_UNIT : Fld := ⟨Reg.STAND_LOAD_STATUS, 16, 8⟩
abbrev LINK_STATUS_LSTATE (l : Nat) : Fld := ⟨Reg.LINK_STATUS l, 0, 4⟩
abbrev LINK_STATUS_GROUP (l : Nat) : Fld := ⟨Reg.LINK_STATUS l, 4, 1⟩
abbrev LINK_STATUS_SCHED (l : Nat) : Fld := ⟨Reg.LINK_STATUS l, 5, 1⟩
abbrev LINK_STATUS_FITS (l : Nat) : Fld := ⟨Reg.LINK_STATUS l, 6, 1⟩
abbrev LINK_STATUS_WARM (l : Nat) : Fld := ⟨Reg.LINK_STATUS l, 7, 1⟩
abbrev LINK_STATUS_FAIL_CAUSE (l : Nat) : Fld := ⟨Reg.LINK_STATUS l, 8, 4⟩
abbrev LINK_STATUS_MARGIN (l : Nat) : Fld := ⟨Reg.LINK_STATUS l, 12, 4⟩
abbrev LINK_LANES_RX_FAILED (l : Nat) : Fld := ⟨Reg.LINK_LANES l, 0, 4⟩
abbrev LINK_LANES_TX_FAILED (l : Nat) : Fld := ⟨Reg.LINK_LANES l, 4, 4⟩
abbrev LINK_LANES_RX_LOCAL (l : Nat) : Fld := ⟨Reg.LINK_LANES l, 8, 1⟩
abbrev LINK_LANES_RX_POLARITY (l : Nat) : Fld := ⟨Reg.LINK_LANES l, 9, 9⟩
abbrev LINK_LAT_LAMBDA_RX (l : Nat) : Fld := ⟨Reg.LINK_LAT l, 0, 11⟩
abbrev LINK_LAT_LAMBDA_TX (l : Nat) : Fld := ⟨Reg.LINK_LAT l, 16, 11⟩
abbrev LINK_MEAS_RT (l : Nat) : Fld := ⟨Reg.LINK_MEAS l, 0, 12⟩
abbrev LINK_MEAS_RHO_RX (l : Nat) : Fld := ⟨Reg.LINK_MEAS l, 12, 4⟩
abbrev LINK_MEAS_RHO_TX (l : Nat) : Fld := ⟨Reg.LINK_MEAS l, 16, 4⟩
abbrev LINK_PAD_ENTRY (l : Nat) : Fld := ⟨Reg.LINK_PAD l, 0, 11⟩
abbrev LINK_PAD_FINE (l : Nat) : Fld := ⟨Reg.LINK_PAD l, 12, 7⟩
abbrev LINK_PAD_COARSE (l : Nat) : Fld := ⟨Reg.LINK_PAD l, 19, 4⟩
abbrev LINK_TRAIN_CFG_FORCE_COLD (l : Nat) : Fld := ⟨Reg.LINK_TRAIN_CFG l, 0, 1⟩
abbrev LINK_TRAIN_CFG_DETECT_TIMEOUT (l : Nat) : Fld := ⟨Reg.LINK_TRAIN_CFG l, 8, 8⟩
abbrev LINK_EQ_PRE (l : Nat) : Fld := ⟨Reg.LINK_EQ l, 0, 8⟩
abbrev LINK_EQ_MAIN (l : Nat) : Fld := ⟨Reg.LINK_EQ l, 8, 8⟩
abbrev LINK_EQ_POST (l : Nat) : Fld := ⟨Reg.LINK_EQ l, 16, 8⟩
abbrev LINK_RREQ_CTRL_GO (l : Nat) : Fld := ⟨Reg.LINK_RREQ_CTRL l, 0, 1⟩
abbrev LINK_RREQ_CTRL_WRITE (l : Nat) : Fld := ⟨Reg.LINK_RREQ_CTRL l, 1, 1⟩
abbrev LINK_RREQ_CTRL_HOPS (l : Nat) : Fld := ⟨Reg.LINK_RREQ_CTRL l, 2, 6⟩
abbrev LINK_RREQ_CTRL_BUSY (l : Nat) : Fld := ⟨Reg.LINK_RREQ_CTRL l, 8, 1⟩
abbrev LINK_RREQ_CTRL_RESULT (l : Nat) : Fld := ⟨Reg.LINK_RREQ_CTRL l, 9, 3⟩
abbrev REDUCE_STATUS_PROG_LOADED (l : Nat) : Fld := ⟨Reg.REDUCE_STATUS l, 0, 1⟩
abbrev REDUCE_STATUS_FWD_ACTIVE (l : Nat) : Fld := ⟨Reg.REDUCE_STATUS l, 1, 1⟩
abbrev REDUCE_STATUS_SINK_ACTIVE (l : Nat) : Fld := ⟨Reg.REDUCE_STATUS l, 2, 1⟩
abbrev REDUCE_STATUS_KAT_PASS (l : Nat) : Fld := ⟨Reg.REDUCE_STATUS l, 3, 1⟩
abbrev REDUCE_STATUS_LQ0_FILL (l : Nat) : Fld := ⟨Reg.REDUCE_STATUS l, 8, 7⟩
abbrev REDUCE_STATUS_LQ1_FILL (l : Nat) : Fld := ⟨Reg.REDUCE_STATUS l, 16, 7⟩
abbrev REDUCE_PROG_RUNS (l : Nat) : Fld := ⟨Reg.REDUCE_PROG l, 0, 12⟩
abbrev REDUCE_CUR_RUN_RUN (l : Nat) : Fld := ⟨Reg.REDUCE_CUR_RUN l, 0, 12⟩
abbrev REDUCE_CUR_RUN_LEFT (l : Nat) : Fld := ⟨Reg.REDUCE_CUR_RUN l, 16, 13⟩
abbrev REDUCE_OVF_INFO_RUN (l : Nat) : Fld := ⟨Reg.REDUCE_OVF_INFO l, 0, 12⟩
abbrev REDUCE_OVF_INFO_LANE (l : Nat) : Fld := ⟨Reg.REDUCE_OVF_INFO l, 12, 1⟩
abbrev REDUCE_OVF_INFO_VALUE (l : Nat) : Fld := ⟨Reg.REDUCE_OVF_INFO l, 13, 1⟩
abbrev LPDDR_STATUS_TRAINED (m : Nat) : Fld := ⟨Reg.LPDDR_STATUS m, 0, 1⟩
abbrev LPDDR_STATUS_WARM (m : Nat) : Fld := ⟨Reg.LPDDR_STATUS m, 1, 1⟩
abbrev LPDDR_STATUS_SELF_REFRESH (m : Nat) : Fld := ⟨Reg.LPDDR_STATUS m, 2, 1⟩
abbrev LPDDR_STATUS_FRAMES_ACTIVE (m : Nat) : Fld := ⟨Reg.LPDDR_STATUS m, 3, 1⟩
abbrev LPDDR_STATUS_BG_HELD (m : Nat) : Fld := ⟨Reg.LPDDR_STATUS m, 4, 1⟩
abbrev LPDDR_CONFIG_FORCE_COLD (m : Nat) : Fld := ⟨Reg.LPDDR_CONFIG m, 0, 1⟩
abbrev LPDDR_CONFIG_SCRUB_PERIOD (m : Nat) : Fld := ⟨Reg.LPDDR_CONFIG m, 8, 8⟩
abbrev LPDDR_GEOMETRY_PKG_GIB (m : Nat) : Fld := ⟨Reg.LPDDR_GEOMETRY m, 0, 6⟩
abbrev LPDDR_GEOMETRY_C (m : Nat) : Fld := ⟨Reg.LPDDR_GEOMETRY m, 8, 8⟩
abbrev LPDDR_GEOMETRY_Q (m : Nat) : Fld := ⟨Reg.LPDDR_GEOMETRY m, 16, 9⟩
abbrev LPDDR_LAST_ERR_RUN (m : Nat) : Fld := ⟨Reg.LPDDR_LAST_ERR m, 0, 23⟩
abbrev LPDDR_LAST_ERR_BLOCK (m : Nat) : Fld := ⟨Reg.LPDDR_LAST_ERR m, 23, 4⟩
abbrev LPDDR_LAST_ERR_CH (m : Nat) : Fld := ⟨Reg.LPDDR_LAST_ERR m, 27, 3⟩
abbrev LPDDR_LAST_ERR_UNCORR (m : Nat) : Fld := ⟨Reg.LPDDR_LAST_ERR m, 30, 1⟩
abbrev LPDDR_LAST_ERR_SCRUB (m : Nat) : Fld := ⟨Reg.LPDDR_LAST_ERR m, 31, 1⟩
abbrev LPDDR_WIN_STATUS_WIN_COUNT (m : Nat) : Fld := ⟨Reg.LPDDR_WIN_STATUS m, 0, 9⟩
abbrev LPDDR_WIN_STATUS_DIRTY (m : Nat) : Fld := ⟨Reg.LPDDR_WIN_STATUS m, 9, 1⟩
abbrev LPDDR_WIN_STATUS_FOLD_BUSY (m : Nat) : Fld := ⟨Reg.LPDDR_WIN_STATUS m, 10, 1⟩
abbrev LPDDR_CH_STATUS_TRAIN_OK (m i : Nat) : Fld := ⟨Reg.LPDDR_CH_STATUS m i, 0, 1⟩
abbrev LPDDR_CH_STATUS_WARM (m i : Nat) : Fld := ⟨Reg.LPDDR_CH_STATUS m i, 1, 1⟩
abbrev LPDDR_CH_STATUS_REFRESH_MULT (m i : Nat) : Fld := ⟨Reg.LPDDR_CH_STATUS m i, 2, 2⟩
abbrev LPDDR_CH_STATUS_CORR (m i : Nat) : Fld := ⟨Reg.LPDDR_CH_STATUS m i, 16, 16⟩
abbrev HOSTDMA_STATUS_CH_BUSY : Fld := ⟨Reg.HOSTDMA_STATUS, 0, 4⟩
abbrev HOSTDMA_STATUS_LINK_UP : Fld := ⟨Reg.HOSTDMA_STATUS, 4, 1⟩
abbrev HOSTDMA_STATUS_ALIVE_EXPIRED : Fld := ⟨Reg.HOSTDMA_STATUS, 5, 1⟩
abbrev HOSTDMA_STATUS_WIDTH : Fld := ⟨Reg.HOSTDMA_STATUS, 8, 4⟩
abbrev HOSTDMA_STATUS_SPEED : Fld := ⟨Reg.HOSTDMA_STATUS, 12, 3⟩
abbrev HOSTDMA_BAR2_CFG_READ_HOLD_MAX : Fld := ⟨Reg.HOSTDMA_BAR2_CFG, 0, 8⟩
abbrev HOSTDMA_HOST_ALIVE_ALIVE : Fld := ⟨Reg.HOSTDMA_HOST_ALIVE, 0, 1⟩
abbrev HOSTDMA_CH_CTRL_STOP (i : Nat) : Fld := ⟨Reg.HOSTDMA_CH_CTRL i, 0, 1⟩
abbrev HOSTDMA_CH_STATE_BUSY (i : Nat) : Fld := ⟨Reg.HOSTDMA_CH_STATE i, 0, 1⟩
abbrev HOSTDMA_CH_STATE_ERR (i : Nat) : Fld := ⟨Reg.HOSTDMA_CH_STATE i, 1, 1⟩
abbrev HOSTDMA_CH_STATE_LAST_STATUS (i : Nat) : Fld := ⟨Reg.HOSTDMA_CH_STATE i, 8, 8⟩
abbrev SUBMIT_STATUS_SCANNING : Fld := ⟨Reg.SUBMIT_STATUS, 0, 1⟩
abbrev SUBMIT_STATUS_STALLED : Fld := ⟨Reg.SUBMIT_STATUS, 1, 1⟩
abbrev SUBMIT_STATUS_SCAN_CORE : Fld := ⟨Reg.SUBMIT_STATUS, 8, 3⟩
abbrev SUBMIT_SCAN_CFG_SCAN_MAX : Fld := ⟨Reg.SUBMIT_SCAN_CFG, 0, 9⟩
abbrev SUBMIT_SCAN_CFG_TORN_SCANS : Fld := ⟨Reg.SUBMIT_SCAN_CFG, 16, 8⟩
abbrev SUBMIT_CQ_VEC_VECTOR (i : Nat) : Fld := ⟨Reg.SUBMIT_CQ_VEC i, 0, 6⟩
abbrev SUBMIT_CQ_VEC_MSI_EN (i : Nat) : Fld := ⟨Reg.SUBMIT_CQ_VEC i, 6, 1⟩
abbrev SUBMIT_CQ_VEC_MOD_US (i : Nat) : Fld := ⟨Reg.SUBMIT_CQ_VEC i, 8, 8⟩
abbrev SERVE_STATUS_ACTIVE : Fld := ⟨Reg.SERVE_STATUS, 0, 9⟩
abbrev SERVE_STATUS_OUTSTANDING : Fld := ⟨Reg.SERVE_STATUS, 9, 1⟩
abbrev SERVE_STATUS_ADMIT_WAIT : Fld := ⟨Reg.SERVE_STATUS, 10, 1⟩
abbrev SERVE_STATUS_QUEUED : Fld := ⟨Reg.SERVE_STATUS, 16, 13⟩
abbrev SERVE_SLOT_CFG_SLOTS : Fld := ⟨Reg.SERVE_SLOT_CFG, 0, 9⟩
abbrev SERVE_SLOT_CFG_TOKSTEP : Fld := ⟨Reg.SERVE_SLOT_CFG, 16, 12⟩
abbrev SERVE_KV_CFG_KV_PAGES_M1 : Fld := ⟨Reg.SERVE_KV_CFG, 0, 16⟩
abbrev SERVE_KV_CFG_PT_PER_SLOT : Fld := ⟨Reg.SERVE_KV_CFG, 16, 12⟩
abbrev SERVE_LAST_FAULT_CAUSE : Fld := ⟨Reg.SERVE_LAST_FAULT, 0, 8⟩
abbrev SAMPLE_STATUS_BUSY : Fld := ⟨Reg.SAMPLE_STATUS, 0, 1⟩
abbrev SAMPLE_STATUS_KAT_PASS : Fld := ⟨Reg.SAMPLE_STATUS, 1, 1⟩
abbrev SAMPLE_CFG_VOCAB : Fld := ⟨Reg.SAMPLE_CFG, 0, 19⟩
abbrev SAMPLE_CFG_LFMT : Fld := ⟨Reg.SAMPLE_CFG, 19, 4⟩
abbrev SAMPLE_CFG_HLINES : Fld := ⟨Reg.SAMPLE_CFG, 24, 7⟩
abbrev SVC_STATUS_ROLE (c : Nat) : Fld := ⟨Reg.SVC_STATUS c, 0, 2⟩
abbrev SVC_STATUS_SCAN_TOO (c : Nat) : Fld := ⟨Reg.SVC_STATUS c, 2, 1⟩
abbrev SVC_STATUS_CUSTOMER (c : Nat) : Fld := ⟨Reg.SVC_STATUS c, 3, 1⟩
abbrev PUMP_STATUS_RUNNING : Fld := ⟨Reg.PUMP_STATUS, 0, 3⟩
abbrev PUMP_STATUS_FAILED : Fld := ⟨Reg.PUMP_STATUS, 3, 3⟩
abbrev PUMP_STATUS_FORCED : Fld := ⟨Reg.PUMP_STATUS, 6, 3⟩
abbrev PUMP_STATUS_INSUFFICIENT : Fld := ⟨Reg.PUMP_STATUS, 9, 1⟩
abbrev PUMP_STATUS_LEAK_OFF : Fld := ⟨Reg.PUMP_STATUS, 10, 1⟩
abbrev PUMP_STATUS_TABLE_MODE : Fld := ⟨Reg.PUMP_STATUS, 11, 1⟩
abbrev PUMP_LIMITS_I_MIN : Fld := ⟨Reg.PUMP_LIMITS, 0, 8⟩
abbrev PUMP_LIMITS_I_MAX : Fld := ⟨Reg.PUMP_LIMITS, 8, 8⟩
abbrev PUMP_LIMITS_TACH_LOW_PCT : Fld := ⟨Reg.PUMP_LIMITS, 16, 8⟩
abbrev PUMP_SET_CODE (i : Nat) : Fld := ⟨Reg.PUMP_SET i, 0, 8⟩
abbrev PUMP_CTL_PUMP_EN (i : Nat) : Fld := ⟨Reg.PUMP_CTL i, 0, 1⟩
abbrev PUMP_CTL_PUMP_DIS (i : Nat) : Fld := ⟨Reg.PUMP_CTL i, 1, 1⟩
abbrev PUMP_ST_PSTATE (i : Nat) : Fld := ⟨Reg.PUMP_ST i, 0, 3⟩
abbrev PUMP_ST_PENDING_EN (i : Nat) : Fld := ⟨Reg.PUMP_ST i, 3, 1⟩
abbrev PUMP_ST_TACH_LOST (i : Nat) : Fld := ⟨Reg.PUMP_ST i, 4, 1⟩
abbrev PUMP_ST_I_ABNORMAL (i : Nat) : Fld := ⟨Reg.PUMP_ST i, 5, 1⟩
abbrev PUMP_ST_ATTEMPT (i : Nat) : Fld := ⟨Reg.PUMP_ST i, 6, 2⟩
abbrev PUMP_ST_APPLIED (i : Nat) : Fld := ⟨Reg.PUMP_ST i, 8, 8⟩
abbrev VALVE_STATUS_SATURATED : Fld := ⟨Reg.VALVE_STATUS, 0, 6⟩
abbrev VALVE_STATUS_BANK_FAULT : Fld := ⟨Reg.VALVE_STATUS, 8, 7⟩
abbrev VALVE_STATUS_TABLE_MODE : Fld := ⟨Reg.VALVE_STATUS, 16, 1⟩
abbrev VALVE_STATUS_LEAK_OVERRIDE : Fld := ⟨Reg.VALVE_STATUS, 17, 1⟩
abbrev VALVE_ISO_CMD_OPEN_IN : Fld := ⟨Reg.VALVE_ISO_CMD, 0, 1⟩
abbrev VALVE_ISO_CMD_CLOSE_IN : Fld := ⟨Reg.VALVE_ISO_CMD, 1, 1⟩
abbrev VALVE_ISO_CMD_OPEN_OUT : Fld := ⟨Reg.VALVE_ISO_CMD, 2, 1⟩
abbrev VALVE_ISO_CMD_CLOSE_OUT : Fld := ⟨Reg.VALVE_ISO_CMD, 3, 1⟩
abbrev VALVE_ISO_STATE_POS_IN : Fld := ⟨Reg.VALVE_ISO_STATE, 0, 2⟩
abbrev VALVE_ISO_STATE_POS_OUT : Fld := ⟨Reg.VALVE_ISO_STATE, 2, 2⟩
abbrev VALVE_SET_HOLD (i : Nat) : Fld := ⟨Reg.VALVE_SET i, 0, 8⟩
abbrev VALVE_ST_VSTATE (i : Nat) : Fld := ⟨Reg.VALVE_ST i, 0, 3⟩
abbrev VALVE_ST_PENDING (i : Nat) : Fld := ⟨Reg.VALVE_ST i, 3, 1⟩
abbrev VALVE_ST_LATE (i : Nat) : Fld := ⟨Reg.VALVE_ST i, 4, 1⟩
abbrev VALVE_ST_COIL_FAULT (i : Nat) : Fld := ⟨Reg.VALVE_ST i, 5, 1⟩
abbrev VALVE_ST_APPLIED (i : Nat) : Fld := ⟨Reg.VALVE_ST i, 8, 8⟩
abbrev VALVE_ST_I_MEAS (i : Nat) : Fld := ⟨Reg.VALVE_ST i, 16, 12⟩
abbrev COOLANT_STATUS_FLOW_VALID : Fld := ⟨Reg.COOLANT_STATUS, 0, 1⟩
abbrev COOLANT_STATUS_TIN_VALID : Fld := ⟨Reg.COOLANT_STATUS, 1, 1⟩
abbrev COOLANT_STATUS_TOUT_VALID : Fld := ⟨Reg.COOLANT_STATUS, 2, 1⟩
abbrev COOLANT_STATUS_PIN_VALID : Fld := ⟨Reg.COOLANT_STATUS, 3, 1⟩
abbrev COOLANT_STATUS_POUT_VALID : Fld := ⟨Reg.COOLANT_STATUS, 4, 1⟩
abbrev COOLANT_STATUS_TIN_DISAGREE : Fld := ⟨Reg.COOLANT_STATUS, 5, 1⟩
abbrev COOLANT_STATUS_TOUT_DISAGREE : Fld := ⟨Reg.COOLANT_STATUS, 6, 1⟩
abbrev COOLANT_STATUS_LEAK_L : Fld := ⟨Reg.COOLANT_STATUS, 7, 1⟩
abbrev COOLANT_LEAK_INFO_WET : Fld := ⟨Reg.COOLANT_LEAK_INFO, 0, 4⟩
abbrev COOLANT_LEAK_INFO_OPEN : Fld := ⟨Reg.COOLANT_LEAK_INFO, 4, 4⟩
abbrev COOLANT_LEAK_INFO_LATCHED : Fld := ⟨Reg.COOLANT_LEAK_INFO, 8, 1⟩
abbrev COOLANT_LEAK_INFO_CYCLED : Fld := ⟨Reg.COOLANT_LEAK_INFO, 9, 1⟩
abbrev COOLANT_LEAK_INFO_CLEAR_REFUSED : Fld := ⟨Reg.COOLANT_LEAK_INFO, 10, 1⟩
abbrev THERM_STATUS_CLAMPED : Fld := ⟨Reg.THERM_STATUS, 0, 1⟩
abbrev THERM_STATUS_FROZEN : Fld := ⟨Reg.THERM_STATUS, 1, 1⟩
abbrev THERM_STATUS_LOOP_MAX : Fld := ⟨Reg.THERM_STATUS, 2, 1⟩
abbrev THERM_STATUS_FLOW_LOW : Fld := ⟨Reg.THERM_STATUS, 3, 1⟩
abbrev THERM_STATUS_RUN_OK : Fld := ⟨Reg.THERM_STATUS, 4, 1⟩
abbrev THERM_STATUS_FLOW_FALLBACK : Fld := ⟨Reg.THERM_STATUS, 5, 1⟩
abbrev THERM_STATUS_TIN_FALLBACK : Fld := ⟨Reg.THERM_STATUS, 6, 1⟩
abbrev THERM_STATUS_RISE_ABNORMAL : Fld := ⟨Reg.THERM_STATUS, 7, 1⟩
abbrev THERM_STATUS_RACK_DEFAULT : Fld := ⟨Reg.THERM_STATUS, 8, 1⟩
abbrev THERM_STATUS_END_REQUESTED : Fld := ⟨Reg.THERM_STATUS, 9, 1⟩
abbrev THERM_CAP_EFF_CAP : Fld := ⟨Reg.THERM_CAP_EFF, 0, 16⟩
abbrev THERM_CAP_EFF_LIMITER : Fld := ⟨Reg.THERM_CAP_EFF, 16, 2⟩
abbrev THERM_LOOP_GAIN_KI : Fld := ⟨Reg.THERM_LOOP_GAIN, 0, 16⟩
abbrev THERM_LOOP_GAIN_KP : Fld := ⟨Reg.THERM_LOOP_GAIN, 16, 16⟩
abbrev THERM_JCT_CFG_KJ : Fld := ⟨Reg.THERM_JCT_CFG, 0, 8⟩
abbrev THERM_JCT_CFG_RELEASE : Fld := ⟨Reg.THERM_JCT_CFG, 8, 8⟩
abbrev THERM_JCT_CFG_GROVE_TARGET : Fld := ⟨Reg.THERM_JCT_CFG, 16, 8⟩
abbrev THERM_JCT_CFG_MEM_TARGET : Fld := ⟨Reg.THERM_JCT_CFG, 24, 8⟩
abbrev THERM_JCT_CFG2_FLOOR_TARGET : Fld := ⟨Reg.THERM_JCT_CFG2, 0, 8⟩
abbrev THERM_JCT_CFG2_AREA_TARGET : Fld := ⟨Reg.THERM_JCT_CFG2, 8, 8⟩
abbrev THERM_COOLANT_CFG_CF : Fld := ⟨Reg.THERM_COOLANT_CFG, 0, 16⟩
abbrev THERM_COOLANT_CFG_MARGIN : Fld := ⟨Reg.THERM_COOLANT_CFG, 16, 8⟩
abbrev THERM_COOLANT_CFG_RISE_TOL : Fld := ⟨Reg.THERM_COOLANT_CFG, 24, 8⟩
abbrev THERM_DEGRADED_LEVEL : Fld := ⟨Reg.THERM_DEGRADED, 0, 2⟩
abbrev THERM_DEGRADED_CAUSE : Fld := ⟨Reg.THERM_DEGRADED, 2, 4⟩
abbrev THERM_LIMITS_T_OUT_LIM : Fld := ⟨Reg.THERM_LIMITS, 16, 16⟩
abbrev TELEM_INST_TEMP_TOUT : Fld := ⟨Reg.TELEM_INST_TEMP, 16, 16⟩
abbrev GSENS_STATUS_A_VALID (g : Nat) : Fld := ⟨Reg.GSENS_STATUS g, 0, 1⟩
abbrev GSENS_STATUS_B_VALID (g : Nat) : Fld := ⟨Reg.GSENS_STATUS g, 1, 1⟩
abbrev GSENS_STATUS_DISAGREE (g : Nat) : Fld := ⟨Reg.GSENS_STATUS g, 2, 1⟩
abbrev GSENS_STATUS_AT_TRIP (g : Nat) : Fld := ⟨Reg.GSENS_STATUS g, 3, 1⟩
abbrev GSENS_STATUS_ABOVE_TARGET (g : Nat) : Fld := ⟨Reg.GSENS_STATUS g, 4, 1⟩
abbrev GSENS_STATUS_AT_MAX (g : Nat) : Fld := ⟨Reg.GSENS_STATUS g, 5, 1⟩
abbrev GLADE_STATUS_TABLE_MODE : Fld := ⟨Reg.GLADE_STATUS, 0, 1⟩
abbrev GLADE_STATUS_TM_CAUSE : Fld := ⟨Reg.GLADE_STATUS, 1, 2⟩
abbrev GLADE_STATUS_TM_FORCED : Fld := ⟨Reg.GLADE_STATUS, 3, 1⟩
abbrev GLADE_STATUS_TABLE_SRC : Fld := ⟨Reg.GLADE_STATUS, 4, 1⟩
abbrev GLADE_STATUS_FLOW_STOP : Fld := ⟨Reg.GLADE_STATUS, 5, 1⟩
abbrev GLADE_STATUS_SHDN : Fld := ⟨Reg.GLADE_STATUS, 6, 1⟩
abbrev GLADE_STATUS_ON_STANDBY : Fld := ⟨Reg.GLADE_STATUS, 7, 1⟩
abbrev GLADE_INPUT_VALID_FLOW : Fld := ⟨Reg.GLADE_INPUT_VALID, 0, 1⟩
abbrev GLADE_INPUT_VALID_TEMPS : Fld := ⟨Reg.GLADE_INPUT_VALID, 1, 4⟩
abbrev GLADE_INPUT_VALID_PRESS : Fld := ⟨Reg.GLADE_INPUT_VALID, 5, 2⟩
abbrev GLADE_INPUT_VALID_POWER : Fld := ⟨Reg.GLADE_INPUT_VALID, 7, 2⟩
abbrev GLADE_INPUT_VALID_PUMPS : Fld := ⟨Reg.GLADE_INPUT_VALID, 9, 3⟩
abbrev GLADE_INPUT_VALID_LEAK : Fld := ⟨Reg.GLADE_INPUT_VALID, 12, 4⟩
abbrev GLADE_TM_CTRL_EXIT_DELAY : Fld := ⟨Reg.GLADE_TM_CTRL, 0, 6⟩
abbrev GLADE_TM_CTRL_FORCE : Fld := ⟨Reg.GLADE_TM_CTRL, 6, 1⟩
abbrev GLADE_TM_STATE_ENTRY : Fld := ⟨Reg.GLADE_TM_STATE, 0, 4⟩
abbrev GLADE_TM_STATE_TM_TIME : Fld := ⟨Reg.GLADE_TM_STATE, 16, 16⟩
abbrev GLADE_TRIP_STRAP : Fld := ⟨Reg.GLADE_TRIP, 0, 2⟩
abbrev GLADE_TRIP_FUSE_MAX : Fld := ⟨Reg.GLADE_TRIP, 2, 2⟩
abbrev GLADE_TRIP_EFFECTIVE : Fld := ⟨Reg.GLADE_TRIP, 4, 2⟩
abbrev GLADE_TRIP_LATCHED : Fld := ⟨Reg.GLADE_TRIP, 6, 1⟩
abbrev GLADE_TRIP_GROVES : Fld := ⟨Reg.GLADE_TRIP, 16, 16⟩
abbrev GLADE_FLOW_STOP_INFO_RULE : Fld := ⟨Reg.GLADE_FLOW_STOP_INFO, 0, 2⟩
abbrev GLADE_FLOW_STOP_INFO_VALUE : Fld := ⟨Reg.GLADE_FLOW_STOP_INFO, 16, 16⟩
abbrev GLADE_ISLAND_LOG_COUNT : Fld := ⟨Reg.GLADE_ISLAND_LOG, 0, 6⟩
abbrev GLADE_ISLAND_LOG_OVERFLOW : Fld := ⟨Reg.GLADE_ISLAND_LOG, 6, 1⟩
abbrev GLADE_TM_ENTRY_LO_TOUT_MIN (i : Nat) : Fld := ⟨Reg.GLADE_TM_ENTRY_LO i, 0, 16⟩
abbrev GLADE_TM_ENTRY_LO_PUMP_CODE (i : Nat) : Fld := ⟨Reg.GLADE_TM_ENTRY_LO i, 16, 8⟩
abbrev GLADE_TM_ENTRY_LO_HOLD_GROVE (i : Nat) : Fld := ⟨Reg.GLADE_TM_ENTRY_LO i, 24, 8⟩
abbrev GLADE_TM_ENTRY_HI_HOLD_MEM (i : Nat) : Fld := ⟨Reg.GLADE_TM_ENTRY_HI i, 0, 8⟩
abbrev GLADE_TM_ENTRY_HI_HOLD_LINK (i : Nat) : Fld := ⟨Reg.GLADE_TM_ENTRY_HI i, 8, 8⟩
abbrev CANOPY_STATUS_HOLDER (k : Nat) : Fld := ⟨Reg.CANOPY_STATUS k, 0, 1⟩
abbrev CANOPY_STATUS_IN_CONTROL (k : Nat) : Fld := ⟨Reg.CANOPY_STATUS k, 1, 1⟩
abbrev CANOPY_STATUS_SEIZE_OK (k : Nat) : Fld := ⟨Reg.CANOPY_STATUS k, 2, 1⟩
abbrev CANOPY_STATUS_OVERLAP (k : Nat) : Fld := ⟨Reg.CANOPY_STATUS k, 3, 1⟩
abbrev CANOPY_TOKEN_CTL_CLAIM (k : Nat) : Fld := ⟨Reg.CANOPY_TOKEN_CTL k, 0, 1⟩
abbrev CANOPY_TOKEN_CTL_RELEASE (k : Nat) : Fld := ⟨Reg.CANOPY_TOKEN_CTL k, 1, 1⟩
abbrev CANOPY_TOKEN_CTL_HEARTBEAT (k : Nat) : Fld := ⟨Reg.CANOPY_TOKEN_CTL k, 2, 1⟩
abbrev CANOPY_TOKEN_CTL_RESUMED (k : Nat) : Fld := ⟨Reg.CANOPY_TOKEN_CTL k, 3, 1⟩
abbrev CANOPY_DIAG_SRAM_FAIL (k : Nat) : Fld := ⟨Reg.CANOPY_DIAG k, 0, 1⟩
abbrev CANOPY_DIAG_KAT_FAIL (k : Nat) : Fld := ⟨Reg.CANOPY_DIAG k, 1, 1⟩
abbrev CANOPY_DIAG_HASH_FAIL (k : Nat) : Fld := ⟨Reg.CANOPY_DIAG k, 2, 1⟩
abbrev CANOPY_DIAG_WDOG_FAIL (k : Nat) : Fld := ⟨Reg.CANOPY_DIAG k, 3, 1⟩
abbrev CANOPY_DIAG_WDOG_EXPIRED (k : Nat) : Fld := ⟨Reg.CANOPY_DIAG k, 4, 1⟩
abbrev CANOPY_DIAG_DIAG_RESTART (k : Nat) : Fld := ⟨Reg.CANOPY_DIAG k, 5, 1⟩
abbrev CANOPY_DIAG_RESTART_FAIL (k : Nat) : Fld := ⟨Reg.CANOPY_DIAG k, 6, 4⟩
abbrev CANOPY_SNOOP_FILL (k : Nat) : Fld := ⟨Reg.CANOPY_SNOOP k, 0, 13⟩
abbrev CANOPY_SNOOP_SHADOW_VALID (k : Nat) : Fld := ⟨Reg.CANOPY_SNOOP k, 13, 1⟩
abbrev CANOPY_SNOOP_OVERFLOW (k : Nat) : Fld := ⟨Reg.CANOPY_SNOOP k, 14, 1⟩
abbrev CANOPY_FW_FW_COPY (k : Nat) : Fld := ⟨Reg.CANOPY_FW k, 0, 1⟩
abbrev CANOPY_FW_FALLBACK (k : Nat) : Fld := ⟨Reg.CANOPY_FW k, 1, 1⟩
abbrev CANOPY_SWITCH_INFO_CAUSE (k : Nat) : Fld := ⟨Reg.CANOPY_SWITCH_INFO k, 0, 3⟩
abbrev DWOOD_COUNT_GENERAL : Fld := ⟨Reg.DWOOD_COUNT, 0, 13⟩
abbrev DWOOD_COUNT_PAGES : Fld := ⟨Reg.DWOOD_COUNT, 16, 13⟩
abbrev DWOOD_CLEAR_CLEAR : Fld := ⟨Reg.DWOOD_CLEAR, 0, 1⟩
abbrev MODULE_MSTATE_STATE : Fld := ⟨Reg.MODULE_MSTATE, 0, 3⟩
abbrev MODULE_MSTATE_BOOT_STEP : Fld := ⟨Reg.MODULE_MSTATE, 8, 3⟩
abbrev MODULE_MSTATE_WAIT : Fld := ⟨Reg.MODULE_MSTATE, 11, 1⟩
abbrev MODULE_MSTATE_WARM : Fld := ⟨Reg.MODULE_MSTATE, 12, 1⟩
abbrev MODULE_MSTATE_BOOT_FAIL : Fld := ⟨Reg.MODULE_MSTATE, 13, 1⟩
abbrev MODULE_MSTATE_DWOOD_FULL : Fld := ⟨Reg.MODULE_MSTATE, 14, 1⟩
abbrev MODULE_MSTATE_HOLD : Fld := ⟨Reg.MODULE_MSTATE, 15, 1⟩
abbrev MODULE_COMMAND_SERVICE_REQ : Fld := ⟨Reg.MODULE_COMMAND, 0, 1⟩
abbrev MODULE_COMMAND_RESTART : Fld := ⟨Reg.MODULE_COMMAND, 1, 1⟩
abbrev MODULE_COMMAND_HOLD : Fld := ⟨Reg.MODULE_COMMAND, 2, 1⟩
abbrev MODULE_COMMAND_WAKE : Fld := ⟨Reg.MODULE_COMMAND, 3, 1⟩
abbrev MODULE_BOOT_CTRL_STEP : Fld := ⟨Reg.MODULE_BOOT_CTRL, 0, 3⟩
abbrev MODULE_BOOT_CTRL_GO : Fld := ⟨Reg.MODULE_BOOT_CTRL, 3, 1⟩
abbrev MODULE_BOOT_CTRL_DONE : Fld := ⟨Reg.MODULE_BOOT_CTRL, 4, 1⟩
abbrev MODULE_BOOT_CFG_FORCE_COLD : Fld := ⟨Reg.MODULE_BOOT_CFG, 0, 1⟩
abbrev MODULE_BOOT_CFG_SYNC_ROLE : Fld := ⟨Reg.MODULE_BOOT_CFG, 1, 2⟩
abbrev MODULE_STRAPS_SLOT_ID : Fld := ⟨Reg.MODULE_STRAPS, 0, 6⟩
abbrev MODULE_STRAPS_BOOT_MODE : Fld := ⟨Reg.MODULE_STRAPS, 6, 2⟩
abbrev MODULE_STRAPS_TRIP_SEL : Fld := ⟨Reg.MODULE_STRAPS, 8, 2⟩
abbrev MODULE_STEP_TIME_RETRIED (i : Nat) : Fld := ⟨Reg.MODULE_STEP_TIME i, 16, 1⟩
abbrev MODULE_STEP_TIME_FAILED (i : Nat) : Fld := ⟨Reg.MODULE_STEP_TIME i, 17, 1⟩
abbrev MODULE_SHAPE_GROVES : Fld := ⟨Reg.MODULE_SHAPE, 0, 16⟩
abbrev MODULE_SHAPE_LENGINES : Fld := ⟨Reg.MODULE_SHAPE, 16, 8⟩
abbrev MODULE_SHAPE_UNITS_SAMPLE : Fld := ⟨Reg.MODULE_SHAPE_UNITS, 0, 1⟩
abbrev MODULE_SHAPE_UNITS_SVC : Fld := ⟨Reg.MODULE_SHAPE_UNITS, 8, 8⟩
abbrev MODULE_SHAPE_UNITS_CANOPY : Fld := ⟨Reg.MODULE_SHAPE_UNITS, 16, 2⟩
abbrev MODULE_SHAPE_UNITS_PUMPS : Fld := ⟨Reg.MODULE_SHAPE_UNITS, 18, 3⟩
abbrev EVT_STATUS_FILL : Fld := ⟨Reg.EVT_STATUS, 0, 10⟩
abbrev EVT_STATUS_OVERFLOW_PENDING : Fld := ⟨Reg.EVT_STATUS, 10, 1⟩
abbrev EVT_STATUS_CANOPY_HELD : Fld := ⟨Reg.EVT_STATUS, 11, 1⟩
abbrev EVT_ROUTE_RLOG_MIN : Fld := ⟨Reg.EVT_ROUTE, 0, 2⟩
abbrev EVT_ROUTE_MSI_MIN : Fld := ⟨Reg.EVT_ROUTE, 2, 2⟩
abbrev EVT_ROUTE_PLDM_MIN : Fld := ⟨Reg.EVT_ROUTE, 4, 2⟩
abbrev EVT_ROUTE_FWD_MIN : Fld := ⟨Reg.EVT_ROUTE, 6, 2⟩
abbrev EVT_ROUTE_FWD_EN : Fld := ⟨Reg.EVT_ROUTE, 8, 1⟩
abbrev EVT_LOAD_CTRL_START : Fld := ⟨Reg.EVT_LOAD_CTRL, 0, 1⟩
abbrev EVT_LOAD_CTRL_CANCEL : Fld := ⟨Reg.EVT_LOAD_CTRL, 1, 1⟩
abbrev EVT_LOAD_CFG_LOAD_TIMEOUT : Fld := ⟨Reg.EVT_LOAD_CFG, 0, 10⟩
abbrev EVT_MISSING_MEMBER_REFUSED : Fld := ⟨Reg.EVT_MISSING_MEMBER, 13, 1⟩
abbrev EVT_MISSING_MEMBER_REASON : Fld := ⟨Reg.EVT_MISSING_MEMBER, 16, 8⟩
abbrev EVT_GROUP_CTRL_REJOIN : Fld := ⟨Reg.EVT_GROUP_CTRL, 0, 1⟩
abbrev EVT_GROUP_CTRL_RESUME : Fld := ⟨Reg.EVT_GROUP_CTRL, 1, 1⟩
abbrev EVT_GROUP_STATUS_REJOIN_READY : Fld := ⟨Reg.EVT_GROUP_STATUS, 0, 1⟩
abbrev EVT_GROUP_STATUS_RESUME_BUSY : Fld := ⟨Reg.EVT_GROUP_STATUS, 1, 1⟩
abbrev EVT_GROUP_STATUS_CAUSE : Fld := ⟨Reg.EVT_GROUP_STATUS, 2, 3⟩
abbrev EVT_RESUME_INFO_TIMEOUT : Fld := ⟨Reg.EVT_RESUME_INFO, 16, 1⟩
abbrev RLOG_STATUS_READY : Fld := ⟨Reg.RLOG_STATUS, 0, 1⟩
abbrev RLOG_STATUS_CLEAR_BUSY : Fld := ⟨Reg.RLOG_STATUS, 1, 1⟩
abbrev RLOG_STATUS_DROP_EPISODE : Fld := ⟨Reg.RLOG_STATUS, 2, 1⟩
abbrev RLOG_STATUS_CLEAR_RESUMED : Fld := ⟨Reg.RLOG_STATUS, 3, 1⟩
abbrev RLOG_CNT_INFO_INFO : Fld := ⟨Reg.RLOG_CNT_INFO, 0, 17⟩
abbrev RLOG_DROP_LO_INFO : Fld := ⟨Reg.RLOG_DROP_LO, 0, 16⟩
abbrev RLOG_DROP_LO_WARN : Fld := ⟨Reg.RLOG_DROP_LO, 16, 16⟩
abbrev RLOG_DROP_HI_ERR : Fld := ⟨Reg.RLOG_DROP_HI, 0, 16⟩
abbrev RLOG_DROP_HI_CRIT : Fld := ⟨Reg.RLOG_DROP_HI, 16, 16⟩
abbrev RLOG_SEL_STATUS_SLOT : Fld := ⟨Reg.RLOG_SEL_STATUS, 0, 16⟩
abbrev RLOG_SEL_STATUS_FOUND : Fld := ⟨Reg.RLOG_SEL_STATUS, 16, 1⟩
abbrev RLOG_SEL_STATUS_CRC_OK : Fld := ⟨Reg.RLOG_SEL_STATUS, 17, 1⟩
abbrev RLOG_SEL_STATUS_EMPTY : Fld := ⟨Reg.RLOG_SEL_STATUS, 18, 1⟩
abbrev RLOG_CLEAR_SCOPE : Fld := ⟨Reg.RLOG_CLEAR, 0, 8⟩
abbrev RLOG_CLEAR_GO : Fld := ⟨Reg.RLOG_CLEAR, 8, 1⟩
abbrev HWOOD_KEYSTATE_O0_ENROLLED : Fld := ⟨Reg.HWOOD_KEYSTATE, 0, 1⟩
abbrev HWOOD_KEYSTATE_O0_REVOKED : Fld := ⟨Reg.HWOOD_KEYSTATE, 1, 1⟩
abbrev HWOOD_KEYSTATE_O1_ENROLLED : Fld := ⟨Reg.HWOOD_KEYSTATE, 2, 1⟩
abbrev HWOOD_KEYSTATE_O1_REVOKED : Fld := ⟨Reg.HWOOD_KEYSTATE, 3, 1⟩
abbrev HWOOD_PROTECT_TRIP_RAW : Fld := ⟨Reg.HWOOD_PROTECT, 0, 2⟩
abbrev HWOOD_PROTECT_TRIP_MAX : Fld := ⟨Reg.HWOOD_PROTECT, 2, 2⟩
abbrev HWOOD_PROTECT_CEIL_CODE : Fld := ⟨Reg.HWOOD_PROTECT, 4, 6⟩
abbrev HWOOD_PROTECT_TOUT_CODE : Fld := ⟨Reg.HWOOD_PROTECT, 10, 5⟩
abbrev HWOOD_PROTECT_FLOW_CODE : Fld := ⟨Reg.HWOOD_PROTECT, 15, 7⟩
abbrev HWOOD_PROTECT_RACK_CAP_REQUIRED : Fld := ⟨Reg.HWOOD_PROTECT, 22, 1⟩
abbrev HWOOD_PROTECT_DEBUG_LOCK : Fld := ⟨Reg.HWOOD_PROTECT, 23, 2⟩
abbrev HWOOD_LIMITS_T_OUT_LIM : Fld := ⟨Reg.HWOOD_LIMITS, 16, 16⟩
abbrev HWOOD_VARIANT_PART : Fld := ⟨Reg.HWOOD_VARIANT, 0, 2⟩
abbrev HWOOD_VARIANT_GROVES_FUSED : Fld := ⟨Reg.HWOOD_VARIANT, 2, 16⟩
abbrev HWOOD_VARIANT_LINKS_HI : Fld := ⟨Reg.HWOOD_VARIANT, 18, 1⟩
abbrev HWOOD_VARIANT_REDUCE : Fld := ⟨Reg.HWOOD_VARIANT, 19, 1⟩
abbrev HWOOD_VARIANT_SAMPLE : Fld := ⟨Reg.HWOOD_VARIANT, 20, 1⟩
abbrev HWOOD_VARIANT_SVC_HI : Fld := ⟨Reg.HWOOD_VARIANT, 21, 1⟩
abbrev HWOOD_FUSE_STATUS_LOADED : Fld := ⟨Reg.HWOOD_FUSE_STATUS, 0, 1⟩
abbrev HWOOD_FUSE_STATUS_PENDING : Fld := ⟨Reg.HWOOD_FUSE_STATUS, 1, 1⟩
abbrev HWOOD_FUSE_STATUS_MISMATCH : Fld := ⟨Reg.HWOOD_FUSE_STATUS, 2, 1⟩
abbrev SEC_STATUS_NONCE_VALID : Fld := ⟨Reg.SEC_STATUS, 0, 1⟩
abbrev SEC_STATUS_VERIFY_BUSY : Fld := ⟨Reg.SEC_STATUS, 1, 1⟩
abbrev SEC_STATUS_TOKEN_PENDING : Fld := ⟨Reg.SEC_STATUS, 2, 1⟩
abbrev SEC_STATUS_DEBUG_OPEN : Fld := ⟨Reg.SEC_STATUS, 3, 1⟩
abbrev SEC_STATUS_FW_BUSY : Fld := ⟨Reg.SEC_STATUS, 4, 1⟩
abbrev SEC_STATUS_REPORT_BUSY : Fld := ⟨Reg.SEC_STATUS, 5, 1⟩
abbrev SEC_STATUS_REPORT_VALID : Fld := ⟨Reg.SEC_STATUS, 6, 1⟩
abbrev SEC_TOKEN_CTL_NEW_NONCE : Fld := ⟨Reg.SEC_TOKEN_CTL, 0, 1⟩
abbrev SEC_TOKEN_CTL_VERIFY : Fld := ⟨Reg.SEC_TOKEN_CTL, 1, 1⟩
abbrev SEC_TOKEN_CTL_DISCARD : Fld := ⟨Reg.SEC_TOKEN_CTL, 2, 1⟩
abbrev SEC_TOKEN_REQ_SCOPE : Fld := ⟨Reg.SEC_TOKEN_REQ, 0, 8⟩
abbrev SEC_TOKEN_REQ_SIGNER : Fld := ⟨Reg.SEC_TOKEN_REQ, 8, 2⟩
abbrev SEC_TOKEN_RESULT_RESULT : Fld := ⟨Reg.SEC_TOKEN_RESULT, 0, 4⟩
abbrev SEC_TOKEN_RESULT_SCOPE : Fld := ⟨Reg.SEC_TOKEN_RESULT, 4, 8⟩
abbrev SEC_TOKEN_RESULT_TTL : Fld := ⟨Reg.SEC_TOKEN_RESULT, 16, 8⟩
abbrev SEC_FW_CTL_UPDATE : Fld := ⟨Reg.SEC_FW_CTL, 0, 1⟩
abbrev SEC_FW_STATUS_RESULT : Fld := ⟨Reg.SEC_FW_STATUS, 0, 4⟩
abbrev SEC_FW_STATUS_TARGET : Fld := ⟨Reg.SEC_FW_STATUS, 4, 1⟩
abbrev SEC_MEAS_CTL_INDEX : Fld := ⟨Reg.SEC_MEAS_CTL, 0, 4⟩
abbrev SEC_MEAS_CTL_EXTEND : Fld := ⟨Reg.SEC_MEAS_CTL, 8, 1⟩
abbrev SEC_REPORT_CTL_MASK : Fld := ⟨Reg.SEC_REPORT_CTL, 0, 16⟩
abbrev SEC_REPORT_CTL_GO : Fld := ⟨Reg.SEC_REPORT_CTL, 16, 1⟩
abbrev SIDEBAND_STATUS_MODE : Fld := ⟨Reg.SIDEBAND_STATUS, 0, 2⟩
abbrev SIDEBAND_STATUS_SILENT : Fld := ⟨Reg.SIDEBAND_STATUS, 2, 1⟩
abbrev SIDEBAND_STATUS_EID_VALID : Fld := ⟨Reg.SIDEBAND_STATUS, 3, 1⟩
abbrev SIDEBAND_STATUS_RECEIVER : Fld := ⟨Reg.SIDEBAND_STATUS, 4, 1⟩
abbrev SIDEBAND_STATUS_ALERT : Fld := ⟨Reg.SIDEBAND_STATUS, 5, 1⟩
abbrev SIDEBAND_ADDR_STATIC : Fld := ⟨Reg.SIDEBAND_ADDR, 0, 7⟩
abbrev SIDEBAND_ADDR_DYNAMIC : Fld := ⟨Reg.SIDEBAND_ADDR, 8, 7⟩
abbrev SIDEBAND_ADDR_EID : Fld := ⟨Reg.SIDEBAND_ADDR, 16, 8⟩
abbrev SIDEBAND_ADDR_TID : Fld := ⟨Reg.SIDEBAND_ADDR, 24, 8⟩
abbrev SIDEBAND_CONFIG_SILENT_TIMEOUT : Fld := ⟨Reg.SIDEBAND_CONFIG, 0, 8⟩

end F

/-! ## EVT_SUMMARY bits -/

namespace B

abbrev CLK_REF_LOST : Nat := 0
abbrev CLK_REF_RESTORED : Nat := 1
abbrev CLK_PLL_UNLOCK : Nat := 2
abbrev CLK_HOLDOVER_EXPIRED : Nat := 3
abbrev CLK_SYNC_DONE : Nat := 4
abbrev CLK_SYNC_MISMATCH : Nat := 5
abbrev CLK_SYNC_ROOT_CONFLICT : Nat := 6
abbrev ENGINE_RESIDUE : Nat := 0
abbrev ENGINE_LONG_OVF : Nat := 1
abbrev ENGINE_DYN_RANGE : Nat := 2
abbrev ENGINE_STAND_EVT : Nat := 3
abbrev ENGINE_FLAG_SET : Nat := 4
abbrev STAND_STEP_COMMIT : Nat := 0
abbrev STAND_STEP_ABORT : Nat := 1
abbrev STAND_PACE_CHANGE : Nat := 2
abbrev STAND_PACE_FAULT : Nat := 3
abbrev STAND_LOAD_REFUSED : Nat := 4
abbrev STAND_ISSUE_REFUSED : Nat := 5
abbrev STAND_ARMED : Nat := 6
abbrev STAND_SUSPENDED : Nat := 7
abbrev LINK_UP : Nat := 0
abbrev LINK_LOST : Nat := 1
abbrev LINK_TRAIN_FAIL : Nat := 2
abbrev LINK_UNCORR_FLIT : Nat := 3
abbrev LINK_POISON_RX : Nat := 4
abbrev LINK_LANE_WEAR : Nat := 5
abbrev LINK_SPARE_USED : Nat := 6
abbrev LINK_CHANNEL_FAULT : Nat := 7
abbrev LINK_MARGIN_LOW : Nat := 8
abbrev LINK_SLIP : Nat := 9
abbrev LINK_PARTNER_DOWN : Nat := 10
abbrev LINK_SCHED_MISMATCH : Nat := 11
abbrev LINK_ABORT_FOREIGN : Nat := 12
abbrev LINK_RREQ_DONE : Nat := 13
abbrev REDUCE_LONG_OVF : Nat := 0
abbrev REDUCE_REDUCE_POISON : Nat := 1
abbrev REDUCE_REDUCE_FAULT : Nat := 2
abbrev LPDDR_LPDDR_CORR : Nat := 0
abbrev LPDDR_LPDDR_UNCORR : Nat := 1
abbrev LPDDR_LPDDR_WEAR : Nat := 2
abbrev LPDDR_LPDDR_RETIRE_FULL : Nat := 3
abbrev LPDDR_LPDDR_HOT : Nat := 4
abbrev LPDDR_LPDDR_TRAIN_FAIL : Nat := 5
abbrev LPDDR_WIN_ALT_ACCESS : Nat := 6
abbrev LPDDR_LPDDR_FOLD_DONE : Nat := 7
abbrev LPDDR_POISON_READ : Nat := 8
abbrev HOSTDMA_LINK_DOWN : Nat := 0
abbrev HOSTDMA_LINK_DEGRADED : Nat := 1
abbrev HOSTDMA_DMA_ERROR : Nat := 2
abbrev HOSTDMA_AER : Nat := 3
abbrev HOSTDMA_POISON_RX : Nat := 4
abbrev HOSTDMA_ALIVE_LOST : Nat := 5
abbrev HOSTDMA_MEM_UNAVAILABLE : Nat := 6
abbrev HOSTDMA_BAR2_READ_ABORT : Nat := 7
abbrev SUBMIT_REC_REJECTED : Nat := 0
abbrev SUBMIT_SEQ_GAP : Nat := 1
abbrev SUBMIT_CQ_FULL : Nat := 2
abbrev SERVE_QUEUE_FULL : Nat := 0
abbrev SERVE_FOREIGN_ISSUE : Nat := 1
abbrev SERVE_BAD_OUTPUT : Nat := 2
abbrev SERVE_SEQ_FAULT : Nat := 3
abbrev SERVE_STAND_ENDED : Nat := 4
abbrev PUMP_PUMP_START_RETRY : Nat := 0
abbrev PUMP_PUMP_START_FAIL : Nat := 1
abbrev PUMP_PUMP_FAILED : Nat := 2
abbrev PUMP_TACH_LOST : Nat := 3
abbrev PUMP_PUMP_I_ABNORMAL : Nat := 4
abbrev PUMP_PUMP_INSUFFICIENT : Nat := 5
abbrev VALVE_VALVE_START_LATE : Nat := 0
abbrev VALVE_BANK_SATURATED : Nat := 1
abbrev VALVE_BANK_FAULT : Nat := 2
abbrev VALVE_COIL_FAULT : Nat := 3
abbrev VALVE_ISO_MOVED : Nat := 4
abbrev COOLANT_LEAK : Nat := 0
abbrev COOLANT_LEAK_SENSE_OPEN : Nat := 1
abbrev COOLANT_LEAK_CLEARED : Nat := 2
abbrev COOLANT_COOLANT_DISAGREE : Nat := 3
abbrev COOLANT_COOLANT_SENSOR_INVALID : Nat := 4
abbrev THERM_CAP_CLAMPED : Nat := 0
abbrev THERM_CAP_EXCEEDED : Nat := 1
abbrev THERM_POWER_EXCESS : Nat := 2
abbrev THERM_PACE_URGENT : Nat := 3
abbrev THERM_COOLING_DEGRADED : Nat := 4
abbrev THERM_FLOW_END : Nat := 5
abbrev THERM_SENSOR_INVALID : Nat := 6
abbrev GLADE_FLOW_STOP : Nat := 0
abbrev GLADE_TABLE_ENTER : Nat := 1
abbrev GLADE_TABLE_EXIT : Nat := 2
abbrev GLADE_TRIP : Nat := 3
abbrev GLADE_INPUT_TIMEOUT : Nat := 4
abbrev GLADE_POWER_INVALID : Nat := 5
abbrev GLADE_VIN_RANGE : Nat := 6
abbrev GLADE_ISLAND_OVERFLOW : Nat := 7
abbrev GLADE_OSC_RANGE : Nat := 8
abbrev CANOPY_TOKEN_RELEASED : Nat := 0
abbrev CANOPY_SWITCHOVER : Nat := 1
abbrev CANOPY_SEIZED : Nat := 2
abbrev CANOPY_REVOKED : Nat := 3
abbrev CANOPY_SNOOP_OVERFLOW : Nat := 4
abbrev CANOPY_CORE_FAILED : Nat := 5
abbrev CANOPY_FW_FALLBACK : Nat := 6
abbrev DWOOD_DWOOD_ADDED : Nat := 0
abbrev DWOOD_DWOOD_CLEARED : Nat := 1
abbrev DWOOD_DWOOD_FULL : Nat := 2
abbrev MODULE_BOOT_DONE : Nat := 0
abbrev MODULE_BOOT_STEP_FAIL : Nat := 1
abbrev MODULE_BOOT_FAIL : Nat := 2
abbrev MODULE_SHAPE_CHANGED : Nat := 3
abbrev MODULE_SERVICE_ENTER : Nat := 4
abbrev RLOG_LOG_CLEARED : Nat := 0
abbrev RLOG_LOG_DROP : Nat := 1
abbrev SEC_IMAGE_REJECTED : Nat := 0
abbrev SEC_TOKEN_ACCEPTED : Nat := 1
abbrev SEC_TOKEN_REJECTED : Nat := 2
abbrev SEC_DEBUG_UNLOCKED : Nat := 3
abbrev SIDEBAND_TRAY_SILENT : Nat := 0
abbrev SIDEBAND_TRAY_RESUMED : Nat := 1
abbrev SIDEBAND_SMBUS_FALLBACK : Nat := 2
abbrev SIDEBAND_RACK_CAP_SET : Nat := 3
abbrev GSRAM_SRAM_CORR : Nat := 0
abbrev GSRAM_SRAM_UNCORR : Nat := 1
abbrev GSRAM_SRAM_WEAR : Nat := 2
abbrev GSRAM_POISON_READ : Nat := 3
abbrev GWIN_WIN_ALT_ACCESS : Nat := 0
abbrev GWIN_FOLD_DONE : Nat := 1
abbrev FLOOR_XBAR_UNCORR : Nat := 0
abbrev FLOOR_ADDR_INVALID : Nat := 1
abbrev SAMPLE_SAMPLE_NAN : Nat := 0
abbrev SAMPLE_SAMPLE_CLAMP : Nat := 1
abbrev SAMPLE_SAMPLE_FAULT : Nat := 2
abbrev SVC_CORE_HANG : Nat := 0
abbrev SVC_FW_REJECTED : Nat := 1
abbrev GSENS_SENSOR_DISAGREE : Nat := 0
abbrev GSENS_SENSOR_INVALID : Nat := 1
abbrev GSENS_SENSOR_BOTH_INVALID : Nat := 2
abbrev EVT_OVERFLOW : Nat := 0
abbrev EVT_TEST : Nat := 1
abbrev ERR_INC : Nat := 30
abbrev STATE_CHG : Nat := 31

end B

/-! ## Event codes and severities (Table 18.4): class [15:8], code [7:0] -/

/-- An event code and the severity Table 18.4 gives it (0 INFO, 1 WARN, 2 ERR, 3 CRIT). -/
structure EvKind where
  code : Nat
  sev  : Nat
  deriving DecidableEq, Repr

namespace Evn

abbrev GLADE_FLOW_STOP : EvKind := ⟨0x0101, 3⟩
abbrev GLADE_TRIP : EvKind := ⟨0x0102, 3⟩
abbrev GLADE_TABLE_ENTER : EvKind := ⟨0x0103, 1⟩
abbrev GLADE_TABLE_EXIT : EvKind := ⟨0x0104, 0⟩
abbrev GLADE_INPUT_TIMEOUT : EvKind := ⟨0x0105, 1⟩
abbrev GLADE_POWER_INVALID : EvKind := ⟨0x0106, 2⟩
abbrev GLADE_VIN_RANGE : EvKind := ⟨0x0107, 1⟩
abbrev GLADE_ISLAND_OVERFLOW : EvKind := ⟨0x0108, 1⟩
abbrev GLADE_OSC_RANGE : EvKind := ⟨0x0109, 2⟩
abbrev FLUID_LEAK : EvKind := ⟨0x0201, 3⟩
abbrev FLUID_LEAK_CLEARED : EvKind := ⟨0x0202, 3⟩
abbrev FLUID_LEAK_SENSE_OPEN : EvKind := ⟨0x0203, 1⟩
abbrev FLUID_PUMP_START_RETRY : EvKind := ⟨0x0204, 1⟩
abbrev FLUID_PUMP_START_FAIL : EvKind := ⟨0x0205, 2⟩
abbrev FLUID_PUMP_FAILED : EvKind := ⟨0x0206, 2⟩
abbrev FLUID_TACH_LOST : EvKind := ⟨0x0207, 1⟩
abbrev FLUID_PUMP_I_ABNORMAL : EvKind := ⟨0x0208, 1⟩
abbrev FLUID_PUMP_INSUFFICIENT : EvKind := ⟨0x0209, 3⟩
abbrev FLUID_VALVE_START_LATE : EvKind := ⟨0x020A, 1⟩
abbrev FLUID_BANK_SATURATED : EvKind := ⟨0x020B, 1⟩
abbrev FLUID_BANK_FAULT : EvKind := ⟨0x020C, 2⟩
abbrev FLUID_COIL_FAULT : EvKind := ⟨0x020D, 1⟩
abbrev FLUID_ISO_MOVED : EvKind := ⟨0x020E, 0⟩
abbrev FLUID_COOLANT_DISAGREE : EvKind := ⟨0x020F, 1⟩
abbrev FLUID_COOLANT_SENSOR_INVALID : EvKind := ⟨0x0210, 1⟩
abbrev THERM_SENSOR_INVALID : EvKind := ⟨0x0301, 1⟩
abbrev THERM_SENSOR_DISAGREE : EvKind := ⟨0x0302, 1⟩
abbrev THERM_CAP_CLAMPED : EvKind := ⟨0x0303, 0⟩
abbrev THERM_CAP_EXCEEDED : EvKind := ⟨0x0304, 1⟩
abbrev THERM_PACE_URGENT : EvKind := ⟨0x0305, 2⟩
abbrev THERM_COOLING_DEGRADED : EvKind := ⟨0x0306, 0⟩
abbrev THERM_FLOW_END : EvKind := ⟨0x0307, 2⟩
abbrev LINK_UP : EvKind := ⟨0x0401, 0⟩
abbrev LINK_LOST : EvKind := ⟨0x0402, 2⟩
abbrev LINK_TRAIN_FAIL : EvKind := ⟨0x0403, 2⟩
abbrev LINK_UNCORR_FLIT : EvKind := ⟨0x0404, 2⟩
abbrev LINK_POISON_RX : EvKind := ⟨0x0405, 1⟩
abbrev LINK_LANE_WEAR : EvKind := ⟨0x0406, 1⟩
abbrev LINK_SPARE_USED : EvKind := ⟨0x0407, 0⟩
abbrev LINK_CHANNEL_FAULT : EvKind := ⟨0x0408, 1⟩
abbrev LINK_MARGIN_LOW : EvKind := ⟨0x0409, 1⟩
abbrev LINK_SLIP : EvKind := ⟨0x040A, 1⟩
abbrev LINK_PARTNER_DOWN : EvKind := ⟨0x040B, 1⟩
abbrev LINK_SCHED_MISMATCH : EvKind := ⟨0x040C, 2⟩
abbrev LINK_ABORT_FOREIGN : EvKind := ⟨0x040D, 1⟩
abbrev LINK_RREQ_DONE : EvKind := ⟨0x040E, 0⟩
abbrev LINK_REDUCE_POISON : EvKind := ⟨0x040F, 1⟩
abbrev LINK_REDUCE_FAULT : EvKind := ⟨0x0410, 2⟩
abbrev CLK_REF_LOST : EvKind := ⟨0x0501, 3⟩
abbrev CLK_REF_RESTORED : EvKind := ⟨0x0502, 0⟩
abbrev CLK_PLL_UNLOCK : EvKind := ⟨0x0503, 2⟩
abbrev CLK_HOLDOVER_EXPIRED : EvKind := ⟨0x0504, 2⟩
abbrev CLK_SYNC_DONE : EvKind := ⟨0x0505, 0⟩
abbrev CLK_SYNC_MISMATCH : EvKind := ⟨0x0506, 2⟩
abbrev CLK_SYNC_ROOT_CONFLICT : EvKind := ⟨0x0507, 1⟩
abbrev MEM_SRAM_CORR : EvKind := ⟨0x0601, 0⟩
abbrev MEM_SRAM_UNCORR : EvKind := ⟨0x0602, 2⟩
abbrev MEM_SRAM_WEAR : EvKind := ⟨0x0603, 1⟩
abbrev MEM_XBAR_UNCORR : EvKind := ⟨0x0604, 2⟩
abbrev MEM_WIN_ALT_ACCESS : EvKind := ⟨0x0605, 1⟩
abbrev MEM_FOLD_DONE : EvKind := ⟨0x0606, 0⟩
abbrev MEM_ADDR_INVALID : EvKind := ⟨0x0607, 1⟩
abbrev MEM_POISON_READ : EvKind := ⟨0x0608, 1⟩
abbrev MEM_LPDDR_CORR : EvKind := ⟨0x0609, 0⟩
abbrev MEM_LPDDR_UNCORR : EvKind := ⟨0x060A, 2⟩
abbrev MEM_LPDDR_WEAR : EvKind := ⟨0x060B, 1⟩
abbrev MEM_LPDDR_RETIRE_FULL : EvKind := ⟨0x060C, 2⟩
abbrev MEM_LPDDR_HOT : EvKind := ⟨0x060D, 2⟩
abbrev MEM_LPDDR_TRAIN_FAIL : EvKind := ⟨0x060E, 2⟩
abbrev MEM_LPDDR_FOLD_DONE : EvKind := ⟨0x060F, 0⟩
abbrev COMPUTE_PACE_FAULT : EvKind := ⟨0x0701, 2⟩
abbrev COMPUTE_STEP_COMMIT : EvKind := ⟨0x0702, 0⟩
abbrev COMPUTE_STEP_ABORT : EvKind := ⟨0x0703, 1⟩
abbrev COMPUTE_PACE_CHANGE : EvKind := ⟨0x0704, 0⟩
abbrev COMPUTE_ENGINE_RESIDUE : EvKind := ⟨0x0705, 2⟩
abbrev COMPUTE_LONG_OVF : EvKind := ⟨0x0706, 2⟩
abbrev COMPUTE_DYN_RANGE : EvKind := ⟨0x0707, 2⟩
abbrev COMPUTE_FN_RESET_ABORT : EvKind := ⟨0x0708, 2⟩
abbrev COMPUTE_STAND_EVT : EvKind := ⟨0x0709, 0⟩
abbrev COMPUTE_FLAG_SET : EvKind := ⟨0x070A, 0⟩
abbrev COMPUTE_LOAD_REFUSED : EvKind := ⟨0x070B, 1⟩
abbrev COMPUTE_ISSUE_REFUSED : EvKind := ⟨0x070C, 1⟩
abbrev COMPUTE_ARMED : EvKind := ⟨0x070D, 0⟩
abbrev COMPUTE_LOAD_INCOMPLETE : EvKind := ⟨0x070E, 2⟩
abbrev COMPUTE_SUSPENDED : EvKind := ⟨0x070F, 1⟩
abbrev COMPUTE_RESUMED : EvKind := ⟨0x0710, 0⟩
abbrev COMPUTE_RESUME_REFUSED : EvKind := ⟨0x0711, 2⟩
abbrev COMPUTE_UNLOADED : EvKind := ⟨0x0712, 0⟩
abbrev HOST_LINK_DOWN : EvKind := ⟨0x0801, 2⟩
abbrev HOST_LINK_DEGRADED : EvKind := ⟨0x0802, 1⟩
abbrev HOST_DMA_ERROR : EvKind := ⟨0x0803, 2⟩
abbrev HOST_AER : EvKind := ⟨0x0804, 2⟩
abbrev HOST_POISON_RX : EvKind := ⟨0x0805, 1⟩
abbrev HOST_ALIVE_LOST : EvKind := ⟨0x0806, 1⟩
abbrev HOST_MEM_UNAVAILABLE : EvKind := ⟨0x0807, 1⟩
abbrev HOST_BAR2_READ_ABORT : EvKind := ⟨0x0808, 1⟩
abbrev HOST_REC_REJECTED : EvKind := ⟨0x0809, 1⟩
abbrev HOST_SEQ_GAP : EvKind := ⟨0x080A, 1⟩
abbrev HOST_CQ_FULL : EvKind := ⟨0x080B, 1⟩
abbrev SERVICE_CORE_HANG : EvKind := ⟨0x0901, 2⟩
abbrev SERVICE_FW_REJECTED : EvKind := ⟨0x0902, 2⟩
abbrev SERVICE_FOREIGN_ISSUE : EvKind := ⟨0x0903, 2⟩
abbrev SERVICE_BAD_OUTPUT : EvKind := ⟨0x0904, 2⟩
abbrev SERVICE_SEQ_FAULT : EvKind := ⟨0x0905, 2⟩
abbrev SERVICE_STAND_ENDED : EvKind := ⟨0x0906, 0⟩
abbrev SERVICE_QUEUE_FULL : EvKind := ⟨0x0907, 1⟩
abbrev SERVICE_SAMPLE_NAN : EvKind := ⟨0x0908, 1⟩
abbrev SERVICE_SAMPLE_CLAMP : EvKind := ⟨0x0909, 0⟩
abbrev SERVICE_SAMPLE_FAULT : EvKind := ⟨0x090A, 2⟩
abbrev CANOPY_TOKEN_RELEASED : EvKind := ⟨0x0A01, 1⟩
abbrev CANOPY_SWITCHOVER : EvKind := ⟨0x0A02, 1⟩
abbrev CANOPY_SEIZED : EvKind := ⟨0x0A03, 2⟩
abbrev CANOPY_REVOKED : EvKind := ⟨0x0A04, 2⟩
abbrev CANOPY_SNOOP_OVERFLOW : EvKind := ⟨0x0A05, 1⟩
abbrev CANOPY_CORE_FAILED : EvKind := ⟨0x0A06, 3⟩
abbrev CANOPY_FW_FALLBACK : EvKind := ⟨0x0A07, 2⟩
abbrev MODULE_BOOT_DONE : EvKind := ⟨0x0B01, 0⟩
abbrev MODULE_BOOT_STEP_FAIL : EvKind := ⟨0x0B02, 2⟩
abbrev MODULE_BOOT_FAIL : EvKind := ⟨0x0B03, 3⟩
abbrev MODULE_SHAPE_CHANGED : EvKind := ⟨0x0B04, 1⟩
abbrev MODULE_SERVICE_ENTER : EvKind := ⟨0x0B05, 0⟩
abbrev MODULE_DWOOD_ADDED : EvKind := ⟨0x0B06, 1⟩
abbrev MODULE_DWOOD_CLEARED : EvKind := ⟨0x0B07, 3⟩
abbrev MODULE_DWOOD_FULL : EvKind := ⟨0x0B08, 3⟩
abbrev EVT_OVERFLOW : EvKind := ⟨0x0C01, 2⟩
abbrev EVT_TEST : EvKind := ⟨0x0C02, 0⟩
abbrev RLOG_LOG_CLEARED : EvKind := ⟨0x0D01, 3⟩
abbrev RLOG_LOG_DROP : EvKind := ⟨0x0D02, 1⟩
abbrev SEC_IMAGE_REJECTED : EvKind := ⟨0x0E01, 2⟩
abbrev SEC_TOKEN_ACCEPTED : EvKind := ⟨0x0E02, 0⟩
abbrev SEC_TOKEN_REJECTED : EvKind := ⟨0x0E03, 1⟩
abbrev SEC_DEBUG_UNLOCKED : EvKind := ⟨0x0E04, 3⟩
abbrev SIDEBAND_TRAY_SILENT : EvKind := ⟨0x0F01, 1⟩
abbrev SIDEBAND_TRAY_RESUMED : EvKind := ⟨0x0F02, 0⟩
abbrev SIDEBAND_SMBUS_FALLBACK : EvKind := ⟨0x0F03, 1⟩
abbrev SIDEBAND_RACK_CAP_SET : EvKind := ⟨0x0F04, 0⟩

end Evn

/-! ## Register rows -/

/-- The header rows of Table 2.1 (PAGE_ID, PAGE_VER and STATE are per page: see `resetOf`). -/
def headerRows : List RegRow :=
  [ ⟨0x00, 1, 4, 0, 0, 0, false, 0, false⟩, ⟨0x04, 1, 4, 0, 0, 0, false, 0x10000, false⟩, ⟨0x08, 1, 4, 0, 0, 0, false, 0, false⟩,
    ⟨0x0C, 1, 4, 0, 0, 0, false, 1, false⟩, ⟨0x10, 1, 4, 0, 0, 0x7, false, 0, false⟩, ⟨0x14, 1, 4, 0, 0xFFFFFFFF, 0, false, 0, false⟩,
    ⟨0x18, 1, 4, 0xFFFFFFFF, 0, 0, false, 0, false⟩, ⟨0x1C, 1, 4, 0xFFFFFFFF, 0, 0, false, 0, false⟩, ⟨0x20, 1, 4, 0, 0, 0, true, 0, false⟩,
    ⟨0x24, 1, 4, 0, 0, 0, false, 0, false⟩ ]

/-- Block registers of the ARB page. -/
def rowsARB : List RegRow :=
  [ ⟨0x40, 1, 0x4, 0x0, 0x0, 0x0, false, 0x0, false⟩, ⟨0x44, 1, 0x4, 0x0, 0x0, 0x0, false, 0x0, false⟩, ⟨0x48, 1, 0x4, 0x0, 0x0, 0x0, false, 0x0, false⟩,
    ⟨0x4C, 1, 0x4, 0x0, 0x0, 0x0, false, 0x0, false⟩, ⟨0x50, 1, 0x4, 0x0, 0x0, 0x0, false, 0x0, false⟩, ⟨0x54, 1, 0x4, 0x0, 0x0, 0x0, true, 0x0, false⟩ ]

/-- Block registers of the CLK page. -/
def rowsCLK : List RegRow :=
  [ ⟨0x40, 1, 0x4, 0x0, 0x0, 0x0, false, 0x0, false⟩, ⟨0x44, 1, 0x4, 0x1, 0x0, 0x2, false, 0x0, false⟩, ⟨0x48, 1, 0x4, 0xFFFFFFFF, 0x0, 0x0, false, 0x0, false⟩,
    ⟨0x4C, 1, 0x4, 0x0, 0x0, 0x0, false, 0x0, false⟩, ⟨0x50, 1, 0x4, 0x0, 0x0, 0x0, false, 0x0, false⟩, ⟨0x54, 1, 0x4, 0xFFFFFFFF, 0x0, 0x0, false, 0x0, false⟩,
    ⟨0x58, 1, 0x4, 0xFFFFFFFF, 0x0, 0x0, false, 0x0, false⟩, ⟨0x5C, 1, 0x4, 0x0, 0x0, 0x0, false, 0x0, false⟩, ⟨0x60, 1, 0x4, 0x0, 0x0, 0x0, false, 0x0, false⟩,
    ⟨0x64, 1, 0x4, 0x0, 0x0, 0x0, false, 0x0, false⟩, ⟨0x68, 1, 0x4, 0x0, 0x0, 0x0, false, 0x0, false⟩, ⟨0x6C, 1, 0x4, 0x0, 0x0, 0x0, false, 0x0, false⟩,
    ⟨0x70, 1, 0x4, 0x0, 0x0, 0x0, false, 0x0, false⟩, ⟨0x74, 1, 0x4, 0x0, 0x0, 0x0, false, 0x0, false⟩ ]

/-- Block registers of the ENGINE page. -/
def rowsENGINE : List RegRow :=
  [ ⟨0x40, 1, 0x4, 0x0, 0x0, 0x0, false, 0x0, true⟩, ⟨0x44, 1, 0x4, 0x0, 0x0, 0x0, false, 0x0, false⟩, ⟨0x48, 1, 0x4, 0x0, 0x0, 0x0, false, 0x0, false⟩,
    ⟨0x4C, 1, 0x4, 0x0, 0x3F, 0x0, false, 0x0, false⟩, ⟨0x50, 1, 0x4, 0x0, 0x0, 0x0, false, 0x0, false⟩, ⟨0x54, 1, 0x4, 0x0, 0x0, 0x0, false, 0x0, false⟩,
    ⟨0x58, 1, 0x4, 0x0, 0x0, 0x0, false, 0x0, false⟩, ⟨0x5C, 1, 0x4, 0x0, 0x0, 0x0, false, 0x0, false⟩, ⟨0x60, 1, 0x4, 0x0, 0x0, 0x0, false, 0x0, false⟩,
    ⟨0x64, 1, 0x4, 0x0, 0x0, 0x0, false, 0x0, false⟩ ]

/-- Block registers of the GROVE page. -/
def rowsGROVE : List RegRow :=
  [ ⟨0x40, 1, 0x4, 0x0, 0x0, 0x0, false, 0xFFFFFFFF, true⟩, ⟨0x44, 1, 0x4, 0x0, 0x0, 0x0, false, 0x0, true⟩, ⟨0x48, 1, 0x4, 0x0, 0x0, 0x0, false, 0x0, false⟩,
    ⟨0x4C, 1, 0x4, 0x0, 0x0, 0x0, false, 0x0, false⟩ ]

/-- Block registers of the GSRAM page. -/
def rowsGSRAM : List RegRow :=
  [ ⟨0x40, 1, 0x4, 0x0, 0x0, 0x0, true, 0x0, false⟩, ⟨0x44, 1, 0x4, 0x0, 0x0, 0x0, true, 0x0, false⟩, ⟨0x48, 1, 0x4, 0x0, 0x0, 0x0, false, 0x0, false⟩,
    ⟨0x4C, 1, 0x4, 0x0, 0x0, 0x0, false, 0x0, false⟩, ⟨0x50, 1, 0x4, 0xFFFFFFFF, 0x0, 0x0, false, 0x1000, false⟩, ⟨0x54, 1, 0x4, 0x0, 0x0, 0x0, false, 0x0, true⟩,
    ⟨0x58, 1, 0x4, 0x0, 0x0, 0x0, false, 0x0, true⟩, ⟨0x80, 16, 0x4, 0x0, 0x0, 0x0, false, 0x0, true⟩ ]

/-- Block registers of the GWIN page. -/
def rowsGWIN : List RegRow :=
  [ ⟨0x40, 1, 0x4, 0x0, 0x0, 0x0, false, 0x0, false⟩, ⟨0x44, 1, 0x4, 0x0, 0x0, 0x0, false, 0x0, false⟩, ⟨0x48, 1, 0x4, 0x0, 0x0, 0x0, false, 0x0, false⟩,
    ⟨0x4C, 1, 0x4, 0x0, 0x0, 0x0, false, 0x0, false⟩, ⟨0x50, 1, 0x4, 0x0, 0x0, 0x0, false, 0x0, false⟩, ⟨0x100, 64, 0x10, 0x0, 0x0, 0x0, false, 0x0, false⟩,
    ⟨0x104, 64, 0x10, 0x0, 0x0, 0x0, false, 0x0, false⟩, ⟨0x108, 64, 0x10, 0x0, 0x0, 0x0, false, 0x0, false⟩, ⟨0x10C, 64, 0x10, 0x0, 0x0, 0x0, false, 0x0, false⟩ ]

/-- Block registers of the GDMA page. -/
def rowsGDMA : List RegRow :=
  [ ⟨0x40, 1, 0x4, 0x0, 0x0, 0x0, false, 0x0, false⟩, ⟨0x44, 1, 0x4, 0x0, 0x0, 0x0, false, 0x0, false⟩, ⟨0x48, 1, 0x4, 0x0, 0x0, 0x0, false, 0x0, false⟩,
    ⟨0x4C, 1, 0x4, 0x0, 0x0, 0x0, false, 0x0, false⟩, ⟨0x80, 16, 0x4, 0x0, 0x0, 0x0, false, 0x0, false⟩ ]

/-- Block registers of the FLOOR page. -/
def rowsFLOOR : List RegRow :=
  [ ⟨0x40, 1, 0x4, 0x0, 0x0, 0x0, false, 0x0, false⟩, ⟨0x44, 1, 0x4, 0x0, 0x0, 0x0, false, 0x0, false⟩, ⟨0x48, 1, 0x4, 0x0, 0x0, 0x0, false, 0x0, false⟩,
    ⟨0x4C, 1, 0x4, 0x0, 0x0, 0x0, true, 0x0, false⟩ ]

/-- Block registers of the STAND page. -/
def rowsSTAND : List RegRow :=
  [ ⟨0x40, 1, 0x4, 0x0, 0x0, 0x0, false, 0x0, false⟩, ⟨0x44, 1, 0x4, 0x0, 0x0, 0xF, false, 0x0, false⟩, ⟨0x48, 1, 0x4, 0x0, 0x0, 0x0, false, 0x0, false⟩,
    ⟨0x4C, 1, 0x4, 0x0, 0x0, 0x0, false, 0x0, false⟩, ⟨0x50, 1, 0x4, 0x0, 0x0, 0x0, false, 0x0, false⟩, ⟨0x54, 1, 0x4, 0x0, 0x0, 0x0, false, 0x0, false⟩,
    ⟨0x58, 1, 0x4, 0x0, 0x0, 0x0, false, 0x0, false⟩, ⟨0x5C, 1, 0x4, 0xFFFFFFFF, 0x0, 0x0, false, 0x0, false⟩, ⟨0x60, 1, 0x4, 0xFFFFFFFF, 0x0, 0x0, false, 0x0, false⟩,
    ⟨0x64, 1, 0x4, 0x0, 0x0, 0x0, false, 0x0, false⟩, ⟨0x68, 1, 0x4, 0x0, 0x0, 0x0, false, 0x0, false⟩, ⟨0x6C, 1, 0x4, 0x0, 0x0, 0x0, false, 0x0, false⟩,
    ⟨0x70, 1, 0x4, 0x0, 0x0, 0x0, false, 0x0, false⟩, ⟨0x74, 1, 0x4, 0x0, 0x0, 0x0, false, 0x0, false⟩, ⟨0x78, 1, 0x4, 0x0, 0x0, 0x0, false, 0x0, false⟩,
    ⟨0x7C, 1, 0x4, 0x0, 0x0, 0x0, false, 0x0, false⟩, ⟨0x80, 1, 0x4, 0x0, 0x0, 0x0, false, 0x0, false⟩, ⟨0x84, 1, 0x4, 0x0, 0x0, 0x0, false, 0x0, false⟩,
    ⟨0x88, 1, 0x4, 0x0, 0x0, 0x0, false, 0x0, false⟩, ⟨0x8C, 1, 0x4, 0x3FFF, 0x0, 0x0, false, 0x0, false⟩, ⟨0x90, 1, 0x4, 0x0, 0x0, 0x0, false, 0x0, false⟩,
    ⟨0x94, 1, 0x4, 0x0, 0x0, 0x0, false, 0x0, false⟩, ⟨0x98, 1, 0x4, 0x0, 0x0, 0x0, false, 0x0, false⟩, ⟨0x9C, 1, 0x4, 0x0, 0x0, 0x0, false, 0x0, false⟩,
    ⟨0xA0, 1, 0x4, 0x0, 0x0, 0x0, false, 0x0, false⟩, ⟨0xA4, 1, 0x4, 0x0, 0x0, 0x0, false, 0x0, false⟩, ⟨0xA8, 1, 0x4, 0x0, 0x0, 0x0, false, 0x0, false⟩,
    ⟨0xAC, 1, 0x4, 0x0, 0x0, 0x0, false, 0x0, false⟩, ⟨0xB0, 1, 0x4, 0x0, 0x0, 0x0, false, 0x0, false⟩, ⟨0xB4, 1, 0x4, 0x0, 0x0, 0x0, false, 0x0, false⟩ ]

/-- Block registers of the LINK page. -/
def rowsLINK : List RegRow :=
  [ ⟨0x40, 1, 0x4, 0x0, 0x0, 0x0, false, 0x0, false⟩, ⟨0x44, 1, 0x4, 0x0, 0x0, 0x0, false, 0x0, false⟩, ⟨0x48, 1, 0x4, 0x0, 0x0, 0x0, false, 0x0, false⟩,
    ⟨0x4C, 1, 0x4, 0x0, 0x0, 0x0, false, 0x0, false⟩, ⟨0x50, 1, 0x4, 0x0, 0x0, 0x0, false, 0x0, false⟩, ⟨0x54, 1, 0x4, 0x0, 0x0, 0x0, false, 0x0, false⟩,
    ⟨0x58, 1, 0x4, 0x0, 0x0, 0x0, true, 0x0, false⟩, ⟨0x5C, 1, 0x4, 0x0, 0x0, 0x0, true, 0x0, false⟩, ⟨0x60, 1, 0x4, 0x0, 0x0, 0x0, true, 0x0, false⟩,
    ⟨0x64, 1, 0x4, 0x0, 0x0, 0x0, false, 0x0, false⟩, ⟨0x68, 1, 0x4, 0xFF01, 0x0, 0x0, false, 0x2800, false⟩, ⟨0x6C, 1, 0x4, 0xFFFFFFFF, 0x0, 0x0, false, 0x400, false⟩,
    ⟨0x70, 9, 0x4, 0x0, 0x0, 0x0, false, 0x0, false⟩, ⟨0x94, 1, 0x4, 0x0, 0x0, 0x0, false, 0x0, false⟩, ⟨0x98, 1, 0x4, 0x0, 0x0, 0x0, false, 0x0, false⟩,
    ⟨0x9C, 1, 0x4, 0x0, 0x0, 0x0, false, 0x0, false⟩, ⟨0xA0, 1, 0x4, 0x0, 0x0, 0x0, true, 0x0, false⟩, ⟨0xC0, 1, 0x4, 0xFE, 0x0, 0x1, false, 0x0, false⟩,
    ⟨0xC4, 1, 0x4, 0xFFFFFFFF, 0x0, 0x0, false, 0x0, false⟩, ⟨0xC8, 1, 0x4, 0xFFFFFFFF, 0x0, 0x0, false, 0x0, false⟩, ⟨0xD0, 8, 0x4, 0xFFFFFFFF, 0x0, 0x0, false, 0x0, false⟩ ]

/-- Block registers of the REDUCE page. -/
def rowsREDUCE : List RegRow :=
  [ ⟨0x40, 1, 0x4, 0x0, 0x0, 0x0, false, 0x0, false⟩, ⟨0x44, 1, 0x4, 0x0, 0x0, 0x0, false, 0x0, false⟩, ⟨0x48, 1, 0x4, 0x0, 0x0, 0x0, false, 0x0, false⟩,
    ⟨0x4C, 1, 0x4, 0x0, 0x0, 0x0, false, 0x0, false⟩, ⟨0x50, 1, 0x4, 0x0, 0x0, 0x0, false, 0x0, false⟩, ⟨0x54, 1, 0x4, 0x0, 0x0, 0x0, false, 0x0, false⟩,
    ⟨0x58, 1, 0x4, 0x0, 0x0, 0x0, true, 0x0, false⟩, ⟨0x5C, 1, 0x4, 0x0, 0x0, 0x0, true, 0x0, false⟩, ⟨0x60, 1, 0x4, 0x0, 0x0, 0x0, false, 0x0, false⟩ ]

/-- Block registers of the LPDDR page. -/
def rowsLPDDR : List RegRow :=
  [ ⟨0x40, 1, 0x4, 0x0, 0x0, 0x0, false, 0x0, false⟩, ⟨0x44, 1, 0x4, 0xFF01, 0x0, 0x0, false, 0x800, false⟩, ⟨0x48, 1, 0x4, 0x0, 0x0, 0x0, false, 0x0, true⟩,
    ⟨0x4C, 1, 0x4, 0x0, 0x0, 0x0, true, 0x0, false⟩, ⟨0x50, 1, 0x4, 0x0, 0x0, 0x0, true, 0x0, false⟩, ⟨0x54, 1, 0x4, 0x0, 0x0, 0x0, false, 0x0, false⟩,
    ⟨0x58, 1, 0x4, 0x0, 0x0, 0x0, false, 0x0, false⟩, ⟨0x5C, 1, 0x4, 0xFFFFFFFF, 0x0, 0x0, false, 0x100, false⟩, ⟨0x60, 1, 0x4, 0x0, 0x0, 0x0, false, 0x0, false⟩,
    ⟨0x64, 1, 0x4, 0x0, 0x0, 0x0, false, 0x0, false⟩, ⟨0x68, 1, 0x4, 0x0, 0x0, 0x0, true, 0x0, false⟩, ⟨0x6C, 1, 0x4, 0x0, 0x0, 0x0, false, 0x0, false⟩,
    ⟨0x70, 1, 0x4, 0x0, 0x0, 0x0, false, 0x0, false⟩, ⟨0x74, 1, 0x4, 0x0, 0x0, 0x0, false, 0x0, false⟩, ⟨0x78, 1, 0x4, 0x0, 0x0, 0x0, false, 0x0, false⟩,
    ⟨0x7C, 1, 0x4, 0x0, 0x0, 0x0, false, 0x0, false⟩, ⟨0x80, 8, 0x4, 0x0, 0x0, 0x0, false, 0x0, false⟩, ⟨0x100, 256, 0xC, 0x0, 0x0, 0x0, false, 0x0, false⟩,
    ⟨0x104, 256, 0xC, 0x0, 0x0, 0x0, false, 0x0, false⟩, ⟨0x108, 256, 0xC, 0x0, 0x0, 0x0, false, 0x0, false⟩ ]

/-- Block registers of the HOSTDMA page. -/
def rowsHOSTDMA : List RegRow :=
  [ ⟨0x40, 1, 0x4, 0x0, 0x0, 0x0, false, 0x0, false⟩, ⟨0x44, 1, 0x4, 0xFFFFFFFF, 0x0, 0x0, false, 0x0, false⟩, ⟨0x48, 1, 0x4, 0xFFFFFFFF, 0x0, 0x0, false, 0x0, false⟩,
    ⟨0x4C, 1, 0x4, 0xFF, 0x0, 0x0, false, 0x28, false⟩, ⟨0x50, 1, 0x4, 0x0, 0x0, 0x1, false, 0x0, false⟩, ⟨0x54, 1, 0x4, 0x3F, 0x0, 0x0, false, 0xA, false⟩,
    ⟨0x58, 1, 0x4, 0x0, 0x0, 0x0, false, 0x0, true⟩, ⟨0x5C, 1, 0x4, 0x0, 0x0, 0x0, true, 0x0, false⟩, ⟨0x60, 4, 0x20, 0xFFFFFFFF, 0x0, 0x0, false, 0x0, false⟩,
    ⟨0x64, 4, 0x20, 0xFFFFFFFF, 0x0, 0x0, false, 0x0, false⟩, ⟨0x68, 4, 0x20, 0x0, 0x0, 0x1, false, 0x0, false⟩, ⟨0x6C, 4, 0x20, 0x0, 0x0, 0x0, false, 0x0, false⟩,
    ⟨0x70, 4, 0x20, 0x0, 0x0, 0x0, false, 0x0, false⟩, ⟨0x74, 4, 0x20, 0x0, 0x0, 0x0, false, 0x0, false⟩, ⟨0x78, 4, 0x20, 0x0, 0x0, 0x0, false, 0x0, false⟩ ]

/-- Block registers of the SUBMIT page. -/
def rowsSUBMIT : List RegRow :=
  [ ⟨0x40, 1, 0x4, 0x0, 0x0, 0x0, false, 0x0, false⟩, ⟨0x44, 1, 0x4, 0xFFFFFFFF, 0x0, 0x0, false, 0x0, false⟩, ⟨0x48, 1, 0x4, 0xFFFFFFFF, 0x0, 0x0, false, 0x0, false⟩,
    ⟨0x4C, 1, 0x4, 0x1FFFF, 0x0, 0x0, false, 0x400, false⟩, ⟨0x50, 1, 0x4, 0xFFFFFFFF, 0x0, 0x0, false, 0x0, false⟩, ⟨0x54, 1, 0x4, 0x0, 0x0, 0x0, false, 0x0, false⟩,
    ⟨0x58, 1, 0x4, 0xFF01FF, 0x0, 0x0, false, 0x100100, false⟩, ⟨0x5C, 1, 0x4, 0xFFFFFFFF, 0x0, 0x0, false, 0x0, false⟩, ⟨0x60, 1, 0x4, 0xFFFFFFFF, 0x0, 0x0, false, 0x0, false⟩,
    ⟨0x64, 1, 0x4, 0x0, 0x0, 0x0, false, 0x0, false⟩, ⟨0x68, 1, 0x4, 0x0, 0x0, 0x0, true, 0x0, false⟩, ⟨0x80, 16, 0x20, 0xFFFFFFFF, 0x0, 0x0, false, 0x0, false⟩,
    ⟨0x84, 16, 0x20, 0xFFFFFFFF, 0x0, 0x0, false, 0x0, false⟩, ⟨0x88, 16, 0x20, 0x1FFFF, 0x0, 0x0, false, 0x0, false⟩, ⟨0x8C, 16, 0x20, 0xFF7F, 0x0, 0x0, false, 0x0, false⟩,
    ⟨0x90, 16, 0x20, 0xFFFFFFFF, 0x0, 0x0, false, 0x0, false⟩, ⟨0x94, 16, 0x20, 0x0, 0x0, 0x0, false, 0x0, false⟩, ⟨0x98, 16, 0x20, 0x0, 0x0, 0x0, false, 0x1, false⟩ ]

/-- Block registers of the SERVE page. -/
def rowsSERVE : List RegRow :=
  [ ⟨0x40, 1, 0x4, 0x0, 0x0, 0x0, false, 0x0, false⟩, ⟨0x44, 1, 0x4, 0xFFF01FF, 0x0, 0x0, false, 0x10001, false⟩, ⟨0x48, 1, 0x4, 0xFFFFFFFF, 0x0, 0x0, false, 0x0, false⟩,
    ⟨0x4C, 1, 0x4, 0xFFFFFFFF, 0x0, 0x0, false, 0x0, false⟩, ⟨0x50, 1, 0x4, 0xFFFFFFFF, 0x0, 0x0, false, 0x0, false⟩, ⟨0x54, 1, 0x4, 0xFFFFFFFF, 0x0, 0x0, false, 0x0, false⟩,
    ⟨0x58, 1, 0x4, 0xFFFFFFFF, 0x0, 0x0, false, 0x0, false⟩, ⟨0x5C, 1, 0x4, 0xFFFFFFFF, 0x0, 0x0, false, 0x0, false⟩, ⟨0x60, 1, 0x4, 0xFFFFFFFF, 0x0, 0x0, false, 0x0, false⟩,
    ⟨0x64, 1, 0x4, 0xFFFFFFFF, 0x0, 0x0, false, 0x0, false⟩, ⟨0x68, 1, 0x4, 0xFFFFFFFF, 0x0, 0x0, false, 0x0, false⟩, ⟨0x6C, 1, 0x4, 0xFFFFFFF, 0x0, 0x0, false, 0x10000, false⟩,
    ⟨0x70, 1, 0x4, 0x1FFF, 0x0, 0x0, false, 0x100, false⟩, ⟨0x74, 1, 0x4, 0xFFFFFF, 0x0, 0x0, false, 0x8000, false⟩, ⟨0x78, 1, 0x4, 0xFFFFFFFF, 0x0, 0x0, false, 0xFFFFFFFF, false⟩,
    ⟨0x7C, 1, 0x4, 0x7FF, 0x0, 0x0, false, 0x40, false⟩, ⟨0x80, 1, 0x4, 0x0, 0x0, 0x0, false, 0x0, false⟩, ⟨0x84, 1, 0x4, 0x0, 0x0, 0x0, false, 0x0, false⟩,
    ⟨0x88, 1, 0x4, 0x0, 0x0, 0x0, false, 0x0, false⟩, ⟨0x8C, 1, 0x4, 0x0, 0x0, 0x0, false, 0x0, false⟩, ⟨0x90, 1, 0x4, 0x0, 0x0, 0x0, false, 0x0, false⟩,
    ⟨0x94, 1, 0x4, 0x0, 0x0, 0x0, false, 0x0, false⟩, ⟨0x98, 1, 0x4, 0x0, 0x0, 0x0, false, 0x0, false⟩ ]

/-- Block registers of the SAMPLE page. -/
def rowsSAMPLE : List RegRow :=
  [ ⟨0x40, 1, 0x4, 0x0, 0x0, 0x0, false, 0x0, false⟩, ⟨0x44, 1, 0x4, 0x7F7FFFFF, 0x0, 0x0, false, 0x40000, false⟩, ⟨0x48, 1, 0x4, 0x0, 0x0, 0x0, false, 0x0, false⟩,
    ⟨0x4C, 1, 0x4, 0x0, 0x0, 0x0, false, 0x0, false⟩, ⟨0x50, 1, 0x4, 0x0, 0x0, 0x0, true, 0x0, false⟩, ⟨0x54, 1, 0x4, 0x0, 0x0, 0x0, true, 0x0, false⟩ ]

/-- Block registers of the SVC page. -/
def rowsSVC : List RegRow :=
  [ ⟨0x40, 1, 0x4, 0x0, 0x0, 0x0, false, 0x0, false⟩, ⟨0x44, 1, 0x4, 0x0, 0x0, 0x0, false, 0x0, false⟩, ⟨0x48, 1, 0x4, 0x0, 0x0, 0x0, false, 0xFF, false⟩,
    ⟨0x4C, 1, 0x4, 0x0, 0x0, 0x0, false, 0x0, false⟩, ⟨0x50, 1, 0x4, 0x0, 0x0, 0x0, false, 0x0, false⟩, ⟨0x54, 1, 0x4, 0x0, 0x0, 0x0, false, 0x0, false⟩,
    ⟨0x58, 1, 0x4, 0xFFFFFFFF, 0x0, 0x0, false, 0x0, false⟩, ⟨0x5C, 1, 0x4, 0x0, 0x0, 0x0, false, 0x0, false⟩ ]

/-- Block registers of the PUMP page. -/
def rowsPUMP : List RegRow :=
  [ ⟨0x40, 1, 0x4, 0x0, 0x0, 0x0, false, 0x0, false⟩, ⟨0x44, 1, 0x4, 0xFFFFFF, 0x0, 0x0, false, 0x326405, false⟩, ⟨0x80, 3, 0x20, 0xFF, 0x0, 0x0, false, 0xAA, false⟩,
    ⟨0x84, 3, 0x20, 0x0, 0x0, 0x3, false, 0x0, false⟩, ⟨0x88, 3, 0x20, 0x0, 0x0, 0x0, false, 0x0, false⟩, ⟨0x8C, 3, 0x20, 0x0, 0x0, 0x0, false, 0x0, false⟩,
    ⟨0x90, 3, 0x20, 0x0, 0x0, 0x0, false, 0x0, false⟩, ⟨0x94, 3, 0x20, 0x0, 0x0, 0x0, false, 0x0, false⟩, ⟨0x98, 3, 0x20, 0x0, 0x0, 0x0, false, 0x0, true⟩ ]

/-- Block registers of the VALVE page. -/
def rowsVALVE : List RegRow :=
  [ ⟨0x40, 1, 0x4, 0x0, 0x0, 0x0, false, 0x0, false⟩, ⟨0x44, 1, 0x4, 0x0, 0x0, 0xF, false, 0x0, false⟩, ⟨0x48, 1, 0x4, 0x0, 0x0, 0x0, false, 0x0, true⟩,
    ⟨0x4C, 7, 0x4, 0x0, 0x0, 0x0, false, 0x0, false⟩, ⟨0x68, 1, 0x4, 0x0, 0x0, 0x0, true, 0x0, false⟩, ⟨0x6C, 1, 0x4, 0x0, 0x0, 0x0, true, 0x0, false⟩,
    ⟨0x100, 24, 0x8, 0xFF, 0x0, 0x0, false, 0x0, false⟩, ⟨0x104, 24, 0x8, 0x0, 0x0, 0x0, false, 0x0, false⟩ ]

/-- Block registers of the COOLANT page. -/
def rowsCOOLANT : List RegRow :=
  [ ⟨0x40, 1, 0x4, 0x0, 0x0, 0x0, false, 0x0, false⟩, ⟨0x44, 1, 0x4, 0x0, 0x0, 0x0, false, 0x0, false⟩, ⟨0x48, 1, 0x4, 0x0, 0x0, 0x0, false, 0x0, false⟩,
    ⟨0x4C, 1, 0x4, 0x0, 0x0, 0x0, false, 0x0, false⟩, ⟨0x50, 1, 0x4, 0x0, 0x0, 0x0, false, 0x0, false⟩, ⟨0x54, 1, 0x4, 0x0, 0x0, 0x0, false, 0x0, false⟩,
    ⟨0x58, 1, 0x4, 0x0, 0x0, 0x0, false, 0x0, false⟩, ⟨0x5C, 1, 0x4, 0x0, 0x0, 0x0, false, 0x0, false⟩, ⟨0x60, 4, 0x4, 0x0, 0x0, 0x0, false, 0xFFFF, false⟩,
    ⟨0x70, 1, 0x4, 0xFFFF, 0x0, 0x0, false, 0xC8, false⟩, ⟨0x74, 1, 0x4, 0x0, 0x0, 0x0, false, 0x0, true⟩, ⟨0x78, 1, 0x4, 0x0, 0x0, 0x0, false, 0x0, true⟩,
    ⟨0x7C, 1, 0x4, 0x0, 0x0, 0x0, false, 0x0, true⟩, ⟨0x80, 1, 0x4, 0x0, 0x0, 0x0, false, 0x0, true⟩ ]

/-- Block registers of the THERM page. -/
def rowsTHERM : List RegRow :=
  [ ⟨0x40, 1, 0x4, 0x0, 0x0, 0x0, false, 0x100, false⟩, ⟨0x44, 1, 0x4, 0x0, 0x0, 0x0, false, 0x30A28, false⟩, ⟨0x48, 1, 0x4, 0xFFFF, 0x0, 0x0, false, 0xA28, true⟩,
    ⟨0x4C, 1, 0x4, 0xFFFF, 0x0, 0x0, false, 0xA28, false⟩, ⟨0x50, 1, 0x4, 0x0, 0x0, 0x0, false, 0xA28, false⟩, ⟨0x54, 1, 0x4, 0x0, 0x0, 0x0, false, 0xA28, false⟩,
    ⟨0x58, 1, 0x4, 0x0, 0x0, 0x0, false, 0x0, false⟩, ⟨0x5C, 1, 0x4, 0x0, 0x0, 0x0, false, 0x0, false⟩, ⟨0x60, 1, 0x4, 0xFFFFFFFF, 0x0, 0x0, false, 0x2001000, false⟩,
    ⟨0x64, 1, 0x4, 0x0, 0x0, 0x0, false, 0x0, false⟩, ⟨0x68, 1, 0x4, 0xFFFFFFFF, 0x0, 0x0, false, 0x55550A14, false⟩, ⟨0x6C, 1, 0x4, 0xFFFF, 0x0, 0x0, false, 0x645F, false⟩,
    ⟨0x70, 1, 0x4, 0xFFFFFFFF, 0x0, 0x0, false, 0x1E140298, false⟩, ⟨0x74, 1, 0x4, 0xFFFF, 0x0, 0x0, false, 0x1194, false⟩, ⟨0x78, 1, 0x4, 0x0, 0x0, 0x0, false, 0x708, false⟩,
    ⟨0x7C, 1, 0x4, 0x0, 0x0, 0x0, false, 0x0, false⟩, ⟨0x80, 1, 0x4, 0x0, 0x0, 0x0, false, 0x0, false⟩, ⟨0x84, 1, 0x4, 0x0, 0x0, 0x0, false, 0x0, false⟩,
    ⟨0x88, 1, 0x4, 0x0, 0x0, 0x0, false, 0x0, false⟩, ⟨0x8C, 1, 0x4, 0x0, 0x0, 0x0, false, 0x0, false⟩, ⟨0x90, 1, 0x4, 0x0, 0x0, 0x0, false, 0x17700A28, true⟩,
    ⟨0x94, 1, 0x4, 0x0, 0x0, 0x0, true, 0x0, false⟩ ]

/-- Block registers of the TELEM page. -/
def rowsTELEM : List RegRow :=
  [ ⟨0x40, 1, 0x4, 0x3, 0x0, 0x0, false, 0x0, false⟩, ⟨0x44, 1, 0x4, 0x1FFF, 0x0, 0x0, false, 0x64, false⟩, ⟨0x48, 1, 0x4, 0x0, 0x0, 0x0, false, 0x0, false⟩,
    ⟨0x4C, 1, 0x4, 0x0, 0x0, 0x0, false, 0x0, false⟩, ⟨0x50, 1, 0x4, 0x0, 0x0, 0x0, false, 0x0, false⟩, ⟨0x54, 1, 0x4, 0x0, 0x0, 0x0, false, 0x0, false⟩,
    ⟨0x58, 1, 0x4, 0x0, 0x0, 0x0, false, 0x0, false⟩, ⟨0x5C, 1, 0x4, 0x0, 0x0, 0x0, false, 0x0, false⟩, ⟨0x60, 1, 0x4, 0x0, 0x0, 0x0, false, 0x0, false⟩,
    ⟨0x64, 1, 0x4, 0x0, 0x0, 0x0, false, 0x0, false⟩, ⟨0x68, 1, 0x4, 0x0, 0x0, 0x0, false, 0x0, false⟩, ⟨0x6C, 1, 0x4, 0x0, 0x0, 0x0, false, 0x0, false⟩ ]

/-- Block registers of the GSENS page. -/
def rowsGSENS : List RegRow :=
  [ ⟨0x40, 1, 0x4, 0x0, 0x0, 0x0, false, 0x0, false⟩, ⟨0x44, 1, 0x4, 0x0, 0x0, 0x0, false, 0x0, false⟩, ⟨0x48, 1, 0x4, 0x0, 0x0, 0x0, false, 0x0, false⟩,
    ⟨0x4C, 1, 0x4, 0x0, 0x0, 0x0, false, 0x0, false⟩, ⟨0x50, 1, 0x4, 0x0, 0x0, 0x0, true, 0x0, false⟩ ]

/-- Block registers of the GLADE page. -/
def rowsGLADE : List RegRow :=
  [ ⟨0x40, 1, 0x4, 0x0, 0x0, 0x0, false, 0x0, false⟩, ⟨0x44, 1, 0x4, 0x0, 0x0, 0x0, false, 0x0, false⟩, ⟨0x48, 1, 0x4, 0x7F, 0x0, 0x0, false, 0x5, false⟩,
    ⟨0x4C, 1, 0x4, 0x0, 0x0, 0x0, false, 0x0, false⟩, ⟨0x50, 1, 0x4, 0x0, 0x0, 0x0, false, 0xC, true⟩, ⟨0x54, 1, 0x4, 0x0, 0x0, 0x0, false, 0x0, false⟩,
    ⟨0x58, 1, 0x4, 0x0, 0x0, 0x0, false, 0x0, false⟩, ⟨0x5C, 1, 0x4, 0x0, 0x0, 0x0, false, 0x0, false⟩, ⟨0x60, 1, 0x4, 0x0, 0x0, 0x0, false, 0x0, false⟩,
    ⟨0x64, 1, 0x4, 0x0, 0x0, 0x0, true, 0x0, false⟩, ⟨0x100, 16, 0x8, 0x0, 0x0, 0x0, false, 0xFFFC18, true⟩, ⟨0x104, 16, 0x8, 0x0, 0x0, 0x0, false, 0x0, true⟩ ]

/-- Block registers of the CANOPY page. -/
def rowsCANOPY : List RegRow :=
  [ ⟨0x40, 1, 0x4, 0x0, 0x0, 0x0, false, 0x0, false⟩, ⟨0x44, 1, 0x4, 0x0, 0x0, 0xF, false, 0x0, false⟩, ⟨0x48, 1, 0x4, 0x0, 0x0, 0x0, false, 0x0, false⟩,
    ⟨0x4C, 1, 0x4, 0x0, 0x0, 0x0, false, 0x0, false⟩, ⟨0x50, 1, 0x4, 0x0, 0x0, 0x0, false, 0x0, false⟩, ⟨0x54, 1, 0x4, 0x0, 0x0, 0x0, false, 0x0, false⟩,
    ⟨0x58, 1, 0x4, 0x0, 0x0, 0x0, false, 0x0, false⟩, ⟨0x5C, 1, 0x4, 0x0, 0x0, 0x0, false, 0x0, false⟩, ⟨0x60, 1, 0x4, 0x0, 0x0, 0x0, false, 0x0, false⟩,
    ⟨0x64, 1, 0x4, 0x0, 0x0, 0x0, false, 0x0, false⟩, ⟨0x68, 1, 0x4, 0x0, 0x0, 0x0, false, 0x0, false⟩, ⟨0x6C, 1, 0x4, 0x0, 0x0, 0x0, false, 0x0, false⟩,
    ⟨0x70, 1, 0x4, 0x0, 0x0, 0x0, true, 0x0, false⟩, ⟨0x74, 1, 0x4, 0x0, 0x0, 0x0, true, 0x0, false⟩, ⟨0x78, 1, 0x4, 0xFFFFFFFF, 0x0, 0x0, false, 0x0, false⟩ ]

/-- Block registers of the DWOOD page. -/
def rowsDWOOD : List RegRow :=
  [ ⟨0x40, 1, 0x4, 0x0, 0x0, 0x0, false, 0x0, true⟩, ⟨0x44, 1, 0x4, 0x1FFF, 0x0, 0x0, false, 0x0, false⟩, ⟨0x48, 4, 0x4, 0x0, 0x0, 0x0, false, 0x0, false⟩,
    ⟨0x58, 1, 0x4, 0x0, 0x0, 0x0, false, 0x0, false⟩, ⟨0x5C, 1, 0x4, 0x0, 0x0, 0x0, false, 0x0, false⟩, ⟨0x60, 1, 0x4, 0x0, 0x0, 0x1, false, 0x0, false⟩,
    ⟨0x64, 1, 0x4, 0x0, 0x0, 0x0, false, 0x0, true⟩ ]

/-- Block registers of the MODULE page. -/
def rowsMODULE : List RegRow :=
  [ ⟨0x40, 1, 0x4, 0x0, 0x0, 0x0, false, 0x1, false⟩, ⟨0x44, 1, 0x4, 0x0, 0x0, 0xF, false, 0x0, false⟩, ⟨0x48, 1, 0x4, 0x7, 0x0, 0x18, false, 0x0, false⟩,
    ⟨0x4C, 1, 0x4, 0x7, 0x0, 0x0, false, 0x0, true⟩, ⟨0x50, 1, 0x4, 0x0, 0x0, 0x0, false, 0x0, true⟩, ⟨0x54, 1, 0x4, 0x0, 0x0, 0x0, false, 0x0, true⟩,
    ⟨0x58, 1, 0x4, 0x0, 0x0, 0x0, false, 0x0, false⟩, ⟨0x5C, 1, 0x4, 0x0, 0x0, 0x0, false, 0x0, true⟩, ⟨0x64, 6, 0x4, 0x0, 0x0, 0x0, false, 0x0, false⟩,
    ⟨0x7C, 1, 0x4, 0x0, 0x0, 0x0, false, 0x0, true⟩, ⟨0x80, 1, 0x4, 0x0, 0x0, 0x0, false, 0x0, true⟩, ⟨0x100, 1, 0x4, 0x0, 0x0, 0x0, false, 0x0, true⟩,
    ⟨0x104, 1, 0x4, 0x0, 0x0, 0x0, false, 0x0, true⟩, ⟨0x108, 1, 0x4, 0x0, 0x0, 0x0, false, 0x0, true⟩, ⟨0x10C, 8, 0x4, 0x0, 0x0, 0x0, false, 0x0, true⟩,
    ⟨0x12C, 3, 0x4, 0x0, 0x0, 0x0, false, 0x0, true⟩, ⟨0x138, 3, 0x4, 0x0, 0x0, 0x0, false, 0x0, true⟩, ⟨0x144, 1, 0x4, 0x0, 0x0, 0x0, false, 0x0, true⟩,
    ⟨0x148, 1, 0x4, 0x0, 0x0, 0x0, false, 0x0, true⟩, ⟨0x14C, 1, 0x4, 0x0, 0x0, 0x0, false, 0x0, true⟩, ⟨0x150, 1, 0x4, 0x0, 0x0, 0x0, false, 0x0, true⟩ ]

/-- Block registers of the EVT page. -/
def rowsEVT : List RegRow :=
  [ ⟨0x40, 1, 0x4, 0x0, 0x0, 0x0, false, 0x0, false⟩, ⟨0x44, 1, 0x4, 0x0, 0x0, 0x0, false, 0x0, false⟩, ⟨0x48, 1, 0x4, 0x1FF, 0x0, 0x0, false, 0x184, false⟩,
    ⟨0x4C, 1, 0x4, 0x0, 0x0, 0x0, true, 0x0, false⟩, ⟨0x50, 1, 0x4, 0x0, 0x0, 0x0, true, 0x0, false⟩, ⟨0x54, 1, 0x4, 0x0, 0x0, 0x0, true, 0x0, false⟩,
    ⟨0x58, 1, 0x4, 0x0, 0x0, 0x0, true, 0x0, false⟩, ⟨0x5C, 1, 0x4, 0x0, 0x0, 0x0, true, 0x0, false⟩, ⟨0x60, 1, 0x4, 0x0, 0x0, 0x0, true, 0x0, false⟩,
    ⟨0x64, 1, 0x4, 0x0, 0x0, 0x0, false, 0x0, false⟩, ⟨0x68, 1, 0x4, 0x0, 0x0, 0xFFFFFFFF, false, 0x0, false⟩, ⟨0x100, 1, 0x4, 0x0, 0x0, 0x3, false, 0x0, false⟩,
    ⟨0x104, 1, 0x4, 0x3FF, 0x0, 0x0, false, 0xA, false⟩, ⟨0x108, 1, 0x4, 0xFFFFFFFF, 0x0, 0x0, false, 0x0, false⟩, ⟨0x10C, 1, 0x4, 0xFFFFFFFF, 0x0, 0x0, false, 0x0, false⟩,
    ⟨0x110, 1, 0x4, 0xFFFFFFFF, 0x0, 0x0, false, 0x0, false⟩, ⟨0x114, 1, 0x4, 0xFFFFFFFF, 0x0, 0x0, false, 0x0, false⟩, ⟨0x118, 1, 0x4, 0xFFFF, 0x0, 0x0, false, 0x0, false⟩,
    ⟨0x11C, 1, 0x4, 0x0, 0x0, 0x0, false, 0x0, false⟩, ⟨0x120, 1, 0x4, 0x0, 0x0, 0x0, false, 0x0, false⟩, ⟨0x124, 1, 0x4, 0x0, 0x0, 0x0, false, 0x0, false⟩,
    ⟨0x128, 1, 0x4, 0x0, 0x0, 0x0, true, 0x0, false⟩, ⟨0x12C, 1, 0x4, 0x0, 0x0, 0x0, false, 0x0, false⟩, ⟨0x130, 1, 0x4, 0x1FFF, 0x0, 0x0, false, 0x0, false⟩,
    ⟨0x134, 1, 0x4, 0x0, 0x0, 0x0, false, 0x0, false⟩, ⟨0x138, 1, 0x4, 0x0, 0x0, 0x3, false, 0x0, false⟩, ⟨0x13C, 1, 0x4, 0x0, 0x0, 0x0, false, 0x0, false⟩,
    ⟨0x140, 1, 0x4, 0x0, 0x0, 0x0, false, 0x0, false⟩ ]

/-- Block registers of the RLOG page. -/
def rowsRLOG : List RegRow :=
  [ ⟨0x40, 1, 0x4, 0x0, 0x0, 0x0, false, 0x0, false⟩, ⟨0x44, 1, 0x4, 0x0, 0x0, 0x0, false, 0x0, true⟩, ⟨0x48, 1, 0x4, 0x0, 0x0, 0x0, false, 0x0, true⟩,
    ⟨0x4C, 1, 0x4, 0x0, 0x0, 0x0, false, 0x0, true⟩, ⟨0x50, 1, 0x4, 0x0, 0x0, 0x0, false, 0x0, true⟩, ⟨0x54, 1, 0x4, 0x0, 0x0, 0x0, false, 0x10000, true⟩,
    ⟨0x58, 1, 0x4, 0x0, 0x0, 0x0, false, 0x0, true⟩, ⟨0x5C, 1, 0x4, 0x0, 0x0, 0x0, false, 0x0, true⟩, ⟨0x60, 1, 0x4, 0x0, 0x0, 0x0, false, 0x0, true⟩,
    ⟨0x64, 1, 0x4, 0x0, 0x0, 0x0, false, 0x0, true⟩, ⟨0x68, 1, 0x4, 0x0, 0x0, 0x0, false, 0x0, true⟩, ⟨0x6C, 1, 0x4, 0x0, 0x0, 0x0, false, 0x0, true⟩,
    ⟨0x70, 1, 0x4, 0xFFFF, 0x0, 0x0, false, 0x0, false⟩, ⟨0x74, 1, 0x4, 0xFFFFFFFF, 0x0, 0x0, false, 0x0, false⟩, ⟨0x78, 1, 0x4, 0xFFFFFFFF, 0x0, 0x0, false, 0x0, false⟩,
    ⟨0x7C, 1, 0x4, 0x0, 0x0, 0x0, false, 0x0, false⟩, ⟨0x80, 16, 0x4, 0x0, 0x0, 0x0, false, 0x0, false⟩, ⟨0xC0, 1, 0x4, 0x0, 0x0, 0x0, false, 0x0, false⟩,
    ⟨0xC4, 1, 0x4, 0x0, 0x0, 0x0, false, 0x0, false⟩, ⟨0xC8, 1, 0x4, 0xFF, 0x0, 0x100, false, 0x0, false⟩, ⟨0xCC, 1, 0x4, 0xFFFFFFFF, 0x0, 0x0, false, 0x0, false⟩,
    ⟨0xD0, 1, 0x4, 0x0, 0x0, 0x0, false, 0x0, true⟩ ]

/-- Block registers of the HWOOD page. -/
def rowsHWOOD : List RegRow :=
  [ ⟨0x40, 8, 0x4, 0x0, 0x0, 0x0, false, 0x0, true⟩, ⟨0x60, 8, 0x4, 0x0, 0x0, 0x0, false, 0x0, true⟩, ⟨0x80, 8, 0x4, 0x0, 0x0, 0x0, false, 0x0, true⟩,
    ⟨0xA0, 1, 0x4, 0x0, 0x0, 0x0, false, 0x0, true⟩, ⟨0xA4, 1, 0x4, 0x0, 0x0, 0x0, false, 0x80000C, true⟩, ⟨0xA8, 1, 0x4, 0x0, 0x0, 0x0, false, 0x17700A28, true⟩,
    ⟨0xAC, 1, 0x4, 0x0, 0x0, 0x0, false, 0x0, true⟩, ⟨0xB0, 1, 0x4, 0x0, 0x0, 0x0, false, 0x0, true⟩, ⟨0xB4, 1, 0x4, 0x0, 0x0, 0x0, false, 0x0, true⟩,
    ⟨0xB8, 1, 0x4, 0x0, 0x0, 0x0, false, 0x0, true⟩, ⟨0xBC, 1, 0x4, 0x0, 0x0, 0x0, false, 0x0, true⟩, ⟨0xC0, 1, 0x4, 0x3F, 0x0, 0x0, false, 0x0, false⟩,
    ⟨0xC4, 1, 0x4, 0x0, 0x0, 0x0, false, 0x0, true⟩, ⟨0xC8, 1, 0x4, 0x0, 0x0, 0x0, false, 0x0, false⟩ ]

/-- Block registers of the SEC page. -/
def rowsSEC : List RegRow :=
  [ ⟨0x40, 1, 0x4, 0x0, 0x0, 0x0, false, 0x0, false⟩, ⟨0x44, 1, 0x4, 0x0, 0x0, 0x7, false, 0x0, false⟩, ⟨0x48, 1, 0x4, 0x3FF, 0x0, 0x0, false, 0x0, false⟩,
    ⟨0x4C, 1, 0x4, 0xFFFFFFFF, 0x0, 0x0, false, 0x0, false⟩, ⟨0x50, 1, 0x4, 0x0, 0x0, 0x0, false, 0x0, false⟩, ⟨0x60, 4, 0x4, 0x0, 0x0, 0x0, false, 0x0, false⟩,
    ⟨0x80, 16, 0x4, 0xFFFFFFFF, 0x0, 0x0, false, 0x0, false⟩, ⟨0xC0, 8, 0x4, 0xFFFFFFFF, 0x0, 0x0, false, 0x0, false⟩, ⟨0xE0, 1, 0x4, 0xFFFFFFFF, 0x0, 0x0, false, 0x0, false⟩,
    ⟨0xE4, 1, 0x4, 0xFFFFFFFF, 0x0, 0x0, false, 0x0, false⟩, ⟨0xE8, 1, 0x4, 0xFFFFFFFF, 0x0, 0x0, false, 0x0, false⟩, ⟨0xEC, 1, 0x4, 0x0, 0x0, 0x1, false, 0x0, false⟩,
    ⟨0xF0, 1, 0x4, 0x0, 0x0, 0x0, false, 0x0, false⟩, ⟨0xF4, 1, 0x4, 0xF, 0x0, 0x100, false, 0x0, false⟩, ⟨0x100, 8, 0x4, 0xFFFFFFFF, 0x0, 0x0, false, 0x0, false⟩,
    ⟨0x120, 8, 0x4, 0xFFFFFFFF, 0x0, 0x0, false, 0x0, false⟩, ⟨0x140, 1, 0x4, 0xFFFF, 0x0, 0x10000, false, 0x0, false⟩, ⟨0x144, 1, 0x4, 0x0, 0x0, 0x0, false, 0x0, false⟩,
    ⟨0x148, 1, 0x4, 0x3F, 0x0, 0x0, false, 0x0, false⟩, ⟨0x14C, 1, 0x4, 0x0, 0x0, 0x0, false, 0x0, true⟩, ⟨0x200, 128, 0x4, 0x0, 0x0, 0x0, false, 0x0, false⟩,
    ⟨0x400, 168, 0x4, 0x0, 0x0, 0x0, false, 0x0, false⟩, ⟨0x800, 16, 0x4, 0x0, 0x0, 0x0, false, 0x0, true⟩, ⟨0x900, 64, 0x4, 0x0, 0x0, 0x0, false, 0x0, false⟩ ]

/-- Block registers of the SIDEBAND page. -/
def rowsSIDEBAND : List RegRow :=
  [ ⟨0x40, 1, 0x4, 0x0, 0x0, 0x0, false, 0x0, false⟩, ⟨0x44, 1, 0x4, 0x0, 0x0, 0x0, false, 0x60, false⟩, ⟨0x48, 1, 0x4, 0xFF, 0x0, 0x0, false, 0xA, false⟩,
    ⟨0x4C, 1, 0x4, 0x0, 0x0, 0x0, false, 0x0, false⟩, ⟨0x50, 1, 0x4, 0x0, 0x0, 0x0, false, 0x0, false⟩, ⟨0x54, 1, 0x4, 0x0, 0x0, 0x0, true, 0x0, false⟩,
    ⟨0x58, 1, 0x4, 0x0, 0x0, 0x0, false, 0x0, false⟩ ]

/-- The block-register rows of a page kind. -/
def rowsOf : PageKind → List RegRow
  | .module => rowsMODULE
  | .arb => rowsARB
  | .evt => rowsEVT
  | .clk => rowsCLK
  | .hwood => rowsHWOOD
  | .sec => rowsSEC
  | .rlog => rowsRLOG
  | .dwood => rowsDWOOD
  | .canopy => rowsCANOPY
  | .glade => rowsGLADE
  | .therm => rowsTHERM
  | .telem => rowsTELEM
  | .pump => rowsPUMP
  | .valve => rowsVALVE
  | .coolant => rowsCOOLANT
  | .hostdma => rowsHOSTDMA
  | .submit => rowsSUBMIT
  | .serve => rowsSERVE
  | .sample => rowsSAMPLE
  | .sideband => rowsSIDEBAND
  | .svc => rowsSVC
  | .stand => rowsSTAND
  | .grove => rowsGROVE
  | .engine => rowsENGINE
  | .gsram => rowsGSRAM
  | .gwin => rowsGWIN
  | .gdma => rowsGDMA
  | .gsens => rowsGSENS
  | .link => rowsLINK
  | .reduce => rowsREDUCE
  | .lpddr => rowsLPDDR
  | .floor => rowsFLOOR

end Sys2Proof.Machine
end

