-- ==== Sys2Proof/Machine/State.lean ====
section
/-! DEFINITION. The state of the module as plain data, the fault and refusal reasons, and the state after reset.
Registers live in `State.regs` (a canonical sparse map over the register tables); every other piece of state the
specification names has a field here. -/

namespace Sys2Proof.Machine

/-- A sparse map in canonical form: keys strictly rising, no entry equal to the map's default. -/
abbrev AMap (α : Type) := List (Nat × α)

/-! ## Module state and pins (R12, R15; Tables 1.4, 1.6) -/

/-- The module states of Table 1.6. -/
inductive MState where
  | standby | bringup | ready | running | halted | leak | tripped | service
  deriving DecidableEq, Repr

/-- The power states of Table 1.4. -/
inductive Power where
  | run | idle | hold | standby
  deriving DecidableEq, Repr

/-- Module state, power state, pins and straps. -/
structure ModSt where
  mstate     : MState := .standby
  power      : Power := .standby
  /-- 3V3_SB good (R344). -/
  sbGood     : Bool := false
  /-- PWR_OK pin. -/
  pwrOk      : Bool := false
  /-- 48 V conversion switched on. -/
  v48        : Bool := false
  /-- PERST_L asserted. -/
  perst      : Bool := true
  /-- PWR_OK has been deasserted for at least 1 s since the latched state was entered (R356, R378). -/
  offLong    : Bool := false
  /-- waiting in the SLOT_ID stagger (R376). -/
  staggering : Bool := false
  slotId     : BitVec 6 := 0
  bootMode   : BitVec 2 := 0
  tripSel    : BitVec 2 := 0
  /-- the power state a change in progress leads to: Hold (R176, R400, R479) or Idle (R400, R404). -/
  target     : Option Power := none
  /-- that change is one that COMMAND.HOLD or WAKE asked for; the present Hold is one of R479. -/
  byCommand  : Bool := false
  fsHold     : Bool := false
  /-- service cores that Hold stopped. -/
  svcHeld    : List Nat := []
  /-- SHDN_L and LEAK_L asserted (low). -/
  shdnL      : Bool := false
  leakL      : Bool := false
  deriving DecidableEq, Repr

/-! ## Register arbiter (02) -/

/-- What the arbiter keeps for one requester: fence context (R39), NAME_LO snapshots and held NAME_LO writes (R35). -/
structure ReqCtx where
  tag     : BitVec 31 := 0
  /-- writes of this requester held before its last FENCE_TAG write carry a hold number below this one. -/
  mark    : Nat := 0
  /-- a FENCE_DONE read is waiting. -/
  waiting : Bool := false
  /-- captured NAME_HI values by NAME_HI offset. -/
  snap    : AMap (Option Word) := []
  /-- held NAME_LO writes by NAME_LO offset. -/
  heldLo  : AMap (Option Word) := []
  deriving DecidableEq, Repr

/-! ## Event arbiter (18) -/

/-- An arbiter entry (Table 18.3) and what has taken it. -/
structure EvEntry where
  seq       : Option Word := none
  stamp     : Dword := 0
  last      : Word := 0
  code      : Nat := 0
  sev       : Nat := 0
  /-- BAR0 page base of the source. -/
  page      : Nat := 0
  remote    : Bool := false
  origin    : Nat := 0
  count     : Nat := 1
  data0     : Word := 0
  data1     : Word := 0
  rlogTaken : Bool := false
  msiTaken  : Bool := false
  /-- from Glade's island log (R346). -/
  island    : Bool := false
  deriving DecidableEq, Repr

/-- The event arbiter: queue (512 entries), the slot reserved for EVT.OVERFLOW, and its volatile buffers (R418, R419). -/
structure EvtSt where
  queue     : List EvEntry := []
  ovfSlot   : Option EvEntry := none
  /-- OVERFLOW has been placed and the queue has not fallen below 256 entries since (R418). -/
  ovfLatch  : Bool := false
  /-- events held at their sources while the Ringlog index is built (R419), oldest first. -/
  held      : List EvEntry := []
  pldm      : List EvEntry := []
  canopy    : List EvEntry := []
  fwd       : List EvEntry := []
  /-- the Ringlog index is being built and the arbiter accepts no event (R419, R427). -/
  building  : Bool := false
  deriving DecidableEq, Repr

/-- How a background access completes (R131, R142, R236, R251, R262). -/
inductive BgStatus where
  | ok | poisoned | unsupported | aborted | dropped
  deriving DecidableEq, Repr

/-! ## What the tray side-band answers (21) -/

/-- Completion of a side-band request (R430, R447, R453, R455). -/
inductive SideCc where
  | success | invalidData | unsupported | notReady | refused
  deriving DecidableEq, Repr

/-- A side-band answer. Where R447's standards lay out an answer and the specification does not, its fields are given unencoded. -/
inductive SideReply where
  /-- a completion code and, where the specification lays them out, the bytes after it. -/
  | msg (cc : SideCc) (body : List Byte)
  /-- a sensor reading in the sensor's unit and resolution; none is operational state "unavailable" (R452). -/
  | sensor (reading : Option Int)
  /-- an effecter's value in force. -/
  | effecter (value : Nat)
  /-- an endpoint or terminus number. -/
  | ident (n : Option (BitVec 8))
  /-- what is supported, by the names of Table 21.1. -/
  | names (l : List String)
  /-- a size in bytes. -/
  | size (n : Nat)
  /-- the count of PDRs, and one sensor PDR's or effecter PDR's contents: its number and its range. -/
  | pdrCount (n : Nat)
  | pdr (id : Nat) (lo hi : Int)
  deriving DecidableEq, Repr

/-! ## Outputs: what leaves the block, newest first -/

/-- What the module sends or answers. -/
inductive Out where
  /-- a register read completes with this value (or, for a refused debug read, with 0). -/
  | readData (req : Req) (off : Nat) (v : Word)
  /-- a SYNC or CHECK message sent on a link (R50). -/
  | sync (link : Nat) (rootId : Word) (hops : Nat) (time : Dword)
  | check (link : Nat) (rootId : Word) (time : Dword)
  /-- a group control message sent on a group link (R160). -/
  | gcm (link : Nat) (m : Gcm)
  /-- an ABORT flit sent on a link (R177). -/
  | abort (link : Nat) (a : AbortMsg)
  /-- a scheduled flit transmitted: link, transmit tick relative to the step, half, poison, payload (R201). -/
  | flit (link : Nat) (tick : Nat) (half : Bool) (poison : Bool) (payload : BitVec 256)
  /-- a service message's flit sent in a service tick: class, message number, flit index (R205). -/
  | svcFlit (link : Nat) (cls : SvcClass) (msgno : BitVec 16) (idx : Nat)
  /-- credits of a pool returned in a service or IDLE flit (R204). -/
  | credits (link pool n : Nat)
  /-- a service message handed to its link for sending. -/
  | svcSend (link : Nat) (msgno : BitVec 16) (body : SvcBody)
  | svcAck (link : Nat) (cls : SvcClass) (msgno : BitVec 16)
  | skipReq (link : Nat)
  | markEcho (link : Nat) (residue : BitVec 4)
  | takedownNotice (link : Nat) (training : Bool)
  | takedownAck (link : Nat)
  | lanesIdle (link : Nat)
  /-- messages returned undelivered to their block when a link leaves UP (R205). -/
  | undelivered (link : Nat) (body : SvcBody)
  /-- completion of a background access (R136, R262): tag, status, data bytes. -/
  | bgDone (tag : BitVec 32) (status : BgStatus) (data : List Byte)
  /-- a line leaves the crossbar toward the PCIe endpoint or a service core. -/
  | xbarOut (dst : Port) (v : Line)


  /-- the module reads host memory for a DMA channel: descriptor or data (R265). -/
  | hostRead (ch : Nat) (addr : Dword) (len : Nat)
  /-- the module writes host memory (R264, R266, R272): whether the TLPs carry relaxed ordering, and EP. -/
  | hostWrite (addr : Dword) (data : List Byte) (ro : Bool) (ep : Bool)
  /-- an MSI-X message (R263). -/
  | msi (vector : Nat) (addr : Dword) (data : Word)
  /-- a configuration request answered, with Retry Status or normally (R469). -/
  | cfgReply (tag : BitVec 32) (retry : Bool)
  /-- the endpoint begins link training (R469). -/
  | pcieTrain

  /-- an event handed to the Canopy core that holds the token (R419). -/
  | canopyEvent (e : EvEntry)

  /-- an answer on the side-band (R450), by SMBus or not. -/
  | sideReply (smbus : Bool) (r : SideReply)
  /-- an I3C command answered, its data as the I3C standard gives them (R447). -/
  | cccReply (data : List Byte)
  /-- an in-band interrupt and the PlatformEventMessage it announces (R456, Table 21.4). -/
  | ibi (data : Byte)
  | platformEvent (data : List Byte)
  /-- a PDR repository change event (R453). -/
  | pdrChange
  deriving DecidableEq, Repr

/-! ## Clocks and time sync (03) -/

/-- Non-register state of the clock block (R50 to R60). -/
structure ClkSt where
  /-- tick at which the present holdover began. -/
  holdStart : Nat := 0
  /-- REFCLK has been accepted again and the root PLL slews back (R58). -/
  slewing   : Bool := false
  /-- root PLL running and locked before any loss; kept while the page is OFF (R61). -/
  pllUp     : Bool := false
  /-- ROOT_ID of the sync in progress, once taken (R50, R52). -/
  syncId    : Option Word := none
  /-- the counter has been set in this sync; CHECK follows after 1 ms. -/
  counterSet : Bool := false
  checkSent : Bool := false
  /-- links whose CHECK has been compared in this sync. -/
  compared  : List Nat := []
  deriving DecidableEq, Repr

/-! ## Engines (05, Table 5.1), one per physical engine -/

/-- A write that becomes visible at a tick of the engine (R95). -/
inductive WriteOp where
  /-- an operand-store line, or some of its bytes from byte `lo`. -/
  | store (line : Nat) (v : Line)
  | storeBytes (line : Nat) (lo : Nat) (bs : List Byte)
  | vreg (r : Nat) (v : List Word)
  | areg (r : Nat) (v : Word)
  /-- contributions to cells of one accumulator row from column `col`: buffer, row, whether this is the operation's first row,
  replace first, F32, window exponent, flags to OR (none where the operation sets none), and per column the long
  contributions or block totals. -/
  | acc (buf : Bool) (row : Nat) (col : Nat) (head : Bool) (clr : Bool) (f32 : Bool) (we : BitVec 16) (flags : Option (BitVec 4))
      (cols : List (List Long))
  /-- a mod-3 residue mismatch in buffer `buf` (R87). -/
  | residue (buf : Bool)
  /-- a weight tile: bank, format, K blocks, 128 columns of element codes, 128 columns of scale codes. -/
  | weights (wsel : Bool) (fmt : Nat) (kb : Nat) (elems : List (List Nat)) (scales : List (List Nat))
  /-- a grove line named by its copy-0 address (R141). -/
  | sram (line : Nat) (v : Line)
  | sendq (q : Nat) (v : Line)
  /-- GATHER's lines and SCATTER's lines, released together. -/
  | gather (lines : List (Nat × Line))
  | scatter (lines : List (Nat × Line))
  | dmaStart (ch : BitVec 4) (desc : BitVec 8)
  deriving DecidableEq, Repr

/-- A read that takes place at a tick of the engine (R95, Table 5.3). -/
inductive ReadOp where
  | mmaRow (row : Nat) (r : Nat) (kb : Nat) (afmt : Nat) (rows : Nat) (osa : Nat) (wsel : Bool) (buf : Bool) (clr : Bool) (we : BitVec 16)
      (residue : Bool)
  /-- 16 lines of a weight tile, part `j` of 17. -/
  | loadw (fmt : Nat) (kb : Nat) (wsel : Bool) (osa : Nat) (j : Nat)
  | drainRow (buf : Bool) (row : Nat) (r : Nat) (rows : Nat) (fmt : Nat) (rm : Nat) (raw : Bool) (smode : Nat) (os : BitVec 8) (osa : Nat)
      (bidx : Dword)
  /-- half `h` of a row of long values. -/
  | accRow (buf : Bool) (row : Nat) (r : Nat) (h : Nat) (clr : Bool) (we : BitVec 16) (osa : Nat)
  | ld (line : Nat) (dst : Nat) (obs : Option LineObs)
  | st (src : Nat) (line : Nat)
  | send (src : Nat) (q : Nat)
  | recv (q : Nat) (dst : Nat)
  /-- line `k` of a SCATTER for region line `line` (none where the lane is out of range); `last` releases them. -/
  | scatterLine (src : Nat) (line : Option Nat) (k : Nat) (last : Option Nat)
  deriving DecidableEq, Repr

/-- An operation class of a FENCE mask (R99) with the tick its last result is visible. -/
structure OpPending where
  cls  : Nat
  done : Nat
  deriving DecidableEq, Repr

/-- Why issue is stalled (R97, R99, R102). -/
inductive Stall where
  | none
  | wait (resume : Nat)
  | epoch (resume : Nat)
  | fence (mask : BitVec 6)
  | halted
  deriving DecidableEq, Repr

/-- An open loop: passes left and address of its first body bundle (R98). -/
structure LoopLevel where
  count : Nat
  body  : BitVec 13
  deriving DecidableEq, Repr

/-- One accumulator buffer's own state (R77, R106): cells are kept by row × 128 + column. -/
structure AccBuf where
  cells  : AMap Long := []
  we     : BitVec 16 := 0
  f32    : Bool := false
  /-- STICKY_LO, WIN_OVF, SPEC_IN, TERN_BAD, bits 0 to 3. -/
  flags  : BitVec 4 := 0
  deriving DecidableEq, Repr

/-- A weight bank (R104): format, K blocks, element codes by column, scale codes by column. -/
structure WBank where
  filled : Bool := false
  fmt    : Nat := 0
  kb     : Nat := 0
  elems  : List (List Nat) := []
  scales : List (List Nat) := []
  deriving DecidableEq, Repr

/-- Non-register state of one physical engine. -/
structure EngineSt where
  store   : AMap Line := []
  vregs   : AMap (List Word) := []
  aregs   : AMap Word := []
  xregs   : AMap (BitVec 16) := []
  buf0    : AccBuf := {}
  buf1    : AccBuf := {}
  w0      : WBank := {}
  w1      : WBank := {}
  loops   : List LoopLevel := []
  bundles : AMap (BitVec 256) := []
  sendq   : AMap (List Line) := []
  recvq   : AMap (List Line) := []
  pc      : BitVec 13 := 0
  /-- schedule tick of the step this engine stands at. -/
  tick    : Nat := 0
  /-- bundles issued since the step started (R81). -/
  count   : Word := 0
  stall   : Stall := .halted
  reads   : List (Nat × ReadOp) := []
  writes  : List (Nat × WriteOp) := []
  ops     : List OpPending := []
  /-- step flags STICKY_LO, WIN_OVF, SPEC_IN, TERN_BAD, OUT_SAT, OUT_NAN (R77), bits 0 to 5. -/
  flags   : BitVec 6 := 0
  /-- rows of a SCATTER collected so far: lane and line. -/
  scat    : List (Nat × Line) := []
  /-- lines of a weight tile read so far (R104). -/
  lw      : List Line := []
  /-- the residue check has stopped writes to a buffer (R87). -/
  stopBuf : List Bool := []
  /-- ENGINE_RESIDUE events since the last clear of this engine, in MRAM (R394). -/
  residues : Nat := 0
  deriving DecidableEq, Repr

/-! ## Groves and background access (06) -/

/-- A running grove DMA descriptor (R146): its fields, the lines captured at the start, and the trigger. -/
structure DmaRun where
  desc    : Nat
  kind    : Nat
  rate    : Nat
  eng     : Nat
  half    : Nat
  len     : Nat
  src     : Nat
  dst     : Nat
  sched   : Bool
  /-- logical engine that triggered it by DMAT. -/
  byEng   : Option Nat
  /-- lines captured at the start (KIND 0, 1 and 3) and lines moved so far (KIND 2). -/
  lines   : List Line
  moved   : Nat
  deriving DecidableEq, Repr

/-- One grove DMA channel: the running descriptor, and its inbound and outbound buffers (R146). -/
structure DmaCh where
  run    : Option DmaRun := none
  inbuf  : List Line := []
  outbuf : List Line := []
  deriving DecidableEq, Repr

/-- A held background request (R136, R243) with its hold number and the tick it arrived. -/
structure BgHeld where
  num  : Nat
  acc  : BgAccess
  at_  : Nat
  deriving DecidableEq, Repr

/-- Scrub write-back waiting for the bank's next scrub tick (R133): line address and value. -/
structure ScrubWb where
  line : Nat
  v    : Line
  deriving DecidableEq, Repr

/-- Non-register state of one grove. -/
structure GroveSt where
  wins     : List Win := []
  /-- select and dirty bits by copy-0 line (R141). -/
  sel      : AMap Bool := []
  dirty    : AMap Bool := []
  dyn      : List DynRegion := []
  /-- outer-code corrections per bank since READY, and banks already reported (R135). -/
  corr     : AMap Nat := []
  worn     : List Nat := []
  /-- scrub tick counter and write-backs by bank (R126, R133). -/
  scrubTau : Nat := 0
  wb       : AMap (Option ScrubWb) := []
  chans    : AMap DmaCh := []
  /-- descriptors by channel × 256 + number (R145). -/
  descs    : AMap (BitVec 256) := []
  /-- repair record in MRAM valid (R380, R392). -/
  repairOk : Bool := false
  deriving DecidableEq, Repr

/-! ## The stand member (07, 18) -/

/-- A settled pace S(E) awaiting its apply epoch (R174). -/
structure Settled where
  epoch : Nat
  pace  : Nat
  deriving DecidableEq, Repr

/-- An announced or executing step: number and start epoch (R163). -/
structure StepAt where
  step  : Dword
  start : Nat
  deriving DecidableEq, Repr

/-- Where the member stands with the vote of a step (R165 to R167). -/
structure VoteSt where
  /-- last epoch X of the step whose vote was sampled, and its number. -/
  lastEpoch : Nat := 0
  step      : Dword := 0
  /-- this member voted ABORT. -/
  own       : Bool := false
  /-- the group vote (ABORT or not), once known. -/
  group     : Option Bool := none
  /-- ABORT_OR to send in the present epoch, and the OR of those received in it. -/
  orNow     : Bool := false
  orNext    : Bool := false
  /-- the verdict this member holds. -/
  verdict   : Verdict := .none
  deriving DecidableEq, Repr

/-- A pace fault declared at the end of the current epoch (R175): CAUSE and DETAIL. -/
structure EoeFault where
  cause  : Nat
  detail : Nat
  deriving DecidableEq, Repr

/-- Non-register state of the stand member. STAND page registers hold the rest (R181). -/
structure StandSt where
  /-- group epochs are running (R158, R178). -/
  epochs     : Bool := false
  /-- ticks of the present group epoch that have elapsed. -/
  phase      : Nat := 0
  /-- first epoch of the pace wave: 0 at arming, G_R after a resume (R407). -/
  waveBase   : Nat := 0
  /-- pace of epochs before the first settled pace applies: P_ARM or P_R. -/
  basePace   : Nat := 0
  settled    : List Settled := []
  /-- w(E, h) of the present epoch, h = 0 first, and the entries received in it (R173). -/
  wave       : List (BitVec 14) := []
  waveRx     : List (BitVec 14) := []
  /-- the step number of the pending issue (R162). -/
  issueStep  : Dword := 0
  /-- ending (R180): END_REQ seen or asked; the lead starts no further step; the epoch in which UNLOAD was first received (at the
  lead, the epoch before the one in which it is first sent). -/
  endReq     : Bool := false
  ending     : Bool := false
  unloadRx   : Option Nat := none
  /-- the announcement held for START_STEP and START_EPOCH. -/
  announce   : Option StepAt := none
  /-- announcement received in this epoch, to be copied from the next (R163). -/
  announceRx : Option StepAt := none
  /-- the step outstanding (executing, or awaiting its verdict). -/
  current    : Option StepAt := none
  vote       : Option VoteSt := none
  /-- last step whose vote was sampled and its fate (R406). -/
  lastFate   : VerdictState := .none
  /-- a received ABORT suspends the group at C (R167). -/
  suspendAtC : Bool := false
  eoe        : List EoeFault := []
  /-- ticks for which ABORT is still repeated on group and scheduled links, and its payload (R176, R177). -/
  abortTicks : Nat := 0
  abortMsg   : Option AbortMsg := none
  /-- steps have committed since arming (R162). -/
  anyCommit  : Bool := false
  deriving DecidableEq, Repr

/-! ## Links (08) -/

/-- A training record in MRAM (R190). -/
structure TrainRec where
  serial : Dword
  plink  : BitVec 8
  eq     : Word
  lanes  : Word
  meas   : Word
  deriving DecidableEq, Repr

/-- A service message waiting to be sent or to be acknowledged (R205). -/
structure SvcTx where
  cls   : SvcClass
  msgno : BitVec 16
  body  : SvcBody
  /-- flits already sent. -/
  sent  : Nat
  deriving DecidableEq, Repr

/-- A LINKMGT message waiting to be sent (R203). -/
inductive MgtMsg where
  | ack (cls : SvcClass) (msgno : BitVec 16)
  | skipReq
  | takedown
  | takedownAck
  | echo (residue : BitVec 4)
  deriving DecidableEq, Repr

/-- State of one credit pool of a link (R204). -/
structure Pool where
  /-- next FSEQ to send and next expected. -/
  txSeq   : BitVec 10 := 0
  rxSeq   : BitVec 10 := 0
  /-- credits to return to the partner. -/
  owed    : Nat := 0
  /-- flits of the partial message received in this pool. -/
  partialN : Nat := 0
  deriving DecidableEq, Repr

/-- Non-register state of one link. LINK page registers hold the rest (R216). -/
structure LinkSt where
  /-- training warm this time, and the one cold repeat used (R190). -/
  warmNow    : Bool := false
  warmFailed : Bool := false
  /-- MEASURE: failed attempts, exchanges done, and the values every exchange must repeat (R191). -/
  measFails  : Nat := 0
  exchanges  : Nat := 0
  measBad    : Bool := false
  rt         : Option Nat := none
  rhoRx      : Option (BitVec 4) := none
  rhoTx      : Option (BitVec 4) := none
  trained    : Option TrainRec := none
  /-- consecutive uncorrectable flits (R212). -/
  uncorrRun  : Nat := 0
  /-- corrected bits per physical lane since the present second began (R211), and lanes already named. -/
  laneSec    : AMap Nat := []
  laneT0     : Nat := 0
  laneNamed  : List Nat := []
  slipReq    : Bool := false
  pools      : AMap Pool := []
  /-- messages queued for sending, per class in order; sent and unacknowledged messages; LINKMGT messages. -/
  txq        : List SvcTx := []
  unacked    : List SvcTx := []
  mgt        : List MgtMsg := []
  /-- service ticks each class has waited with a flit and credit ready (R206), by class code. -/
  waited     : AMap Nat := []
  /-- next MSGNO per class code, and the MSGNOs accepted from the partner, newest first. -/
  nextMsg    : AMap Nat := []
  seenMsg    : List (SvcClass × BitVec 16) := []
  /-- the 64-flit transmit and receive buffers toward the crossbar (R209): half-lines with HALF and their poison
mark. -/
  txBuf      : List (BitVec 256 × Bool × Bool) := []
  rxBuf      : List (BitVec 256 × Bool × Bool) := []
  /-- the link was taken down by HOLD (R400). -/
  byHold     : Bool := false
  deriving DecidableEq, Repr

/-! ## Reduction units (09) -/

/-- A decoded run of a reduction program (Table 9.1). -/
structure Run where
  start  : Nat
  sink   : Bool
  count  : Nat
  src    : Nat
  lq     : Bool
  dkind  : Nat
  dindex : Nat
  deriving DecidableEq, Repr

/-- One reduction unit: program, next run and operands done per lane, local queues of operands with poison marks, and a
half-built sink line (R218 to R221). -/
structure ReduceSt where
  prog    : List Run := []
  fwdRun  : Nat := 0
  fwdDone : Nat := 0
  snkRun  : Nat := 0
  snkDone : Nat := 0
  lq0     : List (BitVec 256 × Bool) := []
  lq1     : List (BitVec 256 × Bool) := []
  half    : Option (BitVec 256 × Bool) := none
  deriving DecidableEq, Repr

/-! ## LPDDR5X (10) -/

/-- A channel's training record in the MRAM journal (R248). -/
structure ChanRec where
  valid : Bool := false
  ident : Word := 0
  temp  : Nat := 0
  deriving DecidableEq, Repr

/-- Non-register state of the LPDDR5X subsystem (module-wide) (R236 to R255). -/
structure LpddrSt where
  /-- step windows of the armed stand, select and dirty bits by logical block number (R244, R245). -/
  wins     : List Win := []
  sel      : AMap Bool := []
  dirty    : AMap Bool := []
  scratch  : List Region := []
  reads    : List Region := []
  /-- corrected blocks per physical page since READY, pages already reported, and pages retired at the last start (R252). -/
  corr     : AMap Nat := []
  worn     : List Nat := []
  retired  : List Nat := []
  /-- channels present C (R237). -/
  c        : Nat := 0
  /-- scrub position per controller (block of the run being read), channel under scrub (R250). -/
  scrubBlk : AMap Nat := []
  scrubCh  : AMap Nat := []
  recs     : AMap ChanRec := []
  /-- controllers with a fold in progress, and per-bank refreshes done by controller × 128 + channel × 16 + bank (R247). -/
  folding  : List Nat := []
  /-- frame lines at the crossbar by controller: read lines waiting for their destination, blocks waiting for a write line from
  their source, and write lines that arrived first; each with its mark of an uncorrectable line (R240). -/
  outq     : AMap (List (Port × Line × Bool)) := []
  waitq    : AMap (List (Nat × Port)) := []
  inq      : AMap (List (Port × Line × Bool)) := []
  refreshed : AMap Nat := []
  deriving DecidableEq, Repr

/-! ## The host interface (11) -/

/-- A count of elapsed time in some unit: the count when the timer was last set, and the tick it was set at. -/
structure Timer where
  acc  : Nat := 0
  base : Nat := 0
  deriving DecidableEq, Repr

/-- One host DMA channel (R265 to R267): the descriptor in hand, bytes of it received, a STATUS other than 0x01 that it will end
with (0: none yet), whether a module-to-host transfer has been sent, and whether STOP waits for completions. -/
structure HdCh where
  desc  : Option (BitVec 256) := none
  got   : Nat := 0
  bad   : Nat := 0
  sent  : Bool := false
  stopping : Bool := false
  deriving DecidableEq, Repr

/-- MSI-X (R263, R264): unmasked vectors with their message address and data, the function mask, the pending-bit array, causes
waiting for their pacing interval, and the tick each vector was last sent. -/
structure MsixSt where
  entries  : AMap (Option (Dword × Word)) := []
  funcMask : Bool := false
  pba      : AMap Bool := []
  due      : AMap Bool := []
  last     : AMap (Option Nat) := []
  deriving DecidableEq, Repr

/-- Non-register state of the host interface. -/
structure HostSt where
  chans  : AMap HdCh := []
  msix   : MsixSt := {}
  /-- scans for which slot CONSUMED_SEQ has stalled in a row (R270). -/
  torn   : Nat := 0
  /-- accepted records not yet processed by the sequencer, oldest first (R270). -/
  submitted : List (BitVec 512) := []
  /-- completion bodies (bytes 0–59) waiting by ring, oldest first, and rings in a full episode (R272). -/
  cq     : AMap (List (BitVec 480)) := []
  cqFull : AMap Bool := []
  /-- ALIVE_AGE in ms (R273). -/
  alive  : Timer := {}
  /-- bring-up step 2 has completed: configuration requests succeed (R469). -/
  cfgOk  : Bool := false
  deriving DecidableEq, Repr

/-! ## The serving sequencer and sampling unit (12) -/

/-- A GENERATE request (Table 12.3). -/
structure Request where
  seq       : Word
  ring      : Nat
  streamRec : Bool
  maxNew    : Nat
  tag       : Dword
  prompt    : Dword
  promptLen : Nat
  out       : Dword
  seed      : Dword
  tempQ     : Nat
  topPQ     : Nat
  topK      : Nat
  repPenQ   : Nat
  stop0     : Word
  stop1     : Word
  deriving DecidableEq, Repr

/-- A batch slot in use: its request, tokens delivered, tokens reported in records, the last commit that delivered any (step and
fabric time), KV pages, whether its FINAL record is written, and LAST_COMMIT when a CANCEL was accepted (R285 to R289). -/
structure SlotSt where
  req      : Request
  total    : Nat
  reported : Nat
  last     : Option (Dword × Dword)
  pages    : List Nat
  finished : Bool
  cancel   : Option Dword
  deriving DecidableEq, Repr

/-- Non-register state of the sequencer. -/
structure ServeSt where
  queue   : List Request := []
  slots   : AMap (Option SlotSt) := []
  /-- steps the sequencer has issued that have neither committed nor aborted. -/
  mine    : List Dword := []
  /-- a commit whose tokens are not yet handled: its step and fabric time (R287). -/
  commit  : Option (Dword × Dword) := none
  /-- the last step whose tokens have been handled. -/
  handled : Dword := 0
  /-- the next issue is withheld for an admission point, or waits for its writes to take effect (R285). -/
  withheld : Bool := false
  /-- the sequencer is ending (R290), and whether the stand ended. -/
  ending  : Bool := false
  /-- SEQ_FAULT records are still to be written (R291). -/
  faulted : Bool := false
  /-- the hang timer of each service core, in ms since its last heartbeat (R278). -/
  beats   : AMap Timer := []
  deriving DecidableEq, Repr

/-- Non-register state of the sampling unit (R292): lines received, the stream taken, and result lines not yet carried. -/
structure SampleSt where
  inbuf  : List Line := []
  stream : Option (List Line) := none
  outbuf : List Line := []
  deriving DecidableEq, Repr

/-! ## Pumps, valves and coolant inputs (13, 15) -/

/-- A zone valve beyond its SETv and STv registers (R308 to R311): the unscaled applied hold code of a valve in HOLD, and the coil
current in mA of a valve in PEAK, or the one a valve in DECAY decays from. -/
structure ValveSt where
  hold : Nat := 0
  ma   : Nat := 0
  deriving DecidableEq, Repr

/-- Non-register state of the pumps and valves. -/
structure FluidSt where
  /-- running time of each pump in ticks: what was accumulated, and since when a RUNNING pump runs (HOURSn). -/
  ran       : AMap Timer := []
  valves    : AMap ValveSt := []
  /-- zone valves in WAIT, in the order in which they entered it (R309). -/
  waiting   : List Nat := []
  /-- the isolation pulse in progress and the commands behind it: valve (0 for V24, 1 for V25) and close (R310, R313). -/
  iso       : Option (Nat × Bool) := none
  isoQ      : List (Nat × Bool) := []
  /-- tick of each bank's last trip, and banks that will reclose (R312). -/
  tripAt    : AMap (Option Nat) := []
  reclosing : List Nat := []
  /-- the leak sequence has released the zone valves (Table 13.6, t0 + 5 ms). -/
  released  : Bool := false
  deriving DecidableEq, Repr

/-- A number num / 2^exp. -/
structure Frac where
  num : Int := 0
  exp : Nat := 0
  deriving DecidableEq, Repr

/-- One input of Table 15.1: the last three accepted samples, newest first, and the filter's y (R347). -/
structure InputSt where
  hist : List Int := []
  y    : Frac := {}
  deriving DecidableEq, Repr

/-- One leak channel's rules (R314, R316), counted in accepted samples or sample periods: wet samples in a row, samples in a row above
8 MΩ and below 4 MΩ, periods since it was last open or invalid, and periods since its last accepted sample not above
LEAK_THRESH. -/
structure LeakCh where
  input : InputSt := {}
  wet   : Nat := 0
  high  : Nat := 0
  low   : Nat := 0
  valid : Nat := 0
  dry   : Nat := 0
  deriving DecidableEq, Repr

/-- Non-register state of the coolant inputs: inputs by number (0 flow, 1 to 4 inlet A, B and outlet A, B, 5 and 6 inlet and outlet
pressure), leak channels, and the counts of sample periods behind R300 and R350. -/
structure CoolantSt where
  inputs : AMap InputSt := []
  leaks  : AMap LeakCh := []
  /-- last three differences PIN − POUT, newest first. -/
  dp     : List Int := []
  /-- periods for which the inlet (0) and outlet (1) pair has differed by more than 1.0 K, and has been within it. -/
  apart  : AMap Nat := []
  near   : AMap Nat := []
  /-- periods since the median flow was last at or above 40 % of NOM_FLOW, and since the pressure median was at or above 300 mbar; none
  when never. -/
  sinceFlow : Option Nat := none
  sinceDp   : Option Nat := none
  /-- periods in a row with the median flow below 10 % of NOM_FLOW, and with the pressure median below 100 mbar. -/
  noFlow : Nat := 0
  noDp   : Nat := 0
  deriving DecidableEq, Repr

/-! ## Thermal control (14) -/

/-- A temperature sensor (R322): its last valid reading in 0.01 °C, sample periods without an update, and whether it is invalid. A
sensor with no reading that is not invalid has not been sampled since power-on. -/
structure TSens where
  val  : Option Int := none
  miss : Nat := 0
  bad  : Bool := false
  deriving DecidableEq, Repr

/-- What a telemetry window has gathered (R340): power samples in 0.1 mW, hottest T_ctl in 0.01 °C and flow in mL/min, each as count,
sum and extreme, and the lowest effective cap. -/
structure WinAcc where
  pN   : Nat := 0
  pSum : Nat := 0
  pMax : Nat := 0
  tN   : Nat := 0
  tSum : Int := 0
  tMax : Int := 0
  fN   : Nat := 0
  fSum : Nat := 0
  fMin : Nat := 0
  cap  : Nat := 2600
  deriving DecidableEq, Repr

/-- Non-register state of the thermal governor. -/
structure ThermSt where
  /-- the pace the governor requires, q (R172, R332). -/
  pace : Nat := 0
  /-- grove sensors by 2 × grove (A) and 2 × grove + 1 (B), floor, package and area sensors by index. -/
  groveT : AMap TSens := []
  floorT : AMap TSens := []
  memT   : AMap TSens := []
  areaT  : AMap TSens := []
  /-- grove sample periods in a row with |A − B| above 5.0 °C, and not above it (R323). -/
  apart  : AMap Nat := []
  near   : AMap Nat := []
  /-- J in 0.01 W (R325). -/
  j      : Nat := 260000
  /-- the last accepted rack cap, or the power-on value (R330). -/
  rack   : Nat := 2600
  /-- the last ten power samples in 0.1 mW, newest first, and their sum at each of the last 1,000 runs (R327, R332). -/
  samples : List Nat := []
  sums    : List Nat := []
  /-- acc in 1/256, e_prev in 2^−20 (R332), and runs for which acc has stood at its limit with P_k above 1.02 T_k (R335). -/
  acc    : Int := 0
  ePrev  : Int := 0
  satN   : Nat := 0
  /-- power samples above X in a row (R334). -/
  overX  : Nat := 0
  /-- runs for which the condition of RISE_ABNORMAL has held, and has not (R327); runs for which it has been set. -/
  riseN  : Nat := 0
  calmN  : Nat := 0
  riseSet : Nat := 0
  /-- runs for which thermal cap and flow have stood below each level's share (Table 14.4). -/
  capN   : AMap Nat := []
  flowN  : AMap Nat := []
  win    : WinAcc := {}
  /-- 48 V energy since power-on in 10 nJ (TELEM.ENERGY). -/
  energy : Nat := 0
  deriving DecidableEq, Repr

/-! ## Glade (15) -/

/-- An entry of the island log (R346): source page, event code, severity and Glade's millisecond count. -/
structure IslandEv where
  page : Nat
  code : Nat
  sev  : Nat
  ms   : Nat
  deriving DecidableEq, Repr

/-- Non-register state of Glade (R344 to R356). -/
structure GladeSt where
  island    : List IslandEv := []
  /-- 48 V voltage and current (R347). -/
  vin       : InputSt := {}
  iin       : InputSt := {}
  /-- an episode of invalid power is in progress; voltage samples in a row outside and inside 40–60 V, and VIN_RANGE raised (R348). -/
  powerBad  : Bool := false
  vinOut    : Nat := 0
  vinIn     : Nat := 0
  vinRaised : Bool := false
  /-- the last measurement found the oscillator beyond ±1.5 % (R345). -/
  oscBad    : Bool := false
  /-- the token has had no holder for 1 ms (R352). -/
  noHolder  : Bool := false
  /-- tick of the last table-mode entry (TM_TIME). -/
  tmStart   : Nat := 0
  deriving DecidableEq, Repr

/-! ## Canopy (16) -/

/-- An entry of a snoop queue (R362). -/
structure SnoopEntry where
  seq  : Word
  off  : Nat
  data : Word
  req  : Word
  kclk : Nat
  deriving DecidableEq, Repr

/-- Non-register state of one Canopy core. -/
structure CoreSt where
  snoop    : List SnoopEntry := []
  /-- the shadow of module state (R362). -/
  shadow   : AMap (Option Word) := []
  /-- HB_AGE in µs (R361). -/
  hb       : Timer := {}
  /-- tick at which the core last serviced its watchdog (R361). -/
  wdServed : Nat := 0
  /-- held in reset or restarting (R366, R370). -/
  inReset  : Bool := false
  /-- what the restart in progress records in DIAG: watchdog expiry, diagnosis failure and the failed checks. -/
  wdog     : Bool := false
  diag     : Bool := false
  fails    : BitVec 4 := 0
  /-- ticks of the restarts of the last 10 minutes, newest first (R370). -/
  restarts : List Nat := []
  deriving DecidableEq, Repr

/-- Non-register state of the pair and the control token. -/
structure CanopySt where
  cores    : AMap CoreSt := []
  /-- sequence number of the last snooped write. -/
  seq      : Word := 0
  /-- registers the holder has written since its last heartbeat, with the value R367 requires. -/
  since    : AMap (Option Word) := []
  /-- the former holder while the overlap of R366 runs. -/
  former   : Option (Fin 2) := none
  /-- CAUSE that a claim of the vacant token takes (Table 16.2), and the tick the present takeover began (R365). -/
  vacancy  : Nat := 1
  gapStart : Nat := 0
  deriving DecidableEq, Repr

/-! ## Bring-up and Deadwood (17) -/

/-- Non-register state of bring-up (R375 to R386). -/
structure BootSt where
  /-- ticks at which BRINGUP was entered and the present step began (BOOT_TIME, STEP_TIMEs). -/
  t0        : Nat := 0
  stepT0    : Nat := 0
  /-- the present step has already failed once. -/
  retried   : Bool := false
  /-- the present step waits in Hold for FLOW_STOP to clear, and is to start again from its first write (R379). -/
  held      : Bool := false
  again     : Bool := false
  /-- the first core to boot has settled which firmware copy runs (R371). -/
  fwDone    : Bool := false
  /-- host-driven: GO has been given for the present step. -/
  going     : Bool := false
  /-- known-answer run: groves still to run, whether it has begun, and whether it has ended (R385). -/
  katLeft   : List Nat := []
  katOn     : Bool := false
  katDone   : Bool := false
  /-- groves whose SRAM started cold in this start (R380). -/
  cold      : List Nat := []
  /-- links whose reduction units this start, or Canopy after it, has enabled (Table 17.1). -/
  reduced   : List Nat := []
  /-- times each service core has entered FAULT since this start (R394). -/
  svcFaults : AMap Nat := []
  /-- the shape of the previous start, in MRAM (R396). -/
  prevShape : List Word := []
  deriving DecidableEq, Repr

/-! ## Loading, resuming and forwarding in a group (18) -/

/-- A load in progress, or the last one (R410 to R415). -/
structure LoadSt where
  /-- the manifest accepted and its bytes; none when no load is in progress. -/
  man      : Option Manifest := none
  raw      : List Byte := []
  /-- this member is the lead of the load; its member number. -/
  lead     : Bool := false
  member   : Nat := 0
  parent   : Option Nat := none
  /-- links the manifest was sent on. -/
  sent     : List Nat := []
  /-- chunk digests of which a first copy has come, END forwarded and END received on the parent link. -/
  seen     : List (BitVec 256) := []
  ended    : Bool := false
  endParent : Bool := false
  /-- verified chunks by digest. -/
  held     : AMap (Option Chunk) := []
  /-- repair: digests of the request outstanding and the neighbour asked (its place in the list: parent, then ascending links), and by
  digest the neighbour to ask next. -/
  asked    : List (BitVec 256) := []
  askOf    : Nat := 0
  tries    : AMap Nat := []
  /-- the member's own image, once its chunks are verified and the loader's checks passed. -/
  image    : Option Image := none
  /-- this member has answered: its image was checked, or it has refused the load; and LOAD_INCOMPLETE was raised at the lead. -/
  checked  : Bool := false
  incomplete : Bool := false
  /-- RELEASE of the arm barrier, once held. -/
  release  : Option ReleaseMsg := none
  deriving DecidableEq, Repr

/-- Recovery of a suspended group (R404 to R409). -/
structure GroupSt where
  load     : LoadSt := {}
  /-- parent link of the last arm or resume barrier (R419), members of the armed stand. -/
  parent   : Option Nat := none
  members  : Nat := 0
  /-- the list behind MISSING_SEL: members of the last load at this lead. -/
  listed   : Nat := 0
  /-- of that load: ARM_READY answers (member and q) and refusals (member and REASON). -/
  ready    : List (Nat × Nat) := []
  refused  : List (Nat × Nat) := []
  rejoined : Bool := false
  /-- links on which RESUME_REQ of the present barrier has come. -/
  reqFrom  : List Nat := []
  /-- answers the lead holds, in order of arrival. -/
  answers  : List ResumeAns := []
  /-- RELEASE of the resume barrier, once held. -/
  release  : Option ReleaseMsg := none
  deriving DecidableEq, Repr

/-! ## Ringlog (19) -/

/-- One requester's selection (R428): SEL, SEEK, SEL_STATUS, the copied slot and CHECK. -/
structure RlogSel where
  sel    : Word := 0
  seekLo : Word := 0
  seekHi : Word := 0
  status : Word := 0
  win    : BitVec 512 := 0
  check  : Dword := 0
  deriving DecidableEq, Repr

/-- A clear in progress, in MRAM (R432): SCOPE, CLEAR_ARG, the token's owner key slot, and whether power loss cut it off. -/
structure RlogClear where
  scope : Nat
  arg   : Word
  slot  : Nat
  cut   : Bool := false
  deriving DecidableEq, Repr

/-- Non-register state of Ringlog. -/
structure RlogSt where
  /-- slots in MRAM (R422); an unlisted slot is empty. -/
  slots : AMap (BitVec 512) := []
  sels  : AMap RlogSel := []
  clear : Option RlogClear := none
  deriving DecidableEq, Repr

/-! ## Security and Heartwood fuses (20) -/

/-- A token as VERIFY takes it, and as it is kept while pending (R439). -/
structure Token where
  scope  : Nat
  signer : Nat
  arg    : Word
  digest : BitVec 256
  sig    : BitVec 512
  /-- the nonce it is checked with: none when none was valid. -/
  nonce  : Option (BitVec 128)
  deriving DecidableEq, Repr

/-- A fuse blow in progress (R440). -/
inductive Blow where
  | field (n : Nat) (mask : Nat)
  | enroll (slot : Nat) (digest : BitVec 256)
  | revoke (slot : Nat)
  deriving DecidableEq, Repr

/-- Non-register state of the security engine and the fuse array. -/
structure SecSt where
  /-- Heartwood by HWOOD page offset (Table 20.1), beside the copies that the page holds; and the factory defect map by entry. -/
  fuses   : AMap Word := []
  defects : AMap Word := []
  /-- identity seed (R442). -/
  secret  : BitVec 256 := 0
  /-- key store in NOR: 0 root, 1 and 2 the owner slots (R435); certificate chain (R442). -/
  keys    : AMap (BitVec 512) := []
  cert    : List Byte := []
  /-- VERIFY in progress, token pending, and blow in progress (R439, R440). -/
  checking : Option Token := none
  token    : Option Token := none
  blow     : Option Blow := none
  /-- tick at which the pending token was verified. -/
  tokenAt : Nat := 0
  /-- firmware copies in NOR, A and B, as the last updates wrote them; the copy that runs and the preferred copy, in MRAM; an update in
  progress (R438). -/
  copies  : AMap (List Byte) := []
  running : Nat := 0
  prefer  : Nat := 0
  update  : Bool := false
  /-- attestation report being built: MASK, nonce and fabric time at GO (R444). -/
  report  : Option (Nat × List Byte × Dword) := none
  deriving DecidableEq, Repr

/-! ## The tray side-band (21) -/

/-- A request that the token-holding Canopy core serves (R450). -/
inductive CanReq where
  | uuid | setTid (tid : BitVec 8) | getTid | version (type : BitVec 8) | types | commands (type : BitVec 8) | pdrInfo | pdr (handle : Word)
  deriving DecidableEq, Repr

/-- Non-register state of the side-band block. -/
structure SideSt where
  /-- in-band interrupts enabled (ENEC, DISEC). -/
  ibi      : Bool := true
  /-- event receiver's endpoint ID. -/
  receiver : Option (BitVec 8) := none
  /-- the head of the PLDM buffer has been sent and not yet acknowledged. -/
  sent     : Bool := false
  /-- requests that wait for a token holder, each with whether it came over SMBus (R450). -/
  waiting  : List (Bool × CanReq) := []
  /-- tags of partially received messages. -/
  partials : List (BitVec 3) := []
  /-- LAST_RX_AGE in ms. -/
  lastRx   : Timer := {}
  deriving DecidableEq, Repr


/-- The whole state of the module. -/
structure State where
  /-- the register file by BAR0 offset; an offset not listed holds the reset value of its register table. -/
  regs    : AMap Word := []
  /-- commands waiting, first in first out. -/
  pending : List Instr := []
  /-- what has left the block, newest first. -/
  out     : List Out := []
  /-- ticks counted by this model, and fabric time (R47). -/
  now     : Nat := 0
  ftime   : Dword := 0
  /-- number of free values taken so far (the model's own: assumption 4). -/
  freeCtr : Nat := 0
  mod     : ModSt := {}
  /-- what the register arbiter keeps per requester, by requester identifier (Table 2.6). -/
  ctx     : AMap ReqCtx := []
  evt     : EvtSt := {}
  clk     : ClkSt := {}
  links   : AMap LinkSt := []
  /-- accepted service messages not yet taken by the block that owns their class (R205): link and body. -/
  inbox   : List (Nat × SvcBody) := []
  stand   : StandSt := {}
  /-- the armed stand image (Table 7.1). -/
  image   : Option Image := none
  /-- physical engines by 16 × grove + physical number. -/
  engines : AMap EngineSt := []
  groves  : AMap GroveSt := []
  /-- module memory (Table 10.3): grove SRAM and LPDDR5X by module byte address, canonical; unlisted bytes read 0. -/
  mem     : List Host.Cell := []
  /-- 64-byte lines held with an uncorrectable code, by module address / 64 (R213, R235). -/
  poison  : AMap Bool := []
  /-- background requests held, oldest first, and the next hold number (R136, R243). -/
  bg      : List BgHeld := []
  bgNext  : Nat := 0
  reduce  : AMap ReduceSt := []
  lpddr   : LpddrSt := {}
  boot    : BootSt := {}
  host    : HostSt := {}
  serve   : ServeSt := {}
  sample  : SampleSt := {}
  fluid   : FluidSt := {}
  coolant : CoolantSt := {}
  therm   : ThermSt := {}
  canopy  : CanopySt := {}
  glade   : GladeSt := {}
  group   : GroupSt := {}
  rlog    : RlogSt := {}
  sec     : SecSt := {}
  side    : SideSt := {}
  /-- the Deadwood list in MRAM by entry index (R388). -/
  dwood   : AMap (BitVec 128) := []
  deriving DecidableEq, Repr

/-- There is no fault of the model's own: the specification gives every command an effect. The one constructor marks
states that no command reaches; nothing raises it. -/
inductive Fault where
  /-- raised by nothing (safe). -/
  | unreachable
  deriving DecidableEq, Repr

/-- Refusals. -/
inductive Refusal where
  /-- raised by `exec` for a command whose meaning is not written (safe). -/
  | notModelled (mnemonic : String)
  deriving DecidableEq, Repr

/-- The module right after reset: registers at the values of their tables, nothing listed in memory, no command waiting;
module state STANDBY before any power is applied. -/
def State.reset : State := {}

end Sys2Proof.Machine
end

