-- ==== Sys2Proof/Machine/Ops.lean ====
section
/-! DEFINITION. The named operations over the state: sparse maps, registers and fields, pages, outputs, events, function
states, the Deadwood list and module memory. -/

namespace Sys2Proof.Machine

/-! ## Sparse maps -/

/-- The entry of key `k`, or the map's default. -/
def aget {α : Type} (d : α) : AMap α → Nat → α
  | [], _ => d
  | (i, v) :: m, k => if i = k then v else aget d m k

/-- The map with `k` set to `v`, in canonical form (an entry equal to the default is not listed). -/
def aset {α : Type} [DecidableEq α] (d : α) (m : AMap α) (k : Nat) (v : α) : AMap α :=
  m.filter (fun e => e.1 < k) ++ (if v = d then [] else [(k, v)]) ++ m.filter (fun e => k < e.1)

/-- Keys strictly rising. -/
def keysRising {α : Type} : AMap α → Bool
  | [] => true
  | [_] => true
  | (i, _) :: (j, w) :: m => decide (i < j) && keysRising ((j, w) :: m)

/-- The canonical form of a map with default `d`. -/
def amapWf {α : Type} [DecidableEq α] (d : α) (m : AMap α) : Bool :=
  keysRising m && m.all (fun e => decide (e.2 ≠ d))

/-! ## Requester identifiers (Table 2.6) -/

/-- Table 2.6. -/
def reqIdent : Req → Word
  | .glade => 0
  | .canopyA => 1
  | .canopyB => 2
  | .host => 3
  | .svc c => BitVec.ofNat 32 (4 + 16 * c.val)
  | .sideband => 5
  | .debug => 6
  | .remote m => BitVec.ofNat 32 (7 + 65536 * m.toNat)

/-- The two Canopy cores. -/
def isCanopy : Req → Bool
  | .canopyA | .canopyB => true
  | _ => false

/-- A service core. -/
def isSvc : Req → Bool
  | .svc _ => true
  | _ => false

/-! ## Pages (Table 2.9) -/

/-- The page kind and instance at page number `n` (BAR0 offset divided by 4,096); none where no page is. -/
def pageAt (n : Nat) : Option (PageKind × Nat) :=
  if n = 0x00 then some (.module, 0) else if n = 0x01 then some (.arb, 0) else if n = 0x02 then some (.evt, 0)
  else if n = 0x03 then some (.clk, 0) else if n = 0x04 then some (.hwood, 0) else if n = 0x05 then some (.sec, 0)
  else if n = 0x06 then some (.rlog, 0) else if n = 0x07 then some (.dwood, 0) else if n = 0x08 then some (.canopy, 0)
  else if n = 0x09 then some (.canopy, 1) else if n = 0x0A then some (.glade, 0) else if n = 0x0B then some (.therm, 0)
  else if n = 0x0C then some (.telem, 0) else if n = 0x0D then some (.pump, 0) else if n = 0x0E then some (.valve, 0)
  else if n = 0x0F then some (.coolant, 0) else if n = 0x10 then some (.hostdma, 0) else if n = 0x11 then some (.submit, 0)
  else if n = 0x12 then some (.serve, 0) else if n = 0x13 then some (.sample, 0) else if n = 0x14 then some (.sideband, 0)
  else if 0x18 ≤ n ∧ n ≤ 0x1F then some (.svc, n - 0x18)
  else if n = 0x20 then some (.stand, 0)
  else if 0x100 ≤ n ∧ n ≤ 0x1FF then
    let g := (n - 0x100) / 16
    let k := n % 16
    if k = 0 then some (.grove, g) else if k ≤ 9 then some (.engine, 16 * g + (k - 1))
    else if k = 0xA then some (.gsram, g) else if k = 0xB then some (.gwin, g)
    else if k = 0xC then some (.gdma, g) else if k = 0xD then some (.gsens, g) else none
  else if 0x200 ≤ n ∧ n ≤ 0x25F then some (.link, n - 0x200)
  else if 0x260 ≤ n ∧ n ≤ 0x2BF then some (.reduce, n - 0x260)
  else if 0x300 ≤ n ∧ n ≤ 0x30F then some (.lpddr, n - 0x300)
  else if n = 0x310 then some (.floor, 0)
  else none

/-- The TYPE code of Table 2.9. -/
def typeCode : PageKind → Nat
  | .module => 1 | .arb => 2 | .evt => 3 | .clk => 4 | .hwood => 5 | .sec => 6 | .rlog => 7 | .dwood => 8 | .canopy => 9
  | .glade => 0xA | .therm => 0xB | .telem => 0xC | .pump => 0xD | .valve => 0xE | .coolant => 0xF | .hostdma => 0x10
  | .submit => 0x11 | .serve => 0x12 | .sample => 0x13 | .sideband => 0x14 | .svc => 0x15 | .stand => 0x16
  | .grove => 0x20 | .engine => 0x21 | .gsram => 0x22 | .gwin => 0x23 | .gdma => 0x24 | .gsens => 0x25
  | .link => 0x30 | .reduce => 0x31 | .lpddr => 0x32 | .floor => 0x33

/-- The continuous pages (R476). -/
def isContinuous : PageKind → Bool
  | .arb | .evt | .glade | .therm | .telem | .coolant | .rlog | .module | .dwood | .hwood | .sec => true
  | _ => false

/-- The protected pages (R29, R421). -/
def isProtected : PageKind → Bool
  | .glade | .pump | .valve | .coolant | .therm | .hwood | .sec | .clk | .arb | .evt | .canopy => true
  | _ => false

/-- Whether a row of a register table covers page offset `o`. -/
def RegRow.covers (r : RegRow) (o : Nat) : Bool :=
  decide (r.off ≤ o) && decide (o < r.off + r.count * r.stride) && decide ((o - r.off) % r.stride = 0)

/-- The row of the register at BAR0 offset `off`; none at an unoccupied or reserved offset. -/
def rowAt (off : Nat) : Option RegRow :=
  match pageAt (off / 4096) with
  | none => none
  | some (k, _) => (headerRows ++ rowsOf k).find? (fun r => r.covers (off % 4096))

/-- The reset value of the register at `off` (0 where there is none). -/
def resetOf (off : Nat) : Word :=
  match pageAt (off / 4096) with
  | none => 0
  | some (k, inst) =>
    if off % 4096 = 0 then BitVec.ofNat 32 (typeCode k * 65536 + inst)
    else if off % 4096 = 0xC then (if isContinuous k then 3 else 1)
    else if k = .engine ∧ off % 4096 = 0x40 then BitVec.ofNat 32 (256 * (inst / 16))
    else match (headerRows ++ rowsOf k).find? (fun r => r.covers (off % 4096)) with
      | none => 0
      | some r => BitVec.ofNat 32 r.reset

/-! ## Registers and fields -/

/-- The stored value of the register at `off`. -/
def State.rd (s : State) (off : Nat) : Word := aget (resetOf off) s.regs off

/-- The state with the register at `off` holding `v`. -/
def State.wr (s : State) (off : Nat) (v : Word) : State := { s with regs := aset (resetOf off) s.regs off v }

/-- Bits [lo + w − 1 : lo] of a word. -/
def bitsOf (v : Word) (lo w : Nat) : Nat := v.toNat / 2 ^ lo % 2 ^ w

/-- The word with bits [lo + w − 1 : lo] replaced by `x`. -/
def setBits (v : Word) (lo w x : Nat) : Word :=
  BitVec.ofNat 32 (v.toNat - bitsOf v lo w * 2 ^ lo + x % 2 ^ w * 2 ^ lo)

/-- A field's value. -/
def State.get (s : State) (f : Fld) : Nat := bitsOf (s.rd f.off) f.lo f.w

/-- A field of a write's data. -/
def Fld.of (f : Fld) (v : Word) : Nat := bitsOf v f.lo f.w

/-- The state with a field set. -/
def State.put (s : State) (f : Fld) (x : Nat) : State := s.wr f.off (setBits (s.rd f.off) f.lo f.w x)

/-- A one-bit field as a Bool. -/
def State.flag (s : State) (f : Fld) : Bool := s.get f != 0

/-- Sets a one-bit field. -/
def State.putB (s : State) (f : Fld) (b : Bool) : State := s.put f (if b then 1 else 0)

/-- Adds to a whole register, saturating at 0xFFFF_FFFF. -/
def State.bump (s : State) (off : Nat) (n : Nat) : State :=
  s.wr off (BitVec.ofNat 32 (min ((s.rd off).toNat + n) 0xFFFFFFFF))

/-- Adds to a whole register, wrapping. -/
def State.bumpW (s : State) (off : Nat) (n : Nat) : State :=
  s.wr off (s.rd off + BitVec.ofNat 32 n)

/-- Adds to a field, saturating at its largest value. -/
def State.bumpF (s : State) (f : Fld) (n : Nat) : State := s.put f (min (s.get f + n) (2 ^ f.w - 1))

/-- The 64-bit value of a LO/HI pair at `lo`, and its setting. -/
def State.rd64 (s : State) (lo : Nat) : Dword := (s.rd (lo + 4)) ++ (s.rd lo)

def State.wr64 (s : State) (lo : Nat) (v : Dword) : State :=
  (s.wr lo (v.setWidth 32)).wr (lo + 4) ((v >>> 32).setWidth 32)

/-- Adds to a 64-bit pair, wrapping. -/
def State.bump64 (s : State) (lo : Nat) (n : Nat) : State := s.wr64 lo (s.rd64 lo + BitVec.ofNat 64 n)

/-- Sets a list of registers to their reset values. -/
def State.resetRegs (s : State) (offs : List Nat) : State :=
  { s with regs := s.regs.filter (fun e => !offs.contains e.1) }

/-- Whether the register at `off` keeps its value in an FN_RESET of its page: its reset value is what bring-up, the fuses, the
straps or MRAM gave it. -/
def keptReg (off : Nat) : Bool :=
  match rowAt off with
  | some r => r.kept
  | none => false

/-- Returns every block register (offset 0x040 up) of the page at `pg` to its reset value (R26). -/
def State.resetBlock (s : State) (pg : Nat) : State :=
  { s with regs := s.regs.filter (fun e => !(decide (pg + 0x40 ≤ e.1) && decide (e.1 < pg + 0x1000)) || keptReg e.1) }

/-- Emits an output. -/
def State.emit (s : State) (o : Out) : State := { s with out := o :: s.out }

/-- Emits one output per list element, the first element first. -/
def State.emitAll (s : State) (os : List Out) : State := { s with out := os.reverse ++ s.out }

/-! ## Unit state -/

def State.link (s : State) (l : Nat) : LinkSt := aget {} s.links l
def State.setLink (s : State) (l : Nat) (x : LinkSt) : State := { s with links := aset {} s.links l x }
def State.eng (s : State) (i : Nat) : EngineSt := aget {} s.engines i
def State.setEng (s : State) (i : Nat) (x : EngineSt) : State := { s with engines := aset {} s.engines i x }
def State.grove (s : State) (g : Nat) : GroveSt := aget {} s.groves g
def State.setGrove (s : State) (g : Nat) (x : GroveSt) : State := { s with groves := aset {} s.groves g x }
def State.red (s : State) (l : Nat) : ReduceSt := aget {} s.reduce l
def State.setRed (s : State) (l : Nat) (x : ReduceSt) : State := { s with reduce := aset {} s.reduce l x }
def State.reqCtx (s : State) (r : Req) : ReqCtx := aget {} s.ctx (reqIdent r).toNat
def State.setReqCtx (s : State) (r : Req) (x : ReqCtx) : State :=
  { s with ctx := aset {} s.ctx (reqIdent r).toNat x }

/-! ## Events (R31, R416 to R419) -/

/-- Source order of an event class (Table 18.4). -/
def classOrder (code : Nat) : Nat :=
  let c := code / 256
  if c ≤ 3 then c else if c = 4 ∨ c = 5 then 4 else if c = 6 then 5 else if c = 7 then 6 else if c = 8 then 7 else 8

/-- Adds one to the drop counter of a class, 8 bits each, saturating (Table 18.5). -/
def State.countDrop (s : State) (code : Nat) : State :=
  let o := classOrder code
  let f : Fld := if o ≤ 4 then ⟨Reg.EVT_DROP0, 8 * (o - 1), 8⟩ else ⟨Reg.EVT_DROP1, 8 * (o - 5), 8⟩
  s.bumpF f 1

/-- Counts an error on a page: ERR_COUNT saturates and EVT_SUMMARY.ERR_INC is set (R31, R32). -/
def State.errInc (s : State) (pg : Nat) : State :=
  (s.bump (Hdr.ERR_COUNT pg) 1).putB ⟨Hdr.EVT_SUMMARY pg, B.ERR_INC, 1⟩ true

/-- Whether a new occurrence coalesces into an entry (R417). -/
def EvEntry.matches (e n : EvEntry) : Bool :=
  !e.rlogTaken && decide (e.page = n.page) && decide (e.code = n.code) && (e.remote == n.remote) && decide (e.origin = n.origin)

/-- Coalesces an occurrence into an entry (R417). -/
def EvEntry.coalesce (e n : EvEntry) : EvEntry :=
  { e with count := min (e.count + n.count) 65535, last := n.stamp.setWidth 32, sev := max e.sev n.sev }

/-- Coalesces into the first matching entry of a list. -/
def coalesceIn (n : EvEntry) : List EvEntry → List EvEntry
  | [] => []
  | e :: es => if e.matches n then e.coalesce n :: es else e :: coalesceIn n es

/-- Removes the newest INFO entry that no destination has taken (R418): the last such in the list. -/
def removeLastInfo (es : List EvEntry) : Option (EvEntry × List EvEntry) :=
  let r := es.reverse
  let free := fun (e : EvEntry) => decide (e.sev = 0) && !e.rlogTaken && !e.msiTaken
  match r.find? free with
  | none => none
  | some e => some (e, (r.eraseP free).reverse)

/-- STATUS.FILL and OVERFLOW_PENDING after a change of the queue; the overflow latch opens below 256 entries (R418). -/
def State.evtStatus (s : State) : State :=
  let s := if s.evt.queue.length < 256 then { s with evt := { s.evt with ovfLatch := false } } else s
  (s.put F.EVT_STATUS_FILL s.evt.queue.length).putB F.EVT_STATUS_OVERFLOW_PENDING s.evt.ovfSlot.isSome

/-- A dropped event: counted, and EVT.OVERFLOW placed in its slot at the first drop of an episode (R418, R421). -/
def State.evtDropped (s : State) (code : Nat) : State :=
  let s := (s.countDrop code).errInc P.EVT
  if s.evt.ovfLatch then s
  else
    let e : EvEntry := { stamp := s.ftime, last := s.ftime.setWidth 32, code := Evn.EVT_OVERFLOW.code, sev := 2, page := P.EVT,
                         data0 := Config.eventFill Evn.EVT_OVERFLOW.code 0 s.ftime, data1 := Config.eventFill Evn.EVT_OVERFLOW.code 1 s.ftime }
    let s := s.putB ⟨Hdr.EVT_SUMMARY P.EVT, B.EVT_OVERFLOW, 1⟩ true
    { s with evt := { s.evt with ovfSlot := some e, ovfLatch := true } }

/-- An entry enters the arbiter's queue: it coalesces, is placed, displaces an INFO entry, or is dropped (R417, R418). -/
def State.evtEnter (s : State) (e : EvEntry) : State :=
  if s.evt.queue.any (fun q => q.matches e) then
    let s := s.bump Reg.EVT_COALESCED 1
    { s with evt := { s.evt with queue := coalesceIn e s.evt.queue } }
  else if s.evt.queue.length < 512 then
    ({ s with evt := { s.evt with queue := s.evt.queue ++ [e] } }).evtStatus
  else if 2 ≤ e.sev then
    match removeLastInfo s.evt.queue with
    | some (d, rest) => (({ s with evt := { s.evt with queue := rest ++ [e] } }).evtDropped d.code).evtStatus
    | none => (s.evtDropped e.code).evtStatus
  else (s.evtDropped e.code).evtStatus

/-- The classes Glade raises: GLADE and FLUID (R419). -/
def isGladeClass (code : Nat) : Bool := decide (code / 256 = 1) || decide (code / 256 = 2)

/-- Glade's millisecond count, from the model's tick count (R346). -/
def State.gladeMs (s : State) : Nat := s.now / 1600000

/-- An event enters the island log of 32 entries; a 33rd is discarded and sets ISLAND_LOG.OVERFLOW (R346). -/
def State.islandLog (s : State) (e : EvEntry) : State :=
  if s.glade.island.length < 32 then
    let l := s.glade.island ++ [{ page := e.page, code := e.code, sev := e.sev, ms := s.gladeMs }]
    ({ s with glade := { s.glade with island := l } }).put F.GLADE_ISLAND_LOG_COUNT l.length
  else s.putB F.GLADE_ISLAND_LOG_OVERFLOW true

/-- An event of page `pg` with its data words (none where the raising rule defines none). During the index build it is held at its
source; a Glade event with the arbiter unpowered goes to the island log; any other source is then without power (R346, R416,
R419). -/
def State.eventOf (s : State) (pg : Nat) (ev : EvKind) (sev : Nat) (d0 d1 : Option Word) : State :=
  let e : EvEntry := { stamp := s.ftime, last := s.ftime.setWidth 32, code := ev.code, sev := sev, page := pg,
                       data0 := d0.getD (Config.eventFill ev.code 0 s.ftime), data1 := d1.getD (Config.eventFill ev.code 1 s.ftime) }
  if s.mod.power = .standby then
    if isGladeClass ev.code then s.islandLog e else s
  else if s.evt.building then
    if isGladeClass ev.code then s.islandLog e
    else if s.evt.held.any (fun h => h.matches e) then { s with evt := { s.evt with held := coalesceIn e s.evt.held } }
    else { s with evt := { s.evt with held := s.evt.held ++ [e] } }
  else s.evtEnter e

/-- An event raised at its EVT_SUMMARY bit (R31). -/
def State.raiseSev (s : State) (pg bit : Nat) (ev : EvKind) (sev : Nat) (d0 d1 : Option Word) : State :=
  (s.putB ⟨Hdr.EVT_SUMMARY pg, bit, 1⟩ true).eventOf pg ev sev d0 d1

/-- An event that has no EVT_SUMMARY bit of its own. -/
def State.raiseBare (s : State) (pg : Nat) (ev : EvKind) (d0 d1 : Option Word := none) : State := s.eventOf pg ev ev.sev d0 d1

/-- An event at the severity of Table 18.4. -/
def State.raise (s : State) (pg bit : Nat) (ev : EvKind) (d0 d1 : Option Word := none) : State :=
  s.raiseSev pg bit ev ev.sev d0 d1

end Sys2Proof.Machine
end

