-- ==== Sys2Proof/Machine/Units.lean ====
section
/-! DEFINITION. Function states (R22 to R27), absence (R20), the module state (R15) and the Deadwood list (R387 to R389). -/

namespace Sys2Proof.Machine

/-! ## STATE values (Table 2.4) -/

abbrev fnAbsent : Nat := 0
abbrev fnOff : Nat := 1
abbrev fnStarting : Nat := 2
abbrev fnReady : Nat := 3
abbrev fnDraining : Nat := 4
abbrev fnFault : Nat := 5

/-- What `State.fn` answers while an FN_RESET is in progress: the function has stopped and STATE does not yet read OFF (R26). -/
abbrev fnResetting : Nat := 6

/-- What STATE reads. -/
def State.fnReg (s : State) (pg : Nat) : Nat := s.get (Hdr.FNSTATE pg)

/-- A page's function state as its function behaves: stopped from the FN_RESET on, before STATE reads OFF (R26). -/
def State.fn (s : State) (pg : Nat) : Nat := if s.flag (Hdr.RESET_BUSY pg) then fnResetting else s.fnReg pg

/-- Whether a page's unit is absent (R20). -/
def State.absent (s : State) (pg : Nat) : Bool := s.flag (Hdr.FUSED pg) || s.flag (Hdr.RETIRED pg)

/-- Changes STATE; every change sets EVT_SUMMARY.STATE_CHG (R23). -/
def State.setFn (s : State) (pg st : Nat) : State :=
  if s.fnReg pg = st then s
  else (s.put (Hdr.FNSTATE pg) st).putB ⟨Hdr.EVT_SUMMARY pg, B.STATE_CHG, 1⟩ true

/-- To FAULT: PENDING_ENABLE clears and ERR_COUNT is incremented (Table 2.5, R32). -/
def State.toFault (s : State) (pg : Nat) : State :=
  ((s.setFn pg fnFault).putB (Hdr.PENDING_ENABLE pg) false).errInc pg

/-- A unit is taken out of service: STATE = ABSENT with RETIRED set (R20, R387). -/
def State.retire (s : State) (pg : Nat) : State :=
  (((s.putB (Hdr.RETIRED pg) true).setFn pg fnAbsent).putB (Hdr.PENDING_ENABLE pg) false).putB (Hdr.RESET_BUSY pg) false

/-- A unit that the variant fuses: STATE = ABSENT with FUSED set (R395). -/
def State.fuseOut (s : State) (pg : Nat) : State := (s.putB (Hdr.FUSED pg) true).put (Hdr.FNSTATE pg) fnAbsent

/-! ## Module state (R15) -/

/-- The STATE code of MSTATE (Table 17.8). -/
def mstateCode : MState → Nat
  | .standby => 0 | .bringup => 1 | .ready => 2 | .running => 3 | .halted => 4 | .leak => 5 | .tripped => 6 | .service => 7

/-- The counts that run from the module's last entry to READY start again: corrections per bank and per page (R135, R252,
Table 10.6) and the HOST_ALIVE age (R273). -/
def State.readyCounts (s : State) : State :=
  let isCh := fun (o : Nat) => decide (0x300000 ≤ o) && decide (o < 0x310000) && decide (Reg.LPDDR_CH_STATUS 0 0 ≤ o % 0x1000 + 0x300000)
    && decide (o % 0x1000 + 0x300000 ≤ Reg.LPDDR_CH_STATUS 0 7)
  let regs := (s.regs.map (fun e => if isCh e.1 then (e.1, setBits e.2 16 16 0) else e)).filter (fun e => decide (e.2 ≠ resetOf e.1))
  { s with regs := regs, lpddr := { s.lpddr with corr := [], worn := [] }, host := { s.host with alive := { acc := 0, base := s.now } },
           groves := (s.groves.map (fun e => (e.1, { e.2 with corr := [], worn := [] }))).filter (fun e => decide (e.2 ≠ {})) }

/-- The module enters a state. -/
def State.setMState (s : State) (m : MState) : State :=
  let s := if m = .ready ∧ s.mod.mstate ≠ .ready then s.readyCounts else s
  ({ s with mod := { s.mod with mstate := m } }).put F.MODULE_MSTATE_STATE (mstateCode m)

/-- The module is in a power state. -/
def State.setPower (s : State) (p : Power) : State := { s with mod := { s.mod with power := p } }

/-- A stand is armed. -/
def State.armed (s : State) : Bool := s.flag F.STAND_STATUS_ARMED

/-- A step is executing. -/
def State.stepActive (s : State) : Bool := s.flag F.STAND_STATUS_STEP_ACTIVE

/-- The group is suspended. -/
def State.suspended (s : State) : Bool := s.flag F.STAND_STATUS_SUSPENDED

/-- This member is the lead. -/
def State.isLead (s : State) : Bool := s.flag F.STAND_STATUS_IS_LEAD

/-- D_MAX of the armed stand. -/
def State.dMax (s : State) : Nat := s.get F.STAND_GEOM_D_MAX

/-! ## Deadwood (R388; Tables 17.2, 17.3) -/

abbrev dwEngine : Nat := 1
abbrev dwSramBank : Nat := 2
abbrev dwGrove : Nat := 3
abbrev dwLane : Nat := 4
abbrev dwReduce : Nat := 5
abbrev dwLpddr : Nat := 6
abbrev dwPage : Nat := 7
abbrev dwPump : Nat := 8
abbrev dwCanopy : Nat := 9
abbrev dwFwCopy : Nat := 10
abbrev dwSample : Nat := 11
abbrev dwSvc : Nat := 12

/-- An entry's words (Table 17.2), word 0 lowest. -/
def dwEntry (kind unit count index event source boot : Nat) (factory : Bool) : BitVec 128 :=
  BitVec.ofNat 128 (kind + 256 + (if factory then 512 else 0) + 65536 * unit + 16777216 * count
    + 2 ^ 32 * index + 2 ^ 64 * (event + 65536 * source) + 2 ^ 96 * boot)

def dwKind (e : BitVec 128) : Nat := e.toNat % 256
def dwValid (e : BitVec 128) : Bool := e.toNat / 256 % 2 != 0
def dwFactory (e : BitVec 128) : Bool := e.toNat / 512 % 2 != 0
def dwUnit (e : BitVec 128) : Nat := e.toNat / 65536 % 256
def dwCount (e : BitVec 128) : Nat := e.toNat / 2 ^ 24 % 256
def dwIndex (e : BitVec 128) : Nat := e.toNat / 2 ^ 32 % 2 ^ 32

/-- An entry's COUNT incremented, saturating at 255. -/
def dwCountUp (e : BitVec 128) : BitVec 128 :=
  if dwCount e = 255 then e else e + BitVec.ofNat 128 (2 ^ 24)

/-- Whether an entry in force names a unit. -/
def dwNames (kind unit index : Nat) (e : BitVec 128) : Bool :=
  dwValid e && decide (dwKind e = kind) && decide (dwUnit e = unit) && decide (dwIndex e = index)

/-- Whether the list names a unit. -/
def State.dwNamed (s : State) (kind unit index : Nat) : Bool := s.dwood.any (fun e => dwNames kind unit index e.2)

/-- The lowest index in [lo, lo + n) whose slot holds no valid entry. -/
def dwFree (m : AMap (BitVec 128)) (lo : Nat) : Nat → Option Nat
  | 0 => none
  | n + 1 => if dwValid (aget 0 m lo) then dwFree m (lo + 1) n else some lo

/-- COUNT of the DWOOD page from the list. -/
def State.dwCounts (s : State) : State :=
  let v := s.dwood.filter (fun e => dwValid e.2)
  (s.put F.DWOOD_COUNT_GENERAL (v.filter (fun e => decide (e.1 < 4096))).length).put F.DWOOD_COUNT_PAGES
    (v.filter (fun e => decide (4096 ≤ e.1))).length

/-- An entry is added, or its COUNT incremented; with the general region full nothing is recorded and MODULE.DWOOD_FULL is
raised (R388). A new entry that names a bank ends its grove's warm start (R380). -/
def State.dwAdd (s : State) (kind unit index event source : Nat) (factory : Bool := false) : State :=
  match s.dwood.find? (fun e => dwNames kind unit index e.2) with
  | some (i, e) =>
    let s := { s with dwood := aset 0 s.dwood i (dwCountUp e) }
    (s.wr Reg.DWOOD_LAST_ADDED (BitVec.ofNat 32 i)).raise P.DWOOD B.DWOOD_DWOOD_ADDED Evn.MODULE_DWOOD_ADDED
  | none =>
    match (if kind = dwPage then dwFree s.dwood 4096 4096 else dwFree s.dwood 0 4096) with
    | some i =>
      let boot := (s.rd Reg.MODULE_BOOT_COUNT).toNat
      let s := { s with dwood := aset 0 s.dwood i (dwEntry kind unit 1 index event source boot factory) }
      let s := if kind = dwSramBank then s.setGrove unit { s.grove unit with repairOk := false } else s
      let s := (s.bumpW Reg.DWOOD_ADDED 1).wr Reg.DWOOD_LAST_ADDED (BitVec.ofNat 32 i)
      s.dwCounts.raise P.DWOOD B.DWOOD_DWOOD_ADDED Evn.MODULE_DWOOD_ADDED
    | none =>
      let s := (s.errInc P.DWOOD).putB F.MODULE_MSTATE_DWOOD_FULL true
      s.raise P.DWOOD B.DWOOD_DWOOD_FULL Evn.MODULE_DWOOD_FULL

end Sys2Proof.Machine
end

