-- ==== Sys2Proof/Machine/Access.lean ====
section
/-! DEFINITION. The register arbiter's decision on one write (R29, R30, R360, R441, R475), what an accepted write leaves behind
(OWNER, the snoop queue, what R367 needs), and the reset every function page shares (R26, R27). -/

namespace Sys2Proof.Machine

/-! ## Refusals (R30) -/

/-- CAUSE values of REFUSED_INFO (Table 2.8). -/
abbrev causeProtected : Nat := 1
abbrev causePartial : Nat := 2
abbrev causeRight : Nat := 3
abbrev causeDebug : Nat := 4

/-- A refused access: recorded in ARB.REFUSED_INFO and REFUSED_ADDR, and counted by the ARB page (R30). -/
def State.refuse (s : State) (req : Req) (off cause : Nat) (read : Bool := false) : State :=
  let v := (reqIdent req).toNat % 65536 + 65536 * cause + (if read then 2 ^ 20 else 0)
  ((s.wr Reg.ARB_REFUSED_INFO (BitVec.ofNat 32 v)).wr Reg.ARB_REFUSED_ADDR (BitVec.ofNat 32 off)).errInc P.ARB

/-- The offset of the page that holds `off`. -/
def pageOf (off : Nat) : Nat := off / 4096 * 4096

/-- Debug is open (R441). -/
def State.debugOpen (s : State) : Bool := decide (s.get F.HWOOD_PROTECT_DEBUG_LOCK = 0) || s.flag F.SEC_STATUS_DEBUG_OPEN

/-- The control token's holder: 0 none, 1 Canopy A, 2 Canopy B (Table 2.8). -/
def State.holder (s : State) : Nat := s.get F.ARB_TOKEN_HOLDER

/-- The number of a Canopy core. -/
def coreOf : Req → Option (Fin 2)
  | .canopyA => some 0
  | .canopyB => some 1
  | _ => none

/-- R360: a Canopy core without the token writes only its own page, but for the former holder during the overlap (R366). -/
def State.canopyMay (s : State) (req : Req) (off : Nat) : Bool :=
  match coreOf req with
  | none => true
  | some k => decide (s.holder = k.val + 1) || decide (s.canopy.former = some k) || decide (pageOf off = P.CANOPY k.val)

/-- Requesters whom R29 admits to CTRL of a protected page. -/
def mayCtrl (req : Req) (k : PageKind) : Bool := !isProtected k || req == .glade || isCanopy req

/-! ## What an accepted write leaves behind -/

/-- State of a Canopy core. -/
def State.core (s : State) (k : Nat) : CoreSt := aget {} s.canopy.cores k
def State.setCore (s : State) (k : Nat) (x : CoreSt) : State := { s with canopy := { s.canopy with cores := aset {} s.canopy.cores k x } }

/-- The cores whose snoop queue takes an accepted write: a READY core without the token, and the new holder while the overlap
runs (R362, R366). -/
def State.snoopers (s : State) : List Nat :=
  [0, 1].filter (fun k => decide (s.fn (P.CANOPY k) = fnReady) && !(s.core k).inReset
    && (decide (s.holder ≠ k + 1) || s.canopy.former.isSome) && !(s.canopy.former.map (·.val) == some k))

/-- An entry for one core's snoop queue of 4,096 entries; a full queue discards it (R362, R363). -/
def State.snoopTo (s : State) (e : SnoopEntry) (k : Nat) : State :=
  let x := s.core k
  if x.snoop.length < 4096 then
    let q := x.snoop ++ [e]
    (s.setCore k { x with snoop := q }).put (F.CANOPY_SNOOP_FILL k) q.length
  else
    let s := (s.putB (F.CANOPY_SNOOP_OVERFLOW k) true).putB (F.CANOPY_SNOOP_SHADOW_VALID k) false
    s.raise (P.CANOPY k) B.CANOPY_SNOOP_OVERFLOW Evn.CANOPY_SNOOP_OVERFLOW

/-- Every accepted write is sent to the snoop queue in acceptance order (R362). -/
def State.snoop (s : State) (off : Nat) (req : Req) (data : Word) : State :=
  let n := s.canopy.seq + 1
  let e : SnoopEntry := { seq := n, off := off, data := data, req := reqIdent req, kclk := s.now / 4 }
  (s.snoopers).foldl (fun s k => s.snoopTo e k) { s with canopy := { s.canopy with seq := n } }

/-- The core whose writes since its last heartbeat R367 undoes: the former holder during the overlap, else the holder. -/
def State.tracked (s : State) : Option Req :=
  match s.canopy.former with
  | some k => some (if k = 0 then .canopyA else .canopyB)
  | none => if s.holder = 1 then some .canopyA else if s.holder = 2 then some .canopyB else none

/-- What R367 requires of the register at `off` after a write by `req` that found it holding `before`. -/
def State.trackWrite (s : State) (req : Req) (off : Nat) (before : Word) : State :=
  let m := s.canopy.since
  if s.tracked = some req then
    if (aget none m off).isSome then s else { s with canopy := { s.canopy with since := aset none m off (some before) } }
  else if (aget none m off).isSome then { s with canopy := { s.canopy with since := aset none m off (some (s.rd off)) } }
  else s

/-- An accepted write: snooped, and on the page of a present unit it names the OWNER and has its effect (R20, R30, R362). -/
def State.accept (s : State) (req : Req) (off : Nat) (data : Word) (eff : State → State) : State :=
  let s := s.snoop off req data
  let pg := pageOf off
  if s.absent pg then s
  else
    let before := s.rd off
    (eff (s.wr (Hdr.OWNER pg) (reqIdent req))).trackWrite req off before

/-- The decision of R475 on a write of a register with writable fields. `ok` says whether the owning chapter lets this requester
make this write in this state with this value (test 5). -/
def State.gate (s : State) (req : Req) (be : BitVec 4) (off : Nat) (data : Word) (ok : Bool) (eff : State → State) : State :=
  if req == .debug && !s.debugOpen then s.refuse req off causeDebug
  else if be ≠ 15 then s.refuse req off causePartial
  else if decide (off % 4096 = 0x10) && !((pageAt (off / 4096)).map (fun p => mayCtrl req p.1)).getD true then s.refuse req off causeProtected
  else if !(ok && s.canopyMay req off) then s.refuse req off causeRight
  else s.accept req off data eff

/-- `gate` for a write request. -/
def State.gateW (s : State) (off : Nat) (w : WriteReq) (ok : Bool) (eff : State → State) : State :=
  s.gate w.req w.be off w.data ok eff

/-- The host and the Canopy cores. -/
def hostOrCanopy (r : Req) : Bool := r == .host || isCanopy r

/-- The host, the Canopy cores and the service cores. -/
def hostCanopySvc (r : Req) : Bool := hostOrCanopy r || isSvc r

/-! ## Function pages -/

/-- Held NAME_LO writes of a page are discarded by its FN_RESET (R35). -/
def State.dropHeldLo (s : State) (pg : Nat) : State :=
  { s with ctx := (s.ctx.map (fun e => (e.1, { e.2 with heldLo := e.2.heldLo.filter (fun h => !decide (pageOf h.1 = pg)) }))).filter (fun e => decide (e.2 ≠ {})) }

/-- What FN_RESET does to every page that is not continuous (R26, R27): block registers at reset, PENDING_ENABLE clear, and RESET_BUSY
set until FN_RESET_DONE, when STATE reads OFF. -/
def State.fnResetPage (s : State) (pg : Nat) : State :=
  let s := (s.resetBlock pg).dropHeldLo pg
  (s.putB (Hdr.PENDING_ENABLE pg) false).putB (Hdr.RESET_BUSY pg) true

/-- A DRAINING function has shut down: OFF, and on to STARTING where an enable is latched (Table 2.5). -/
def State.drained (s : State) (pg : Nat) : State :=
  if s.flag (Hdr.PENDING_ENABLE pg) then ((s.setFn pg fnOff).putB (Hdr.PENDING_ENABLE pg) false).setFn pg fnStarting else s.setFn pg fnOff

/-! ## Timers -/

/-- A timer's count, for `unit` ticks per count. -/
def Timer.value (t : Timer) (unit now : Nat) : Nat := t.acc + (now - t.base) / unit

/-- The timer when it has been found to have reached `n`. -/
def Timer.atLeast (t : Timer) (unit now n : Nat) : Timer := if t.value unit now < n then { acc := n, base := now } else t

/-- Ticks in a µs and a ms (R42: 625 ps a tick). -/
abbrev ticksUs : Nat := 1600
abbrev ticksMs : Nat := 1600000

end Sys2Proof.Machine
end

