-- ==== Sys2Proof/Machine/Canopy.lean ====
section
/-! DEFINITION. The control token, heartbeats, watchdogs, self-diagnosis and restarts of the Canopy pair (R359 to R373). -/

namespace Sys2Proof.Machine

/-! ## The token (R359) -/

/-- SWITCH_INFO.CAUSE codes (Table 16.6). -/
abbrev swVacant : Nat := 1
abbrev swSelf : Nat := 2
abbrev swSeizure : Nat := 3
abbrev swRevoked : Nat := 4

/-- The requester of a Canopy core. -/
def coreReq (k : Nat) : Req := if k = 0 then .canopyA else .canopyB

/-- HB_AGE of the holder in µs (R361). -/
def State.hbAge (s : State) (k : Nat) : Nat := (s.core k).hb.value ticksUs s.now

/-- HOLDER changes to `h` (0 none, 1 A, 2 B): TRANSFERS, and both pages' STATUS. A new holder's HB_AGE starts from its claim. -/
def State.setHolder (s : State) (h : Nat) : State :=
  let s : State := (s.put F.ARB_TOKEN_HOLDER h).put F.ARB_TOKEN_TRANSFERS (s.get F.ARB_TOKEN_TRANSFERS + 1)
  let s : State := [0, 1].foldl (fun (s : State) k =>
    let s : State := (s.putB (F.CANOPY_STATUS_HOLDER k) (decide (h = k + 1))).putB (F.CANOPY_STATUS_SEIZE_OK k) false
    s.putB (F.CANOPY_STATUS_IN_CONTROL k) false) s
  let s : State := [0, 1].foldl (fun (s : State) k =>
    s.setCore k { s.core k with hb := if h = k + 1 then { base := s.now } else {} }) s
  let s : State := { s with canopy := { s.canopy with since := [] } }
  if h = 0 then s else { s with glade := { s.glade with noHolder := false } }

/-- A core is held in reset and restarts: the restart is counted (R370). -/
def State.beginRestart (s : State) (k : Nat) (wdog diag : Bool) (fails : BitVec 4) : State :=
  let x := s.core k
  let s : State := (s.bumpW (Reg.CANOPY_RESTARTS k) 1).setFn (P.CANOPY k) fnStarting
  let s : State := (s.put (F.CANOPY_SNOOP_FILL k) 0).putB (F.CANOPY_SNOOP_SHADOW_VALID k) false
  s.setCore k { inReset := true, wdog := wdog, diag := diag, fails := fails, restarts := (s.now :: x.restarts).take 3 }

/-- The overlap of R366 stops. -/
def State.overlapOff (s : State) : State :=
  let s := (s.putB (F.CANOPY_STATUS_OVERLAP 0) false).putB (F.CANOPY_STATUS_OVERLAP 1) false
  { s with canopy := { s.canopy with former := none } }

/-- Hardware takes the token from a failing holder and holds it in reset (R365). -/
def State.hardwareRelease (s : State) (k : Nat) (wdog diag : Bool) (fails : BitVec 4) : State :=
  let s : State := s.setHolder 0
  let s : State := { s.overlapOff with canopy := { s.overlapOff.canopy with vacancy := swSelf, gapStart := s.now } }
  s.beginRestart k wdog diag fails

/-- CLAIM of core `k` is acceptable (Table 16.2). -/
def State.claimOk (s : State) (k : Nat) : Bool :=
  decide (s.holder = 0) || (decide (s.holder = 2 - k) && decide (5000 ≤ s.hbAge (1 - k)))

/-- An accepted CLAIM: the vacant token is taken, or seized with an overlap of 40 µs (R359, R366). -/
def State.claimAct (s : State) (k : Nat) : State :=
  if s.holder = 0 then
    let s : State := s.setHolder (k + 1)
    let s : State := s.put (F.CANOPY_SWITCH_INFO_CAUSE k) s.canopy.vacancy
    { s with canopy := { s.canopy with vacancy := swVacant } }
  else
    let since := s.canopy.since
    let s : State := (s.setHolder (k + 1)).put (F.CANOPY_SWITCH_INFO_CAUSE k) swSeizure
    let s : State := (s.putB (F.CANOPY_STATUS_OVERLAP 0) true).putB (F.CANOPY_STATUS_OVERLAP 1) true
    let s : State := { s with canopy := { s.canopy with former := some (if k = 0 then 1 else 0), since := since } }
    s.raise (P.CANOPY k) B.CANOPY_SEIZED Evn.CANOPY_SEIZED

/-- RELEASE by the holder (Table 16.2, R365). -/
def State.releaseAct (s : State) (k : Nat) : State :=
  let s : State := s.setHolder 0
  let s : State := { s with canopy := { s.canopy with vacancy := swSelf, gapStart := s.now } }
  s.raise (P.CANOPY k) B.CANOPY_TOKEN_RELEASED Evn.CANOPY_TOKEN_RELEASED

/-- HEARTBEAT: the holder's HB_AGE starts again, and SEIZE_OK goes with it (R361, R366). -/
def State.heartbeatAct (s : State) (k : Nat) : State :=
  if s.holder = k + 1 then
    let s : State := s.setCore k { s.core k with hb := { base := s.now } }
    { s.putB (F.CANOPY_STATUS_SEIZE_OK (1 - k)) false with canopy := { s.canopy with since := [] } }
  else s

/-- RESUMED: IN_CONTROL, and the end of a takeover (R365); in BRINGUP the present step starts again (R379). -/
def State.resumedAct (s : State) (k : Nat) : State :=
  if s.holder = k + 1 ∧ !s.flag (F.CANOPY_STATUS_IN_CONTROL k) then
    let s : State := s.putB (F.CANOPY_STATUS_IN_CONTROL k) true
    if swSelf ≤ s.get (F.CANOPY_SWITCH_INFO_CAUSE k) then
      let s : State := s.wr (Reg.CANOPY_SWITCH_GAP k) (BitVec.ofNat 32 (min ((s.now - s.canopy.gapStart) / ticksUs) 0xFFFFFFFF))
      let s : State := if s.mod.mstate = .bringup then { s with boot := { s.boot with again := true } } else s
      s.raise (P.CANOPY k) B.CANOPY_SWITCHOVER Evn.CANOPY_SWITCHOVER
    else s
  else s

/-- A write of TOKEN_CTL: the page's own core alone; a core in reset writes nothing (R359, R360, R374). -/
def State.tokenWrite (s : State) (k : Nat) (w : WriteReq) : State :=
  let bit := fun (f : Fld) => decide (f.of w.data = 1)
  let claim := bit (F.CANOPY_TOKEN_CTL_CLAIM k)
  let rel := bit (F.CANOPY_TOKEN_CTL_RELEASE k)
  if (s.core k).inReset && decide (w.req = coreReq k) then s
  else
    let ok := decide (w.req = coreReq k) && (!claim || s.claimOk k) && (!rel || decide (s.holder = k + 1))
    s.gateW (Reg.CANOPY_TOKEN_CTL k) w ok (fun s =>
      let s : State := if claim then s.claimAct k else s
      let s : State := if rel then s.releaseAct k else s
      let s : State := if bit (F.CANOPY_TOKEN_CTL_HEARTBEAT k) then s.heartbeatAct k else s
      if bit (F.CANOPY_TOKEN_CTL_RESUMED k) then s.resumedAct k else s)

/-- CLAIM. When both cores claim in one cycle, Canopy A's write is taken first (R359). -/
def execClaim (k : Fin 2) (req : Req) (other : Bool) (s : State) : Host.Outcome State Fault Refusal :=
  let one := fun (s : State) (j : Nat) (r : Req) => s.tokenWrite j { req := r, data := 1, be := 15 }
  if other then
    let j := 1 - k.val
    .next (if k = 0 then one (one s 0 req) j (coreReq j) else one (one s j (coreReq j)) 1 req)
  else .next (one s k.val req)

def execRelease (k : Fin 2) (req : Req) (s : State) : Host.Outcome State Fault Refusal :=
  .next (s.tokenWrite k.val { req := req, data := 2, be := 15 })
def execHeartbeat (k : Fin 2) (req : Req) (s : State) : Host.Outcome State Fault Refusal :=
  .next (s.tokenWrite k.val { req := req, data := 4, be := 15 })
def execResumed (k : Fin 2) (req : Req) (s : State) : Host.Outcome State Fault Refusal :=
  .next (s.tokenWrite k.val { req := req, data := 8, be := 15 })

/-- SEIZE_OK: the holder's HB_AGE has reached 5,000 µs (R366). -/
def execSeizeOk (s : State) : Host.Outcome State Fault Refusal :=
  match s.holder with
  | 0 => .next s
  | h + 1 =>
    let k := h % 2
    let x := s.core k
    let s : State := s.setCore k { x with hb := x.hb.atLeast ticksUs s.now 5000 }
    let s : State := s.putB (F.CANOPY_STATUS_SEIZE_OK (1 - k)) true
    .next { s with canopy := { s.canopy with gapStart := s.now } }

/-- TOKEN_REVOKE: the holder's HB_AGE has reached 10,000 µs (R368). -/
def execTokenRevoke (s : State) : Host.Outcome State Fault Refusal :=
  match s.holder with
  | 0 => .next s
  | h + 1 =>
    let k := h % 2
    let s : State := s.setHolder 0
    let s : State := { s.overlapOff with canopy := { s.overlapOff.canopy with vacancy := swRevoked, gapStart := s.now } }
    let s : State := s.put (F.CANOPY_SWITCH_INFO_CAUSE k) swRevoked
    .next ((s.beginRestart k false false 0).raise (P.CANOPY k) B.CANOPY_REVOKED Evn.CANOPY_REVOKED)

/-! ## Watchdog and self-diagnosis (R361, R364, R373) -/

/-- A core that runs. -/
def State.coreRuns (s : State) (k : Nat) : Bool := decide (s.fn (P.CANOPY k) = fnReady) && !(s.core k).inReset

/-- WATCHDOG_SERVICE. -/
def execWatchdogService (k : Fin 2) (s : State) : Host.Outcome State Fault Refusal :=
  .next (if s.coreRuns k.val then s.setCore k.val { s.core k.val with wdServed := s.now } else s)

/-- A core fails: the holder loses the token, a former holder in its overlap is held in reset at once, a standby restarts. -/
def State.coreFails (s : State) (k : Nat) (wdog diag : Bool) (fails : BitVec 4) : State :=
  if s.holder = k + 1 then s.hardwareRelease k wdog diag fails
  else
    let s : State := if s.canopy.former.map (·.val) = some k then s.overlapOff else s
    s.beginRestart k wdog diag fails

/-- WATCHDOG_EXPIRE: the holder's expiry counts as a diagnosis failure (R361). -/
def execWatchdogExpire (k : Fin 2) (s : State) : Host.Outcome State Fault Refusal :=
  if s.coreRuns k.val then
    let s : State := if s.holder = k.val + 1 then s.errInc (P.CANOPY k.val) else s
    .next (s.coreFails k.val true false 0)
  else .next s

/-- SELF_DIAG: a run completes (R364). -/
def execSelfDiag (k : Fin 2) (fails : BitVec 4) (corrected : BitVec 17) (s : State) : Host.Outcome State Fault Refusal :=
  if s.coreRuns k.val then
    let s : State := (s.bumpW (Reg.CANOPY_DIAG_RUNS k.val) 1).bump (Reg.CANOPY_SRAM_CORR k.val) corrected.toNat
    let s : State := s.put ⟨Reg.CANOPY_DIAG k.val, 0, 4⟩ fails.toNat
    .next (if fails = 0 then s else (s.errInc (P.CANOPY k.val)).coreFails k.val false true fails)
  else .next s

/-! ## Shadow and restart (R363, R370) -/

/-- SHADOW_REBUILD_DONE: every page has been read (R363). -/
def execShadowRebuildDone (k : Fin 2) (s : State) : Host.Outcome State Fault Refusal :=
  if s.coreRuns k.val && !s.flag (F.CANOPY_SNOOP_SHADOW_VALID k.val) then
    let s : State := (s.putB (F.CANOPY_SNOOP_SHADOW_VALID k.val) true).putB (F.CANOPY_SNOOP_OVERFLOW k.val) false
    .next (s.setCore k.val { s.core k.val with shadow := s.regs.map (fun e => (e.1, some e.2)) })
  else .next s

/-- Ticks in 10 minutes. -/
abbrev ticks10min : Nat := 600000 * ticksMs

/-- The core has restarted for the third time within 10 minutes (R370). -/
def State.thirdRestart (s : State) (k : Nat) : Bool :=
  match (s.core k).restarts with
  | [a, _, c] => decide (a - c < ticks10min)
  | _ => false

/-- A write of MBOX: the page's own core alone (R374). -/
def State.mboxWrite (s : State) (k : Nat) (w : WriteReq) : State :=
  s.gateW (Reg.CANOPY_MBOX k) w (decide (w.req = coreReq k)) (fun s => s.wr (Reg.CANOPY_MBOX k) w.data)

end Sys2Proof.Machine
end

