-- ==== Sys2Proof/Machine/Memory.lean ====
section
/-! DEFINITION. Module memory (Table 10.3): bytes and lines by module address, and the address map. -/

namespace Sys2Proof.Machine

/-- The byte at a module address; what is not listed reads 0 (assumption 5). -/
def memByte (m : List Host.Cell) (a : Nat) : Byte := aget 0 m a

/-- The listed cells of a run of bytes from address `a`: those that are not 0. -/
def cellsOf (a : Nat) : List Byte → List Host.Cell
  | [] => []
  | b :: bs => if b = 0 then cellsOf (a + 1) bs else (a, b) :: cellsOf (a + 1) bs

/-- Memory with a run of bytes written from address `a`, in canonical form. -/
def memWrite (m : List Host.Cell) (a : Nat) (bs : List Byte) : List Host.Cell :=
  m.filter (fun e => e.1 < a) ++ cellsOf a bs ++ m.filter (fun e => a + bs.length ≤ e.1)

/-- `n` bytes from address `a`. -/
def memBytes (m : List Host.Cell) (a n : Nat) : List Byte := (List.range n).map (fun i => memByte m (a + i))

/-- The canonical form of memory. -/
def memWf (m : List Host.Cell) : Bool := amapWf (0 : Byte) m

/-- The little-endian value of bytes. -/
def leValue : List Byte → Nat
  | [] => 0
  | b :: bs => b.toNat + 256 * leValue bs

/-- The `n` little-endian bytes of a value. -/
def leBytes : Nat → Nat → List Byte
  | 0, _ => []
  | n + 1, v => BitVec.ofNat 8 v :: leBytes n (v / 256)

/-- A line's 64 bytes, and the line of 64 bytes. -/
def lineBytes (v : Line) : List Byte := leBytes 64 v.toNat
def lineOf (bs : List Byte) : Line := BitVec.ofNat 512 (leValue bs)

/-- The 64-byte line number `n` (module address / 64). -/
def State.line (s : State) (n : Nat) : Line := lineOf (memBytes s.mem (64 * n) 64)

/-- Writes a whole line; a write of a whole line re-encodes it and ends its error (R131, R251). -/
def State.setLine (s : State) (n : Nat) (v : Line) : State :=
  { s with mem := memWrite s.mem (64 * n) (lineBytes v), poison := aset false s.poison n false }

/-- Writes a line with an uncorrectable code (R213, R235). -/
def State.setLinePoisoned (s : State) (n : Nat) (v : Line) : State :=
  { s with mem := memWrite s.mem (64 * n) (lineBytes v), poison := aset false s.poison n true }

/-- Line number of grove g's line A, and of LPDDR5X logical block b (Table 10.3). -/
def groveLine (g a : Nat) : Nat := g * 0x1000000 + a
def lpddrLine (b : Nat) : Nat := 0x400000000 + b

/-- The result of decoding one line: whether it is uncorrectable, the value delivered, words corrected by the inner code,
and whether the outer code corrected it (R128 to R131). -/
structure Decoded where
  bad   : Bool
  v     : Line
  inner : Nat
  outer : Bool
  deriving DecidableEq, Repr

/-- R129 with correction bound `t` erasures (8 for RS(72,64), 4 for RS(68,64)); a held uncorrectable code is never corrected. -/
def decodeLine (t : Nat) (held : Bool) (v : Line) : Option LineObs → Decoded
  | none => { bad := held, v := v, inner := 0, outer := false }
  | some o =>
    let e := o.erased.toNat
    let x := o.errors.toNat
    if held || decide (t < e + 2 * x) then { bad := true, v := o.asRead, inner := o.inner.toNat, outer := false }
    else { bad := false, v := v, inner := o.inner.toNat, outer := decide (0 < e + x) }

/-- What the codes find at position `i` of a transfer. -/
def obsAt (obs : List (Nat × LineObs)) (i : Nat) : Option LineObs := (obs.find? (fun e => e.1 == i)).map (·.2)

end Sys2Proof.Machine
end

