-- ==== Sys2Proof/Machine/Flit.lean ====
section
/-! DEFINITION. The flit's check code (R197), its header fields (Tables 8.3 to 8.5) and the group control message's bytes
(Table 7.4). -/

namespace Sys2Proof.Machine

/-! ## The check code (R197) -/

/-- Product of two binary polynomials, by the bits of the first. -/
def polyMul (b : Nat) : Nat → Nat → Nat
  | 0, _ => 0
  | n + 1, a => (if b.testBit n then a <<< n else 0) ^^^ polyMul b n a

/-- x⁹ + x⁴ + 1, the minimal polynomial of α. -/
def polyM1 : Nat := 0b1000010001

/-- x⁹ + x⁶ + x⁴ + x³ + 1, the minimal polynomial of α³. -/
def polyM3 : Nat := 0b1001011001

/-- x¹³ + x⁴ + x³ + x + 1. -/
def poly13 : Nat := 0b10000000011011

/-- The generator g(x) of R197, of degree 32. -/
def polyG : Nat := polyMul (polyMul (polyMul 3 2 polyM1) 11 polyM3) 20 poly13

/-- One step of division by g: the remainder shifted left by one with bit `b` entering. -/
def remStep (r : Nat) (b : Bool) : Nat :=
  let x := 2 * r + (if b then 1 else 0)
  if x.testBit 32 then x ^^^ polyG else x

/-- Bits of a flit in the order of R197, i = 0 first. -/
def flitBits (f : BitVec 320) (n : Nat) : List Bool := (List.range n).map (fun i => f.toNat.testBit i)

/-- Σ b_i x^(319−i), i = 0..287, mod g: the 288 data bits followed by 32 zero bits. -/
def checkRem (f : BitVec 320) : Nat := (flitBits f 288 ++ List.replicate 32 false).foldl remStep 0

/-- The 32 check bits in flit order: bit j is the coefficient of x^(31−j) XOR bit j of 0xA5A5_A5A5. -/
def checkBits (f : BitVec 320) : Nat :=
  (List.range 32).foldl (fun a j => a + (if (checkRem f).testBit (31 - j) != (0xA5A5A5A5 : Nat).testBit j then 2 ^ j else 0)) 0

/-- The flit with its check field written (R197). -/
def encodeFlit (header : Word) (payload : BitVec 256) : BitVec 320 :=
  let d : BitVec 320 := BitVec.ofNat 320 (header.toNat + payload.toNat * 2 ^ 32)
  d ||| BitVec.ofNat 320 (checkBits d * 2 ^ 288)

/-- The received word's syndrome: zero for a codeword. Coefficient of x^(31−j) of the data remainder against received
check bit j. -/
def syndrome (f : BitVec 320) : Nat :=
  let got := f.toNat / 2 ^ 288
  (List.range 32).foldl (fun a j => a + (if got.testBit j != (checkBits f).testBit j then 2 ^ (31 - j) else 0)) 0

/-- The syndrome of a single error at bit i: x^(319−i) mod g. -/
def errSyndrome (i : Nat) : Nat := (List.replicate (319 - i) false).foldl remStep 1

/-- The bit positions of the unique pattern of at most 2 errors with a given syndrome; none where there is none. -/
def findErrors (syn : Nat) : Option (List Nat) :=
  if syn = 0 then some []
  else
    let tab := (List.range 320).map (fun i => (i, errSyndrome i))
    match tab.find? (fun e => e.2 == syn) with
    | some e => some [e.1]
    | none =>
      tab.findSome? (fun e => (tab.find? (fun e2 => e2.2 == (e.2 ^^^ syn))).map (fun e2 => [e.1, e2.1]))

/-- A received flit after correction: the corrected bits and the positions corrected; none when uncorrectable (R197). -/
def correctFlit (f : BitVec 320) : Option (BitVec 320 × List Nat) :=
  (findErrors (syndrome f)).map (fun ps =>
    (ps.foldl (fun g i => g ^^^ BitVec.ofNat 320 (2 ^ i)) f, ps))

/-! ## Header fields -/

def flitHeader (f : BitVec 320) : Word := f.setWidth 32
def flitPayload (f : BitVec 320) : BitVec 256 := (f >>> 32).setWidth 256
def hdrKind (h : Word) : Nat := bitsOf h 0 2
def hdrPoison (h : Word) : Bool := bitsOf h 2 1 != 0
def hdrTick6 (h : Word) : Nat := bitsOf h 3 6
def hdrHalf (h : Word) : Bool := bitsOf h 9 1 != 0
def hdrTag (h : Word) : Nat := bitsOf h 16 16
def hdrClass (h : Word) : Nat := bitsOf h 9 4
def hdrFirst (h : Word) : Bool := bitsOf h 13 1 != 0
def hdrLast (h : Word) : Bool := bitsOf h 14 1 != 0
def hdrCpool (h : Word) : Nat := bitsOf h 16 2
def hdrCcount (h : Word) : Nat := bitsOf h 18 4
def hdrFseq (h : Word) : Nat := bitsOf h 22 10

/-- A scheduled flit's header (Table 8.3). -/
def schedHeader (poison half : Bool) (tick6 tag : Nat) : Word :=
  BitVec.ofNat 32 ((if poison then 4 else 0) + 8 * (tick6 % 64) + (if half then 512 else 0) + 65536 * (tag % 65536))

/-- An ABORT flit's payload (Table 8.5). -/
def abortOf (p : BitVec 256) : AbortMsg :=
  { origin := p.setWidth 13, cause := (p >>> 16).setWidth 8, step := (p >>> 32).setWidth 32, standId := (p >>> 64).setWidth 32 }

def abortPayload (a : AbortMsg) : BitVec 256 :=
  BitVec.ofNat 256 (a.origin.toNat + 65536 * a.cause.toNat + 2 ^ 32 * a.step.toNat + 2 ^ 64 * a.standId.toNat)

/-- Service classes by their code (Table 8.7). -/
def svcClassOf : Nat → Option SvcClass
  | 0 => some .gcm | 1 => some .sync | 2 => some .linkmgt | 3 => some .event | 4 => some .regReq | 5 => some .regRsp
  | 6 => some .image | 7 => some .repair | 8 => some .arm | _ => none

def svcClassCode : SvcClass → Nat
  | .gcm => 0 | .sync => 1 | .linkmgt => 2 | .event => 3 | .regReq => 4 | .regRsp => 5 | .image => 6 | .repair => 7 | .arm => 8

/-- The credit pool of a class (Table 8.7). -/
def svcPool : SvcClass → Option Nat
  | .event => some 0 | .regReq => some 1 | .regRsp => some 2 | .image => some 3 | .repair => some 3 | .arm => some 3
  | .gcm => none | .sync => none | .linkmgt => none

/-- The class of a message body (R203). -/
def bodyClass : SvcBody → SvcClass
  | .event _ => .event | .regReq _ => .regReq | .regRsp _ => .regRsp
  | .manifest _ => .image | .chunk _ _ => .image | .imageEnd => .image
  | .repairReq _ => .repair | .repairReply _ _ => .repair
  | .armReady _ _ => .arm | .armRefused _ _ => .arm | .release _ => .arm | .cancel => .arm
  | .resumeReq => .arm | .resumeAnswer _ => .arm | .unload => .arm

/-! ## Group control message bytes (Table 7.4) -/

/-- The 96 bytes of a group control message. -/
def gcmBytes (m : Gcm) : List Byte :=
  leBytes 4 m.gepoch.toNat ++ leBytes 4 m.step.toNat ++ leBytes 2 m.pApplied.toNat
  ++ leBytes 2 (m.confirm.toNat + (if m.confirmV then 16384 else 0))
  ++ leBytes 1 ((if m.abortOr then 1 else 0) + (if m.voteV then 2 else 0))
  ++ leBytes 1 (match m.verdict with | .none => 0 | .commit => 1 | .abort => 2)
  ++ leBytes 1 ((if m.endReq then 1 else 0) + (if m.unload then 2 else 0)) ++ leBytes 1 0
  ++ leBytes 8 m.startStep.toNat ++ leBytes 4 m.startEpoch.toNat ++ leBytes 1 (if m.startV then 1 else 0) ++ leBytes 3 0
  ++ (List.range 32).flatMap (fun h => leBytes 2 ((m.wave.getD h 0).toNat))

end Sys2Proof.Machine
end

