-- ==== Sys2Proof/Machine/Windows.lean ====
section
/-! DEFINITION. Step windows (R140 to R143, R244 to R246): copy choice, dirty bits, commit, abort and fold. -/

namespace Sys2Proof.Machine

/-- The window of a list (bases and lengths in units of `k` lines) whose copy 0 holds line `a`, with its index. -/
def winAt (k : Nat) (ws : List Win) (a : Nat) (i : Nat := 0) : Option (Nat × Win) :=
  match ws with
  | [] => none
  | w :: rest => if w.base * k ≤ a ∧ a < (w.base + w.len) * k then some (i, w) else winAt k rest a (i + 1)

/-- Whether line `a` lies in copy 1 of some window. -/
def inAlt (k : Nat) (ws : List Win) (a : Nat) : Bool :=
  ws.any (fun w => decide (w.alt * k ≤ a) && decide (a < (w.alt + w.len) * k))

/-- The line of the chosen copy: copy 1 when `one`. -/
def copyLine (k : Nat) (w : Win) (a : Nat) (one : Bool) : Nat := if one then a - w.base * k + w.alt * k else a

/-- Line that a stand's read of `a` takes during a step: the copy not selected when dirty, else the selected copy (R141). -/
def stepReadLine (k : Nat) (ws : List Win) (sel dirty : AMap Bool) (a : Nat) : Nat :=
  match winAt k ws a with
  | none => a
  | some (_, w) => copyLine k w a (if aget false dirty a then !aget false sel a else aget false sel a)

/-- Line that a stand's write of `a` takes: the copy not selected (R141). -/
def stepWriteLine (k : Nat) (ws : List Win) (sel : AMap Bool) (a : Nat) : Nat :=
  match winAt k ws a with
  | none => a
  | some (_, w) => copyLine k w a (!aget false sel a)

/-- Line that a background access to `a` takes: the selected copy (R141). -/
def bgLine (k : Nat) (ws : List Win) (sel : AMap Bool) (a : Nat) : Nat :=
  match winAt k ws a with
  | none => a
  | some (_, w) => copyLine k w a (aget false sel a)

/-- A map with a function applied to every entry, kept canonical. -/
def amap {α : Type} [DecidableEq α] (d : α) (f : Nat → α → α) (m : AMap α) : AMap α :=
  (m.map (fun e => (e.1, f e.1 e.2))).filter (fun e => decide (e.2 ≠ d))

/-- Select bits after a commit: every dirty line flips (R141). -/
def flipSel (sel dirty : AMap Bool) : AMap Bool :=
  dirty.foldl (fun m e => if e.2 then aset false m e.1 (!aget false m e.1) else m) sel

/-! ## Grove windows -/

/-- A stand's read of grove line `a`: the module line number that serves it (R141). -/
def State.groveReadLine (s : State) (g a : Nat) : Nat :=
  groveLine g (stepReadLine 1 (s.grove g).wins (s.grove g).sel (s.grove g).dirty a)

/-- Marks grove line `a` dirty and counts it in DIRTY_w and STATUS.DIRTY (R141, R150). -/
def State.groveDirty (s : State) (g a : Nat) : State :=
  let x := s.grove g
  match winAt 1 x.wins a with
  | none => s
  | some (i, _) =>
    if aget false x.dirty a then s
    else ((s.setGrove g { x with dirty := aset false x.dirty a true }).bump (Reg.GWIN_DIRTY g i) 1).putB (F.GWIN_STATUS_DIRTY g) true

/-- A write reaches line n of grove g: the scrubber's pending write-back of that line is dropped (R133). -/
def State.wbDrop (s : State) (g n : Nat) : State :=
  let x := s.grove g
  match aget none x.wb (n % 512) with
  | some w => if w.line = n then s.setGrove g { x with wb := aset none x.wb (n % 512) none } else s
  | none => s

/-- A stand's write of grove line `a` (R141). -/
def State.groveWrite (s : State) (g a : Nat) (v : Line) : State :=
  let x := s.grove g
  let n := stepWriteLine 1 x.wins x.sel a
  ((s.wbDrop g n).setLine (groveLine g n) v).groveDirty g a

/-- Clears the dirty registers of a grove. -/
def State.groveDirtyRegs (s : State) (g : Nat) : State :=
  ((s.grove g).wins.length.fold (fun i _ s => s.wr (Reg.GWIN_DIRTY g i) 0) s).putB (F.GWIN_STATUS_DIRTY g) false

/-- Commit of one grove: dirty lines flip their select bit and dirty clears; COMMITS counts (R141, R150). -/
def State.groveCommit (s : State) (g : Nat) : State :=
  let x := s.grove g
  ((s.setGrove g { x with sel := flipSel x.sel x.dirty, dirty := [] }).groveDirtyRegs g).bumpW (Reg.GWIN_COMMITS g) 1

/-- Every dirty bit of one grove clears (R141). -/
def State.groveClear (s : State) (g : Nat) : State :=
  (s.setGrove g { s.grove g with dirty := [] }).groveDirtyRegs g

/-- The copy-0 lines whose select bit is set, with the copy-1 line each is folded from (R143). -/
def foldList (k : Nat) (ws : List Win) (sel : AMap Bool) : List (Nat × Nat) :=
  sel.filterMap (fun e => if e.2 then (winAt k ws e.1).map (fun iw => (e.1, copyLine k iw.2 e.1 true)) else none)

/-- Copies one line within module memory, its error with it. -/
def State.copyLineTo (s : State) (src dst : Nat) : State :=
  if aget false s.poison src then s.setLinePoisoned dst (s.line src) else s.setLine dst (s.line src)

/-- The grove begins its fold: FOLD_BUSY (R143). -/
def State.groveFoldStart (s : State) (g : Nat) : State :=
  if (s.grove g).wins.isEmpty then s else s.putB (F.GWIN_STATUS_FOLD_BUSY g) true

/-- The fold completes: selected copy-1 lines are copied to copy 0 and the windows are removed (R143). -/
def State.groveFold (s : State) (g : Nat) : State :=
  let x := s.grove g
  let s := (foldList 1 x.wins x.sel).foldl (fun s p => s.copyLineTo (groveLine g p.2) (groveLine g p.1)) s
  let s := x.wins.length.fold (fun i _ s =>
    (((s.wr (Reg.GWIN_BASE g i) 0).wr (Reg.GWIN_LEN g i) 0).wr (Reg.GWIN_ALT g i) 0).wr (Reg.GWIN_DIRTY g i) 0) s
  let s := s.setGrove g { x with wins := [], sel := [], dirty := [] }
  (((s.put (F.GWIN_STATUS_WIN_COUNT g) 0).putB (F.GWIN_STATUS_DIRTY g) false).putB (F.GWIN_STATUS_FOLD_BUSY g) false).wr (Reg.GWIN_WIN_LINES g) 0

/-! ## LPDDR5X windows (R244 to R246) -/

/-- Lines per 1 KiB unit. -/
abbrev lpUnit : Nat := 16

/-- The controllers present, ascending (R237). -/
def State.lpPresent (s : State) : List Nat := (List.range 16).filter (fun m => !s.absent (P.LPDDR m))

/-- Where a logical block lies: controller, channel, slot and logical page (R237). -/
structure LpPlace where
  m    : Nat
  ch   : Nat
  slot : Nat
  page : Nat
  deriving DecidableEq, Repr

/-- The place of logical block `b` with C channels present (R237); none when no channel is present. -/
def State.lpPlace (s : State) (b : Nat) : Option LpPlace :=
  let c := s.lpddr.c
  if c = 0 then none
  else
    let j := b / 16 % 2048
    let idx := j % c
    match s.lpPresent[idx / 8]? with
    | none => none
    | some m => some { m := m, ch := idx % 8, slot := j / c, page := b / 32768 }

/-- Marks logical block `b` dirty and counts it at its controller (R245, R254). -/
def State.lpDirty (s : State) (b : Nat) : State :=
  match winAt lpUnit s.lpddr.wins b with
  | none => s
  | some _ =>
    if aget false s.lpddr.dirty b then s
    else
      let s1 := { s with lpddr := { s.lpddr with dirty := aset false s.lpddr.dirty b true } }
      match s.lpPlace b with
      | none => s1
      | some pl => (s1.bump (Reg.LPDDR_WIN_DIRTY pl.m) 1).putB (F.LPDDR_WIN_STATUS_DIRTY pl.m) true

/-- A stand's write of logical block `b` (R245). -/
def State.lpWrite (s : State) (b : Nat) (v : Line) (poisoned : Bool) : State :=
  let n := lpddrLine (stepWriteLine lpUnit s.lpddr.wins s.lpddr.sel b)
  (if poisoned then s.setLinePoisoned n v else s.setLine n v).lpDirty b

/-- The dirty registers of every controller clear. -/
def State.lpDirtyRegs (s : State) : State :=
  (16).fold (fun m _ s => (s.wr (Reg.LPDDR_WIN_DIRTY m) 0).putB (F.LPDDR_WIN_STATUS_DIRTY m) false) s

/-- Commit and abort of the LPDDR5X windows (R245). -/
def State.lpCommit (s : State) : State :=
  ({ s with lpddr := { s.lpddr with sel := flipSel s.lpddr.sel s.lpddr.dirty, dirty := [] } }).lpDirtyRegs

def State.lpClear (s : State) : State := ({ s with lpddr := { s.lpddr with dirty := [] } }).lpDirtyRegs

/-- Some window is being folded. -/
def State.folding (s : State) : Bool :=
  !s.lpddr.folding.isEmpty || (List.range 16).any (fun g => s.flag (F.GWIN_STATUS_FOLD_BUSY g))

/-- Unloading ends with the last fold: LOAD_STATUS.RESULT goes from unloading to none (Table 7.12). -/
def State.unloadEnd (s : State) : State :=
  if s.get F.STAND_LOAD_STATUS_RESULT = 4 ∧ !s.folding then s.put F.STAND_LOAD_STATUS_RESULT 0 else s

end Sys2Proof.Machine
end

