-- ==== Sys2Proof/Machine/Pace.lean ====
section
/-! DEFINITION. Discarding a step, pace faults, suspension and ABORT (R117, R175 to R179), shared by every block that can
pace-fault the module. -/

namespace Sys2Proof.Machine

/-- The links of the armed image that carry group or scheduled traffic (R176, R177). -/
def State.standLinks (s : State) : List Nat :=
  (List.range 96).filter (fun l => s.flag (F.LINK_STATUS_GROUP l) || s.flag (F.LINK_STATUS_SCHED l))

/-- The group links of the armed image (R159). -/
def State.groupLinks (s : State) : List Nat := (List.range 96).filter (fun l => s.flag (F.LINK_STATUS_GROUP l))

/-- One engine abandons what is in flight and issues nothing more; its step flags are discarded (R117). -/
def EngineSt.abandon (x : EngineSt) : EngineSt :=
  { x with stall := .halted, reads := [], writes := [], ops := [], scat := [], stopBuf := [], flags := 0 }

/-- Every engine stops (R117). -/
def State.enginesStop (s : State) : State :=
  let s := s.engines.foldl (fun s e => s.putB (F.ENGINE_STATUS_ISSUING (e.1 / 16) (e.1 % 16)) false) s
  { s with engines := amap {} (fun _ x => x.abandon) s.engines }

/-- Every grove DMA channel stops (R147). -/
def State.dmaStopAll (s : State) : State :=
  let s := s.groves.foldl (fun s e =>
    e.2.chans.foldl (fun s c => s.putB (F.GDMA_CH_STATE_BUSY e.1 c.1) false) (s.wr (Reg.GDMA_BUSY e.1) 0)) s
  { s with groves := amap {} (fun _ x => { x with chans := [] }) s.groves }

/-- Both lanes of every reduction unit stop; queues and run positions go with the step (R224). -/
def State.reduceStop (s : State) : State :=
  let s := s.reduce.foldl (fun s e =>
    ((((s.putB (F.REDUCE_STATUS_FWD_ACTIVE e.1) false).putB (F.REDUCE_STATUS_SINK_ACTIVE e.1) false).put
      (F.REDUCE_STATUS_LQ0_FILL e.1) 0).put (F.REDUCE_STATUS_LQ1_FILL e.1) 0).wr (Reg.REDUCE_CUR_RUN e.1) 0) s
  { s with reduce := amap {} (fun _ x => { prog := x.prog }) s.reduce }

/-- The registers that say a step is executing clear. -/
def State.stepOff (s : State) : State :=
  let s := s.putB F.STAND_STATUS_STEP_ACTIVE false
  let s := s.putB F.FLOOR_STATUS_SCHED_RUNNING false
  let s := (16).fold (fun g _ s => s.putB (F.GROVE_STATUS_STEP_ACTIVE g) false) s
  (16).fold (fun m _ s => s.putB (F.LPDDR_STATUS_FRAMES_ACTIVE m) false) s

/-- Every dirty bit of the module clears (R141, R245). -/
def State.clearDirty (s : State) : State :=
  (s.groves.foldl (fun s e => s.groveClear e.1) s).lpClear

/-- UNCOMMITTED of every grove. -/
def State.groveUncommitted (s : State) (b : Bool) : State :=
  (16).fold (fun g _ s => s.putB (F.GROVE_STATUS_UNCOMMITTED g) b) s

/-- The executing step is discarded: engines, DMA and reduction stop, a frame's remaining lines are
dropped, and every dirty bit clears (R117, R147, R224, R251). -/
def State.discardStep (s : State) : State :=
  let s := (((s.enginesStop.dmaStopAll).reduceStop).stepOff).clearDirty
  let s := s.groveUncommitted false
  { s with stand := { s.stand with current := none }, lpddr := { s.lpddr with outq := [], waitq := [], inq := [] } }

/-- The power state between and outside steps: Idle, unless the module is in Hold or Standby. -/
def State.powerIdle (s : State) : State := if s.mod.power = .run then s.setPower .idle else s

/-- The group is suspended (R178). Pace is held; a start announced for a later epoch and any pending issue are dropped. -/
def State.suspend (s : State) : State :=
  if s.suspended then s
  else
    let s := (s.putB F.STAND_STATUS_SUSPENDED true).putB F.STAND_STATUS_ISSUE_PENDING false
    let s := { s with stand := { s.stand with epochs := false, announce := none, announceRx := none, eoe := [] } }
    s.raise P.STAND B.STAND_SUSPENDED Evn.COMPUTE_SUSPENDED

/-- FAULT_INFO and FAULT_TICK (Table 7.12). -/
def State.faultInfo (s : State) (cause detail origin : Nat) (local_ after : Bool) : State :=
  let s := s.wr Reg.STAND_FAULT_INFO 0
  let s := (s.put F.STAND_FAULT_INFO_CAUSE cause).put F.STAND_FAULT_INFO_DETAIL detail
  let s := ((s.put F.STAND_FAULT_INFO_ORIGIN origin).putB F.STAND_FAULT_INFO_LOCAL local_).putB F.STAND_FAULT_INFO_AFTER_SAMPLE after
  s.wr64 Reg.STAND_FAULT_TICK_LO s.ftime

/-- ABORT is sent on every group and scheduled link now and repeated for `n` ticks in all (R176, R177). -/
def State.sendAbort (s : State) (a : AbortMsg) (n : Nat) : State :=
  let s := s.emitAll (s.standLinks.map (fun l => Out.abort l a))
  { s with stand := { s.stand with abortTicks := n - 1, abortMsg := some a } }

/-- A resume in progress at this member ends without effect (R408): the barrier's answers and RELEASE go; the lead raises RESUME_REFUSED. -/
def State.resumeCancel (s : State) : State :=
  let busy := s.flag F.EVT_GROUP_STATUS_RESUME_BUSY
  let s := { s.putB F.EVT_GROUP_STATUS_RESUME_BUSY false with group := { s.group with release := none, reqFrom := [], answers := [] } }
  if busy then s.raiseBare P.STAND Evn.COMPUTE_RESUME_REFUSED else s

/-- This member takes part in a resume (R406). -/
def State.resuming (s : State) : Bool :=
  s.flag F.EVT_GROUP_STATUS_RESUME_BUSY || !s.group.reqFrom.isEmpty || s.group.release.isSome

/-- A vote has been sampled for the step outstanding: its fate is fixed (R167). -/
def State.sampled (s : State) : Bool := !s.stepActive && s.stand.current.isSome

/-- The module declares a pace fault now (R175, R176, R179). It needs an armed stand. A member already HALTED by a fault
of the same tick records the lowest CAUSE; one that has left Hold by REJOIN returns to Hold (R404). -/
def State.paceFault (s : State) (cause : Nat) (detail : Nat := 0) : State :=
  if !s.armed then s
  else if s.mod.mstate = .halted ∧ !s.group.rejoined then
    if s.rd64 Reg.STAND_FAULT_TICK_LO = s.ftime ∧ s.flag F.STAND_FAULT_INFO_LOCAL ∧ cause < s.get F.STAND_FAULT_INFO_CAUSE then
      (s.put F.STAND_FAULT_INFO_CAUSE cause).put F.STAND_FAULT_INFO_DETAIL detail
    else s
  else if s.mod.mstate = .running ∨ s.mod.mstate = .halted then
    let a : AbortMsg :=
      { origin := BitVec.ofNat 13 (s.get F.STAND_MEMBERSHIP_MEMBER), cause := BitVec.ofNat 8 cause,
        step := if s.stepActive then s.rd Reg.STAND_CUR_STEP_LO else 0xFFFFFFFF, standId := s.rd Reg.STAND_STAND_ID }
    let s := s.faultInfo cause detail (s.get F.STAND_MEMBERSHIP_MEMBER) true s.sampled
    let s := (s.errInc P.STAND).raise P.STAND B.STAND_PACE_FAULT Evn.COMPUTE_PACE_FAULT
    let s := if s.stepActive then s.discardStep else s
    let s := ((s.sendAbort a 4096).suspend).setMState .halted
    let s := { s.resumeCancel.powerIdle with group := { s.resumeCancel.group with rejoined := false } }
    { s with mod := { s.mod with target := some .hold, byCommand := false } }
  else s

/-- A pace fault declared at the end of the current epoch (R175). A suspended group has no epochs and takes
none of these faults (R178). -/
def State.paceFaultEoe (s : State) (cause : Nat) (detail : Nat := 0) : State :=
  if !s.armed then s
  else if s.stand.epochs then { s with stand := { s.stand with eoe := s.stand.eoe ++ [{ cause := cause, detail := detail }] } }
  else s

/-- Declares the faults held for the end of the epoch, the lowest CAUSE recorded (R175, R179). -/
def State.declareEoe (s : State) : State :=
  match s.stand.eoe with
  | [] => s
  | e :: es =>
    let b := es.foldl (fun (m : EoeFault) x => if x.cause < m.cause then x else m) e
    s.paceFault b.cause b.detail

/-! ## CAUSE codes (Table 7.7) -/

abbrev causeFlowStop : Nat := 0x01
abbrev causeLeak : Nat := 0x02
abbrev causePowerExcess : Nat := 0x03
abbrev causePaceUrgent : Nat := 0x04
abbrev causeSensorInvalid : Nat := 0x05
abbrev causeLinkUncorr : Nat := 0x06
abbrev causeLinkFault : Nat := 0x07
abbrev causeSramUncorr : Nat := 0x08
abbrev causeXbarUncorr : Nat := 0x09
abbrev causeLpddrUncorr : Nat := 0x0A
abbrev causeResidue : Nat := 0x0B
abbrev causeLongOvf : Nat := 0x0C
abbrev causeDynRange : Nat := 0x0D
abbrev causeFnReset : Nat := 0x0E
abbrev causeRefLost : Nat := 0x0F
abbrev causePllUnlock : Nat := 0x10
abbrev causeGcmLost : Nat := 0x11
abbrev causeGcmMismatch : Nat := 0x12
abbrev causeStartLate : Nat := 0x13
abbrev causeTrip : Nat := 0x14

/-- THERM.PACE_URGENT, and with a stand running its pace fault, which the THERM page counts (R335, R341). -/
def State.paceUrgent (s : State) (detail : Nat) : State :=
  let s := s.raise P.THERM B.THERM_PACE_URGENT Evn.THERM_PACE_URGENT
  if s.armed ∧ s.mod.mstate = .running then (s.errInc P.THERM).paceFault causePaceUrgent detail else s

end Sys2Proof.Machine
end

