-- ==== Sys2Proof/Machine/LinkOps.lean ====
section
/-! DEFINITION. Shared operations on links: link state, loss, take-down and the service queues (R205, R212, R214, R215). -/

namespace Sys2Proof.Machine

/-! ## LSTATE codes (Table 8.12) -/

abbrev lsOff : Nat := 0
abbrev lsDetect : Nat := 1
abbrev lsLock : Nat := 2
abbrev lsEqualise : Nat := 3
abbrev lsLaneTest : Nat := 4
abbrev lsMap : Nat := 5
abbrev lsMeasure : Nat := 6
abbrev lsUp : Nat := 7
abbrev lsTakedown : Nat := 8
abbrev lsFailed : Nat := 9

/-! ## FAIL_CAUSE codes (Table 8.12) -/

abbrev fcNoPartner : Nat := 1
abbrev fcLanes : Nat := 2
abbrev fcMeasure : Nat := 3
abbrev fcLostCdr : Nat := 4
abbrev fcLostUncorr : Nat := 5
abbrev fcElastic : Nat := 6
abbrev fcSchedMismatch : Nat := 7
abbrev fcPartnerDown : Nat := 8
abbrev fcHoldover : Nat := 9

/-- A link's LSTATE. -/
def State.lstate (s : State) (l : Nat) : Nat := s.get (F.LINK_STATUS_LSTATE l)

/-- One of the 96 links is UP. -/
def State.linkUp (s : State) (l : Nat) : Bool := decide (l < 96) && decide (s.lstate l = lsUp)

/-- A link moves to an LSTATE and the page to its STATE (Table 8.10). -/
def State.setL (s : State) (l ls fn : Nat) : State := (s.put (F.LINK_STATUS_LSTATE l) ls).setFn (P.LINK l) fn

/-- A group or scheduled link of the armed stand. -/
def State.inStand (s : State) (l : Nat) : Bool := s.flag (F.LINK_STATUS_GROUP l) || s.flag (F.LINK_STATUS_SCHED l)

/-- A link fault: the member pace-faults when a stand is armed, the group is not suspended and the link is scheduled or
group (R212). -/
def State.linkFault (s : State) (l : Nat) : State :=
  if s.armed && !s.suspended && s.inStand l then s.paceFault causeLinkFault l else s

/-- Messages not yet acknowledged go back to the block that sent them (R205). -/
def State.returnUnsent (s : State) (l : Nat) : State :=
  let x := s.link l
  let s := s.emitAll ((x.unacked ++ x.txq).map (fun m => Out.undelivered l m.body))
  s.setLink l { x with unacked := [], txq := [], mgt := [], pools := [], waited := [], txBuf := [], rxBuf := [], uncorrRun := 0, slipReq := false }

/-- A lost link goes to FAILED with its cause and LINK.LOST (R212, Table 8.10). -/
def State.linkLost (s : State) (l cause : Nat) : State :=
  let s := s.returnUnsent l
  let s := ((s.put (F.LINK_STATUS_LSTATE l) lsFailed).put (F.LINK_STATUS_FAIL_CAUSE l) cause).toFault (P.LINK l)
  let s := s.raise (P.LINK l) B.LINK_LOST Evn.LINK_LOST
  s.linkFault l

/-- A failed training goes to FAILED with its cause and LINK.TRAIN_FAIL (Table 8.10). -/
def State.trainFail (s : State) (l cause : Nat) : State :=
  let s := ((s.put (F.LINK_STATUS_LSTATE l) lsFailed).put (F.LINK_STATUS_FAIL_CAUSE l) cause).toFault (P.LINK l)
  s.raise (P.LINK l) B.LINK_TRAIN_FAIL Evn.LINK_TRAIN_FAIL

/-- Training (re)starts from DETECT (R186). -/
def State.toDetect (s : State) (l : Nat) : State :=
  let x := s.link l
  let s := s.setLink l { x with warmNow := false, measFails := 0, exchanges := 0, measBad := false, rt := none, rhoRx := none, rhoTx := none }
  s.setL l lsDetect fnStarting

/-- FN_ENABLE of an OFF link: training begins (R186). -/
def State.linkEnable (s : State) (l : Nat) : State :=
  let s := (s.put (F.LINK_STATUS_FAIL_CAUSE l) 0).setLink l { s.link l with warmFailed := false }
  s.toDetect l

/-- FN_DISABLE of a link that is UP or training: take-down begins with a notice (R214, R215). -/
def State.linkTakedown (s : State) (l : Nat) : State :=
  let training := !s.linkUp l
  let s := if training then s else s.setLink l { s.link l with mgt := (s.link l).mgt ++ [.takedown] }
  let s := s.emit (.takedownNotice l training)
  s.setL l lsTakedown fnDraining

/-- A link stops at once with its lanes idle (R57, R214). -/
def State.linkOff (s : State) (l : Nat) : State :=
  let s := (s.returnUnsent l).emit (.lanesIdle l)
  (s.putB (Hdr.PENDING_ENABLE (P.LINK l)) false).setL l lsOff fnOff

/-- A message of a block is queued on a link under the next MSGNO of its class; a link that is not UP returns it (R205). -/
def State.sendMsg (s : State) (l : Nat) (b : SvcBody) : State :=
  if s.linkUp l then
    let x := s.link l
    let c := svcClassCode (bodyClass b)
    let n := aget 0 x.nextMsg c
    let m : SvcTx := { cls := bodyClass b, msgno := BitVec.ofNat 16 n, body := b, sent := 0 }
    let s := s.setLink l { x with txq := x.txq ++ [m], nextMsg := aset 0 x.nextMsg c ((n + 1) % 65536) }
    s.emit (.svcSend l m.msgno b)
  else s.emit (.undelivered l b)

/-- A message sent on several links. -/
def State.sendAll (s : State) (ls : List Nat) (b : SvcBody) : State := ls.foldl (fun s l => s.sendMsg l b) s

/-- A message taken from the inbox by the block that owns its class (R205). -/
def State.takeInbox (s : State) (l : Nat) (b : SvcBody) : State := { s with inbox := s.inbox.erase (l, b) }

/-- Credits held for a pool, in CREDIT0 and CREDIT1 (Table 8.11). -/
def creditFld (l pool : Nat) : Fld :=
  if pool = 3 then ⟨Reg.LINK_CREDIT1 l, 0, 9⟩ else ⟨Reg.LINK_CREDIT0 l, 8 * pool, 8⟩

/-- Pool sizes (R204). -/
def poolSize (pool : Nat) : Nat := if pool = 0 then 32 else if pool = 3 then 272 else 16

/-- Credits returned by the partner are added to the pool (R204). -/
def State.addCredit (s : State) (l pool n : Nat) : State :=
  s.put (creditFld l pool) (min (s.get (creditFld l pool) + n) (poolSize pool))

end Sys2Proof.Machine
end

