-- ==== Sys2Proof/Machine/Clock.lean ====
section
/-! DEFINITION. Clocks, fabric time and time sync (03). -/

namespace Sys2Proof.Machine

/-! ## Time sync (R50 to R53) -/

/-- The links that are trained (UP), ascending. -/
def State.upLinks (s : State) : List Nat := (List.range 96).filter (fun l => s.linkUp l)

/-- A sync in progress is abandoned: nothing more is sent, SYNC_BUSY and TIME_VALID clear (R51). -/
def State.abandonSync (s : State) : State :=
  let s := (s.putB F.CLK_STATUS_SYNC_BUSY false).putB F.CLK_STATUS_TIME_VALID false
  { s with clk := { s.clk with syncId := none, counterSet := false, checkSent := false, compared := [] } }

/-- The effects of a START as root or as a member (R50): TIME_VALID clears, SYNC_BUSY is set, the last sync's result clears. -/
def State.syncBegin (s : State) (root : Bool) : State :=
  let s := (s.abandonSync.putB F.CLK_STATUS_SYNC_BUSY true).putB F.CLK_STATUS_IS_ROOT root
  let s := ((s.put F.CLK_SYNC_INFO_HOPS 0).put F.CLK_SYNC_INFO_PARENT_LINK (if root then 0xFE else 0xFF)).put F.CLK_SYNC_INFO_MISMATCH_COUNT 0
  ((s.wr Reg.CLK_SYNC_MISM0 0).wr Reg.CLK_SYNC_MISM1 0).wr Reg.CLK_SYNC_MISM2 0

/-- SYNC is sent on links with a hop count and this module's time (R50). -/
def State.sendSync (s : State) (ls : List Nat) (rootId : Word) (hops : Nat) : State :=
  s.emitAll (ls.map (fun l => Out.sync l rootId hops s.ftime))

/-- SYNC_CTRL.START (R50): the root loads SYNC_BASE and sends SYNC; a member waits. A START during a sync has no effect. -/
def State.syncStart (s : State) : State :=
  if s.flag F.CLK_STATUS_SYNC_BUSY then s
  else
    let root := s.flag F.CLK_SYNC_CTRL_ROOT
    let s := s.syncBegin root
    if root then
      let id := s.rd Reg.CLK_SYNC_ROOT_ID
      let s := { s with ftime := s.rd64 Reg.CLK_SYNC_BASE_LO, clk := { s.clk with syncId := some id, counterSet := true } }
      s.sendSync s.upLinks id 0
    else s

/-- SYNC_CTRL.START is refused while a stand is armed and while the CLK page is OFF (R53, R61). -/
def State.syncStartRefused (s : State) : Bool := s.armed || decide (s.fn P.CLK = fnOff)

/-- The message a member takes its parent from: lowest hop count, then lowest link (R50, R52). -/
def bestSync (m : SyncMsg) : List SyncMsg → SyncMsg
  | [] => m
  | x :: xs =>
    bestSync (if x.hops < m.hops ∨ (x.hops = m.hops ∧ x.link < m.link) then x else m) xs

/-- The lowest ROOT_ID among messages. -/
def lowestRoot (r : Word) (ms : List SyncMsg) : Word := ms.foldl (fun a m => if m.rootId < a then m.rootId else a) r

/-- A member takes its parent: counter, parent link, hop count; it then sends SYNC on every other trained link (R50). -/
def State.takeParent (s : State) (m : SyncMsg) : State :=
  let l := m.link.val
  let s := { s with ftime := m.time + BitVec.ofNat 64 (s.get (F.LINK_LAT_LAMBDA_RX l)),
                    clk := { s.clk with syncId := some m.rootId, counterSet := true } }
  let s := (s.put F.CLK_SYNC_INFO_HOPS (m.hops.toNat + 1)).put F.CLK_SYNC_INFO_PARENT_LINK l
  s.sendSync (s.upLinks.filter (fun k => k ≠ l)) m.rootId (m.hops.toNat + 1)

/-- CLK.SYNC_ROOT_CONFLICT (R52). -/
def State.rootConflict (s : State) : State := s.raise P.CLK B.CLK_SYNC_ROOT_CONFLICT Evn.CLK_SYNC_ROOT_CONFLICT

/-- Among the messages of one tick, the member takes those of the lowest ROOT_ID; two roots are a conflict (R52). -/
def State.takeFrom (s : State) (m : SyncMsg) (ms : List SyncMsg) : State :=
  let r := lowestRoot m.rootId ms
  let s := if (m :: ms).any (fun x => x.rootId ≠ r) then s.rootConflict else s
  match (m :: ms).filter (fun x => x.rootId = r) with
  | [] => s
  | x :: xs => s.takeParent (bestSync x xs)

/-- SYNC messages presented in one tick (R50, R52, R53). -/
def State.syncRx (s : State) (ms : List SyncMsg) : State :=
  let ms := ms.filter (fun m => s.linkUp m.link.val)
  if s.armed then s
  else if s.flag F.CLK_STATUS_SYNC_BUSY then
    match s.clk.syncId with
    | none =>
      match ms with
      | [] => s
      | m :: rest => s.takeFrom m rest
    | some id =>
      let s := if ms.any (fun m => m.rootId ≠ id) then s.rootConflict else s
      match ms.filter (fun m => decide (m.rootId < id)) with
      | [] => s
      | m :: rest =>
        let r := lowestRoot m.rootId rest
        let s := s.syncBegin false
        match (m :: rest).filter (fun x => x.rootId = r) with
        | [] => s
        | x :: xs => s.takeParent (bestSync x xs)
  else if s.flag F.CLK_SYNC_CTRL_ROOT || decide (s.fn P.CLK ≠ fnReady) then s
  else
    match ms.filter (fun m => !(s.flag F.CLK_STATUS_TIME_VALID && decide (m.rootId = s.rd Reg.CLK_SYNC_RESULT))) with
    | [] => s
    | m :: rest => (s.syncBegin false).takeFrom m rest

/-- Register and bit of SYNC_MISM for a link. -/
def mismFld (l : Nat) : Fld := ⟨Reg.CLK_SYNC_MISM0 + 4 * (l / 32), l % 32, 1⟩

/-- The sync ends once CHECK has been sent and every trained link compared (R50 step 5): TIME_VALID and SYNC_DONE when all
compared equal, else SYNC_MISMATCH. ERR_COUNT counts a failed sync (R61). -/
def State.syncEnd (s : State) : State :=
  if s.clk.checkSent && s.upLinks.all (fun l => s.clk.compared.contains l) then
    let id := s.clk.syncId.getD 0
    if s.get F.CLK_SYNC_INFO_MISMATCH_COUNT = 0 then
      let s := s.abandonSync
      let s := (s.putB F.CLK_STATUS_TIME_VALID true).wr Reg.CLK_SYNC_RESULT id
      (s.putB F.CLK_STATUS_HOLDOVER_EXPIRED false).raise P.CLK B.CLK_SYNC_DONE Evn.CLK_SYNC_DONE
    else (s.abandonSync.errInc P.CLK).raise P.CLK B.CLK_SYNC_MISMATCH Evn.CLK_SYNC_MISMATCH
  else s

/-- SYNC messages presented in one tick (R50, R52, R53). -/
def execSyncRx (first : SyncMsg) (rest : List SyncMsg) (s : State) : Host.Outcome State Fault Refusal :=
  .next (s.syncRx (first :: rest))

/-- 1 ms after its counter was set, the member sends CHECK on every trained link (R50 step 4). -/
def execCheckSend (s : State) : Host.Outcome State Fault Refusal :=
  if s.flag F.CLK_STATUS_SYNC_BUSY && s.clk.counterSet && !s.clk.checkSent then
    let id := s.clk.syncId.getD 0
    let s := s.emitAll (s.upLinks.map (fun l => Out.check l id s.ftime))
    .next ({ s with clk := { s.clk with checkSent := true } }).syncEnd
  else .next s

/-- A received CHECK is compared with this module's time at the receive tick; one of another root is a conflict, and one
of a lower root ends the part taken in this root's sync (R50, R52). -/
def execCheckRx (link : Fin 96) (rootId : Word) (time : Dword) (s : State) : Host.Outcome State Fault Refusal :=
  let l := link.val
  if s.flag F.CLK_STATUS_SYNC_BUSY && s.linkUp l then
    match s.clk.syncId with
    | none => .next s
    | some id =>
      if rootId = id then
        if s.clk.compared.contains l then .next s
        else
          let bad := decide (time + BitVec.ofNat 64 (s.get (F.LINK_LAT_LAMBDA_RX l)) ≠ s.ftime)
          let s := if bad then (s.putB (mismFld l) true).bumpF F.CLK_SYNC_INFO_MISMATCH_COUNT 1 else s
          .next ({ s with clk := { s.clk with compared := l :: s.clk.compared } }).syncEnd
      else if rootId < id then .next (s.rootConflict.syncBegin false)
      else .next s.rootConflict
  else .next s

/-- 40 ms elapse before step 5 completes: the sync fails (R51). -/
def execSyncTimeout (s : State) : Host.Outcome State Fault Refusal :=
  if s.flag F.CLK_STATUS_SYNC_BUSY then
    let s := (s.abandonSync.put F.CLK_SYNC_INFO_PARENT_LINK 0xFF).errInc P.CLK
    .next (s.raise P.CLK B.CLK_SYNC_MISMATCH Evn.CLK_SYNC_MISMATCH)
  else .next s

/-! ## Reference and root PLL (R54 to R60) -/

/-- REFCLK is lost (R54, R55): holdover, TIME_VALID clears, the sync is abandoned, CLK.REF_LOST; an armed member pace-faults at
the end of the epoch, or at once when no step executes. -/
def execRefLost (s : State) : Host.Outcome State Fault Refusal :=
  if s.clk.pllUp && !s.flag F.CLK_STATUS_HOLDOVER then
    let s := ((s.putB F.CLK_STATUS_HOLDOVER true).putB F.CLK_STATUS_PLL_LOCK false).putB F.CLK_STATUS_REF_PRESENT false
    let s := (s.wr Reg.CLK_HOLDOVER_TIME 0).bump Reg.CLK_REF_LOSS_COUNT 1
    let s := ({ s with clk := { s.clk with holdStart := s.now, slewing := false } }).abandonSync
    let s := s.raise P.CLK B.CLK_REF_LOST Evn.CLK_REF_LOST
    .next (if s.stepActive then s.paceFaultEoe causeRefLost else s.paceFault causeRefLost)
  else .next s

/-- Every link that is UP or in take-down stops with its lanes idle and no notice (R57, Table 8.10). -/
def State.holdoverLinks (s : State) : State :=
  (List.range 96).foldl (fun s l =>
    if s.lstate l = lsUp ∨ s.lstate l = lsTakedown then (s.put (F.LINK_STATUS_FAIL_CAUSE l) fcHoldover).linkOff l else s) s

/-- Holdover has lasted 100 ms (R57). -/
def execHoldoverExpired (s : State) : Host.Outcome State Fault Refusal :=
  if s.flag F.CLK_STATUS_HOLDOVER && !s.flag F.CLK_STATUS_HOLDOVER_EXPIRED then
    let s := s.putB F.CLK_STATUS_HOLDOVER_EXPIRED true
    .next (s.raise P.CLK B.CLK_HOLDOVER_EXPIRED Evn.CLK_HOLDOVER_EXPIRED).holdoverLinks
  else .next s

/-- REFCLK has stayed within ±50 ppm for 1 ms and is accepted: the root PLL slews back (R58). -/
def execRefAccepted (s : State) : Host.Outcome State Fault Refusal :=
  if s.flag F.CLK_STATUS_HOLDOVER then
    .next { s.putB F.CLK_STATUS_REF_PRESENT true with clk := { s.clk with slewing := true } }
  else .next s

/-- Microseconds spent in the holdover that began at `holdStart` (Table 3.4). -/
def State.holdoverUs (s : State) : Word := BitVec.ofNat 32 (min ((s.now - s.clk.holdStart) / 1600) 0xFFFFFFFF)

/-- The slew ends and the root PLL locks: holdover ends and CLK.REF_RESTORED (R58). -/
def execRefRestored (s : State) : Host.Outcome State Fault Refusal :=
  if s.flag F.CLK_STATUS_HOLDOVER && s.clk.slewing then
    let s := s.wr Reg.CLK_HOLDOVER_TIME s.holdoverUs
    let s := (s.putB F.CLK_STATUS_HOLDOVER false).putB F.CLK_STATUS_PLL_LOCK true
    .next (({ s with clk := { s.clk with slewing := false } }).raise P.CLK B.CLK_REF_RESTORED Evn.CLK_REF_RESTORED)
  else .next s

/-- The root PLL loses lock with REFCLK present, or fails to lock after acceptance (R59): never in holdover. -/
def execPllUnlock (s : State) : Host.Outcome State Fault Refusal :=
  if s.clk.pllUp && (!s.flag F.CLK_STATUS_HOLDOVER || s.clk.slewing) then
    let s := if s.flag F.CLK_STATUS_HOLDOVER then (s.wr Reg.CLK_HOLDOVER_TIME s.holdoverUs).putB F.CLK_STATUS_HOLDOVER false else s
    let s := ({ s with clk := { s.clk with slewing := false } }).putB F.CLK_STATUS_PLL_LOCK false
    let s := (s.abandonSync.errInc P.CLK).raise P.CLK B.CLK_PLL_UNLOCK Evn.CLK_PLL_UNLOCK
    .next (s.paceFault causePllUnlock)
  else .next s

/-- The root PLL locks again within 200 µs (R59). -/
def execPllRelock (s : State) : Host.Outcome State Fault Refusal :=
  if s.clk.pllUp && !s.flag F.CLK_STATUS_HOLDOVER then .next (s.putB F.CLK_STATUS_PLL_LOCK true) else .next s

/-- No acceptable REFCLK within 20 ms of the clock step: the CLK page goes to FAULT (R60). -/
def execRefclkWaitTimeout (s : State) : Host.Outcome State Fault Refusal :=
  if s.fn P.CLK = fnStarting ∧ !s.flag F.CLK_STATUS_REF_PRESENT then .next (s.toFault P.CLK) else .next s

/-! ## Function control of the CLK page (R61) -/

/-- The start sequence succeeds: REFCLK accepted, root PLL locked, READY. -/
def State.clkStarted (s : State) : State :=
  let s := if s.clk.pllUp then s
    else ({ s with clk := { s.clk with pllUp := true } }.putB F.CLK_STATUS_REF_PRESENT true).putB F.CLK_STATUS_PLL_LOCK true
  s.setFn P.CLK fnReady

/-- FN_DISABLE: time sync abandoned, TIME_VALID clears, OFF; neither PLL stops. -/
def State.clkDisable (s : State) : State := (s.abandonSync).setFn P.CLK fnOff

/-- FN_RESET: as FN_DISABLE, and the block registers return to reset; the four bits that report the reference and the PLL,
which run on, keep reporting them (assumption 12). -/
def State.clkReset (s : State) : State :=
  let keep := (s.rd Reg.CLK_STATUS) &&& 0xF
  (((((s.abandonSync).resetBlock P.CLK).dropHeldLo P.CLK).wr Reg.CLK_STATUS keep).putB (Hdr.PENDING_ENABLE P.CLK) false).setFn P.CLK fnOff

end Sys2Proof.Machine
end

