-- ==== Sys2Proof/Machine/Links.lean ====
section
/-! DEFINITION. Links (08): training, measurement, margin, flits, service messages and take-down. -/

namespace Sys2Proof.Machine

/-! ## Training (R186 to R195) -/

/-- Lanes that count as failed in training: those found, and those named in Deadwood (R189, Table 17.3). -/
def State.failedLanes (s : State) (l : Nat) (obs : PhaseObs) : List Nat :=
  (List.range 9).filter (fun k => obs.failed.any (fun f => f.val == k) || s.dwNamed dwLane l k)

/-- Of those, the lanes that failed loopback, which lie in this module (R189). -/
def State.localLanes (s : State) (l : Nat) (obs : PhaseObs) : List Nat :=
  (List.range 9).filter (fun k => obs.localFail.any (fun f => f.val == k) || s.dwNamed dwLane l k)

/-- FORCE_COLD for links: the link's own bit, BOOT_CFG's, or BOOT_MODE 0b10 during bring-up (R190, R380). -/
def State.linkForceCold (s : State) (l : Nat) : Bool :=
  s.flag (F.LINK_TRAIN_CFG_FORCE_COLD l) ||
    (decide (s.mod.mstate = .bringup) && (s.flag F.MODULE_BOOT_CFG_FORCE_COLD || decide (s.mod.bootMode = 2)))

/-- Whether a link trains warm (R190): both records exist and match, no FORCE_COLD, and no warm attempt has failed. -/
def State.linkWarm (s : State) (l : Nat) (obs : PhaseObs) : Bool :=
  match (s.link l).trained with
  | none => false
  | some r => decide (r.serial = obs.serial) && decide (r.plink = obs.plink) && obs.partnerWarm && !s.linkForceCold l && !(s.link l).warmFailed

/-- Lanes of a training record that were already failed. -/
def recFailed (r : Option TrainRec) : List Nat :=
  match r with
  | none => []
  | some t => if bitsOf t.lanes 0 4 = 15 then [] else [bitsOf t.lanes 0 4]

/-- Each failed lane is blamed on the channel, or written to Deadwood when it failed loopback (R189). -/
def State.blameLanes (s : State) (l : Nat) (failed loc : List Nat) (ev : Nat) : State :=
  failed.foldl (fun s k =>
    if loc.contains k then (if s.dwNamed dwLane l k then s else s.dwAdd dwLane l k ev 3)
    else s.raise (P.LINK l) B.LINK_CHANNEL_FAULT Evn.LINK_CHANNEL_FAULT) s

/-- Two or more failed lanes (R189): FAILED with LANES; two lanes failing loopback during bring-up retire the link, with its
reduction unit. -/
def State.lanesFail (s : State) (l : Nat) (failed loc : List Nat) : State :=
  let s := s.blameLanes l failed loc Evn.LINK_TRAIN_FAIL.code
  let s := s.trainFail l fcLanes
  if 2 ≤ loc.length ∧ s.mod.mstate = .bringup then (s.retire (P.LINK l)).retire (P.REDUCE l) else s

/-- The lane outcome recorded at MAP (R189): RX_FAILED, RX_LOCAL, TX_FAILED and LINK.SPARE_USED. -/
def State.recordLanes (s : State) (l : Nat) (failed loc : List Nat) (obs : PhaseObs) : State :=
  let tx := match obs.txFailed with
    | none => 15
    | some k => k.val
  let s := s.put (F.LINK_LANES_TX_FAILED l) tx
  match failed with
  | [] => (s.put (F.LINK_LANES_RX_FAILED l) 15).putB (F.LINK_LANES_RX_LOCAL l) false
  | k :: _ =>
    let s := (s.put (F.LINK_LANES_RX_FAILED l) k).putB (F.LINK_LANES_RX_LOCAL l) (loc.contains k)
    let s := s.raise (P.LINK l) B.LINK_SPARE_USED Evn.LINK_SPARE_USED
    s.blameLanes l failed loc Evn.LINK_SPARE_USED.code

/-- The one latency ≡ ρ (mod 16) within 8 ticks of RT / 2 (R191). -/
def latencyOf (rt : Nat) (rho : Nat) : Option Nat :=
  (List.range (rt + 16)).find? (fun x => decide (x % 16 = rho) && decide (2 * x < rt + 16) && decide (rt < 2 * x + 16))

/-- Pad and FITS of a link of the armed stand after its latency is known (R194, R195). -/
def State.fitLink (s : State) (l : Nat) : State :=
  match s.image.bind (fun im => im.plans.find? (fun p => p.l.val == l)) with
  | none => s
  | some p =>
    match p.latRx with
    | none => s
    | some e =>
      let lam := s.get (F.LINK_LAT_LAMBDA_RX l)
      if lam ≤ e then
        let pad := e - lam
        let coarse := if pad ≤ 64 then 0 else (pad - 1) / 64
        let s := (s.put (F.LINK_PAD_ENTRY l) e).put (F.LINK_PAD_FINE l) (pad - 64 * coarse)
        (s.put (F.LINK_PAD_COARSE l) coarse).putB (F.LINK_STATUS_FITS l) true
      else
        let s := (s.putB (F.LINK_STATUS_FITS l) false).put (F.LINK_STATUS_FAIL_CAUSE l) fcMeasure
        s.raise (P.LINK l) B.LINK_TRAIN_FAIL Evn.LINK_TRAIN_FAIL

/-- Measurement complete (R190, R191, R204, R214): latencies, training record, credits, margin; the link is UP. -/
def State.linkUpNow (s : State) (l rt : Nat) (rhoRx rhoTx : BitVec 4) (lamTx : Nat) : State :=
  let x := s.link l
  let s := ((s.put (F.LINK_MEAS_RT l) rt).put (F.LINK_MEAS_RHO_RX l) rhoRx.toNat).put (F.LINK_MEAS_RHO_TX l) rhoTx.toNat
  let s := (s.put (F.LINK_LAT_LAMBDA_TX l) lamTx).put (F.LINK_LAT_LAMBDA_RX l) (rt - lamTx)
  let s := (List.range 9).foldl (fun s k => s.wr (Reg.LINK_LANE_CORR l k) 0) s
  let s := (List.range 4).foldl (fun s p => s.put (creditFld l p) (poolSize p)) s
  let s := ((s.put (F.LINK_STATUS_MARGIN l) 8).putB (F.LINK_STATUS_WARM l) x.warmNow).put (F.LINK_STATUS_FAIL_CAUSE l) 0
  let r : TrainRec := { serial := 0, plink := 0, eq := s.rd (Reg.LINK_EQ l), lanes := s.rd (Reg.LINK_LANES l), meas := s.rd (Reg.LINK_MEAS l) }
  let r := match x.trained with
    | some t => { r with serial := t.serial, plink := t.plink }
    | none => r
  let s := s.setLink l { x with trained := some r, uncorrRun := 0, laneSec := [], laneT0 := s.now, laneNamed := [], slipReq := false,
                                pools := [], txq := [], unacked := [], mgt := [], waited := [], txBuf := [], rxBuf := [], seenMsg := [], nextMsg := [] }
  let s := s.setL l lsUp fnReady
  let s := s.raise (P.LINK l) B.LINK_UP Evn.LINK_UP
  if s.armed && s.inStand l then s.fitLink l else s

/-- A MEASURE attempt fails; the third sends the link to FAILED (R191). -/
def State.measureFail (s : State) (l : Nat) : State :=
  let x := s.link l
  if x.measFails = 2 then s.trainFail l fcMeasure
  else s.setLink l { x with measFails := x.measFails + 1, exchanges := 0, measBad := false, rt := none, rhoRx := none, rhoTx := none }

/-- Whether the phase's lane outcome makes a warm link repeat cold, once (R190). -/
def State.warmFails (s : State) (l : Nat) (failed : List Nat) : Bool :=
  (s.link l).warmNow && failed.any (fun k => !(recFailed (s.link l).trained).contains k)

/-- LOCK, EQUALISE and LANE_TEST end: too many lanes fail the link, a failing warm link repeats cold, else the next phase. -/
def State.lanePhaseEnd (s : State) (l next : Nat) (obs : PhaseObs) : State :=
  let failed := s.failedLanes l obs
  let loc := s.localLanes l obs
  if s.warmFails l failed then (s.setLink l { s.link l with warmFailed := true }).toDetect l
  else if 2 ≤ failed.length then s.lanesFail l failed loc
  else s.setL l next fnStarting

/-- DETECT ends: the partner's identity and polarity are known, and warm or cold is decided (R186, R190). -/
def State.detectEnd (s : State) (l : Nat) (obs : PhaseObs) : State :=
  let warm := s.linkWarm l obs
  let s := (s.wr (Reg.LINK_PARTNER l) (BitVec.ofNat 32 (obs.plink.toNat + 65536 * (obs.serial.toNat % 65536)))).put
    (F.LINK_LANES_RX_POLARITY l) obs.polarity.toNat
  let x := s.link l
  let r : TrainRec := if warm then x.trained.getD { serial := obs.serial, plink := obs.plink, eq := 0, lanes := 0xF, meas := 0 }
    else { serial := obs.serial, plink := obs.plink, eq := 0, lanes := 0xF, meas := 0 }
  (s.setLink l { x with warmNow := warm, trained := some r }).setL l lsLock fnStarting

/-- A link training phase completes (R186, R214). -/
def execTrainPhaseDone (link : Fin 96) (obs : PhaseObs) (s : State) : Host.Outcome State Fault Refusal :=
  let l := link.val
  let ls := s.lstate l
  if ls = lsDetect then .next (s.detectEnd l obs)
  else if ls = lsLock then .next (s.lanePhaseEnd l lsEqualise obs)
  else if ls = lsEqualise then .next ((s.wr (Reg.LINK_EQ l) obs.eq).lanePhaseEnd l lsLaneTest obs)
  else if ls = lsLaneTest then .next (s.lanePhaseEnd l lsMap obs)
  else if ls = lsMap then
    let failed := s.failedLanes l obs
    let loc := s.localLanes l obs
    if 2 ≤ failed.length then .next (s.lanesFail l failed loc)
    else .next ((s.recordLanes l failed loc obs).setL l lsMeasure fnStarting)
  else if ls = lsMeasure then
    let x := s.link l
    if x.measBad then .next (s.measureFail l)
    else if x.exchanges < 1024 then .next s
    else match x.rt, x.rhoRx, x.rhoTx with
      | some rt, some rr, some rt' =>
        if (rr + rt').toNat = rt % 16 then
          match latencyOf rt rt'.toNat with
          | some lam => .next (s.linkUpNow l rt rr rt' lam)
          | none => .next (s.measureFail l)
        else .next (s.measureFail l)
      | _, _, _ => .next (s.measureFail l)
  else .next s

/-- A training phase exceeds its bound (Table 8.2). -/
def execTrainPhaseTimeout (link : Fin 96) (obs : PhaseObs) (s : State) : Host.Outcome State Fault Refusal :=
  let l := link.val
  let ls := s.lstate l
  if ls = lsDetect then .next (s.trainFail l fcNoPartner)
  else if ls = lsLock then .next (s.lanePhaseEnd l lsEqualise obs)
  else if ls = lsEqualise then .next (s.lanePhaseEnd l lsLaneTest obs)
  else if ls = lsLaneTest then .next (s.lanePhaseEnd l lsMap obs)
  else if ls = lsMap then .next (s.trainFail l fcLanes)
  else if ls = lsMeasure then .next (s.measureFail l)
  else .next s

/-- DETECT waits longer than DETECT_TIMEOUT (R187). -/
def execDetectTimeout (link : Fin 96) (s : State) : Host.Outcome State Fault Refusal :=
  if s.lstate link.val = lsDetect then .next (s.trainFail link.val fcNoPartner) else .next s

/-- A MARK is presented: its residue is recorded and an ECHO follows 64 ticks later (R191). -/
def execMarkRx (link : Fin 96) (carried phase : BitVec 4) (s : State) : Host.Outcome State Fault Refusal :=
  let l := link.val
  if s.lstate l = lsMeasure then
    let x := s.link l
    let rho := phase - carried
    let bad := match x.rhoRx with
      | some r => decide (r ≠ rho)
      | none => false
    .next ((s.setLink l { x with rhoRx := some rho, measBad := x.measBad || bad }).emit (.markEcho l rho))
  else .next s

/-- An ECHO is presented: RT = a1 − a0 − 64; every exchange must agree (R191). -/
def execEchoRx (link : Fin 96) (a0 a1 : BitVec 32) (rhoPartner : BitVec 4) (s : State) : Host.Outcome State Fault Refusal :=
  let l := link.val
  if s.lstate l = lsMeasure then
    let x := s.link l
    let rt := (a1 - a0 - 64).toNat
    let bad1 := match x.rt with
      | some r => decide (r ≠ rt)
      | none => false
    let bad2 := match x.rhoTx with
      | some r => decide (r ≠ rhoPartner)
      | none => false
    .next (s.setLink l { x with rt := some rt, rhoTx := some rhoPartner, exchanges := x.exchanges + 1, measBad := x.measBad || bad1 || bad2 })
  else .next s

/-! ## Margin and loss (R56, R193, R212) -/

/-- The margin falls to 2 ticks: LINK.MARGIN_LOW; a slip is requested when no step executes and TIME_VALID = 0; a slip
needed while a step executes is a link fault (R56, R193). -/
def execMarginLow (link : Fin 96) (s : State) : Host.Outcome State Fault Refusal :=
  let l := link.val
  if s.linkUp l then
    let s := (s.put (F.LINK_STATUS_MARGIN l) 2).raise (P.LINK l) B.LINK_MARGIN_LOW Evn.LINK_MARGIN_LOW
    if s.stepActive then .next (s.linkFault l)
    else if s.flag F.CLK_STATUS_TIME_VALID then .next s
    else .next ((s.setLink l { s.link l with slipReq := true, mgt := (s.link l).mgt ++ [.skipReq] }).emit (.skipReq l))
  else .next s

/-- A requested SKIP flit is dropped or presented twice: Λ changes by one tick (R193); under an armed stand the pad is
fitted to the new latency (R195). -/
def execSkipFlitRx (link : Fin 96) (drop : Bool) (s : State) : Host.Outcome State Fault Refusal :=
  let l := link.val
  if s.linkUp l && (s.link l).slipReq then
    let lam := s.get (F.LINK_LAT_LAMBDA_RX l)
    let s := s.put (F.LINK_LAT_LAMBDA_RX l) (if drop then lam - 1 else lam + 1)
    let s := (s.put (F.LINK_STATUS_MARGIN l) (s.get (F.LINK_STATUS_MARGIN l) + 1)).bumpF ⟨Reg.LINK_SLIPS l, 0, 16⟩ 1
    let s := s.setLink l { s.link l with slipReq := false }
    let s := s.raise (P.LINK l) B.LINK_SLIP Evn.LINK_SLIP
    .next (if s.armed && s.inStand l then s.fitLink l else s)
  else .next s

/-- The margin reaches 0: the elastic buffer has overrun and the link is lost (R193, R212). -/
def execElasticOverrun (link : Fin 96) (s : State) : Host.Outcome State Fault Refusal :=
  let l := link.val
  if s.linkUp l then .next ((s.put (F.LINK_STATUS_MARGIN l) 0).linkLost l fcElastic) else .next s

/-- Whether a physical receive lane carries data: all but the failed lane, or all but lane 8 when none failed (R189). -/
def State.laneInUse (s : State) (l k : Nat) : Bool :=
  let f := s.get (F.LINK_LANES_RX_FAILED l)
  if f = 15 then decide (k ≠ 8) else decide (k ≠ f)

/-- An in-use lane loses clock lock and the link is lost (R212). -/
def execLaneLockLoss (link : Fin 96) (lane : Fin 9) (s : State) : Host.Outcome State Fault Refusal :=
  let l := link.val
  if s.linkUp l && s.laneInUse l lane.val then .next (s.linkLost l fcLostCdr) else .next s

/-! ## Flits (R196 to R213) -/

/-- The physical receive lane that carries flit bit i (R189, R196). -/
def State.physLane (s : State) (l i : Nat) : Nat :=
  let k := i / 8 % 8
  let f := s.get (F.LINK_LANES_RX_FAILED l)
  if k < f then k else k + 1

/-- One corrected bit counts in CORR_BITS and in its lane; a lane above LANE_WEAR_THRESH within one second raises
LANE_WEAR and is written to Deadwood (R211). -/
def State.corrBit (s : State) (l i : Nat) : State :=
  let k := s.physLane l i
  let s := (s.bump (Reg.LINK_CORR_BITS l) 1).bump (Reg.LINK_LANE_CORR l k) 1
  let x := s.link l
  let x := if x.laneT0 + 1600000000 ≤ s.now then { x with laneSec := [], laneT0 := s.now, laneNamed := [] } else x
  let n := aget 0 x.laneSec k + 1
  let t := (s.rd (Reg.LINK_LANE_WEAR_THRESH l)).toNat
  let x := { x with laneSec := aset 0 x.laneSec k n }
  if 0 < t ∧ t < n ∧ !x.laneNamed.contains k then
    let s := s.setLink l { x with laneNamed := k :: x.laneNamed }
    (s.raise (P.LINK l) B.LINK_LANE_WEAR Evn.LINK_LANE_WEAR).dwAdd dwLane l k Evn.LINK_LANE_WEAR.code 4
  else s.setLink l x

/-- Step-relative schedule tick of tick τ of the present group epoch. -/
def State.stepTick (s : State) (tau : Nat) : Nat :=
  match s.stand.current with
  | some c => ((s.rd64 Reg.STAND_GEPOCH_LO).toNat - c.start) * 4096 + tau
  | none => 0

/-- The scheduled flit a link's receiver expects in tick `pos`, if any (R199, R201). -/
def State.rxSlot (s : State) (l : Nat) (pos : TickPos) : Option FlitSlot :=
  match pos with
  | .sched tau =>
    if s.stepActive then
      (s.image.bind (fun im => im.plans.find? (fun p => p.l.val == l))).bind (fun p => p.rx.find? (fun r => r.tick == s.stepTick tau.val))
    else none
  | _ => none

/-- Whether `pos` is service slot 0 to 2 of a group link while group epochs run (R159). -/
def State.gcmSlot (s : State) (l : Nat) (pos : TickPos) : Bool :=
  match pos with
  | .sched tau => s.stand.epochs && s.flag (F.LINK_STATUS_GROUP l) && decide (tau.val % 64 = 63) && decide (tau.val / 64 < 3)
  | _ => false

/-- A presented scheduled payload goes to each of its destinations (R208, R209, R226). -/
def State.deliver (s : State) (l : Nat) (slot : FlitSlot) (payload : BitVec 256) (poison : Bool) : State :=
  slot.dests.foldl (fun s d => match d with
    | .forward b => s.emit (.flit b.val (slot.tick + 5) slot.half poison payload)
    | .reduceIn _ => s
    | .xbar _ => s.setLink l { s.link l with rxBuf := (s.link l).rxBuf ++ [(payload, slot.half, poison)] }) s

/-- An uncorrectable flit (R212, Table 8.9). -/
def State.uncorrFlit (s : State) (l : Nat) (flit : BitVec 320) (pos : TickPos) : State :=
  let s := (s.bump (Reg.LINK_UNCORR l) 1).errInc (P.LINK l)
  let x := s.link l
  let s := s.setLink l { x with uncorrRun := x.uncorrRun + 1 }
  let s := match s.rxSlot l pos with
    | some slot =>
      let s := (s.deliver l slot (flitPayload flit) true).raise (P.LINK l) B.LINK_UNCORR_FLIT Evn.LINK_UNCORR_FLIT
      s.paceFaultEoe causeLinkUncorr l
    | none => if s.gcmSlot l pos then s.paceFaultEoe causeGcmLost l else s
  if x.uncorrRun + 1 = 8 then s.linkLost l fcLostUncorr else s

/-- A received ABORT (R177, R179, R200): it acts when it names the armed stand and the group is not yet suspended; before T_rel
of a resume it cancels this member's part in it, and goes on to the others (R408). -/
def State.abortReceived (s : State) (l : Nat) (a : AbortMsg) : State :=
  if s.armed ∧ a.standId = s.rd Reg.STAND_STAND_ID then
    if s.suspended ∧ s.resuming then s.resumeCancel.sendAbort a 64
    else if s.suspended ∨ s.stand.suspendAtC then s
    else
      let s := s.faultInfo a.cause.toNat 0 a.origin.toNat false s.sampled
      if s.stepActive then
        let s := ((s.discardStep).sendAbort { a with step := s.rd Reg.STAND_CUR_STEP_LO } 64).suspend
        s.powerIdle
      else if s.sampled then
        { s.sendAbort a 64 with stand := { (s.sendAbort a 64).stand with suspendAtC := true } }
      else (s.sendAbort a 64).suspend
  else s.raise (P.LINK l) B.LINK_ABORT_FOREIGN Evn.LINK_ABORT_FOREIGN

/-- A service flit's place in its message: credits and FSEQ of its pool (R204). -/
def State.svcFlitRx (s : State) (l : Nat) (h : Word) : State :=
  let s := s.addCredit l (hdrCpool h) (hdrCcount h)
  match (svcClassOf (hdrClass h)).bind svcPool with
  | none => s
  | some p =>
    let x := s.link l
    let q := aget {} x.pools p
    let gap := (BitVec.ofNat 10 (hdrFseq h) - q.rxSeq).toNat
    let lost := if gap = 0 then 0 else gap + q.partialN
    let part := (if gap = 0 ∧ !hdrFirst h then q.partialN else 0) + 1
    let q := { q with rxSeq := BitVec.ofNat 10 (hdrFseq h) + 1,
                      owed := q.owed + lost + (if hdrLast h then part else 0),
                      partialN := if hdrLast h then 0 else part }
    s.setLink l { x with pools := aset {} x.pools p q }

/-- A clean or corrected flit (R198 to R203, R213). -/
def State.cleanFlit (s : State) (l : Nat) (f : BitVec 320) (pos : TickPos) : State :=
  let h := flitHeader f
  if hdrKind h = 3 then s.abortReceived l (abortOf (flitPayload f))
  else match s.rxSlot l pos with
    | some slot =>
      if hdrKind h = 0 ∧ hdrTick6 h = slot.tick % 64 ∧ hdrHalf h = slot.half ∧ bitsOf h 10 6 = 0
          ∧ hdrTag h = (s.rd Reg.STAND_STAND_ID).toNat % 65536 then
        let s := if hdrPoison h then
            (s.bump (Reg.LINK_POISON_RX l) 1).raise (P.LINK l) B.LINK_POISON_RX Evn.LINK_POISON_RX
          else s
        s.deliver l slot (flitPayload f) (hdrPoison h)
      else (s.raise (P.LINK l) B.LINK_SCHED_MISMATCH Evn.LINK_SCHED_MISMATCH).linkLost l fcSchedMismatch
    | none =>
      if hdrKind h = 1 then s.svcFlitRx l h
      else if hdrKind h = 2 then s.addCredit l (hdrCpool h) (hdrCcount h)
      else s

/-- A received flit (R197, R201). -/
def execFlitRx (link : Fin 96) (flit : BitVec 320) (pos : TickPos) (s : State) : Host.Outcome State Fault Refusal :=
  let l := link.val
  if s.linkUp l then
    match correctFlit flit with
    | none => .next (s.uncorrFlit l flit pos)
    | some (f, errs) =>
      let s := s.setLink l { s.link l with uncorrRun := 0 }
      .next ((errs.foldl (fun s i => s.corrBit l i) s).cleanFlit l f pos)
  else .next s

/-- A received ABORT for the armed stand (R177). -/
def execAbortRx (link : Fin 96) (a : AbortMsg) (s : State) : Host.Outcome State Fault Refusal :=
  .next (s.abortReceived link.val a)

/-! ## Service messages (R205) -/

/-- A complete service message: acknowledged, and passed to the block that owns its class unless it is a duplicate. -/
def execServiceMsgRx (link : Fin 96) (msgno : BitVec 16) (body : SvcBody) (s : State) : Host.Outcome State Fault Refusal :=
  let l := link.val
  if s.linkUp l then
    let x := s.link l
    let c := bodyClass body
    let s := s.setLink l { x with mgt := x.mgt ++ [.ack c msgno], seenMsg := ((c, msgno) :: x.seenMsg).take 4096 }
    let s := s.emit (.svcAck l c msgno)
    if x.seenMsg.contains (c, msgno) then .next (s.setLink l { s.link l with seenMsg := x.seenMsg })
    else .next { s with inbox := s.inbox ++ [(l, body)] }
  else .next s

/-- An acknowledgement releases the sender's copy (R205). -/
def execServiceAckRx (link : Fin 96) (cls : SvcClass) (msgno : BitVec 16) (s : State) : Host.Outcome State Fault Refusal :=
  let l := link.val
  let x := s.link l
  .next (s.setLink l { x with unacked := x.unacked.filter (fun m => !(m.cls == cls && m.msgno == msgno)),
                              txq := x.txq.filter (fun m => !(m.cls == cls && m.msgno == msgno && decide (0 < m.sent))) })

/-- A message not acknowledged within 256 service ticks is resent under the same MSGNO (R205). -/
def execServiceResendTimeout (link : Fin 96) (cls : SvcClass) (msgno : BitVec 16) (s : State) : Host.Outcome State Fault Refusal :=
  let l := link.val
  let x := s.link l
  match x.unacked.find? (fun m => m.cls == cls && m.msgno == msgno) with
  | none => .next s
  | some m =>
    let x := { x with unacked := x.unacked.erase m, txq := x.txq ++ [{ m with sent := 0 }] }
    .next (((s.setLink l x).bump (Reg.LINK_SVC_RESENT l) 1).emit (.svcSend l m.msgno m.body))

/-! ## Take-down (R214, R215) -/

/-- The partner's take-down notice (Table 8.10, R212). -/
def execTakedownNoticeRx (link : Fin 96) (s : State) : Host.Outcome State Fault Refusal :=
  let l := link.val
  let ls := s.lstate l
  if ls = lsUp then
    let s := ((s.returnUnsent l).emit (.takedownAck l)).put (F.LINK_STATUS_FAIL_CAUSE l) fcPartnerDown
    let s := ((s.errInc (P.LINK l)).toDetect l).raise (P.LINK l) B.LINK_PARTNER_DOWN Evn.LINK_PARTNER_DOWN
    .next (s.linkFault l)
  else if lsLock ≤ ls ∧ ls ≤ lsMeasure then
    let s := (s.emit (.takedownAck l)).put (F.LINK_STATUS_FAIL_CAUSE l) fcPartnerDown
    .next ((s.toDetect l).raise (P.LINK l) B.LINK_PARTNER_DOWN Evn.LINK_PARTNER_DOWN)
  else if ls = lsTakedown then .next (s.emit (.takedownAck l))
  else .next s

/-- Take-down completes: unacknowledged messages are returned, the lanes go idle, and the page goes to OFF, or to DETECT
with PENDING_ENABLE (R215, Table 8.10). -/
def State.takedownEnd (s : State) (l : Nat) : State :=
  let s := (s.returnUnsent l).emit (.lanesIdle l)
  if s.flag (Hdr.PENDING_ENABLE (P.LINK l)) then
    ((s.putB (Hdr.PENDING_ENABLE (P.LINK l)) false).setLink l { s.link l with warmFailed := false }).toDetect l
  else s.setL l lsOff fnOff

def execTakedownComplete (link : Fin 96) (s : State) : Host.Outcome State Fault Refusal :=
  if s.lstate link.val = lsTakedown then .next (s.takedownEnd link.val) else .next s

end Sys2Proof.Machine
end

