-- ==== Sys2Proof/Machine/Numeric.lean ====
section
/-! DEFINITION. Numbers (04): exact values, rounding (R78, R82), binary32 arithmetic (R85), long addition (R73) and the
random number of stochastic rounding (R81). -/

namespace Sys2Proof.Machine

/-- An exact value: NaN, a signed infinity, or (−1)^neg × m × 2^e. -/
inductive Val where
  | nan
  | inf (neg : Bool)
  | fin (neg : Bool) (m : Nat) (e : Int)
  deriving DecidableEq, Repr

/-! ## Formats (Tables 4.1, 4.2) -/

abbrev fmtFP32 : Nat := 0
abbrev fmtBF16 : Nat := 1
abbrev fmtFP16 : Nat := 2
abbrev fmtE4M3 : Nat := 3
abbrev fmtE5M2 : Nat := 4
abbrev fmtE3M2 : Nat := 5
abbrev fmtE2M3 : Nat := 6
abbrev fmtE2M1 : Nat := 7
abbrev fmtINT8 : Nat := 8
abbrev fmtINT4 : Nat := 9
abbrev fmtTERNARY : Nat := 10
abbrev fmtE8M0 : Nat := 11

/-- Which codes are special: IEEE infinities and NaN, E4M3's single NaN, or none. -/
inductive Specials where
  | ieee | e4m3 | none
  deriving DecidableEq, Repr

/-- A floating-point layout (Table 4.2) with its largest finite magnitude code and its NaN output. -/
structure FloatFmt where
  eb      : Nat
  mb      : Nat
  bias    : Nat
  sp      : Specials
  maxCode : Nat
  nanCode : Nat
  deriving DecidableEq, Repr

/-- Table 4.2. -/
def floatFmt : Nat → Option FloatFmt
  | 0 => some ⟨8, 23, 127, .ieee, 0x7F7FFFFF, 0x7FC00000⟩
  | 1 => some ⟨8, 7, 127, .ieee, 0x7F7F, 0x7FC0⟩
  | 2 => some ⟨5, 10, 15, .ieee, 0x7BFF, 0x7E00⟩
  | 3 => some ⟨4, 3, 7, .e4m3, 0x7E, 0x7F⟩
  | 4 => some ⟨5, 2, 15, .ieee, 0x7B, 0x7F⟩
  | 5 => some ⟨3, 2, 3, .none, 0x1F, 0⟩
  | 6 => some ⟨2, 3, 1, .none, 0x1F, 0⟩
  | 7 => some ⟨2, 1, 1, .none, 0x7, 0⟩
  | _ => none

/-- Element width in bits (Table 4.1). -/
def fmtWidth : Nat → Nat
  | 0 => 32 | 1 => 16 | 2 => 16 | 3 => 8 | 4 => 8 | 5 => 6 | 6 => 6 | 7 => 4 | 8 => 8 | 9 => 4 | 10 => 2 | _ => 8

/-- The value of a floating-point code (R64). -/
def decodeFloat (f : FloatFmt) (code : Nat) : Val :=
  let s := code / 2 ^ (f.eb + f.mb) % 2 == 1
  let e := code / 2 ^ f.mb % 2 ^ f.eb
  let m := code % 2 ^ f.mb
  if f.sp = .ieee ∧ e = 2 ^ f.eb - 1 then (if m = 0 then .inf s else .nan)
  else if f.sp = .e4m3 ∧ e = 15 ∧ m = 7 then .nan
  else if e = 0 then .fin s m (1 - (f.bias : Int) - f.mb)
  else .fin s (2 ^ f.mb + m) ((e : Int) - f.bias - f.mb)

/-- The value of a w-bit two's-complement integer (R66). -/
def decodeInt (w code : Nat) : Val :=
  if code < 2 ^ (w - 1) then .fin false code 0 else .fin true (2 ^ w - code) 0

/-- The value of an E8M0 code (R65). -/
def decodeScale (s : Nat) : Val := if s = 255 then .nan else .fin false 1 ((s : Int) - 127)

/-- The value of an element code of a format (R64 to R67). -/
def decodeElem (fmt code : Nat) : Val :=
  match floatFmt fmt with
  | some f => decodeFloat f code
  | none =>
    if fmt = fmtINT8 then decodeInt 8 code
    else if fmt = fmtINT4 then decodeInt 4 code
    else if fmt = fmtTERNARY then
      (if code = 1 then .fin false 1 0 else if code = 3 then .fin true 1 0 else .fin false 0 0)
    else decodeScale code

/-! ## Rounding of magnitudes (R78, R82) -/

/-- Whether the magnitude `rem` / 2^d above `lo` rounds up, by RM; `r` is the random number of SR. -/
def roundsUp (rm : Nat) (odd : Bool) (rem d r : Nat) : Bool :=
  if rm = 0 then decide (2 ^ d < 2 * rem) || (decide (2 * rem = 2 ^ d) && odd)
  else if rm = 2 then decide (2 ^ 32 ≤ (rem * 2 ^ 32) / 2 ^ d + r)
  else false

/-- m × 2^sh rounded to an integer. -/
def roundShift (rm r m : Nat) (sh : Int) : Nat :=
  if 0 ≤ sh then m * 2 ^ sh.toNat
  else
    let d := (-sh).toNat
    let n := m / 2 ^ d
    let rem := m % 2 ^ d
    if roundsUp rm (n % 2 == 1) rem d r then n + 1 else n

/-- The magnitude code that m × 2^e rounds to in a layout with `mb` fraction bits and least normal exponent `emin`, with
no upper bound on the exponent. -/
def roundMag (mb : Nat) (emin : Int) (rm r m : Nat) (e : Int) : Nat :=
  if m = 0 then 0
  else
    let l : Int := e + Nat.log2 m
    let qmin := emin - mb
    let q := max (l - mb) qmin
    (q - qmin).toNat * 2 ^ mb + roundShift rm r m (e - q)

/-- ⌊log2 (m × 2^e)⌋ of a nonzero magnitude. -/
def floorLog2 (m : Nat) (e : Int) : Int := e + Nat.log2 m

/-! ## Binary32 (R85) -/

/-- The NaN that every operation produces. -/
abbrev nanF32 : Word := 0x7FC00000

/-- The value of a binary32 word. -/
def valF32 (x : Word) : Val := decodeFloat ⟨8, 23, 127, .ieee, 0x7F7FFFFF, 0x7FC00000⟩ x.toNat

/-- A signed zero or infinity. -/
def zeroF32 (neg : Bool) : Word := if neg then 0x80000000 else 0
def infF32 (neg : Bool) : Word := if neg then 0xFF800000 else 0x7F800000

/-- A magnitude rounded to binary32, with its sign; above range an infinity, or under RTZ the largest finite value. -/
def roundF32 (rm r : Nat) (neg : Bool) (m : Nat) (e : Int) : Word :=
  let c := roundMag 23 (-126) rm r m e
  let c := if 0x7F7FFFFF < c then (if rm = 1 then 0x7F7FFFFF else 0x7F800000) else c
  BitVec.ofNat 32 ((if neg then 2 ^ 31 else 0) + c)

/-- A value rounded to binary32 with RNE, keeping the sign of a zero. -/
def toF32 : Val → Word
  | .nan => nanF32
  | .inf s => infF32 s
  | .fin s m e => roundF32 0 0 s m e

/-- The exact sum of two values; the sign of a zero sum follows IEEE 754 under RNE. -/
def addVal : Val → Val → Val
  | .nan, _ => .nan
  | _, .nan => .nan
  | .inf s, .inf t => if s = t then .inf s else .nan
  | .inf s, .fin _ _ _ => .inf s
  | .fin _ _ _, .inf t => .inf t
  | .fin s m e, .fin t n f =>
    let lo := min e f
    let a : Int := (m * 2 ^ (e - lo).toNat : Nat)
    let b : Int := (n * 2 ^ (f - lo).toNat : Nat)
    let x := (if s then -a else a) + (if t then -b else b)
    if x = 0 then .fin (s && t) 0 0 else .fin (decide (x < 0)) x.natAbs lo

/-- The exact product of two values. -/
def mulVal : Val → Val → Val
  | .nan, _ => .nan
  | _, .nan => .nan
  | .inf s, .inf t => .inf (s != t)
  | .inf s, .fin t n _ => if n = 0 then .nan else .inf (s != t)
  | .fin s m _, .inf t => if m = 0 then .nan else .inf (s != t)
  | .fin s m e, .fin t n f => .fin (s != t) (m * n) (e + f)

/-- The value negated. -/
def negVal : Val → Val
  | .nan => .nan
  | .inf s => .inf !s
  | .fin s m e => .fin (!s) m e

def addF32 (a b : Word) : Word := toF32 (addVal (valF32 a) (valF32 b))
def subF32 (a b : Word) : Word := toF32 (addVal (valF32 a) (negVal (valF32 b)))
def mulF32 (a b : Word) : Word := toF32 (mulVal (valF32 a) (valF32 b))
def fmaF32 (a b c : Word) : Word := toF32 (addVal (mulVal (valF32 a) (valF32 b)) (valF32 c))

/-- Comparison of two values, −0 equal to +0; none when either is NaN. -/
def ltVal : Val → Val → Option Bool
  | .nan, _ => none
  | _, .nan => none
  | .inf s, .inf t => some (s && !t)
  | .inf s, .fin _ _ _ => some s
  | .fin _ _ _, .inf t => some !t
  | .fin s m e, .fin t n f =>
    let lo := min e f
    let a : Int := (m * 2 ^ (e - lo).toNat : Nat)
    let b : Int := (n * 2 ^ (f - lo).toNat : Nat)
    some (decide ((if s then -a else a) < (if t then -b else b)))

/-- The larger and the smaller of two words; NaN if either is NaN; −0 < +0 (Table 5.9). -/
def maxF32 (a b : Word) : Word :=
  match ltVal (valF32 a) (valF32 b), ltVal (valF32 b) (valF32 a) with
  | some true, _ => b
  | some false, some true => a
  | some false, some false => a &&& b
  | _, _ => nanF32

def minF32 (a b : Word) : Word :=
  match ltVal (valF32 a) (valF32 b), ltVal (valF32 b) (valF32 a) with
  | some true, _ => a
  | some false, some true => b
  | some false, some false => a ||| b
  | _, _ => nanF32

/-- The conditions of VCMP (Table 5.6, Table 5.9). -/
def condF32 (cond : Nat) (a b : Word) : Bool :=
  match ltVal (valF32 a) (valF32 b), ltVal (valF32 b) (valF32 a) with
  | some lt, some gt =>
    if cond = 0 then !lt && !gt else if cond = 1 then lt else if cond = 2 then !gt else if cond = 4 then lt || gt else false
  | _, _ => decide (cond = 3) || decide (cond = 4)

/-- One level of the fixed pairwise tree (R83). -/
def pairUp (f : Word → Word → Word) : List Word → List Word
  | a :: b :: rest => f a b :: pairUp f rest
  | rest => rest

/-- `n` levels of the tree. -/
def treeF32 (f : Word → Word → Word) : Nat → List Word → List Word
  | 0, xs => xs
  | n + 1, xs => treeF32 f n (pairUp f xs)

/-! ## Long values (R71, R73) -/

abbrev longNaN : Long := 0x80000000000000000000000000000000
abbrev longNegSat : Long := 0x80000000000000000000000000000001
abbrev longPosSat : Long := 0x7FFFFFFFFFFFFFFFFFFFFFFFFFFFFFFF

/-- ±SAT by sign. -/
def longSat (neg : Bool) : Long := if neg then longNegSat else longPosSat

/-- Whether a code is ±SAT. -/
def isSat (x : Long) : Bool := decide (x = longPosSat) || decide (x = longNegSat)

/-- The long-add rule on two operands (R73): the sum, and whether LONG_OVF arises. -/
def longAdd (a b : Long) : Long × Bool :=
  if a = longNaN ∨ b = longNaN then (longNaN, false)
  else if isSat a then (if isSat b ∧ a ≠ b then longNaN else a, false)
  else if isSat b then (b, false)
  else
    let x := a.toInt + b.toInt
    if x < -(2 ^ 127 - 2) ∨ 2 ^ 127 - 2 < x then (longNaN, true) else (BitVec.ofInt 128 x, false)

/-- The long sum of contributions with a cell. -/
def longSum (c : Long) (xs : List Long) : Long × Bool :=
  xs.foldl (fun p x => ((longAdd p.1 x).1, p.2 || (longAdd p.1 x).2)) (c, false)

/-! ## Deterministic stochastic rounding (R81) -/

def mix (x : Dword) : Dword :=
  let x := x ^^^ (x >>> 31)
  let x := x * 0xA3B195C27D4E6F19
  let x := x ^^^ (x >>> 29)
  let x := x * 0xC6E21B8794F30A5D
  x ^^^ (x >>> 32)

/-- sr_rand (R81). -/
def srRand (seed : Dword) (lei : Nat) (bidx : Dword) (eidx : Nat) : Nat :=
  let h := mix (seed ^^^ 0x5A17C3E900000000)
  let h := mix (h ^^^ BitVec.ofNat 64 (lei * 2 ^ 32) ^^^ BitVec.ofNat 64 eidx)
  let h := mix (h ^^^ bidx)
  h.toNat % 2 ^ 32

end Sys2Proof.Machine
end

