-- ==== Sys2Proof/Machine/Bundle.lean ====
section
/-! DEFINITION. The bundle (R92, Tables 5.2 to 5.9): the slots' fields, their encodings and their decoder, which refuses every
reserved opcode, reserved value and nonzero reserved field (R94), and every operand combination the format rules forbid. -/

namespace Sys2Proof.Machine

/-- The CTL slot (Table 5.4). -/
inductive Ctl where
  | nop
  | wait (nM1 : BitVec 16)
  | loop (countM1 : BitVec 16)
  | endloop (x : BitVec 3) (xen : Bool) (xstep : BitVec 16)
  | epochWait (epoch : BitVec 16)
  | fence (mask : BitVec 6)
  | seg (target : BitVec 13)
  | evt (code : BitVec 8)
  | halt
  | xset (x : BitVec 3) (value : BitVec 16)
  deriving DecidableEq, Repr

/-- The TEN slot (Table 5.5). -/
inductive Ten where
  | nop
  | mma (afmt : BitVec 4) (kbM1 : BitVec 3) (rowsM1 : BitVec 7) (rbase : BitVec 7) (buf clr wsel : Bool) (we : BitVec 16)
      (xsel : BitVec 3) (osa : BitVec 15)
  | loadw (wfmt : BitVec 4) (kbM1 : BitVec 3) (wsel : Bool) (xsel : BitVec 3) (osa : BitVec 15)
  | drain (fmt : BitVec 4) (rm : BitVec 2) (raw : Bool) (smode : BitVec 2) (buf : Bool) (rowsM1 : BitVec 7) (rbase : BitVec 7)
      (os : BitVec 8) (xsel : BitVec 3) (osa : BitVec 15)
  | accadd (buf : Bool) (rowsM1 : BitVec 7) (rbase : BitVec 7) (clr : Bool) (we : BitVec 16) (xsel : BitVec 3) (osa : BitVec 15)
  deriving DecidableEq, Repr

/-- The VEC slot's layout (R109): opcode, the four register fields and EXT. -/
structure Vec where
  op  : BitVec 8
  vd  : BitVec 6
  va  : BitVec 6
  vb  : BitVec 6
  vc  : BitVec 6
  ext : Word
  deriving DecidableEq, Repr

/-- The MEMA and MEMB slots (Table 5.7). -/
inductive Mem where
  | nop
  | ld (rate : BitVec 3) (lenM1 : BitVec 7) (areg : BitVec 4) (ainc : Bool) (off : BitVec 9) (xsel : BitVec 3) (osa : BitVec 15)
  | st (rate : BitVec 3) (lenM1 : BitVec 7) (areg : BitVec 4) (ainc : Bool) (off : BitVec 9) (xsel : BitVec 3) (osa : BitVec 15)
  | seta (areg : BitVec 4) (value : Word)
  | adda (areg : BitVec 4) (addend : Word)
  | send (q : BitVec 3) (lenM1 : BitVec 8) (xsel : BitVec 3) (osa : BitVec 15)
  | recv (q : BitVec 3) (lenM1 : BitVec 8) (xsel : BitVec 3) (osa : BitVec 15)
  | gather (vs : BitVec 6) (dreg : BitVec 4) (countM1 : BitVec 8) (xsel : BitVec 3) (osa : BitVec 15)
  | scatter (vs : BitVec 6) (dreg : BitVec 4) (countM1 : BitVec 8) (xsel : BitVec 3) (osa : BitVec 15)
  | dmat (ch : BitVec 4) (desc : BitVec 8)
  deriving DecidableEq, Repr

/-- A bundle's five slots. -/
structure Bundle where
  ctl  : Ctl
  ten  : Ten
  vec  : Vec
  mema : Mem
  memb : Mem
  deriving DecidableEq, Repr

/-- A one-bit field. -/
def b1 (b : Bool) : BitVec 1 := BitVec.ofBool b

/-! ## Encoders, field by field from the top bit down -/

/-- Table 5.4. -/
def encodeCtl : Ctl → BitVec 32
  | .nop => 0
  | .wait n => (0x1#4 ++ 0#12) ++ n
  | .loop n => (0x2#4 ++ 0#4) ++ (n ++ 0#8)
  | .endloop x xen st => ((0x3#4 ++ x) ++ (b1 xen ++ 0#8)) ++ st
  | .epochWait e => (0x4#4 ++ 0#12) ++ e
  | .fence m => (0x5#4 ++ 0#22) ++ m
  | .seg t => (0x6#4 ++ 0#15) ++ t
  | .evt c => (0x7#4 ++ 0#20) ++ c
  | .halt => 0x8#4 ++ 0#28
  | .xset x v => ((0x9#4 ++ x) ++ 0#9) ++ v

/-- Table 5.5. -/
def encodeTen : Ten → BitVec 64
  | .nop => 0
  | .mma afmt kb rows rbase buf clr wsel we xsel osa =>
    ((((0x1#4 ++ afmt) ++ (kb ++ rows)) ++ ((rbase ++ b1 buf) ++ (b1 clr ++ b1 wsel))) ++ (we ++ 0#2)) ++ (xsel ++ osa)
  | .loadw wfmt kb wsel xsel osa => (((0x2#4 ++ wfmt) ++ (kb ++ b1 wsel)) ++ 0#34) ++ (xsel ++ osa)
  | .drain fmt rm raw smode buf rows rbase os xsel osa =>
    ((((0x3#4 ++ fmt) ++ ((rm ++ b1 raw) ++ (smode ++ b1 buf))) ++ (rows ++ rbase)) ++ (os ++ 0#10)) ++ (xsel ++ osa)
  | .accadd buf rows rbase clr we xsel osa =>
    ((((0x4#4 ++ b1 buf) ++ (rows ++ rbase)) ++ (b1 clr ++ we)) ++ 0#10) ++ (xsel ++ osa)

/-- R109. -/
def encodeVec (v : Vec) : BitVec 64 := ((v.op ++ v.vd) ++ ((v.va ++ v.vb) ++ v.vc)) ++ v.ext

/-- Table 5.7. -/
def encodeMem : Mem → BitVec 48
  | .nop => 0
  | .ld rate len areg ainc off xsel osa =>
    (((0x01#6 ++ rate) ++ (len ++ areg)) ++ (b1 ainc ++ off)) ++ (xsel ++ osa)
  | .st rate len areg ainc off xsel osa =>
    (((0x02#6 ++ rate) ++ (len ++ areg)) ++ (b1 ainc ++ off)) ++ (xsel ++ osa)
  | .seta areg v => (0x03#6 ++ areg) ++ (0#6 ++ v)
  | .adda areg v => (0x04#6 ++ areg) ++ (0#6 ++ v)
  | .send q len xsel osa => ((0x08#6 ++ q) ++ (0#1 ++ len)) ++ (0#12 ++ (xsel ++ osa))
  | .recv q len xsel osa => ((0x09#6 ++ q) ++ (0#1 ++ len)) ++ (0#12 ++ (xsel ++ osa))
  | .gather vs dreg n xsel osa => ((0x0C#6 ++ vs) ++ (dreg ++ n)) ++ (0#6 ++ (xsel ++ osa))
  | .scatter vs dreg n xsel osa => ((0x0D#6 ++ vs) ++ (dreg ++ n)) ++ (0#6 ++ (xsel ++ osa))
  | .dmat ch desc => ((0x10#6 ++ ch) ++ desc) ++ 0#30

/-- Table 5.2. -/
def encodeBundle (b : Bundle) : BitVec 256 :=
  (encodeCtl b.ctl ++ encodeTen b.ten) ++ (encodeVec b.vec ++ (encodeMem b.mema ++ encodeMem b.memb))

/-! ## Decoders (R94) -/

/-- The `n` bits from bit `lo`. -/
abbrev fld {w : Nat} (x : BitVec w) (lo n : Nat) : BitVec n := x.extractLsb' lo n

/-- One bit. -/
abbrev bit1 {w : Nat} (x : BitVec w) (i : Nat) : Bool := x.getLsbD i

/-- `some v` where the condition holds. -/
def guardSome {α : Type} (c : Bool) (v : α) : Option α := if c then some v else none

/-- Table 5.4. -/
def decodeCtl (w : BitVec 32) : Option Ctl :=
  let op := fld w 28 4
  if op = 0x0 then guardSome (fld w 0 28 == 0) .nop
  else if op = 0x1 then guardSome (fld w 16 12 == 0) (.wait (fld w 0 16))
  else if op = 0x2 then guardSome (fld w 24 4 == 0 && fld w 0 8 == 0) (.loop (fld w 8 16))
  else if op = 0x3 then guardSome (fld w 25 3 != 0 && fld w 16 8 == 0) (.endloop (fld w 25 3) (bit1 w 24) (fld w 0 16))
  else if op = 0x4 then guardSome (fld w 16 12 == 0) (.epochWait (fld w 0 16))
  else if op = 0x5 then guardSome (fld w 6 22 == 0) (.fence (fld w 0 6))
  else if op = 0x6 then guardSome (fld w 13 15 == 0) (.seg (fld w 0 13))
  else if op = 0x7 then guardSome (fld w 8 20 == 0) (.evt (fld w 0 8))
  else if op = 0x8 then guardSome (fld w 0 28 == 0) .halt
  else if op = 0x9 then guardSome (fld w 25 3 != 0 && fld w 16 9 == 0) (.xset (fld w 25 3) (fld w 0 16))
  else none

/-- Formats an MMA operand may have (Table 4.1). -/
def mmaFmt (f : Nat) : Bool := decide (1 ≤ f) && decide (f ≤ 10)

/-- The formats of the 4-bit rate (R70). -/
def rate4 (f : Nat) : Bool := decide (f = 7) || decide (f = 9) || decide (f = 10)

/-- Blocks of K that an operand format allows: 2 for BF16 and FP16, 8 at the 4-bit rate, else 4 (R70, R106). -/
def kbOk (f kb : Nat) : Bool :=
  if f = 1 ∨ f = 2 then decide (kb ≤ 2) else if rate4 f then decide (kb ≤ 8) else decide (kb ≤ 4)

/-- R103: rows stay inside the buffer. -/
def rowsOk (rbase rowsM1 : BitVec 7) : Bool := decide (rbase.toNat + rowsM1.toNat + 1 ≤ 128)

/-- The format rules of a DRAIN (R78, R80, R107): the rounding mode and scale mode are defined, FMT is an output format,
SMODE is FIXED for FP32, BF16 and FP16 and is not BLOCKMAX for integers, OS is in range for a FIXED scale, and RAW leaves
FMT, RM, SMODE and OS 0. -/
def drainOk (fmt : BitVec 4) (rm : BitVec 2) (raw : Bool) (smode : BitVec 2) (os : BitVec 8) : Bool :=
  decide (rm.toNat ≤ 2) && decide (smode.toNat ≤ 1) && decide (fmt.toNat ≤ 9)
    && (decide (3 ≤ fmt.toNat) || smode == 0)
    && (decide (fmt.toNat < 8) || smode == 0)
    && (decide (fmt.toNat ≤ 2) || smode != 0 || os != 0x80)
    && (!raw || (fmt == 0 && rm == 0 && smode == 0 && os == 0))

/-- Table 5.5. -/
def decodeTen (w : BitVec 64) : Option Ten :=
  let op := fld w 60 4
  if op = 0x0 then guardSome (fld w 0 60 == 0) .nop
  else if op = 0x1 then
    guardSome (fld w 18 2 == 0 && mmaFmt (fld w 56 4).toNat && kbOk (fld w 56 4).toNat ((fld w 53 3).toNat + 1)
        && rowsOk (fld w 39 7) (fld w 46 7))
      (.mma (fld w 56 4) (fld w 53 3) (fld w 46 7) (fld w 39 7) (bit1 w 38) (bit1 w 37) (bit1 w 36) (fld w 20 16) (fld w 15 3) (fld w 0 15))
  else if op = 0x2 then
    guardSome (fld w 18 34 == 0 && mmaFmt (fld w 56 4).toNat && kbOk (fld w 56 4).toNat ((fld w 53 3).toNat + 1))
      (.loadw (fld w 56 4) (fld w 53 3) (bit1 w 52) (fld w 15 3) (fld w 0 15))
  else if op = 0x3 then
    guardSome (fld w 18 10 == 0 && rowsOk (fld w 36 7) (fld w 43 7) && drainOk (fld w 56 4) (fld w 54 2) (bit1 w 53) (fld w 51 2) (fld w 28 8))
      (.drain (fld w 56 4) (fld w 54 2) (bit1 w 53) (fld w 51 2) (bit1 w 50) (fld w 43 7) (fld w 36 7) (fld w 28 8) (fld w 15 3) (fld w 0 15))
  else if op = 0x4 then
    guardSome (fld w 18 10 == 0 && rowsOk (fld w 45 7) (fld w 52 7))
      (.accadd (bit1 w 59) (fld w 52 7) (fld w 45 7) (bit1 w 44) (fld w 28 16) (fld w 15 3) (fld w 0 15))
  else none

/-- The EXT form of a vector opcode (Tables 5.6, 5.9). -/
inductive VForm where
  | r | i | sh | k | c | m
  deriving DecidableEq, Repr

/-- Form and used register fields of a vector opcode: VD, VA, VB, VC (Table 5.9). -/
def vecForm (op : Nat) : Option (VForm × Bool × Bool × Bool × Bool) :=
  if op = 0x00 then some (.r, false, false, false, false)
  else if op = 0x04 ∨ op = 0x0E then some (.r, true, true, true, true)
  else if op = 0x01 ∨ op = 0x02 ∨ op = 0x03 ∨ op = 0x05 ∨ op = 0x06 then some (.r, true, true, true, false)
  else if op = 0x07 ∨ op = 0x08 ∨ op = 0x0C then some (.r, true, true, false, false)
  else if op = 0x09 ∨ op = 0x0A then some (.i, true, true, false, false)
  else if op = 0x0B then some (.i, true, false, false, false)
  else if op = 0x0D then some (.k, true, true, true, false)
  else if 0x10 ≤ op ∧ op ≤ 0x14 then some (.r, true, true, true, false)
  else if 0x15 ≤ op ∧ op ≤ 0x17 then some (.sh, true, true, false, false)
  else if 0x20 ≤ op ∧ op ≤ 0x23 then some (.r, true, true, false, false)
  else if op = 0x30 ∨ op = 0x31 then some (.c, true, true, true, false)
  else if op = 0x32 ∨ op = 0x33 ∨ op = 0x34 then some (.c, true, true, false, false)
  else if op = 0x40 ∨ op = 0x41 then some (.r, true, true, false, false)
  else if op = 0x50 then some (.m, true, false, false, false)
  else if op = 0x51 then some (.m, false, true, false, false)
  else none

/-- Whether a C-form operation's FMT has the role Table 4.1 gives it: VCVTF takes 0x0–0xB, VCVTN all of those but TERNARY,
VBMAX the formats of BLOCKMAX, VFTOI and VITOF 0. -/
def cvtFmtOk (op fmt : Nat) : Bool :=
  if op = 0x30 then decide (fmt ≤ 11)
  else if op = 0x31 then decide (fmt ≤ 11) && decide (fmt ≠ 10)
  else if op = 0x32 then decide (3 ≤ fmt) && decide (fmt ≤ 7)
  else decide (fmt = 0)

/-- EXT content allowed in a form (Table 5.6). -/
def extOk (f : VForm) (op : Nat) (e : Word) : Bool :=
  match f with
  | .r => e == 0
  | .i => true
  | .sh => fld e 5 27 == 0
  | .k => fld e 0 29 == 0 && decide ((fld e 29 3).toNat ≤ 4)
  | .c => fld e 0 26 == 0 && decide ((fld e 26 2).toNat ≤ 2) && cvtFmtOk op (fld e 28 4).toNat
  | .m => fld e 18 14 == 0

/-- Whether a VEC slot is valid (R94, R109 to R111). -/
def vecOk (v : Vec) : Bool :=
  match vecForm v.op.toNat with
  | none => false
  | some (f, d, a, b, c) =>
    extOk f v.op.toNat v.ext && (d || v.vd == 0) && (a || v.va == 0) && (b || v.vb == 0) && (c || v.vc == 0)

/-- The VEC slot's fields (R109). -/
def splitVec (w : BitVec 64) : Vec :=
  { op := fld w 56 8, vd := fld w 50 6, va := fld w 44 6, vb := fld w 38 6, vc := fld w 32 6, ext := fld w 0 32 }

def decodeVec (w : BitVec 64) : Option Vec := guardSome (vecOk (splitVec w)) (splitVec w)

/-- RATE of LD and ST is 1 to 5 (Table 5.7). -/
def rateOk (r : BitVec 3) : Bool := decide (1 ≤ r.toNat) && decide (r.toNat ≤ 5)

/-- Table 5.7. -/
def decodeMem (w : BitVec 48) : Option Mem :=
  let op := fld w 42 6
  if op = 0x00 then guardSome (fld w 0 42 == 0) .nop
  else if op = 0x01 then
    guardSome (rateOk (fld w 39 3)) (.ld (fld w 39 3) (fld w 32 7) (fld w 28 4) (bit1 w 27) (fld w 18 9) (fld w 15 3) (fld w 0 15))
  else if op = 0x02 then
    guardSome (rateOk (fld w 39 3)) (.st (fld w 39 3) (fld w 32 7) (fld w 28 4) (bit1 w 27) (fld w 18 9) (fld w 15 3) (fld w 0 15))
  else if op = 0x03 then guardSome (fld w 32 6 == 0) (.seta (fld w 38 4) (fld w 0 32))
  else if op = 0x04 then guardSome (fld w 32 6 == 0) (.adda (fld w 38 4) (fld w 0 32))
  else if op = 0x08 then guardSome (fld w 38 1 == 0 && fld w 18 12 == 0) (.send (fld w 39 3) (fld w 30 8) (fld w 15 3) (fld w 0 15))
  else if op = 0x09 then guardSome (fld w 38 1 == 0 && fld w 18 12 == 0) (.recv (fld w 39 3) (fld w 30 8) (fld w 15 3) (fld w 0 15))
  else if op = 0x0C then guardSome (fld w 18 6 == 0) (.gather (fld w 36 6) (fld w 32 4) (fld w 24 8) (fld w 15 3) (fld w 0 15))
  else if op = 0x0D then guardSome (fld w 18 6 == 0) (.scatter (fld w 36 6) (fld w 32 4) (fld w 24 8) (fld w 15 3) (fld w 0 15))
  else if op = 0x10 then guardSome (fld w 0 30 == 0) (.dmat (fld w 38 4) (fld w 30 8))
  else none

/-- Table 5.2: the five slots, each valid. -/
def decodeBundle (w : BitVec 256) : Option Bundle :=
  match decodeCtl (fld w 224 32), decodeTen (fld w 160 64), decodeVec (fld w 96 64), decodeMem (fld w 48 48), decodeMem (fld w 0 48) with
  | some c, some t, some v, some a, some b => some { ctl := c, ten := t, vec := v, mema := a, memb := b }
  | _, _, _, _, _ => none

/-! ## Which slots are valid, on the fields (R94) -/

/-- A valid CTL slot. -/
def Ctl.ok : Ctl → Bool
  | .endloop x _ _ => x != 0
  | .xset x _ => x != 0
  | _ => true

/-- A valid TEN slot. -/
def Ten.ok : Ten → Bool
  | .mma afmt kb rows rbase _ _ _ _ _ _ => mmaFmt afmt.toNat && kbOk afmt.toNat (kb.toNat + 1) && rowsOk rbase rows
  | .loadw wfmt kb _ _ _ => mmaFmt wfmt.toNat && kbOk wfmt.toNat (kb.toNat + 1)
  | .drain fmt rm raw smode _ rows rbase os _ _ => rowsOk rbase rows && drainOk fmt rm raw smode os
  | .accadd _ rows rbase _ _ _ _ => rowsOk rbase rows
  | .nop => true

/-- A valid MEM slot. -/
def Mem.ok : Mem → Bool
  | .ld rate _ _ _ _ _ _ => rateOk rate
  | .st rate _ _ _ _ _ _ => rateOk rate
  | _ => true

/-- A valid bundle. -/
def Bundle.ok (b : Bundle) : Bool := b.ctl.ok && b.ten.ok && vecOk b.vec && b.mema.ok && b.memb.ok

end Sys2Proof.Machine
end

