-- ==== Sys2Proof/Machine/GroveMem.lean ====
section
/-! DEFINITION. Reading grove SRAM through its codes (R128 to R135). -/

namespace Sys2Proof.Machine

/-- Who reads a line: a stand's schedule, the background, or the scrubber. -/
inductive ReadBy where
  | sched | background | scrub
  deriving DecidableEq, Repr

/-- INDEX of a data bank in a Deadwood entry (Table 17.3). -/
def bankIndex (b : Nat) : Nat := 512 * (b / 256) + b % 256

/-- MEM.SRAM_WEAR and the Deadwood entry that names the bank (R135). -/
def State.sramWear (s : State) (g b : Nat) : State :=
  (s.raise (P.GSRAM g) B.GSRAM_SRAM_WEAR Evn.MEM_SRAM_WEAR).dwAdd dwSramBank g (bankIndex b) Evn.MEM_SRAM_WEAR.code 4

/-- Corrections of one line: the counters of Table 6.6, MEM.SRAM_CORR, and the bank's wear count against WEAR_THRESH
(R128, R129, R135). -/
def State.sramCorrected (s : State) (g b : Nat) (d : Decoded) : State :=
  let s := s.bump (Reg.GSRAM_CORR_INNER g) d.inner
  let s := if 0 < d.inner ∨ d.outer then s.raise (P.GSRAM g) B.GSRAM_SRAM_CORR Evn.MEM_SRAM_CORR else s
  if d.outer then
    let s := s.bump (Reg.GSRAM_CORR_OUTER g) 1
    let x := s.grove g
    let n := aget 0 x.corr b + 1
    let t := (s.rd (Reg.GSRAM_WEAR_THRESH g)).toNat
    if 0 < t ∧ t < n ∧ !x.worn.contains b then
      (s.setGrove g { x with corr := aset 0 x.corr b n, worn := b :: x.worn }).sramWear g b
    else s.setGrove g { x with corr := aset 0 x.corr b n }
  else s

/-- An uncorrectable line n of grove g (R131, R135): recorded and counted; a scheduled read raises MEM.SRAM_UNCORR and
pace-faults at the end of the epoch, a background read raises MEM.POISON_READ. -/
def State.sramUncorr (s : State) (g n : Nat) (by_ : ReadBy) : State :=
  let s := s.wr (Reg.GSRAM_LAST_ERR g) (BitVec.ofNat 32 (n % 2 ^ 24 + 2 ^ 24
    + (if by_ = .scrub then 2 ^ 25 else 0) + (if by_ = .background then 2 ^ 26 else 0)))
  let s := s.errInc (P.GSRAM g)
  let s := match by_ with
    | .sched => (s.raise (P.GSRAM g) B.GSRAM_SRAM_UNCORR Evn.MEM_SRAM_UNCORR).paceFaultEoe causeSramUncorr g
    | .background => s.raise (P.GSRAM g) B.GSRAM_POISON_READ Evn.MEM_POISON_READ
    | .scrub => s
  s.sramWear g (n % 512)

/-- Reads line `n` of grove g (its copy already chosen) through both codes. -/
def State.groveFetch (s : State) (g n : Nat) (by_ : ReadBy) (obs : Option LineObs) : State × Decoded :=
  let m := groveLine g n
  let d := decodeLine 8 (aget false s.poison m) (s.line m) obs
  let s := s.sramCorrected g (n % 512) d
  (if d.bad then s.sramUncorr g n by_ else s, d)

/-- A stand's read of grove line `a`, named by its copy-0 address (R131, R141). -/
def State.groveSchedRead (s : State) (g a : Nat) (obs : Option LineObs) : State × Line :=
  let x := s.grove g
  let r := s.groveFetch g (stepReadLine 1 x.wins x.sel x.dirty a) .sched obs
  (r.1, r.2.v)

end Sys2Proof.Machine
end

