-- ==== Sys2Proof/Machine/Grove.lean ====
section
/-! DEFINITION. Groves (06): the engine map, scrub, grove DMA and the end of a fold. -/

namespace Sys2Proof.Machine

/-! ## Engine map (R120) -/

/-- The physical engine that serves logical engine e of grove g; none when e is absent (Table 6.5). -/
def State.physOf (s : State) (g e : Nat) : Option Nat :=
  let p := bitsOf (s.rd (Reg.GROVE_LMAP g)) (4 * e) 4
  if p = 15 then none else some p

/-- Index of a logical engine's physical engine among `State.engines`. -/
def State.engIdx (s : State) (a : Eng) : Option Nat := (s.physOf a.g.val a.e.val).map (fun p => 16 * a.g.val + p)

/-- LMAP's value for the good physical engines of a grove, ascending, capped at 8 (R120). -/
def lmapOf (good : List Nat) : Nat :=
  (List.range 8).foldl (fun a e => a + (good.getD e 15) * 16 ^ e) 0

/-! ## Scrub (R126, R133) -/

/-- One owned bank in a scrub tick: the write-back of its last corrected line, then the read of its next row. -/
def State.scrubBank (s : State) (g b row : Nat) (obs : Option LineObs) : State :=
  let x := s.grove g
  let s := match aget none x.wb b with
    | some w => (s.setLine (groveLine g w.line) w.v).setGrove g { x with wb := aset none x.wb b none }
    | none => s
  let n := row * 512 + b
  let r := s.groveFetch g n .scrub obs
  let x := r.1.grove g
  if !r.2.bad && (r.2.outer || decide (0 < r.2.inner)) then
    r.1.setGrove g { x with wb := aset none x.wb b (some { line := n, v := r.2.v }) }
  else r.1

/-- A scrub tick of grove g (R133): the owned bank of each die reads one row; a pass ends after every row of every bank. -/
def execScrubTick (g : Fin 16) (obs0 obs1 : Option LineObs) (s : State) : Host.Outcome State Fault Refusal :=
  if s.fn (P.GROVE g.val) = fnReady then
    let tau := (s.grove g.val).scrubTau
    let b := tau % 256
    let row := tau / 256 % 32768
    let s := (s.scrubBank g.val b row obs0).scrubBank g.val (b + 256) row obs1
    let s := s.setGrove g.val { s.grove g.val with scrubTau := tau + 1 }
    .next (if (tau + 1) % 8388608 = 0 then s.bumpW (Reg.GSRAM_SCRUB_PASS g.val) 1 else s)
  else .next s

/-! ## Grove DMA (R145 to R147) -/

/-- The fields of a descriptor (Table 6.2). -/
def descField (d : BitVec 256) (word lo w : Nat) : Nat := d.toNat / 2 ^ (32 * word + lo) % 2 ^ w

/-- A valid descriptor (Table 6.2): no reserved value or field, LEN and RATE in range. -/
def descOk (d : BitVec 256) : Bool :=
  let kind := descField d 0 0 4
  let rate := descField d 0 4 3
  decide (kind ≤ 3) && decide (1 ≤ rate) && decide (rate ≤ 5) && (decide (kind ≠ 3) || decide (rate = 1))
    && decide (descField d 0 7 1 = 0) && decide (descField d 0 12 4 = 0)
    && (decide (kind = 3) || (decide (descField d 0 8 3 = 0) && decide (descField d 0 11 1 = 0)))
    && (decide (kind ≠ 3) || decide (descField d 0 16 16 < 2048))
    && (decide (kind ≠ 2) || decide (descField d 1 0 24 = 0))
    && (decide (kind = 0) || decide (kind = 2) || decide (descField d 2 0 24 = 0))
    && decide (descField d 1 24 8 = 0) && decide (descField d 2 24 8 = 0) && decide (d.toNat / 2 ^ 96 = 0)

/-- Channel state. -/
def State.chan (s : State) (g ch : Nat) : DmaCh := aget {} (s.grove g).chans ch
def State.setChan (s : State) (g ch : Nat) (c : DmaCh) : State :=
  s.setGrove g { s.grove g with chans := aset {} (s.grove g).chans ch c }

/-- Lines remaining in a channel's descriptor (Table 6.8). -/
def chRemaining (g ch : Nat) : Fld := ⟨Reg.GDMA_CH_STATE g ch, 16, 16⟩

/-- Reads `n` lines of a grove from line `a` for the stand's schedule. -/
def State.readLines (s : State) (g a : Nat) : Nat → State × List Line
  | 0 => (s, [])
  | n + 1 =>
    let r := s.groveSchedRead g a none
    let q := r.1.readLines g (a + 1) n
    (q.1, r.2 :: q.2)

/-- Writes lines of a grove from line `a` for the stand's schedule. -/
def State.writeLines (s : State) (g a : Nat) : List Line → State
  | [] => s
  | v :: vs => (s.groveWrite g a v).writeLines g (a + 1) vs

/-- Lines waiting in a channel's inbound buffer go to a running PORT→SRAM descriptor, in order (Table 6.4, KIND 2). -/
def State.dmaTakeIn (s : State) (g ch : Nat) : State :=
  let c := s.chan g ch
  match c.run with
  | none => s
  | some r =>
    if r.kind = 2 then
      let take := c.inbuf.take (r.len - r.moved)
      let s := s.writeLines g (r.dst + r.moved) take
      let m := r.moved + take.length
      let s := s.setChan g ch { c with run := some { r with moved := m }, inbuf := c.inbuf.drop take.length }
      s.put (chRemaining g ch) (min (r.len - m) 0xFFFF)
    else s

/-- Descriptor `desc` of channel `ch` starts (R145, R146): the source lines are read, SRAM→PORT lines enter the outbound
buffer. A busy channel, which the loader refuses, starts nothing. -/
def State.dmaStart (s : State) (g ch desc : Nat) (sched : Bool) (byEng : Option Nat) : State :=
  let c := s.chan g ch
  match c.run with
  | some _ => s
  | none =>
    let d := aget 0 (s.grove g).descs (256 * ch + desc)
    let kind := descField d 0 0 4
    let len := descField d 0 16 16 + 1
    let src := descField d 1 0 24
    let q := if kind = 2 then (s, []) else s.readLines g src len
    let s := q.1
    let r : DmaRun := { desc := desc, kind := kind, rate := descField d 0 4 3, eng := descField d 0 8 3, half := descField d 0 11 1,
                        len := len, src := src, dst := descField d 2 0 24, sched := sched, byEng := byEng, lines := q.2, moved := 0 }
    let s := s.setChan g ch { c with run := some r, outbuf := if kind = 1 then c.outbuf ++ q.2 else c.outbuf }
    let s := (s.bumpW (Reg.GDMA_STARTS g) 1).putB ⟨Reg.GDMA_BUSY g, ch, 1⟩ true
    let s := s.wr (Reg.GDMA_CH_STATE g ch) (BitVec.ofNat 32 (desc % 256 + 256 + (if sched then 512 else 0) + 65536 * min len 0xFFFF))
    s.dmaTakeIn g ch

/-- A scheduled grove DMA start, at its tick of the executing step (R145). -/
def execDmaSchedStart (g ch : Fin 16) (desc : BitVec 8) (s : State) : Host.Outcome State Fault Refusal :=
  if s.stepActive then .next (s.dmaStart g.val ch.val desc.toNat true none) else .next s

/-- What the codes found in the lines read: corrections are counted, an uncorrectable line is delivered as read (R129 to R131). -/
def State.dmaObs (s : State) (g : Nat) (r : DmaRun) : List (Nat × LineObs) → State × List Line
  | [] => (s, r.lines)
  | (i, o) :: os =>
    let q := s.dmaObs g r os
    let x := q.1.grove g
    let n := stepReadLine 1 x.wins x.sel x.dirty (r.src + i)
    let d := decodeLine 8 false (r.lines.getD i 0) (some o)
    let s := q.1.sramCorrected g (n % 512) d
    (if d.bad then s.sramUncorr g n .sched else s, q.2.set i d.v)

/-- The two bundles of a line (R146, KIND 3). -/
def lineBundles (v : Line) : BitVec 256 × BitVec 256 := (v.extractLsb' 0 256, v.extractLsb' 256 256)

/-- Writes a segment's lines into a bundle memory half. -/
def loadSegment (m : AMap (BitVec 256)) (base : Nat) : List Line → AMap (BitVec 256)
  | [] => m
  | v :: vs => loadSegment (aset 0 (aset 0 m base (lineBundles v).1) (base + 1) (lineBundles v).2) (base + 2) vs

/-- A descriptor completes (R146): its last line is visible, or the crossbar has taken its last line. -/
def execDmaComplete (g ch : Fin 16) (obs : List (Nat × LineObs)) (s : State) : Host.Outcome State Fault Refusal :=
  let gi := g.val
  let ci := ch.val
  let c := s.chan gi ci
  match c.run with
  | none => .next s
  | some r =>
    if (r.kind = 1 ∧ !c.outbuf.isEmpty) ∨ (r.kind = 2 ∧ r.moved < r.len) then .next s
    else
      let q := if r.kind = 2 then (s, []) else s.dmaObs gi r obs
      let s := q.1
      let s := if r.kind = 0 then s.writeLines gi r.dst q.2
        else if r.kind = 3 then
          match s.physOf gi r.eng with
          | some p => s.setEng (16 * gi + p) { s.eng (16 * gi + p) with bundles := loadSegment (s.eng (16 * gi + p)).bundles (4096 * r.half) q.2 }
          | none => s
        else s
      let s := s.setChan gi ci { s.chan gi ci with run := none }
      let s := (s.putB ⟨Reg.GDMA_BUSY gi, ci, 1⟩ false).putB (F.GDMA_CH_STATE_BUSY gi ci) false
      .next ((s.put (chRemaining gi ci) 0).bump64 (Reg.GDMA_LINES_LO gi) r.len)

/-! ## Fold (R143) -/

/-- The grove's fold completes: FOLD_BUSY clears, MEM.FOLD_DONE. -/
def execFoldDone (g : Fin 16) (s : State) : Host.Outcome State Fault Refusal :=
  if s.flag (F.GWIN_STATUS_FOLD_BUSY g.val) then
    .next ((s.groveFold g.val).raise (P.GWIN g.val) B.GWIN_FOLD_DONE Evn.MEM_FOLD_DONE).unloadEnd
  else .next s

end Sys2Proof.Machine
end

