-- ==== Sys2Proof/Machine/Flags.lean ====
section
/-! DEFINITION. Flag computations (R72, R77 to R80): an MMA contribution with the buffer flags it sets, and a value
converted to an output format with OUT_SAT and OUT_NAN. -/

namespace Sys2Proof.Machine

/-! ## Buffer flags (R77): STICKY_LO, WIN_OVF, SPEC_IN, TERN_BAD in bits 0 to 3 -/

abbrev flagSticky : BitVec 4 := 1
abbrev flagWinOvf : BitVec 4 := 2
abbrev flagSpecIn : BitVec 4 := 4
abbrev flagTernBad : BitVec 4 := 8

/-- The value of an element times its block scale (R69): NaN when the scale is 0xFF. -/
def scaled (v : Val) (scale : Nat) : Val := mulVal v (decodeScale scale)

/-- The contribution of a product p under window exponent WE, and the flags it sets (R72). -/
def contribution (we : BitVec 16) (p : Val) : Long × BitVec 4 :=
  match p with
  | .nan => (longNaN, flagSpecIn)
  | .inf s => (longSat s, flagSpecIn)
  | .fin s m e =>
    let sh := e - we.toInt
    let q := if 0 ≤ sh then m * 2 ^ sh.toNat else m / 2 ^ (-sh).toNat
    if 2 ^ 108 ≤ q then (longSat s, flagWinOvf)
    else
      let exact := decide (0 ≤ sh) || decide (m % 2 ^ (-sh).toNat = 0)
      (BitVec.ofInt 128 (if s then -(q : Int) else q), if exact then 0 else flagSticky)

/-! ## Output conversion (R78 to R80, Table 4.5) -/

/-- A converted element: its code, OUT_SAT, OUT_NAN, and whether it makes its block NaN (R80). -/
structure OutElem where
  code     : Nat
  sat      : Bool
  nan      : Bool
  blockNan : Bool
  deriving DecidableEq, Repr

/-- A sign placed above a magnitude code of a layout. -/
def signCode (f : FloatFmt) (neg : Bool) (c : Nat) : Nat := (if neg then 2 ^ (f.eb + f.mb) else 0) + c

/-- A value converted to a floating-point format; `.inf` stands for ±SAT and for ±infinity of an F32 cell (Table 4.5). -/
def convFloat (f : FloatFmt) (rm r : Nat) : Val → OutElem
  | .nan =>
    if f.sp = .none then { code := 0, sat := false, nan := true, blockNan := true }
    else { code := f.nanCode, sat := false, nan := false, blockNan := false }
  | .inf s =>
    let c := if f.sp = .ieee then f.maxCode + 1 else f.maxCode
    { code := signCode f s c, sat := false, nan := false, blockNan := false }
  | .fin s m e =>
    if m = 0 then { code := 0, sat := false, nan := false, blockNan := false }
    else
      let c := roundMag f.mb (1 - (f.bias : Int)) rm r m e
      if f.maxCode < c then
        if f.sp = .ieee ∧ rm ≠ 1 then { code := signCode f s (f.maxCode + 1), sat := false, nan := false, blockNan := false }
        else { code := signCode f s f.maxCode, sat := true, nan := false, blockNan := false }
      else { code := signCode f s c, sat := false, nan := false, blockNan := false }

/-- A w-bit two's-complement code of a sign and a magnitude. -/
def intCode (w : Nat) (neg : Bool) (n : Nat) : Nat := if neg ∧ n ≠ 0 then 2 ^ w - n else n

/-- A value converted to a w-bit integer (Table 4.5). -/
def convInt (w rm r : Nat) : Val → OutElem
  | .nan => { code := 0, sat := false, nan := true, blockNan := false }
  | .inf s => { code := intCode w s (if s then 2 ^ (w - 1) else 2 ^ (w - 1) - 1), sat := false, nan := false, blockNan := false }
  | .fin s m e =>
    let n := roundShift rm r m e
    let lim := if s then 2 ^ (w - 1) else 2 ^ (w - 1) - 1
    if lim < n then { code := intCode w s lim, sat := true, nan := false, blockNan := false }
    else { code := intCode w s n, sat := false, nan := false, blockNan := false }

/-- A value converted to a DRAIN or VCVTN output format (0x0–0x9). -/
def convElem (fmt rm r : Nat) (v : Val) : OutElem :=
  match floatFmt fmt with
  | some f => convFloat f rm r v
  | none => convInt (fmtWidth fmt) rm r v

/-- emax of R80. -/
def emaxOf : Nat → Int
  | 3 => 8 | 4 => 15 | 5 => 4 | _ => 2

/-- ⌊log2⌋ of the largest magnitude among the nonzero normal values; none where there is none. -/
def maxLog2 : List Val → Option Int
  | [] => none
  | .fin _ m e :: vs =>
    let rest := maxLog2 vs
    if m = 0 then rest
    else match rest with
      | none => some (floorLog2 m e)
      | some k => some (max (floorLog2 m e) k)
  | _ :: vs => maxLog2 vs

/-- The shift that BLOCKMAX chooses for a block (R80). -/
def blockShift (fmt : Nat) (vs : List Val) : Int :=
  match maxLog2 vs with
  | none => 0
  | some k => max (-127) (min 127 (k - emaxOf fmt))

/-- The scale code of a shift: 0xFF when the block reads as NaN (R80). -/
def shiftCode (os : Int) (blockNan : Bool) : Nat := if blockNan then 255 else (os + 127).toNat

/-- Whether a NaN element makes its block NaN in this format (R80). -/
def nanBlocks (fmt : Nat) (vs : List Val) : Bool :=
  (decide (fmt = fmtE3M2) || decide (fmt = fmtE2M3) || decide (fmt = fmtE2M1)) && vs.any (fun v => v == .nan)

/-- The value scaled by 2^(−os). -/
def shiftVal (os : Int) : Val → Val
  | .fin s m e => .fin s m (e - os)
  | v => v

end Sys2Proof.Machine
end

