-- ==== Sys2Proof/Machine/VecFn.lean ====
section
/-! DEFINITION. The correctly rounded vector functions (R86, Table 4.6) and the vector conversions (R111, Table 5.9). -/

namespace Sys2Proof.Machine

/-! ## EXP2 and LOG2

The exact value is bracketed in fixed point; when both ends of the bracket round to the same word, that word is the
correctly rounded result. Outside the special cases of Table 4.6 and the exact powers of two the exact value is
irrational, so a bracket narrow enough decides the rounding. -/

/-- Fraction bits of the fixed-point brackets. -/
abbrev fxBits : Nat := 256

/-- Half width of a bracket, in units of 2^(−fxBits): above the sum of the truncations made below. -/
abbrev fxErr : Nat := 4096

/-- Σ z^(2i+1) / (2i+1) of a fixed-point z, for i from `i`, `n` terms, given the power p = z^(2i+1). -/
def atanhSum (z2 : Nat) : Nat → Nat → Nat → Nat
  | 0, _, _ => 0
  | n + 1, i, p => p / (2 * i + 1) + atanhSum z2 n (i + 1) (p * z2 / 2 ^ fxBits)

/-- ln (a / b) for b ≤ a ≤ 2 b, in fixed point: 2 atanh ((a − b) / (a + b)). -/
def lnRatio (a b : Nat) : Nat :=
  let z := (a - b) * 2 ^ fxBits / (a + b)
  2 * atanhSum (z * z / 2 ^ fxBits) 100 0 z

/-- ln 2 in fixed point. -/
def ln2Fx : Nat := lnRatio 2 1

/-- Σ t^i / i! from the term `p` at index `i`, `n` terms. -/
def expSum (t : Nat) : Nat → Nat → Nat → Nat
  | 0, _, _ => 0
  | n + 1, i, p => p + expSum t n (i + 1) (p * t / 2 ^ fxBits / (i + 1))

/-- 2^f in fixed point, for f in [0, 1) given as n / 2^k. -/
def exp2Fx (n k : Nat) : Nat := expSum (n * ln2Fx / 2 ^ k) 80 0 (2 ^ fxBits)

/-- The word that a bracket of a magnitude rounds to: the lower end's, which is the upper end's too where the bracket decides. -/
def roundBracket (neg : Bool) (v : Nat) (e : Int) : Word :=
  let lo := roundF32 0 0 neg (v - fxErr) e
  let hi := roundF32 0 0 neg (v + fxErr) e
  if lo = hi then lo else roundF32 0 0 neg v e

/-- EXP2 (Table 4.6). -/
def exp2F32 (x : Word) : Word :=
  match valF32 x with
  | .nan => nanF32
  | .inf s => if s then 0 else infF32 false
  | .fin s m e =>
    if m = 0 then 0x3F800000
    else if floorLog2 m e < -30 then 0x3F800000
    else if 8 ≤ floorLog2 m e then (if s then 0 else infF32 false)
    else
      -- |x| = m × 2^e < 256, as an integer part and a fraction over 2^k
      let k := (-e).toNat
      let mm := if 0 ≤ e then m * 2 ^ e.toNat else m
      let ip : Int := (mm / 2 ^ k : Nat)
      let fp := mm % 2 ^ k
      let i : Int := if s then (if fp = 0 then -ip else -ip - 1) else ip
      let f := if s ∧ fp ≠ 0 then 2 ^ k - fp else fp
      if f = 0 then roundF32 0 0 false 1 i
      else roundBracket false (exp2Fx f k) (i - fxBits)

/-- LOG2 (Table 4.6). -/
def log2F32 (x : Word) : Word :=
  match valF32 x with
  | .nan => nanF32
  | .inf s => if s then nanF32 else infF32 false
  | .fin s m e =>
    if m = 0 then infF32 true
    else if s then nanF32
    else
      let l := Nat.log2 m
      let i : Int := e + l
      if m = 2 ^ l then (if i = 0 then 0 else roundF32 0 0 (decide (i < 0)) i.natAbs 0)
      else
        -- log2 x = i + log2 (m / 2^l)
        let f : Int := (lnRatio m (2 ^ l) * 2 ^ fxBits / ln2Fx : Nat)
        let v := i * 2 ^ fxBits + f
        roundBracket (decide (v < 0)) v.natAbs (-(fxBits : Int))

/-! ## RCP and RSQRT: exact quotient and root with a sticky bit -/

/-- RCP (Table 4.6). -/
def rcpF32 (x : Word) : Word :=
  match valF32 x with
  | .nan => nanF32
  | .inf s => zeroF32 s
  | .fin s m e =>
    if m = 0 then infF32 s
    else
      let q := 2 ^ 64 / m
      let st := if 2 ^ 64 % m = 0 then 0 else 1
      roundF32 0 0 s (2 * q + st) (-e - 65)

/-- The integer square root of n, by bits from 2^(k − 1) down. -/
def isqrt (n : Nat) : Nat → Nat → Nat
  | 0, r => r
  | k + 1, r => isqrt n k (if (r + 2 ^ k) * (r + 2 ^ k) ≤ n then r + 2 ^ k else r)

/-- RSQRT (Table 4.6). -/
def rsqrtF32 (x : Word) : Word :=
  match valF32 x with
  | .nan => nanF32
  | .inf s => if s then nanF32 else 0
  | .fin s m e =>
    if m = 0 then infF32 s
    else if s then nanF32
    else
      -- 1 / √(m 2^e) = √(2^p / m) × 2^(−(e + p) / 2), p chosen so that e + p is even
      let p : Nat := if e % 2 = 0 then 128 else 129
      let q := isqrt (2 ^ p / m) 66 0
      let st := if q * q * m = 2 ^ p then 0 else 1
      roundF32 0 0 false (2 * q + st) (-((e + (p : Int)) / 2) - 1)

/-! ## Conversions (Table 5.9, R111) -/

/-- VFTOI: saturates, NaN gives 0. -/
def ftoi (rm r : Nat) (x : Word) : Word :=
  match valF32 x with
  | .nan => 0
  | .inf s => if s then 0x80000000 else 0x7FFFFFFF
  | .fin s m e =>
    let n := roundShift rm r m e
    if s then (if 2 ^ 31 ≤ n then 0x80000000 else BitVec.ofInt 32 (-(n : Int)))
    else (if 2 ^ 31 ≤ n then 0x7FFFFFFF else BitVec.ofNat 32 n)

/-- VITOF. -/
def itof (rm r : Nat) (x : Word) : Word :=
  let i := x.toInt
  if i = 0 then 0 else roundF32 rm r (decide (i < 0)) i.natAbs 0

/-- A register's 1,024 bytes as one little-endian number (R111). -/
def vregNat (v : List Word) : Nat := v.foldr (fun w a => w.toNat + 2 ^ 32 * a) 0

/-- 256 lanes of a little-endian number. -/
def natVreg (n : Nat) : List Word := (List.range 256).map (fun i => BitVec.ofNat 32 (n / 2 ^ (32 * i)))

/-- Element k of a packed stream of w-bit elements (R68). -/
def elemAt (w n k : Nat) : Nat := n / 2 ^ (w * k) % 2 ^ w

/-- A packed stream of w-bit elements (R68). -/
def packElems (w : Nat) (cs : List Nat) : Nat := cs.foldr (fun c a => c + 2 ^ w * a) 0

/-- Bits [7:0] of lane j of a register. -/
def laneScale (v : List Word) (j : Nat) : Nat := (v.getD j 0).toNat % 256

/-- A value converted to FP32 by RM with an exact zero giving +0 (R78). -/
def cvtF32 (rm r : Nat) : Val → Word
  | .fin s m e => if m = 0 then 0 else roundF32 rm r s m e
  | v => toF32 v

/-- VCVTF: `r i` is the random number of lane i. -/
def vcvtf (fmt rm : Nat) (r : Nat → Nat) (a b : List Word) : List Word :=
  let n := vregNat a
  (List.range 256).map (fun i =>
    let v := decodeElem fmt (elemAt (fmtWidth fmt) n i)
    cvtF32 rm (r i) (if fmt ≤ 2 ∨ fmt = fmtE8M0 then v else scaled v (laneScale b (i / 32))))

/-- The E8M0 code that VCVTN writes for a lane (R111). -/
def scaleOfF32 (x : Word) : Nat :=
  match valF32 x with
  | .fin false m e => if m = 0 then 255 else (max 0 (min 254 (floorLog2 m e + 127))).toNat
  | .inf false => 254
  | _ => 255

/-- 1 / the block scale of code s: NaN when the code is NaN (R65). -/
def unscaled (v : Val) (s : Nat) : Val := if s = 255 then .nan else shiftVal ((s : Int) - 127) v

/-- VCVTN. -/
def vcvtn (fmt rm : Nat) (r : Nat → Nat) (a b : List Word) : List Word :=
  let codes := (List.range 256).map (fun i =>
    let x := a.getD i 0
    if fmt = fmtE8M0 then scaleOfF32 x
    else (convElem fmt rm (r i) (if fmt ≤ 2 then valF32 x else unscaled (valF32 x) (laneScale b (i / 32)))).code)
  natVreg (packElems (fmtWidth fmt) codes)

/-- VBMAX. -/
def vbmax (fmt : Nat) (a : List Word) : List Word :=
  (List.range 256).map (fun j =>
    if j < 8 then
      let vs := ((a.drop (32 * j)).take 32).map valF32
      BitVec.ofNat 32 (shiftCode (blockShift fmt vs) (nanBlocks fmt vs))
    else 0)

end Sys2Proof.Machine
end

