-- ==== Sys2Proof/Machine/Operands.lean ====
section
/-! DEFINITION. Operand forms of the engine (R90, R103 to R108, R111, R113): operand-store addresses, registers, packed rows,
weight tiles, accumulator rows, and the writes an engine's operations make visible. -/

namespace Sys2Proof.Machine

/-! ## Registers and the operand store -/

/-- A line of the operand store. -/
def EngineSt.ln (x : EngineSt) (n : Nat) : Line := aget 0 x.store (n % 32768)

/-- The operand store with a line set. -/
def EngineSt.setLn (x : EngineSt) (n : Nat) (v : Line) : EngineSt := { x with store := aset 0 x.store (n % 32768) v }

/-- Index register XSEL; 0 selects no index (Table 5.1). -/
def EngineSt.x (x : EngineSt) (sel : Nat) : Nat := if sel = 0 then 0 else (aget 0 x.xregs sel).toNat

/-- OSA' of line 0: (OSA + X[XSEL]) modulo 32,768 (R103). -/
def EngineSt.osa (x : EngineSt) (xsel : BitVec 3) (osa : BitVec 15) : Nat := (osa.toNat + x.x xsel.toNat) % 32768

/-- The 256 lanes of a vector register. -/
def EngineSt.v (x : EngineSt) (r : Nat) : List Word := (List.range 256).map (fun i => (aget [] x.vregs r).getD i 0)

/-- A lane of a vector register. -/
def EngineSt.lane (x : EngineSt) (r i : Nat) : Word := (aget [] x.vregs r).getD i 0

/-- An address register. -/
def EngineSt.a (x : EngineSt) (r : Nat) : Word := aget 0 x.aregs r

/-- One of the accumulator buffers, and its setting. -/
def EngineSt.buf (x : EngineSt) (b : Bool) : AccBuf := if b then x.buf1 else x.buf0
def EngineSt.setBuf (x : EngineSt) (b : Bool) (v : AccBuf) : EngineSt := if b then { x with buf1 := v } else { x with buf0 := v }

/-- One of the weight banks. -/
def EngineSt.bank (x : EngineSt) (b : Bool) : WBank := if b then x.w1 else x.w0

/-- An accumulator cell. -/
def AccBuf.cell (b : AccBuf) (row col : Nat) : Long := aget 0 b.cells (128 * row + col)

/-! ## Rows and tiles (R104, R105) -/

/-- Two consecutive lines as one little-endian number. -/
def EngineSt.pairNat (x : EngineSt) (n : Nat) : Nat := (x.ln n).toNat + 2 ^ 512 * (x.ln (n + 1)).toNat

/-- `k` element codes of format `fmt` packed in the two lines at `n`. -/
def EngineSt.rowElems (x : EngineSt) (fmt n k : Nat) : List Nat :=
  let v := x.pairNat n
  (List.range k).map (fun i => elemAt (fmtWidth fmt) v i)

/-- The `kb` scale bytes of row r: at byte 8·(r mod 8) of a line. -/
def scaleBytes (v : Line) (r kb : Nat) : List Nat := (List.range kb).map (fun j => v.toNat / 2 ^ (8 * (8 * (r % 8) + j)) % 256)

/-- A weight tile from its 272 lines (R104). -/
def tileOf (fmt kb : Nat) (lines : List Line) : List (List Nat) × List (List Nat) :=
  let ln := fun n => lines.getD n 0
  ((List.range 128).map (fun n =>
      let v := (ln (2 * n)).toNat + 2 ^ 512 * (ln (2 * n + 1)).toNat
      (List.range (32 * kb)).map (fun i => elemAt (fmtWidth fmt) v i)),
   (List.range 128).map (fun n => scaleBytes (ln (256 + n / 8)) n kb))

/-! ## Products (R72, R83, R105) -/

/-- One operand, block-scaled in formats 0x3–0xA (R69), and whether it is the TERNARY code 10 (R67). -/
def operand (fmt : Nat) (scales : List Nat) (k code : Nat) : Val × Bool :=
  (if fmt ≤ 2 then decodeElem fmt code else scaled (decodeElem fmt code) (scales.getD (k / 32) 0x7F),
   decide (fmt = fmtTERNARY) && decide (code = 2))

/-- Scaled operands of a row or column. -/
def operands (fmt : Nat) (scales codes : List Nat) : List (Val × Bool) := codes.zipIdx.map (fun c => operand fmt scales c.2 c.1)

/-- Contributions of one cell in a LONG buffer with the flags they set (R72, R67). -/
def longCell (we : BitVec 16) (a w : List (Val × Bool)) : List Long × BitVec 4 :=
  (a.zip w).foldr (fun p acc =>
    let c := contribution we (mulVal p.1.1 p.2.1)
    (c.1 :: acc.1, acc.2 ||| c.2 ||| (if p.1.2 || p.2.2 then flagTernBad else 0))) ([], 0)

/-- Block totals of one cell in an F32 buffer: products rounded to FP32, summed in the fixed tree per 32 elements (R83). -/
def f32Blocks (kb : Nat) (a w : List (Val × Bool)) : List Long :=
  let ps := (a.zip w).map (fun p => toF32 (mulVal p.1.1 p.2.1))
  (List.range kb).map (fun j => ((treeF32 addF32 5 ((ps.drop (32 * j)).take 32)).headD 0).setWidth 128)

/-- SPEC_IN of one cell in an F32 buffer: some product is NaN or infinite (R72, R83). -/
def f32Spec (a w : List (Val × Bool)) : BitVec 4 :=
  if (a.zip w).any (fun p => match mulVal p.1.1 p.2.1 with
    | .fin _ _ _ => false
    | _ => true) then flagSpecIn else 0

/-- Contributions and flags of every column of one activation row (R105). -/
def mmaRowCols (afmt : Nat) (f32 : Bool) (kb : Nat) (we : BitVec 16) (codes scales : List Nat) (w : WBank) : List (List Long × BitVec 4) :=
  let a := operands afmt scales codes
  (w.elems.zip w.scales).map (fun c =>
    let b := operands w.fmt c.2 c.1
    if f32 then (f32Blocks kb a b, f32Spec a b) else longCell we a b)

/-! ## Accumulator writes (R73, R83, R106) -/

/-- A cell after its contributions: cleared first where the operation replaces it. -/
def accCell (f32 clr : Bool) (c : Long) (xs : List Long) : Long × Bool :=
  if f32 then
    match clr, xs with
    | true, t :: ts => (ts.foldl (fun a x => (addF32 (a.setWidth 32) (x.setWidth 32)).setWidth 128) t, false)
    | true, [] => (0, false)
    | false, _ => (xs.foldl (fun a x => (addF32 (a.setWidth 32) (x.setWidth 32)).setWidth 128) c, false)
  else longSum (if clr then 0 else c) xs

/-- Contributions to the columns of a row from column `col` on. -/
def accCols (f32 clr : Bool) (row : Nat) (cells : AMap Long) (col : Nat) : List (List Long) → AMap Long × Bool
  | [] => (cells, false)
  | xs :: rest =>
    let k := 128 * row + col
    let r := accCell f32 clr (aget 0 cells k) xs
    let q := accCols f32 clr row (aset 0 cells k r.1) (col + 1) rest
    (q.1, r.2 || q.2)

/-- An accumulator write: on the first row of an operation that replaces cells, the buffer's WE and MODE are set, and an MMA's
clears the buffer's flags (R77, R106, R108). -/
def AccBuf.write (b : AccBuf) (row col : Nat) (head clr f32 : Bool) (we : BitVec 16) (flags : Option (BitVec 4)) (cols : List (List Long)) :
    AccBuf × Bool :=
  let b := if head && clr then
      let b := { b with we := we, f32 := f32 }
      (match flags with
      | some _ => { b with flags := 0 }
      | none => b)
    else b
  let r := accCols b.f32 clr row b.cells col cols
  ({ b with cells := r.1, flags := b.flags ||| flags.getD 0 }, r.2)

/-! ## Draining a row (R77 to R80, R107) -/

/-- The value of a cell: NaN, ±SAT or ±infinity, or exact (R107). -/
def cellVal (b : AccBuf) (c : Long) : Val :=
  if b.f32 then valF32 (c.setWidth 32)
  else if c = longNaN then .nan
  else if c = longPosSat then .inf false
  else if c = longNegSat then .inf true
  else .fin (decide (c.toInt < 0)) c.toInt.natAbs b.we.toInt

/-- A drained row: element codes, scale codes of its four blocks, OUT_SAT and OUT_NAN. -/
structure DrainRow where
  codes  : List Nat
  scales : List Nat
  sat    : Bool
  nan    : Bool
  deriving DecidableEq, Repr

/-- One block of 32 columns; `rnd` gives the random number of a column. -/
def drainBlock (fmt rm smode : Nat) (os : BitVec 8) (rnd : Nat → Nat) (vs : List (Nat × Val)) : DrainRow :=
  let sh := if smode = 1 then blockShift fmt (vs.map (·.2)) else os.toInt
  let es := vs.map (fun v => convElem fmt rm (rnd v.1) (shiftVal sh v.2))
  { codes := es.map (·.code), scales := [shiftCode sh (es.any (·.blockNan))], sat := es.any (·.sat), nan := es.any (·.nan) }

/-- The 128 cells of a row drained. -/
def drainRow (b : AccBuf) (row fmt rm smode : Nat) (os : BitVec 8) (rnd : Nat → Nat) : DrainRow :=
  let vs := (List.range 128).map (fun c => (c, cellVal b (b.cell row c)))
  let bl := (List.range 4).map (fun j => drainBlock fmt rm smode os rnd ((vs.drop (32 * j)).take 32))
  { codes := bl.flatMap (·.codes), scales := bl.flatMap (·.scales), sat := bl.any (·.sat), nan := bl.any (·.nan) }

/-- Row stride of an output format in lines (R107). -/
def rowStride (fmt : Nat) : Nat := if fmt = 0 then 8 else if fmt ≤ 2 then 4 else 2

/-- The bytes of a little-endian number cut into lines from line `n`: whole lines, then the bytes left. -/
def lineWrites (n : Nat) : Nat → List Byte → List WriteOp
  | 0, _ => []
  | k + 1, bs =>
    if bs.isEmpty then []
    else if bs.length < 64 then [.storeBytes (n % 32768) 0 bs]
    else .store (n % 32768) (lineOf (bs.take 64)) :: lineWrites (n + 1) k (bs.drop 64)

/-- The operand-store writes of a drained row: its packed codes at row stride S, and its four scale bytes and four zeros (R107). -/
def drainWrites (r rows fmt osa : Nat) (d : DrainRow) : List WriteOp :=
  let w := fmtWidth fmt
  let s := rowStride fmt
  let el := lineWrites (osa + s * r) 9 (leBytes (16 * w) (packElems w d.codes))
  if fmt ≤ 2 then el
  else el ++ [.storeBytes ((osa + s * rows + r / 8) % 32768) (8 * (r % 8))
                (d.scales.map (fun c => BitVec.ofNat 8 c) ++ List.replicate 4 0)]

/-- The 16 lines of half h of a raw row: 64 cells of 128 bits, R76. -/
def rawWrites (b : AccBuf) (row r h osa : Nat) : List WriteOp :=
  (List.range 16).map (fun j =>
    .store ((osa + 32 * r + 16 * h + j) % 32768)
      (BitVec.ofNat 512 ((List.range 4).foldl (fun a k =>
        let c := b.cell row (64 * h + 4 * j + k)
        a + (if b.f32 then c.toNat % 2 ^ 32 else c.toNat) * 2 ^ (128 * k)) 0)))

/-- The 64 long values of half h of a row of long values at `osa` (R76, R108). -/
def EngineSt.longHalf (x : EngineSt) (osa r h : Nat) : List (List Long) :=
  (List.range 64).map (fun i => [((x.ln (osa + 32 * r + 16 * h + i / 4)) >>> (128 * (i % 4))).setWidth 128])

/-! ## Bytes of a line -/

/-- A line with bytes from `lo` replaced. -/
def setLineBytes (v : Line) (lo : Nat) (bs : List Byte) : Line :=
  let n := 8 * bs.length
  BitVec.ofNat 512 (v.toNat % 2 ^ (8 * lo) + leValue bs * 2 ^ (8 * lo) + v.toNat / 2 ^ (8 * lo + n) * 2 ^ (8 * lo + n))

end Sys2Proof.Machine
end

