-- ==== Sys2Proof/Machine/EngineOps.lean ====
section
/-! DEFINITION. What an engine does over time (R91 to R117): its reads and writes at their ticks, the end of a bundle, and the
issue of an operation. -/

namespace Sys2Proof.Machine

/-- A write becomes visible in the engine itself; the Bool is LONG_OVF (R73). -/
def EngineSt.applyWrite (x : EngineSt) : WriteOp → EngineSt × Bool
  | .store n v => (x.setLn n v, false)
  | .storeBytes n lo bs => (x.setLn n (setLineBytes (x.ln n) lo bs), false)
  | .vreg r v => ({ x with vregs := aset [] x.vregs r v }, false)
  | .areg r v => ({ x with aregs := aset 0 x.aregs r v }, false)
  | .acc buf row col head clr f32 we flags cols =>
    if x.stopBuf.contains buf then (x, false)
    else
      let r := (x.buf buf).write row col head clr f32 we flags cols
      (x.setBuf buf r.1, r.2)
  | .residue buf => ({ x with stopBuf := buf :: x.stopBuf }, false)
  | .weights wsel fmt kb elems scales =>
    let b : WBank := { filled := true, fmt := fmt, kb := kb, elems := elems, scales := scales }
    (if wsel then { x with w1 := b } else { x with w0 := b }, false)
  | .sendq q v => ({ x with sendq := aset [] x.sendq q (aget [] x.sendq q ++ [v]) }, false)
  | .gather ls => (ls.foldl (fun x l => x.setLn l.1 l.2) x, false)
  | .sram _ _ => (x, false)
  | .scatter _ => (x, false)
  | .dmaStart _ _ => (x, false)

/-- A write becomes visible (R95): in the grove's SRAM, as a descriptor's start, or in the engine. -/
def State.applyWrite (s : State) (i : Nat) (op : WriteOp) : State × Bool :=
  match op with
  | .sram n v => (s.groveWrite (i / 16) n v, false)
  | .scatter ls => (ls.foldl (fun s l => s.groveWrite (i / 16) l.1 l.2) s, false)
  | .dmaStart ch desc => (s.dmaStart (i / 16) ch.toNat desc.toNat false (some i), false)
  | _ =>
    let r := (s.eng i).applyWrite op
    (s.setEng i r.1, r.2)

/-- Applies writes in order; whether any overflowed. -/
def State.applyWrites (s : State) (i : Nat) : List WriteOp → State × Bool
  | [] => (s, false)
  | w :: ws =>
    let r := s.applyWrite i w
    let q := r.1.applyWrites i ws
    (q.1, r.2 || q.2)

/-- Writes of one tick: residue marks and replacing contributions first, so that all contributions of the tick are long-added
together (R95, R88). -/
def orderWrites (ws : List WriteOp) : List WriteOp :=
  let first := fun (w : WriteOp) => match w with
    | .residue _ => true
    | .acc _ _ _ _ clr _ _ _ _ => clr
    | _ => false
  ws.filter first ++ ws.filter (fun w => !first w)

/-- Stand-global logical engine number (R81). -/
def State.lei (s : State) (a : Eng) : Nat := 128 * s.get F.STAND_MEMBERSHIP_MEMBER + 8 * a.g.val + a.e.val

/-- The logical engine that physical engine i serves, from its MAP register. -/
def State.leiOf (s : State) (i : Nat) : Nat :=
  128 * s.get F.STAND_MEMBERSHIP_MEMBER + 8 * (i / 16) + s.get (F.ENGINE_MAP_LOGICAL (i / 16) (i % 16))

/-- bidx of R81 for a bundle count. -/
def State.bidx (s : State) (count : Word) : Dword := (s.rd Reg.STAND_CUR_STEP_LO) ++ count

/-- sr_rand for an element of engine i's operation. -/
def State.rand (s : State) (i : Nat) (bidx : Dword) (eidx : Nat) : Nat :=
  srRand (s.rd64 Reg.STAND_SEED_LO) (s.leiOf i) bidx eidx

/-- Adds writes due at a tick. -/
def EngineSt.due (x : EngineSt) (t : Nat) (ws : List WriteOp) : EngineSt := { x with writes := x.writes ++ ws.map (fun w => (t, w)) }

/-- A read takes place at tick τ; what it reads becomes visible at the tick Table 5.3 gives. -/
def State.doRead (s : State) (i tau : Nat) (op : ReadOp) : State :=
  let x := s.eng i
  match op with
  | .mmaRow row r kb afmt rows osa wsel buf clr we residue =>
    let f32 := decide (afmt ≤ 2)
    let codes := x.rowElems afmt (osa + 2 * r) (32 * kb)
    let scales := scaleBytes (x.ln (osa + 2 * rows + r / 8)) r kb
    let cols := mmaRowCols afmt f32 kb we codes scales (x.bank wsel)
    let flags := cols.foldl (fun a c => a ||| c.2) 0
    s.setEng i (x.due (tau + (if f32 then 24 else 20))
      ((if residue then [.residue buf] else []) ++ [.acc buf row 0 (r = 0) clr f32 we (some flags) (cols.map (·.1))]))
  | .loadw fmt kb wsel osa j =>
    let lw := (if j = 0 then [] else x.lw) ++ (List.range 16).map (fun k => x.ln (osa + 16 * j + k))
    let x := { x with lw := lw }
    if j = 16 then
      let t := tileOf fmt kb lw
      s.setEng i (x.due (tau + 4) [.weights wsel fmt kb t.1 t.2])
    else s.setEng i x
  | .drainRow buf row r rows fmt rm raw smode os osa bidx =>
    let b := x.buf buf
    let x := { x with flags := x.flags ||| b.flags.setWidth 6 }
    if raw then s.setEng i ((x.due (tau + 14) (rawWrites b row r 0 osa)).due (tau + 15) (rawWrites b row r 1 osa))
    else
      let d := drainRow b row fmt rm smode os (fun c => s.rand i bidx (128 * row + c))
      let x := { x with flags := x.flags ||| (if d.sat then 16 else 0) ||| (if d.nan then 32 else 0) }
      s.setEng i (x.due (tau + 14) (drainWrites r rows fmt osa d))
  | .accRow buf row r h clr we osa =>
    s.setEng i (x.due (tau + 10 - h) [.acc buf row (64 * h) (r = 0 ∧ h = 0) clr false we none (x.longHalf osa r h)])
  | .ld line dst obs =>
    let q := s.groveSchedRead (i / 16) line obs
    q.1.setEng i ((q.1.eng i).due (tau + 10) [.store dst q.2])
  | .st src line => s.setEng i (x.due (tau + 10) [.sram line (x.ln src)])
  | .send src q => s.setEng i (x.due (tau + 1) [.sendq q (x.ln src)])
  | .recv q dst =>
    match aget [] x.recvq q with
    | [] => s
    | v :: vs => s.setEng i ({ x with recvq := aset [] x.recvq q vs }.due (tau + 1) [.store dst v])
  | .scatterLine src line k last =>
    let sc := (if k = 0 then [] else x.scat) ++ (match line with
      | some n => [(n, x.ln src)]
      | none => [])
    let x := { x with scat := sc }
    match last with
    | some t => s.setEng i (x.due t [.scatter sc])
    | none => s.setEng i x

/-- COMPUTE.ENGINE_RESIDUE (R87, R394). -/
def State.engineResidue (s : State) (i : Nat) : State :=
  let pg := P.ENGINE (i / 16) (i % 16)
  let s := s.setEng i { s.eng i with residues := (s.eng i).residues + 1 }
  ((s.errInc pg).raise pg B.ENGINE_RESIDUE Evn.COMPUTE_ENGINE_RESIDUE).paceFault causeResidue (i / 16)

/-- COMPUTE.LONG_OVF at an engine (R73). -/
def State.engineOvf (s : State) (i : Nat) : State :=
  (s.raise (P.ENGINE (i / 16) (i % 16)) B.ENGINE_LONG_OVF Evn.COMPUTE_LONG_OVF).paceFault causeLongOvf (i / 16)

/-- The earliest tick at which something of the engine is due, no later than T. -/
def EngineSt.nextDue (x : EngineSt) (t : Nat) : Option Nat :=
  ((x.reads.map (·.1) ++ x.writes.map (·.1)).filter (fun k => k ≤ t)).min?

/-- One tick of an engine: writes first, then reads (R95), then the faults that the tick's contributions raised, ENGINE_RESIDUE
before LONG_OVF (R88). -/
def State.engTick (s : State) (i tau : Nat) : State :=
  let x := s.eng i
  let ws := (x.writes.filter (fun w => w.1 ≤ tau)).map (·.2)
  let rs := (x.reads.filter (fun r => r.1 ≤ tau)).map (·.2)
  let s := s.setEng i { x with writes := x.writes.filter (fun w => tau < w.1), reads := x.reads.filter (fun r => tau < r.1), tick := tau }
  let q := s.applyWrites i (orderWrites ws)
  let s := rs.foldl (fun s r => s.doRead i tau r) q.1
  let s := if ws.any (fun w => match w with
    | .residue _ => true
    | _ => false) then s.engineResidue i else s
  if q.2 then s.engineOvf i else s

/-- Runs an engine's due reads and writes up to and at tick T. -/
def State.engRun (s : State) (i t : Nat) : Nat → State
  | 0 => s
  | n + 1 =>
    match (s.eng i).nextDue t with
    | none => s
    | some tau => (s.engTick i tau).engRun i t n

/-- An engine's schedule tick becomes T; everything due by then has taken place. -/
def State.engAdvance (s : State) (i t : Nat) : State :=
  let x := s.eng i
  let s := s.engRun i t (3 * x.reads.length + x.writes.length + 1)
  let x := s.eng i
  s.setEng i { x with tick := max x.tick t, ops := x.ops.filter (fun o => t < o.done) }

/-! ## Issue (R93, R95) -/

/-- The engine that issues for a logical engine: a step executes and its issue is not stalled. -/
def State.issuing (s : State) (a : Eng) : Option Nat :=
  match s.engIdx a with
  | some i => if s.stepActive && decide ((s.eng i).stall = .none) then some i else none
  | none => none

/-- An operation issued at the present tick: its reads, its writes, and its class and last visible tick for FENCE (R99). -/
def EngineSt.start (x : EngineSt) (reads : List (Nat × ReadOp)) (writes : List (Nat × WriteOp)) (cls done : Nat) : EngineSt :=
  { x with reads := x.reads ++ reads, writes := x.writes ++ writes, ops := x.ops ++ [{ cls := cls, done := done }] }

/-- A slot of the bundle that a logical engine is issuing; nothing where it issues none, or where the slot is one that no
engine issues (R94). -/
def State.slot (s : State) (a : Eng) (ok : Bool) (f : Nat → EngineSt → State) : Host.Outcome State Fault Refusal :=
  match s.issuing a with
  | some i => if ok then .next (f i (s.eng i)) else .next s
  | none => .next s

/-- The registers that a bundle's issue updates: ISSUE, LAST_PC (Tables 5.8, 5.10). -/
def State.countBundle (s : State) (i : Nat) : State :=
  let g := i / 16
  let p := i % 16
  let x := s.eng i
  (s.bump64 (Reg.ENGINE_ISSUE_LO g p) 1).wr (Reg.ENGINE_LAST_PC g p) (BitVec.ofNat 32 (x.pc.toNat + 8192 * x.loops.length))

/-- The bundle ends (R93): it is counted, the engine takes `x'` (the next bundle's address, index registers, loops and stall),
and, unless issue is stalled, time moves to the next tick. -/
def State.endBundle (s : State) (i : Nat) (x' : EngineSt) : State :=
  let s := (s.countBundle i).setEng i { x' with count := x'.count + 1 }
  if x'.stall = .none then s.engAdvance i (x'.tick + 1) else s

/-- Issue resumes at tick T (R97, R99). -/
def State.engResume (s : State) (i t : Nat) : State := (s.setEng i { s.eng i with stall := .none }).engAdvance i t

/-- Last tick of the selected outstanding operations of a FENCE, not before t + 1 (R99). -/
def EngineSt.fenceTick (x : EngineSt) (mask : BitVec 6) : Nat :=
  (x.ops.filter (fun o => mask.getLsbD o.cls)).foldl (fun m o => max m o.done) (x.tick + 1)

/-- Whether a DMA descriptor that engine i started still runs. -/
def State.dmaOutstanding (s : State) (i : Nat) : Bool :=
  (s.grove (i / 16)).chans.any (fun c => match c.2.run with
    | some r => decide (r.byEng = some i)
    | none => false)

end Sys2Proof.Machine
end

