-- ==== Sys2Proof/Machine/EngineMem.lean ====
section
/-! DEFINITION. The MEMA and MEMB slots (Table 5.7): transfers, address registers, queues, dynamic access and DMA triggers. -/

namespace Sys2Proof.Machine

/-- MNOP. -/
def execMnop (a : Eng) (_slot : Bool) (s : State) : Host.Outcome State Fault Refusal := s.slot a true (fun _ _ => s)

/-- First grove line of a transfer: A[AREG][23:0] + OFF (R113). -/
def EngineSt.xferLine (x : EngineSt) (areg : BitVec 4) (off : BitVec 9) : Nat := (x.a areg.toNat).toNat % 2 ^ 24 + off.toNat

/-- The address register after a transfer with AINC (R113). -/
def EngineSt.aincWrite (x : EngineSt) (areg : BitVec 4) (ainc : Bool) (len : Nat) : List (Nat × WriteOp) :=
  if ainc then [(x.tick + 1, .areg areg.toNat (x.a areg.toNat + BitVec.ofNat 32 len))] else []

/-- LD: SRAM line i is read at t + 8 + ⌊i/RATE⌋ and visible 10 ticks later. -/
def execLd (a : Eng) (_slot : Bool) (rate : BitVec 3) (lenM1 : BitVec 7) (areg : BitVec 4) (ainc : Bool) (off : BitVec 9) (xsel : BitVec 3)
    (osa : BitVec 15) (obs : List (Nat × LineObs)) (s : State) : Host.Outcome State Fault Refusal :=
  s.slot a (Mem.ok (.ld rate lenM1 areg ainc off xsel osa)) (fun i x =>
    let len := lenM1.toNat + 1
    let o := x.osa xsel osa
    let base := x.xferLine areg off
    let reads := (List.range len).map (fun k => (x.tick + 8 + k / rate.toNat, ReadOp.ld (base + k) ((o + k) % 32768) (obsAt obs k)))
    s.setEng i (x.start reads (x.aincWrite areg ainc len) 0 (x.tick + 18 + lenM1.toNat / rate.toNat)))

/-- ST: operand-store line i is read at t + ⌊i/RATE⌋ and visible in SRAM 10 ticks later. -/
def execSt (a : Eng) (_slot : Bool) (rate : BitVec 3) (lenM1 : BitVec 7) (areg : BitVec 4) (ainc : Bool) (off : BitVec 9) (xsel : BitVec 3)
    (osa : BitVec 15) (s : State) : Host.Outcome State Fault Refusal :=
  s.slot a (Mem.ok (.st rate lenM1 areg ainc off xsel osa)) (fun i x =>
    let len := lenM1.toNat + 1
    let o := x.osa xsel osa
    let base := x.xferLine areg off
    let reads := (List.range len).map (fun k => (x.tick + k / rate.toNat, ReadOp.st ((o + k) % 32768) (base + k)))
    s.setEng i (x.start reads (x.aincWrite areg ainc len) 0 (x.tick + 10 + lenM1.toNat / rate.toNat)))

/-- SETA: the register takes the value at t + 1. -/
def execSeta (a : Eng) (_slot : Bool) (areg : BitVec 4) (value : Word) (s : State) : Host.Outcome State Fault Refusal :=
  s.slot a true (fun i x => s.setEng i { x with writes := x.writes ++ [(x.tick + 1, .areg areg.toNat value)] })

/-- ADDA: the register takes its value plus the addend, modulo 2³², at t + 1. -/
def execAdda (a : Eng) (_slot : Bool) (areg : BitVec 4) (addend : Word) (s : State) : Host.Outcome State Fault Refusal :=
  s.slot a true (fun i x => s.setEng i { x with writes := x.writes ++ [(x.tick + 1, .areg areg.toNat (x.a areg.toNat + addend))] })

/-- SEND: operand-store line i is read at t + ⌊i/2⌋ and in the queue one tick later (R114). -/
def execSend (a : Eng) (_slot : Bool) (q : BitVec 3) (lenM1 : BitVec 8) (xsel : BitVec 3) (osa : BitVec 15) (s : State) :
    Host.Outcome State Fault Refusal :=
  s.slot a true (fun i x =>
    let o := x.osa xsel osa
    let reads := (List.range (lenM1.toNat + 1)).map (fun k => (x.tick + k / 2, ReadOp.send ((o + k) % 32768) q.toNat))
    s.setEng i (x.start reads [] 1 (x.tick + 1 + lenM1.toNat / 2)))

/-- RECV: line i leaves the queue at t + 1 + ⌊i/2⌋ and is in the operand store one tick later (R114). -/
def execRecv (a : Eng) (_slot : Bool) (q : BitVec 3) (lenM1 : BitVec 8) (xsel : BitVec 3) (osa : BitVec 15) (s : State) :
    Host.Outcome State Fault Refusal :=
  s.slot a true (fun i x =>
    let o := x.osa xsel osa
    let reads := (List.range (lenM1.toNat + 1)).map (fun k => (x.tick + 1 + k / 2, ReadOp.recv q.toNat ((o + k) % 32768)))
    s.setEng i (x.start reads [] 1 (x.tick + 2 + lenM1.toNat / 2)))

/-! ## Dynamic access (R115, R137 to R139) -/

/-- The grove's dynamic region DREG; none where the armed stand declares none. -/
def State.dynRegion (s : State) (g : Nat) (dreg : Nat) : Option DynRegion := (s.grove g).dyn.find? (fun d => d.dreg.val == dreg)

/-- The grove line of region line k: bank BB + (k mod NB), row RB + ⌊k/NB⌋ (R137). -/
def dynRegionLine (d : DynRegion) (k : Nat) : Nat := (d.rb + k / d.nb) * 512 + d.bb + k % d.nb

/-- The grove line that an offset names; none when the offset is not below the region's length. -/
def dynLine (d : Option DynRegion) (off : Nat) : Option Nat := d.bind (fun d => if off < d.len then some (dynRegionLine d off) else none)

/-- The first lane whose offset is out of range. -/
def EngineSt.badLane (x : EngineSt) (d : Option DynRegion) (vs n : Nat) : Option Nat :=
  (List.range n).find? (fun k => (dynLine d (x.lane vs k).toNat).isNone)

/-- COMPUTE.DYN_RANGE: recorded in DYN_INFO, counted, and a pace fault (R115, R118). -/
def State.dynRange (s : State) (i dreg lane : Nat) : State :=
  let g := i / 16
  let p := i % 16
  let s := (s.wr (Reg.ENGINE_DYN_INFO g p) (BitVec.ofNat 32 (dreg + 16 * lane))).errInc (P.ENGINE g p)
  (s.raise (P.ENGINE g p) B.ENGINE_DYN_RANGE Evn.COMPUTE_DYN_RANGE).paceFault causeDynRange g

/-- GATHER's lines, read under the region's reservation, in lane order; lanes out of range are skipped. -/
def State.gatherLines (s : State) (g : Nat) (d : Option DynRegion) (x : EngineSt) (vs o : Nat) (obs : List (Nat × LineObs)) :
    List Nat → State × List (Nat × Line)
  | [] => (s, [])
  | k :: ks =>
    match dynLine d (x.lane vs k).toNat with
    | none => s.gatherLines g d x vs o obs ks
    | some n =>
      let r := s.groveSchedRead g n (obsAt obs k)
      let q := r.1.gatherLines g d x vs o obs ks
      (q.1, ((o + k) % 32768, r.2) :: q.2)

/-- GATHER: offsets are read at t; all lines are released at t + 32 + 2·COUNT. -/
def execGather (a : Eng) (_slot : Bool) (vs : BitVec 6) (dreg : BitVec 4) (countM1 : BitVec 8) (xsel : BitVec 3) (osa : BitVec 15)
    (obs : List (Nat × LineObs)) (s : State) : Host.Outcome State Fault Refusal :=
  s.slot a true (fun i x =>
    let n := countM1.toNat + 1
    let d := s.dynRegion (i / 16) dreg.toNat
    let q := s.gatherLines (i / 16) d x vs.toNat (x.osa xsel osa) obs (List.range n)
    let done := x.tick + 32 + 2 * n
    let s := q.1.setEng i ((q.1.eng i).start [] [(done, .gather q.2)] 2 done)
    match x.badLane d vs.toNat n with
    | some k => s.dynRange i dreg.toNat k
    | none => s)

/-- SCATTER: offsets are read at t, operand-store line i at t + ⌊i/2⌋; all lines are in SRAM by t + 32 + 2·COUNT. -/
def execScatter (a : Eng) (_slot : Bool) (vs : BitVec 6) (dreg : BitVec 4) (countM1 : BitVec 8) (xsel : BitVec 3) (osa : BitVec 15)
    (s : State) : Host.Outcome State Fault Refusal :=
  s.slot a true (fun i x =>
    let n := countM1.toNat + 1
    let d := s.dynRegion (i / 16) dreg.toNat
    let o := x.osa xsel osa
    let done := x.tick + 32 + 2 * n
    let reads := (List.range n).map (fun k =>
      (x.tick + k / 2, ReadOp.scatterLine ((o + k) % 32768) (dynLine d (x.lane vs.toNat k).toNat) k (if k + 1 = n then some done else none)))
    let s := s.setEng i (x.start reads [] 2 done)
    match x.badLane d vs.toNat n with
    | some k => s.dynRange i dreg.toNat k
    | none => s)

/-- DMAT: descriptor DESC of channel CH starts at t + 1 (R116). -/
def execDmat (a : Eng) (_slot : Bool) (ch : BitVec 4) (desc : BitVec 8) (s : State) : Host.Outcome State Fault Refusal :=
  s.slot a true (fun i x =>
    let d := aget 0 (s.grove (i / 16)).descs (256 * ch.toNat + desc.toNat)
    let kind := descField d 0 0 4
    let len := descField d 0 16 16 + 1
    let r := (len - 1) / descField d 0 4 3
    let st := x.tick + 1
    let done := if kind = 0 then st + 18 + r else if kind = 1 then st + 8 + r else if kind = 2 then st + 10 else st + 12 + (len - 1)
    s.setEng i (x.start [] [(st, .dmaStart ch desc)] 3 done))

end Sys2Proof.Machine
end

