-- ==== Sys2Proof/Machine/SecOps.lean ====
section
/-! DEFINITION. Shared operations of the security engine: keys, measurements and tokens (R435, R436, R439, R443). -/

namespace Sys2Proof.Machine

/-- `n` registers from `off` as bytes, the first register's low byte first. -/
def State.regBytes (s : State) (off n : Nat) : List Byte := (List.range n).flatMap (fun j => leBytes 4 (s.rd (off + 4 * j)).toNat)

/-- Bytes laid into `n` registers from `off`. -/
def State.setRegBytes (s : State) (off n : Nat) (bs : List Byte) : State :=
  (List.range n).foldl (fun (s : State) j => s.wr (off + 4 * j) (BitVec.ofNat 32 (leValue ((bs.drop (4 * j)).take 4)))) s

/-- The little-endian bytes of a bit vector. -/
def bytesOf {w : Nat} (v : BitVec w) : List Byte := leBytes (w / 8) v.toNat

/-! ## Measurements (R443) -/

/-- M_i ← SM3(M_i ‖ V). -/
def State.extendM (s : State) (i : Nat) (v : List Byte) : State :=
  s.setRegBytes (Reg.SEC_MEAS (8 * i)) 8 (bytesOf (Config.sm3 (s.regBytes (Reg.SEC_MEAS (8 * i)) 8 ++ v)))

/-- Every measurement register reads zero at entry to BRINGUP. -/
def State.clearM (s : State) : State := s.resetRegs ((List.range 128).map (fun k => Reg.SEC_MEAS k))

/-! ## Keys (R435, R436) -/

/-- The stored key of signer 0 (root), 1 or 2 (owner slots 0 and 1). -/
def State.keyOf (s : State) (signer : Nat) : BitVec 512 := aget 0 s.sec.keys signer

/-- The fuse digest of a signer's key, as the HWOOD page holds it. -/
def State.keyDigest (s : State) (signer : Nat) : List Byte :=
  s.regBytes (if signer = 0 then Reg.HWOOD_ROOT_DIGEST 0 else if signer = 1 then Reg.HWOOD_OWNER0_DIGEST 0 else Reg.HWOOD_OWNER1_DIGEST 0) 8

/-- A key is usable when its digest matches and its slot is enrolled and not revoked; the root key has no slot. -/
def State.keyUsable (s : State) (signer : Nat) : Bool :=
  (bytesOf (Config.sm3 (bytesOf (s.keyOf signer))) == s.keyDigest signer)
    && (if signer = 0 then true
        else if signer = 1 then s.flag F.HWOOD_KEYSTATE_O0_ENROLLED && !s.flag F.HWOOD_KEYSTATE_O0_REVOKED
        else if signer = 2 then s.flag F.HWOOD_KEYSTATE_O1_ENROLLED && !s.flag F.HWOOD_KEYSTATE_O1_REVOKED
        else false)

/-- Whether a signer's usable key verifies a signature of a message. -/
def State.signed (s : State) (signer : Nat) (msg : List Byte) (sig : BitVec 512) : Bool :=
  s.keyUsable signer && Config.sm2Verify (s.keyOf signer) msg sig

/-- A stand manifest's signature: an owner key, tried in slot order (Table 20.2). -/
def State.ownerSigned (s : State) (msg : List Byte) (sig : BitVec 512) : Bool := s.signed 1 msg sig || s.signed 2 msg sig

/-- The module serial as the HWOOD page holds it. -/
def State.serial (s : State) : Dword := s.rd64 Reg.HWOOD_SERIAL_LO

/-! ## Heartwood (R434; Tables 20.1, 20.9) -/

/-- A word of the fuse array, by its HWOOD page offset. -/
def State.fuse (s : State) (off : Nat) : Word := aget (resetOf off) s.sec.fuses off

/-- The words of the HWOOD page that are copied from fuses. -/
def fuseWords : List Nat :=
  (List.range 24).map (fun j => Reg.HWOOD_ROOT_DIGEST j) ++ [Reg.HWOOD_PROTECT, Reg.HWOOD_VARIANT, Reg.HWOOD_SERIAL_LO, Reg.HWOOD_SERIAL_HI, Reg.HWOOD_DEFECT_COUNT]

/-- A revoke bit of the fuse array. -/
def State.revoked (s : State) (k : Nat) : Bool := (s.fuse Reg.HWOOD_KEYSTATE).toNat.testBit (2 * k + 1)

/-- The fuses are loaded into the HWOOD page, with what is derived from them there and on other pages; M4 is extended (R355, R434, R443).
An owner slot is enrolled when its digest has been written. -/
def State.fuseLoad (s : State) : State :=
  let s := fuseWords.foldl (fun (s : State) o => s.wr o (s.fuse o)) s
  let s := s.put F.HWOOD_PROTECT_TRIP_MAX (3 - s.get F.HWOOD_PROTECT_TRIP_RAW)
  let some_ := fun (r : Nat → Nat) => (List.range 8).any (fun j => decide (s.rd (r j) ≠ 0))
  let s := (s.putB F.HWOOD_KEYSTATE_O0_ENROLLED (some_ Reg.HWOOD_OWNER0_DIGEST)).putB F.HWOOD_KEYSTATE_O0_REVOKED (s.revoked 0)
  let s := (s.putB F.HWOOD_KEYSTATE_O1_ENROLLED (some_ Reg.HWOOD_OWNER1_DIGEST)).putB F.HWOOD_KEYSTATE_O1_REVOKED (s.revoked 1)
  let ceil := 2600 - 25 * s.get F.HWOOD_PROTECT_CEIL_CODE
  let s := s.wr Reg.HWOOD_LIMITS (BitVec.ofNat 32 (ceil + 65536 * (6000 - 50 * s.get F.HWOOD_PROTECT_TOUT_CODE)))
  let s := s.wr Reg.HWOOD_MIN_FLOW (BitVec.ofNat 32 (100 * s.get F.HWOOD_PROTECT_FLOW_CODE))
  let s := s.wr Reg.HWOOD_DEFECT_ENTRY (aget 0 s.sec.defects (bitsOf (s.rd Reg.HWOOD_DEFECT_SEL) 0 6))
  let s := (s.putB F.HWOOD_FUSE_STATUS_LOADED true).putB F.HWOOD_FUSE_STATUS_PENDING false
  let s := (s.wr64 Reg.MODULE_SERIAL_LO (s.rd64 Reg.HWOOD_SERIAL_LO)).wr Reg.MODULE_PART (BitVec.ofNat 32 (s.get F.HWOOD_VARIANT_PART))
  let s := s.put F.GLADE_TRIP_FUSE_MAX (s.get F.HWOOD_PROTECT_TRIP_MAX)
  let s := s.put F.GLADE_TRIP_EFFECTIVE (min (s.get F.GLADE_TRIP_STRAP) (s.get F.GLADE_TRIP_FUSE_MAX))
  s.extendM 4 (bytesOf (Config.sm3 (s.regBytes (P.HWOOD + 0x40) 34)))

/-! ## Blowing fuses (R440) -/

/-- A protection field's place in PROTECT: lowest bit and width, by the code of a FUSE token's ARG (Tables 20.6, 20.10). -/
def fuseField (n : Nat) : Nat × Nat :=
  if n = 1 then (0, 2) else if n = 2 then (4, 6) else if n = 3 then (10, 5) else if n = 4 then (15, 7) else if n = 5 then (22, 1)
  else if n = 6 then (23, 2) else (0, 0)

/-- The bits a blow aims at, by HWOOD page offset. -/
def Blow.words (b : Blow) : List (Nat × Word) :=
  match b with
  | .field n m => [(Reg.HWOOD_PROTECT, BitVec.ofNat 32 (m * 2 ^ (fuseField n).1))]
  | .enroll k d => (List.range 8).map (fun j => ((if k = 0 then Reg.HWOOD_OWNER0_DIGEST j else Reg.HWOOD_OWNER1_DIGEST j), d.extractLsb' (32 * j) 32))
  | .revoke k => [(Reg.HWOOD_KEYSTATE, BitVec.ofNat 32 (2 ^ (2 * k + 1)))]

/-- A blow ends. One that fails, or that power loss cuts short, leaves only some of its bits blown; which ones is open (R434, R440). A
revoke bit takes effect at once, every other field at the next load. -/
def State.blowEnd (s : State) (b : Blow) (ok : Bool) : State :=
  let part := fun j => if ok then BitVec.allOnes 32 else Config.freeWord (s.freeCtr + j)
  let m := (b.words.zipIdx).foldl (fun (m : AMap Word) e =>
    aset (resetOf e.1.1) m e.1.1 (aget (resetOf e.1.1) m e.1.1 ||| (e.1.2 &&& part e.2))) s.sec.fuses
  let s : State := { s with sec := { s.sec with fuses := m, blow := none }, freeCtr := if ok then s.freeCtr else s.freeCtr + b.words.length }
  let s := s.putB F.HWOOD_FUSE_STATUS_PENDING true
  match b with
  | .revoke _ => (s.putB F.HWOOD_KEYSTATE_O0_REVOKED (s.revoked 0)).putB F.HWOOD_KEYSTATE_O1_REVOKED (s.revoked 1)
  | _ => s

/-! ## Tokens (R439) -/

/-- Whether a token of this scope and argument is pending. -/
def State.hasToken (s : State) (scope : Nat) (arg : Word) : Bool :=
  s.flag F.SEC_STATUS_TOKEN_PENDING && (match s.sec.token with
    | some t => decide (t.scope = scope) && decide (t.arg = arg)
    | none => false)

/-- Bytes 24 to 31 of a token's message (Table 20.5). -/
def Token.tail (t : Token) : List Byte := leBytes 1 t.scope ++ leBytes 1 t.signer ++ leBytes 2 0 ++ leBytes 4 t.arg.toNat

/-- A token is consumed: RESULT reads 8 with TTL 0, and M7 is extended (R439). -/
def State.consumed (s : State) (t : Token) : State :=
  let s := ((s.put F.SEC_TOKEN_RESULT_RESULT 8).put F.SEC_TOKEN_RESULT_TTL 0).put F.SEC_TOKEN_RESULT_SCOPE t.scope
  s.extendM 7 (t.tail ++ leBytes 24 0)

/-- The pending token is consumed by an action. -/
def State.consumeToken (s : State) : State :=
  match s.sec.token with
  | none => s
  | some t => { (s.putB F.SEC_STATUS_TOKEN_PENDING false).consumed t with sec := { (s.sec) with token := none } }

end Sys2Proof.Machine
end

