-- ==== Sys2Proof/Machine/LpddrMem.lean ====
section
/-! DEFINITION. Reading LPDDR5X blocks through their codes (R233 to R252) and the map of R237. -/

namespace Sys2Proof.Machine

/-- Q = ⌈2,048 / C⌉ (R237). -/
def State.lpQ (s : State) : Nat := if s.lpddr.c = 0 then 2048 else (2048 + s.lpddr.c - 1) / s.lpddr.c

/-- Data runs per channel: 7.5 GiB on a 32 GiB package, 3.75 GiB on a 16 GiB package (Table 10.1). -/
def State.lpRuns (s : State) : Nat := if s.get (F.LPDDR_GEOMETRY_PKG_GIB ((s.lpPresent).headD 0)) = 16 then 3932160 else 7864320

/-- Physical pages P (R237). -/
def State.lpPages (s : State) : Nat := if s.lpddr.c = 0 then 0 else s.lpRuns / s.lpQ

/-- Usable pages U (R237, R252). -/
def State.lpUsable (s : State) : Nat := s.lpPages - (s.lpddr.retired.filter (fun p => decide (p < s.lpPages))).length

/-- The λ-th non-retired page: retired pages ascending, each at or below the page found so far moves it up by one (R237). -/
def physPage (lam : Nat) : List Nat → Nat
  | [] => lam
  | r :: rs => if r ≤ lam then physPage (lam + 1) rs else physPage lam rs

/-- The physical page of logical page λ (R237). -/
def State.lpPhys (s : State) (lam : Nat) : Nat := physPage lam s.lpddr.retired

/-- Channel-local run of a logical block at its place (R237). -/
def State.lpRun (s : State) (pl : LpPlace) : Nat := s.lpPhys pl.page * s.lpQ + pl.slot

/-- A page worn out (R252): MEM.LPDDR_WEAR and a Deadwood entry; beyond 4,096 retired pages MEM.LPDDR_RETIRE_FULL and no entry. -/
def State.lpWear (s : State) (m pi : Nat) : State :=
  let s := s.raise (P.LPDDR m) B.LPDDR_LPDDR_WEAR Evn.MEM_LPDDR_WEAR
  if !s.dwNamed dwPage 0 pi && (dwFree s.dwood 4096 4096).isNone then
    s.raise (P.LPDDR m) B.LPDDR_LPDDR_RETIRE_FULL Evn.MEM_LPDDR_RETIRE_FULL
  else s.dwAdd dwPage 0 pi Evn.MEM_LPDDR_WEAR.code 4

/-- LAST_ERR and LAST_ERR_PAGE (Table 10.6). -/
def State.lpLastErr (s : State) (pl : LpPlace) (block : Nat) (scrub : Bool) : State :=
  let v := s.lpRun pl % 2 ^ 23 + 2 ^ 23 * (block % 16) + 2 ^ 27 * pl.ch + 2 ^ 30 + (if scrub then 2 ^ 31 else 0)
  (s.wr (Reg.LPDDR_LAST_ERR pl.m) (BitVec.ofNat 32 v)).wr (Reg.LPDDR_LAST_ERR_PAGE pl.m) (BitVec.ofNat 32 (s.lpPhys pl.page))

/-- A corrected block: counted at its controller, channel and physical page, with the page's wear (R233, R252). `inner` is the
error count the device reported. -/
def State.lpCorrected (s : State) (pl : LpPlace) (d : Decoded) : State :=
  let s := s.bump (Reg.LPDDR_CORR_ODECC pl.m) d.inner
  if d.outer then
    let s := (s.bump (Reg.LPDDR_CORR_OUTER pl.m) 1).bumpF (F.LPDDR_CH_STATUS_CORR pl.m pl.ch) 1
    let s := s.raise (P.LPDDR pl.m) B.LPDDR_LPDDR_CORR Evn.MEM_LPDDR_CORR
    let pi := s.lpPhys pl.page
    let n := aget 0 s.lpddr.corr pi + 1
    let t := (s.rd (Reg.LPDDR_WEAR_THRESH pl.m)).toNat
    let s := { s with lpddr := { s.lpddr with corr := aset 0 s.lpddr.corr pi n } }
    if 0 < t ∧ t < n ∧ !s.lpddr.worn.contains pi then
      ({ s with lpddr := { s.lpddr with worn := pi :: s.lpddr.worn } }).lpWear pl.m pi
    else s
  else s

/-- An uncorrectable block (R251). -/
def State.lpUncorr (s : State) (pl : LpPlace) (block : Nat) (by_ : ReadBy) : State :=
  let s := (s.lpLastErr pl block (decide (by_ = .scrub))).errInc (P.LPDDR pl.m)
  let s := match by_ with
    | .sched => (s.raise (P.LPDDR pl.m) B.LPDDR_LPDDR_UNCORR Evn.MEM_LPDDR_UNCORR).paceFaultEoe causeLpddrUncorr
    | .background => s.raise (P.LPDDR pl.m) B.LPDDR_POISON_READ Evn.MEM_POISON_READ
    | .scrub => s.raise (P.LPDDR pl.m) B.LPDDR_LPDDR_UNCORR Evn.MEM_LPDDR_UNCORR
  s.lpWear pl.m (s.lpPhys pl.page)

/-- Reads logical block `b` (its copy already chosen): RS(68,64) corrects 2 erroneous bytes (R234). -/
def State.lpFetch (s : State) (b : Nat) (by_ : ReadBy) (obs : Option LineObs) : State × Decoded :=
  let n := lpddrLine b
  let d := decodeLine 4 (aget false s.poison n) (s.line n) obs
  match s.lpPlace b with
  | none => (s, d)
  | some pl =>
    let s := s.lpCorrected pl d
    (if d.bad then s.lpUncorr pl b by_ else s, d)

end Sys2Proof.Machine
end

