-- ==== Sys2Proof/Machine/Lpddr.lean ====
section
/-! DEFINITION. LPDDR5X controllers (10): frames, refresh, scrub, training, fold. -/

namespace Sys2Proof.Machine

/-! ## Frames (R239, R240) -/

/-- Fields of a channel frame entry (Table 10.4). -/
def entryDir (e : BitVec 64) : Nat := e.toNat % 4
def entryRun (e : BitVec 64) : Nat := e.toNat / 4 % 2 ^ 30
def entryMask (e : BitVec 64) : Nat := e.toNat / 2 ^ 32 % 2 ^ 16

/-- The blocks that MASK selects, ascending. -/
def maskBlocks (e : BitVec 64) : List Nat := (List.range 16).filter (fun b => (entryMask e).testBit b)

/-- One block of a read entry: the copy that R245 gives is read and its line goes to the crossbar port (R240, R251). -/
def State.frameRead (s : State) (m b : Nat) (port : Port) (obs : Option LineObs) : State :=
  let r := s.lpFetch (stepReadLine lpUnit s.lpddr.wins s.lpddr.sel s.lpddr.dirty b) .sched obs
  let q := aget [] r.1.lpddr.outq m
  { r.1 with lpddr := { r.1.lpddr with outq := aset [] r.1.lpddr.outq m (q ++ [(port, r.2.v, r.2.bad)]) } }

/-- One block of a write entry: it takes a line that has arrived from its source, or waits for it (R240). -/
def State.frameWrite (s : State) (m b : Nat) (port : Port) : State :=
  let q := aget [] s.lpddr.inq m
  match q.find? (fun e => e.1 == port) with
  | some e =>
    let s := { s with lpddr := { s.lpddr with inq := aset [] s.lpddr.inq m (q.erase e) } }
    s.lpWrite b e.2.1 e.2.2
  | none => { s with lpddr := { s.lpddr with waitq := aset [] s.lpddr.waitq m (aget [] s.lpddr.waitq m ++ [(b, port)]) } }

/-- The blocks of one channel's entry in order. -/
def State.frameEntry (s : State) (m ch : Nat) (e : BitVec 64) (obs : List (Nat × LineObs)) : List (Nat × Port) → State
  | [] => s
  | (b, port) :: rest =>
    let blk := 16 * entryRun e + b
    let s := if entryDir e = 1 then s.frameRead m blk port (obsAt obs (16 * ch + b))
      else if entryDir e = 2 then s.frameWrite m blk port else s
    s.frameEntry m ch e obs rest

/-- Frame `frame` of the step begins at controller m: each present channel performs its entry (R239). -/
def execLpddrFrame (m : Fin 16) (frame : Nat) (obs : List (Nat × LineObs)) (s : State) : Host.Outcome State Fault Refusal :=
  if s.stepActive && decide (s.fn (P.LPDDR m.val) = fnReady) then
    let plans : List FramePlan := match s.image with
      | some im => im.frames.filter (fun p => decide (p.m = m) && decide (p.frame = frame))
      | none => []
    .next (plans.foldl (fun (s : State) (p : FramePlan) =>
      let bs := maskBlocks p.entry
      let s := s.frameEntry m.val p.ch.val p.entry obs (bs.zip p.ports)
      if entryDir p.entry = 0 then s else s.bump64 (Reg.LPDDR_SCHED_LO m.val) bs.length) s)
  else .next s

/-- A write line reaches controller m from a crossbar source (R235, R240). -/
def State.lpArrive (s : State) (m : Nat) (src : Port) (v : Line) (bad : Bool) : State :=
  let q := aget [] s.lpddr.waitq m
  match q.find? (fun e => e.2 == src) with
  | some e =>
    let s := { s with lpddr := { s.lpddr with waitq := aset [] s.lpddr.waitq m (q.erase e) } }
    s.lpWrite e.1 v bad
  | none => { s with lpddr := { s.lpddr with inq := aset [] s.lpddr.inq m (aget [] s.lpddr.inq m ++ [(src, v, bad)]) } }

/-! ## Refresh (R247) -/

/-- One per-bank refresh in a reserved burst time. -/
def execLpddrRefresh (m : Fin 16) (ch : Fin 8) (bank : Fin 16) (s : State) : Host.Outcome State Fault Refusal :=
  if s.absent (P.LPDDR m.val) then .next s
  else
    let k := 128 * m.val + 16 * ch.val + bank.val
    .next { s with lpddr := { s.lpddr with refreshed := aset 0 s.lpddr.refreshed k (aget 0 s.lpddr.refreshed k + 1) } }

/-- A device's refresh-rate indication changes: beyond ×4 raises MEM.LPDDR_HOT, and pace-faults during a step (R247). -/
def execRefreshRateChange (m : Fin 16) (ch : Fin 8) (mult : BitVec 2) (s : State) : Host.Outcome State Fault Refusal :=
  if s.absent (P.LPDDR m.val) then .next s
  else
    let s := s.put (F.LPDDR_CH_STATUS_REFRESH_MULT m.val ch.val) mult.toNat
    if mult = 3 then
      let s := s.raise (P.LPDDR m.val) B.LPDDR_LPDDR_HOT Evn.MEM_LPDDR_HOT
      .next (if s.stepActive then s.paceUrgent 0 else s)
    else .next s

/-! ## Patrol scrub (R250) -/

/-- The logical block of channel ch of controller m at channel-local run k, block i; none where the run holds no logical data
(a slot past the page's runs, or a retired page) (R237). -/
def State.lpLogical (s : State) (m ch k i : Nat) : Option Nat :=
  let q := s.lpQ
  let pi := k / q
  let idx := (s.lpPresent.findIdx (fun x => x = m)) * 8 + ch
  let j := k % q * s.lpddr.c + idx
  if s.lpddr.retired.contains pi ∨ 2048 ≤ j then none
  else
    let lam := pi - (s.lpddr.retired.filter (fun r => decide (r < pi))).length
    some (16 * (2048 * lam + j) + i)

/-- The blocks of one run, in order. -/
def State.scrubBlocks (s : State) (m ch k : Nat) (obs : List (Nat × LineObs)) : List Nat → State
  | [] => s
  | i :: is =>
    let s := match s.lpLogical m ch k i with
      | some b => (s.lpFetch b .scrub (obsAt obs i)).1
      | none => s
    s.scrubBlocks m ch k obs is

/-- Patrol scrub reads one run of one channel; a corrected block is written back, which changes no value (R250). -/
def execLpddrScrub (m : Fin 16) (obs : List (Nat × LineObs)) (s : State) : Host.Outcome State Fault Refusal :=
  if s.fn (P.LPDDR m.val) = fnReady ∧ s.lpddr.c ≠ 0 then
    let k := aget 0 s.lpddr.scrubBlk m.val
    let ch := aget 0 s.lpddr.scrubCh m.val
    let s := s.scrubBlocks m.val ch k obs (List.range 16)
    let k' := if ch = 7 then k + 1 else k
    let done := decide (s.lpRuns ≤ k')
    let k' := if done then 0 else k'
    let s := { s with lpddr := { s.lpddr with scrubBlk := aset 0 s.lpddr.scrubBlk m.val k', scrubCh := aset 0 s.lpddr.scrubCh m.val ((ch + 1) % 8) } }
    let s := s.wr (Reg.LPDDR_SCRUB_POS m.val) (BitVec.ofNat 32 k')
    .next (if done then s.bumpW (Reg.LPDDR_SCRUB_PASS m.val) 1 else s)
  else .next s

/-! ## Fold (R246) -/

/-- The fold of every controller begins at unload: WIN_STATUS.FOLD_BUSY. -/
def State.lpFoldStart (s : State) : State :=
  if s.lpddr.wins.isEmpty then s
  else
    let ms := s.lpPresent
    let s := ms.foldl (fun s m => s.putB (F.LPDDR_WIN_STATUS_FOLD_BUSY m) true) s
    { s with lpddr := { s.lpddr with folding := ms } }

/-- Controller m copies its selected copy-1 blocks to copy 0 (R246). -/
def State.lpFoldCopy (s : State) (m : Nat) : State :=
  let mine := fun (b : Nat) => match s.lpPlace b with
    | some pl => decide (pl.m = m)
    | none => false
  let s1 := ((foldList lpUnit s.lpddr.wins s.lpddr.sel).filter (fun p => mine p.1)).foldl
    (fun s p => s.copyLineTo (lpddrLine p.2) (lpddrLine p.1)) s
  { s1 with lpddr := { s1.lpddr with sel := s1.lpddr.sel.filter (fun e => !mine e.1), folding := s1.lpddr.folding.filter (fun x => x ≠ m) } }

/-- The window table of one controller page clears. -/
def State.lpClearTable (s : State) (m : Nat) : State :=
  let s := s.lpddr.wins.length.fold (fun i _ s =>
    ((s.wr (Reg.LPDDR_BASE m i) 0).wr (Reg.LPDDR_LEN m i) 0).wr (Reg.LPDDR_ALT m i) 0) s
  (s.put (F.LPDDR_WIN_STATUS_WIN_COUNT m) 0).putB (F.LPDDR_WIN_STATUS_FOLD_BUSY m) false

/-- A controller's fold completes: MEM.LPDDR_FOLD_DONE; the last removes the windows (R246). -/
def execLpddrFoldDone (m : Fin 16) (s : State) : Host.Outcome State Fault Refusal :=
  if s.lpddr.folding.contains m.val then
    let s := (s.lpFoldCopy m.val).lpClearTable m.val
    let s := if s.lpddr.folding.isEmpty then { s with lpddr := { s.lpddr with wins := [], sel := [], dirty := [] } } else s
    .next (s.raise (P.LPDDR m.val) B.LPDDR_LPDDR_FOLD_DONE Evn.MEM_LPDDR_FOLD_DONE).unloadEnd
  else .next s

/-! ## Training and function control (R248, R249, R255) -/

/-- Whether a channel trains warm (R248). -/
def State.chanWarm (s : State) (m ch : Nat) (o : ChanObs) : Bool :=
  let r := aget {} s.lpddr.recs (8 * m + ch)
  r.valid && o.crcOk && decide (r.ident = o.ident) && decide (o.temp ≤ r.temp + 15) && decide (r.temp ≤ o.temp + 15)
    && !s.flag (F.LPDDR_CONFIG_FORCE_COLD m)
    && !(decide (s.mod.mstate = .bringup) && (s.flag F.MODULE_BOOT_CFG_FORCE_COLD || decide (s.mod.bootMode = 2))) && o.verified

/-- The outcome of one channel's training; a cold training rewrites its record. -/
def State.chanTrained (s : State) (m ch : Nat) (o : ChanObs) : State :=
  let w := s.chanWarm m ch o
  let s := (s.putB (F.LPDDR_CH_STATUS_TRAIN_OK m ch) true).putB (F.LPDDR_CH_STATUS_WARM m ch) w
  if w then s
  else { s with lpddr := { s.lpddr with recs := aset {} s.lpddr.recs (8 * m + ch) { valid := true, ident := o.ident, temp := o.temp } } }

/-- Every channel of controller m is trained: READY (R248). -/
def State.lpddrStarted (s : State) (m : Nat) (os : List ChanObs) : State :=
  let s := (List.range 8).foldl (fun s ch => s.chanTrained m ch (os.getD ch default)) s
  let warm := (List.range 8).all (fun ch => s.flag (F.LPDDR_CH_STATUS_WARM m ch))
  let s := ((s.putB (F.LPDDR_STATUS_TRAINED m) true).putB (F.LPDDR_STATUS_WARM m) warm).putB (F.LPDDR_STATUS_SELF_REFRESH m) false
  s.setFn (P.LPDDR m) fnReady

/-- C and Q after a change of the controllers present, in every present page (R237, Table 10.6). -/
def State.lpGeometry (s : State) : State :=
  let c := 8 * s.lpPresent.length
  let s := { s with lpddr := { s.lpddr with c := c } }
  let q := s.lpQ
  s.lpPresent.foldl (fun s m => (s.put (F.LPDDR_GEOMETRY_C m) c).put (F.LPDDR_GEOMETRY_Q m) q) s

/-- Channel `ch` fails cold training (R249): MEM.LPDDR_TRAIN_FAIL, a Deadwood entry, and FAULT, or at bring-up absence at once. -/
def State.lpddrStartFailed (s : State) (m ch : Nat) : State :=
  let s := s.toFault (P.LPDDR m)
  let s := s.raise (P.LPDDR m) B.LPDDR_LPDDR_TRAIN_FAIL Evn.MEM_LPDDR_TRAIN_FAIL
  let s := s.dwAdd dwLpddr m ch Evn.MEM_LPDDR_TRAIN_FAIL.code 3
  if s.mod.mstate = .bringup then s.retire (P.LPDDR m) else s

/-- FN_DISABLE and FN_RESET leave the devices in self-refresh (R255). -/
def State.lpddrSelfRefresh (s : State) (m : Nat) : State :=
  (s.putB (F.LPDDR_STATUS_SELF_REFRESH m) true).putB (F.LPDDR_STATUS_TRAINED m) false

end Sys2Proof.Machine
end

