-- ==== Sys2Proof/Machine/Background.lean ====
section
/-! DEFINITION. Background access to module memory (R136, R142, R236, R243, R245, R246, R251, R262): the address map, what is held,
what is refused, and how an access is served. -/

namespace Sys2Proof.Machine

/-! ## The address map (R236, Table 10.3) -/

/-- What a module line names: a grove's line, or an LPDDR5X logical block. -/
inductive Target where
  | grove (g a : Nat)
  | lpddr (b : Nat)
  deriving DecidableEq, Repr

/-- A logical bank is retired (R134, Table 6.6). -/
def State.bankRetired (s : State) (g b : Nat) : Bool := (s.rd (Reg.GSRAM_RETIRED g (b / 32))).toNat.testBit (b % 32)

/-- The target of module line `n` (module address / 64); none for an address whose access is refused (R236). -/
def State.target (s : State) (n : Nat) : Option Target :=
  if n < 0x10000000 then
    let g := n / 0x1000000
    let a := n % 0x1000000
    if s.absent (P.GROVE g) || s.bankRetired g (a % 512) then none else some (.grove g a)
  else if 0x400000000 ≤ n then
    let b := n - 0x400000000
    if b / 32768 < s.lpUsable then
      match s.lpPlace b with
      | some pl => if s.fn (P.LPDDR pl.m) = fnFault then none else some (.lpddr b)
      | none => none
    else none
  else none

/-! ## Holds (R136, R143, R243, R246) -/

/-- A step is outstanding: from its first schedule tick until it commits or aborts. -/
def State.stepOutstanding (s : State) : Bool := s.stand.current.isSome

/-- Whether a logical block lies in a window (either copy). -/
def State.inLpWindow (s : State) (b : Nat) : Bool := (winAt lpUnit s.lpddr.wins b).isSome || inAlt lpUnit s.lpddr.wins b

/-- Whether a logical block lies in a list of regions (bases and lengths in 1 KiB units). -/
def inRegions (rs : List Region) (b : Nat) : Bool := rs.any (fun r => decide (r.base * lpUnit ≤ b) && decide (b < (r.base + r.len) * lpUnit))

/-- The present rules hold an access to this target. -/
def State.holds (s : State) (t : Target) (write : Bool) : Bool :=
  match t with
  | .grove g _ => s.stepOutstanding || s.flag (F.GWIN_STATUS_FOLD_BUSY g)
  | .lpddr b =>
    (write && s.stepOutstanding && (s.inLpWindow b || inRegions s.lpddr.scratch b || inRegions s.lpddr.reads b))
      || (s.inLpWindow b && ((s.lpPlace b).map (fun p => s.lpddr.folding.contains p.m)).getD false)

/-- Earlier requests to the same grove, or earlier writes of the same block, are still held: arrival order is kept. -/
def State.behindHeld (s : State) (t : Target) (write : Bool) : Bool :=
  s.bg.any (fun h => match s.target (h.acc.addr.toNat / 64), t with
    | some (.grove g _), .grove g' _ => decide (g = g')
    | some (.lpddr b), .lpddr b' => write && h.acc.write.isSome && decide (b = b')
    | _, _ => false)

/-- The parts of an access: line, first byte and byte count of each (R262). -/
def partsOf (addr : Nat) : Nat → Nat → List (Nat × Nat × Nat)
  | 0, _ => []
  | _, 0 => []
  | fuel + 1, len =>
    let n := min len (64 - addr % 64)
    (addr / 64, addr % 64, n) :: partsOf (addr + n) fuel (len - n)

/-- Parts of an access of `len` bytes. -/
def accParts (addr : Dword) (len : Nat) : List (Nat × Nat × Nat) := partsOf addr.toNat (len / 64 + 2) len

/-! ## Serving -/

/-- MEM.ADDR_INVALID from the FLOOR page (R236). -/
def State.addrInvalid (s : State) : State := s.raise P.FLOOR B.FLOOR_ADDR_INVALID Evn.MEM_ADDR_INVALID

/-- A background access to a copy-1 address while a stand is armed (R142, R245). -/
def State.altAccess (s : State) (t : Target) : State :=
  match t with
  | .grove g a =>
    let s := (s.errInc (P.GWIN g)).wr (Reg.GWIN_ALT_ADDR g) (BitVec.ofNat 32 a)
    s.raise (P.GWIN g) B.GWIN_WIN_ALT_ACCESS Evn.MEM_WIN_ALT_ACCESS
  | .lpddr b =>
    match s.lpPlace b with
    | none => s
    | some pl =>
      let s := s.wr (Reg.LPDDR_WIN_ALT_ADDR pl.m) (BitVec.ofNat 32 (b / 16))
      s.raise (P.LPDDR pl.m) B.LPDDR_WIN_ALT_ACCESS Evn.MEM_WIN_ALT_ACCESS

/-- Whether a target is a copy-1 address of the armed stand. -/
def State.isAlt (s : State) (t : Target) : Bool :=
  s.armed && (match t with
    | .grove g a => inAlt 1 (s.grove g).wins a
    | .lpddr b => inAlt lpUnit s.lpddr.wins b)

/-- The module line that a background access to a target takes, its copy chosen (R141). -/
def State.bgLineOf (s : State) (t : Target) : Nat :=
  match t with
  | .grove g a => groveLine g (bgLine 1 (s.grove g).wins (s.grove g).sel a)
  | .lpddr b => lpddrLine (bgLine lpUnit s.lpddr.wins s.lpddr.sel b)

/-- One line carried: BG_LINES, and BG_BLOCKS of an LPDDR5X controller. -/
def State.bgCount (s : State) (t : Target) : State :=
  let s := s.bump Reg.FLOOR_BG_LINES 1
  match t with
  | .grove _ _ => s
  | .lpddr b =>
    match s.lpPlace b with
    | some pl => s.bump (Reg.LPDDR_BG_BLOCKS pl.m) 1
    | none => s

/-- Reads the line of a target through its codes for the background (R131, R251). -/
def State.bgFetch (s : State) (t : Target) (obs : Option LineObs) : State × Decoded :=
  match t with
  | .grove g a => s.groveFetch g (bgLine 1 (s.grove g).wins (s.grove g).sel a) .background obs
  | .lpddr b => s.lpFetch (bgLine lpUnit s.lpddr.wins s.lpddr.sel b) .background obs

/-- A whole line written by the background. -/
def State.bgStore (s : State) (t : Target) (v : Line) : State :=
  let n := s.bgLineOf t
  (match t with
    | .grove g _ => s.wbDrop g (n % 0x1000000)
    | .lpddr _ => s).setLine n v

/-- A line with some of its bytes replaced. -/
def mergeBytes (v : Line) (lo : Nat) (bs : List Byte) : Line :=
  let old := lineBytes v
  lineOf (old.take lo ++ bs ++ old.drop (lo + bs.length))

/-- One part of a write is served: a copy-1 address discards it, a whole line is written, a part is merged by
read-modify-write, and discarded when that read is uncorrectable (R142, R262). -/
def State.bgWritePart (s : State) (t : Target) (lo : Nat) (bs : List Byte) (obs : Option LineObs) : State :=
  if s.isAlt t then s.altAccess t
  else
    let s := s.bgCount t
    if lo = 0 ∧ 64 ≤ bs.length then s.bgStore t (lineOf bs)
    else
      let r := s.bgFetch t obs
      if r.2.bad then r.1 else r.1.bgStore t (mergeBytes r.2.v lo bs)

/-- One part of a read: its bytes and whether it is poisoned (R142, R262). -/
def State.bgReadPart (s : State) (t : Target) (lo n : Nat) (obs : Option LineObs) : State × List Byte × Bool :=
  if s.isAlt t then (s.altAccess t, List.replicate n 0, false)
  else
    let r := (s.bgCount t).bgFetch t obs
    (r.1, ((lineBytes r.2.v).drop lo).take n, r.2.bad)

/-- The parts of a read in order. -/
def State.bgReadParts (s : State) (obs : List (Nat × LineObs)) : Nat → List (Nat × Nat × Nat) → State × List Byte × Bool
  | _, [] => (s, [], false)
  | i, (n, lo, c) :: ps =>
    match s.target n with
    | none => s.bgReadParts obs (i + 1) ps
    | some t =>
      let r := s.bgReadPart t lo c (obsAt obs i)
      let q := r.1.bgReadParts obs (i + 1) ps
      (q.1, r.2.1 ++ q.2.1, r.2.2 || q.2.2)

/-- An uncorrectable AER error (R258). -/
def State.aerUncorr (s : State) : State :=
  ((s.bump Reg.HOSTDMA_AER_UNCORR 1).errInc P.HOSTDMA).raise P.HOSTDMA B.HOSTDMA_AER Evn.HOST_AER

/-- A host DMA channel's state. -/
def State.hd (s : State) (c : Nat) : HdCh := aget {} s.host.chans c
def State.setHd (s : State) (c : Nat) (x : HdCh) : State := { s with host := { s.host with chans := aset {} s.host.chans c x } }

/-- The descriptor in hand of channel c will end with this STATUS, unless an earlier error already decides it (Table 11.6). -/
def State.hdBad (s : State) (c code : Nat) : State := if (s.hd c).bad = 0 then s.setHd c { s.hd c with bad := code } else s

/-- STATUS codes of a descriptor (Table 11.6). -/
abbrev dsComplete : Nat := 1
abbrev dsInvalid : Nat := 2
abbrev dsRefused : Nat := 3
abbrev dsPoisoned : Nat := 4
abbrev dsFailed : Nat := 5
abbrev dsStopped : Nat := 6

/-- A refused part of an access of a host DMA channel ends its descriptor (Table 11.6). -/
def State.refusedFor (s : State) (b : BgAccess) : State :=
  match b.via with
  | .dma c => s.hdBad c.val dsRefused
  | _ => s

/-- A read completes with Completer Abort; BAR2's is logged under AER (R262), and a host DMA channel's descriptor ends. -/
def State.bgAbort (s : State) (b : BgAccess) : State :=
  match b.via with
  | .dma _ => s.refusedFor b
  | .bar2 => (s.aerUncorr).emit (.bgDone b.tag .aborted [])
  | _ => s.emit (.bgDone b.tag .aborted [])

/-- Bytes from the first of the transfer in hand to host memory; nothing leaves while the link is down. -/
def State.toHost (s : State) (addr : Dword) (data : List Byte) (ro ep : Bool) : State :=
  if s.flag F.HOSTDMA_STATUS_LINK_UP then s.emit (.hostWrite addr data ro ep) else s

/-- BG_HELD of every grove and controller, from the requests held (R136, R243). -/
def State.bgHeldFlags (s : State) : State :=
  let gs := s.bg.filterMap (fun h => match s.target (h.acc.addr.toNat / 64) with
    | some (.grove g _) => some g
    | _ => none)
  let ms := s.bg.filterMap (fun h => match s.target (h.acc.addr.toNat / 64) with
    | some (.lpddr b) => (s.lpPlace b).map (fun p => p.m)
    | _ => none)
  let s := (16).fold (fun g _ s => s.putB (F.GROVE_STATUS_BG_HELD g) (gs.contains g)) s
  (16).fold (fun m _ s => s.putB (F.LPDDR_STATUS_BG_HELD m) (ms.contains m)) s

/-- A request is held (R136, R243). -/
def State.bgHold (s : State) (b : BgAccess) : State :=
  let h : BgHeld := { num := s.bgNext, acc := b, at_ := s.now }
  ({ s with bg := s.bg ++ [h], bgNext := s.bgNext + 1 }).bgHeldFlags

/-- The parts of a write in order: each is refused, held as a request of its own, or served. -/
def State.bgWriteParts (s : State) (b : BgAccess) (obs : List (Nat × LineObs)) : Nat → List Byte → List (Nat × Nat × Nat) → State
  | _, _, [] => s
  | i, bs, (n, lo, c) :: ps =>
    let mine := bs.take c
    let s := match s.target n with
      | none => (s.addrInvalid).refusedFor b
      | some t =>
        if s.holds t true || s.behindHeld t true then
          s.bgHold ({ b with addr := BitVec.ofNat 64 (64 * n + lo), len := c, write := some mine } : BgAccess)
        else s.bgWritePart t lo mine (obsAt obs i)
    s.bgWriteParts b obs (i + 1) (bs.drop c) ps

/-- The parts of a module-to-host transfer, each sent as it is read; a poisoned one with EP = 1 (R266). -/
def State.dmaSendParts (s : State) (c : Nat) (ro : Bool) (obs : List (Nat × LineObs)) : Nat → Dword → List (Nat × Nat × Nat) → State
  | _, _, [] => s
  | i, host, (n, lo, k) :: ps =>
    match s.target n with
    | none => s.dmaSendParts c ro obs (i + 1) (host + BitVec.ofNat 64 k) ps
    | some t =>
      let r := s.bgReadPart t lo k (obsAt obs i)
      let s := if r.2.2 then r.1.hdBad c dsPoisoned else r.1
      (s.toHost host r.2.1 ro r.2.2).dmaSendParts c ro obs (i + 1) (host + BitVec.ofNat 64 k) ps

/-- A read whose parts are all served now (R262, R266). -/
def State.bgServeRead (s : State) (b : BgAccess) (obs : List (Nat × LineObs)) : State :=
  match b.via with
  | .dma c =>
    let d := ((s.hd c.val).desc).getD 0
    let s := s.dmaSendParts c.val (d.toNat.testBit 162) obs 0 (d.setWidth 64) (accParts b.addr b.len)
    s.setHd c.val { s.hd c.val with sent := true }
  | _ =>
    let r := s.bgReadParts obs 0 (accParts b.addr b.len)
    r.1.emit (.bgDone b.tag (if r.2.2 then .poisoned else .ok) r.2.1)

/-- The completion of a write; a host DMA channel has none of its own. -/
def State.bgWrote (s : State) (b : BgAccess) (st : BgStatus) : State :=
  match b.via with
  | .dma _ => s
  | _ => s.emit (.bgDone b.tag st [])

/-- A background access in Hold (Table 11.3). -/
def State.bgInHold (s : State) (b : BgAccess) : State :=
  let s := s.raise P.HOSTDMA B.HOSTDMA_MEM_UNAVAILABLE Evn.HOST_MEM_UNAVAILABLE
  if b.write.isSome then (s.refusedFor b).bgWrote b .dropped else s.bgAbort b

/-- A background access arrives (R136, R236, R243, R262). A read waits whole while any of its parts is held. In Standby the module
gives no completion. -/
def State.bgArrive (s : State) (b : BgAccess) (obs : List (Nat × LineObs)) : State :=
  match s.mod.power with
  | .standby => s
  | .hold => s.bgInHold b
  | _ =>
    match b.write with
    | some bs =>
      let s := s.bgWriteParts b obs 0 bs (accParts b.addr bs.length)
      if s.bg.any (fun h => h.acc.tag == b.tag && h.acc.via == b.via && h.acc.write.isSome) then s else s.bgWrote b .ok
    | none =>
      let ts := (accParts b.addr b.len).map (fun p => s.target p.1)
      if ts.any (fun t => t.isNone) then (s.addrInvalid).bgAbort b
      else if ts.any (fun t => (t.map (fun t => s.holds t false || s.behindHeld t false)).getD false) then s.bgHold b
      else s.bgServeRead b obs

/-- A background access (BG_ACCESS). -/
def execBgAccess (b : BgAccess) (obs : List (Nat × LineObs)) (s : State) : Host.Outcome State Fault Refusal := .next (s.bgArrive b obs)

/-! ## Serving what was held -/

/-- Whether the present rules still hold any part of a held request. -/
def State.stillHeld (s : State) (b : BgAccess) : Bool :=
  (accParts b.addr b.len).any (fun p => ((s.target p.1).map (fun t => s.holds t b.write.isSome)).getD false)

/-- BG_WAIT_MAX of the grove of a request that has ended its hold (Table 6.5). -/
def State.bgWaited (s : State) (h : BgHeld) : State :=
  match s.target (h.acc.addr.toNat / 64) with
  | some (.grove g _) =>
    let us := min ((s.now - h.at_) / ticksUs) 0xFFFFFFFF
    if (s.rd (Reg.GROVE_BG_WAIT_MAX g)).toNat < us then s.wr (Reg.GROVE_BG_WAIT_MAX g) (BitVec.ofNat 32 us) else s
  | _ => s

/-- One held request is served; `obs` is numbered 64 × hold number + part. -/
def State.bgServeOne (s : State) (h : BgHeld) (obs : List (Nat × LineObs)) : State :=
  let mine := obs.filterMap (fun o => if o.1 / 64 = h.num then some (o.1 % 64, o.2) else none)
  let s := s.bgWaited h
  let s := { s with bg := s.bg.filter (fun x => decide (x.num ≠ h.num)) }
  match h.acc.write with
  | none => if (accParts h.acc.addr h.acc.len).any (fun p => (s.target p.1).isNone) then (s.addrInvalid).bgAbort h.acc else s.bgServeRead h.acc mine
  | some bs =>
    let s := match s.target (h.acc.addr.toNat / 64) with
      | none => (s.addrInvalid).refusedFor h.acc
      | some t => s.bgWritePart t (h.acc.addr.toNat % 64) bs (obsAt mine 0)
    if s.bg.any (fun x => x.acc.tag == h.acc.tag && x.acc.via == h.acc.via && x.acc.write.isSome) then s else s.bgWrote h.acc .ok

/-- Serves held requests in arrival order. -/
def State.bgServeAll (s : State) (obs : List (Nat × LineObs)) : List BgHeld → State
  | [] => s
  | h :: hs => (if s.stillHeld h.acc then s else s.bgServeOne h obs).bgServeAll obs hs

/-- A requester's writes before its fence that are still held: BAR2 writes and those of its own path, host DMA aside (R39, R266). -/
def State.fenceOpen (s : State) (req : Req) (mark : Nat) : Bool :=
  s.bg.any (fun h => h.acc.req == req && h.acc.write.isSome && decide (h.num < mark)
    && (match h.acc.via with
      | .dma _ => false
      | _ => true))

/-- The requesters of Table 2.6 that have a fence context here, by identifier. -/
def reqOfIdent (i : Nat) : Req :=
  match i % 16 with
  | 0 => .glade
  | 1 => .canopyA
  | 2 => .canopyB
  | 3 => .host
  | 4 => .svc (Fin.ofNat 8 (i / 16))
  | 5 => .sideband
  | 6 => .debug
  | _ => .remote (BitVec.ofNat 13 (i / 65536))

/-- Waiting FENCE_DONE reads whose writes have all taken effect complete with the tag and PENDING = 0 (R39). -/
def State.fencesDone (s : State) : State :=
  s.ctx.foldl (fun s e =>
    let r := reqOfIdent e.1
    if e.2.waiting && !s.fenceOpen r e.2.mark then
      (s.setReqCtx r { s.reqCtx r with waiting := false }).emit (.readData r Reg.ARB_FENCE_DONE (e.2.tag.setWidth 32))
    else s) s

/-- Held background requests are served (R136, R243, R246). -/
def State.bgRelease (s : State) (obs : List (Nat × LineObs)) : State := ((s.bgServeAll obs s.bg).bgHeldFlags).fencesDone

/-- BG_HELD_SERVE; in Hold and Standby there is nothing to serve from. -/
def execBgHeldServe (obs : List (Nat × LineObs)) (s : State) : Host.Outcome State Fault Refusal :=
  if s.mod.power = .run ∨ s.mod.power = .idle then .next (s.bgRelease obs) else .next s

end Sys2Proof.Machine
end

