-- ==== Sys2Proof/Machine/Host.lean ====
section
/-! DEFINITION. The host interface (11): the PCIe endpoint, BAR2, MSI-X, host DMA, the submission window, completion rings and
the host heartbeat. -/

namespace Sys2Proof.Machine

/-! ## MSI-X (R263, R264) -/

def State.setMsix (s : State) (m : MsixSt) : State := { s with host := { s.host with msix := m } }

/-- A vector may send. -/
def State.msixOpen (s : State) (v : Nat) : Bool := (aget none s.host.msix.entries v).isSome && !s.host.msix.funcMask

/-- A cause on a vector: it waits for its message, or sets the pending bit of a masked vector (R263). -/
def State.msixCause (s : State) (v : Nat) : State :=
  let m := s.host.msix
  if s.msixOpen v then s.setMsix { m with due := aset false m.due v true } else s.setMsix { m with pba := aset false m.pba v true }

/-- Ticks between two messages of a vector (R264): 2 µs for vectors 0–11, MOD_US of the rings that name any other. -/
def State.msixGap (s : State) (v : Nat) : Nat :=
  if v < 16 then 2 * ticksUs
  else ticksUs * ((List.range 16).foldl (fun a r =>
    if s.get (F.SUBMIT_CQ_VEC_VECTOR r) = v ∧ s.flag (F.SUBMIT_CQ_VEC_MSI_EN r) then max a (s.get (F.SUBMIT_CQ_VEC_MOD_US r)) else a) 0)

/-- A waiting vector sends its message once its interval has elapsed; causes that arrived meanwhile are merged in it (R264). -/
def State.msixTry (s : State) (v : Nat) : State :=
  let m := s.host.msix
  match aget none m.entries v with
  | none => s
  | some (addr, data) =>
    let late := match aget none m.last v with
      | none => true
      | some t => decide (t + s.msixGap v ≤ s.now)
    if aget false m.due v && !m.funcMask && late && s.flag F.HOSTDMA_STATUS_LINK_UP then
      (s.setMsix { m with due := aset false m.due v false, last := aset none m.last v (some s.now) }).emit (.msi v addr data)
    else s

def execMsixSend (v : Fin 64) (s : State) : Host.Outcome State Fault Refusal := .next (s.msixTry v.val)

/-- A pending bit becomes a message when its vector is unmasked. -/
def State.msixPend (s : State) (v : Nat) : State :=
  let m := s.host.msix
  if aget false m.pba v && s.msixOpen v then (s.setMsix { m with pba := aset false m.pba v false, due := aset false m.due v true }).msixTry v else s

/-- A vector, or the function, is unmasked (R263). -/
def execMsixUnmask (v : Option (Fin 64)) (addr : Dword) (data : Word) (s : State) : Host.Outcome State Fault Refusal :=
  let m := s.host.msix
  match v with
  | some v => .next ((s.setMsix { m with entries := aset none m.entries v.val (some (addr, data)) }).msixPend v.val)
  | none => .next ((List.range 64).foldl (fun s v => s.msixPend v) (s.setMsix { m with funcMask := false }))

/-! ## Host DMA (R265 to R267; Tables 11.5, 11.6) -/

def hdHost (d : BitVec 256) : Dword := d.setWidth 64
def hdMod (d : BitVec 256) : Dword := (d >>> 64).setWidth 64
def hdLen (d : BitVec 256) : Nat := d.toNat / 2 ^ 128 % 2 ^ 32
def hdToHost (d : BitVec 256) : Bool := d.toNat.testBit 160
def hdIrq (d : BitVec 256) : Bool := d.toNat.testBit 161
def hdNext (d : BitVec 256) : Dword := (d >>> 192).setWidth 64

/-- A descriptor without a reserved field set, its LEN in range and its addresses aligned (Table 11.6, 0x02). -/
def hdValid (d : BitVec 256) : Bool :=
  decide (d.toNat / 2 ^ 164 % 2 ^ 20 = 0) && decide ((hdHost d).toNat % 4 = 0) && decide ((hdMod d).toNat % 4 = 0)
    && decide (hdLen d % 4 = 0) && decide (4 ≤ hdLen d) && decide (hdLen d ≤ 67108864) && decide ((hdNext d).toNat % 32 = 0)

/-- A host DMA channel is running. -/
def State.hdBusy (s : State) (c : Nat) : Bool := s.flag (F.HOSTDMA_CH_STATE_BUSY c)

/-- The module reads host memory for a channel; with the link down the request fails (R257, Table 11.6). -/
def State.hostFetch (s : State) (c : Nat) (addr : Dword) (len : Nat) : State :=
  if s.flag F.HOSTDMA_STATUS_LINK_UP then s.emit (.hostRead c addr len) else s.hdBad c dsFailed

/-- The channel takes up the descriptor at `addr`. -/
def State.hdTake (s : State) (c : Nat) (addr : Dword) : State :=
  ((s.setHd c {}).wr64 (Reg.HOSTDMA_CH_CUR_LO c) addr).hostFetch c addr 32

/-- BUSY of a channel, in CHc_STATE and CH_BUSY. -/
def State.hdSetBusy (s : State) (c : Nat) (b : Bool) : State :=
  (s.putB (F.HOSTDMA_CH_STATE_BUSY c) b).putB ⟨Reg.HOSTDMA_STATUS, c, 1⟩ b

/-- A channel starts at a descriptor (R265). -/
def State.hdStart (s : State) (c : Nat) (addr : Dword) : State :=
  if s.fn P.HOSTDMA = fnReady then ((s.hdSetBusy c true).putB (F.HOSTDMA_CH_STATE_ERR c) false).hdTake c addr else s

/-- The 64-bit value that a write of NAME_HI completes: the requester's held NAME_LO, or the half the register holds (R35). -/
def State.pairValue (s : State) (req : Req) (hiOff : Nat) (hi : Word) : Dword :=
  hi ++ ((aget none (s.reqCtx req).heldLo (hiOff - 4)).getD (s.rd (hiOff - 4)))

/-- The held NAME_LO of a requester is used up. -/
def State.dropLo (s : State) (req : Req) (loOff : Nat) : State :=
  s.setReqCtx req { s.reqCtx req with heldLo := aset none (s.reqCtx req).heldLo loOff none }

/-- A write of CHc_START_HI: refused for a busy channel or an address that is no multiple of 32 (R265, R274). -/
def State.dmaStartWrite (s : State) (c : Nat) (w : WriteReq) : State :=
  let off := Reg.HOSTDMA_CH_START_HI c
  let addr := s.pairValue w.req off w.data
  s.gateW off w (hostOrCanopy w.req && !s.hdBusy c && decide (addr.toNat % 32 = 0))
    (fun s => ((s.dropLo w.req (off - 4)).wr64 (Reg.HOSTDMA_CH_START_LO c) addr).hdStart c addr)

def execDmaStart (c : Fin 4) (w : WriteReq) (s : State) : Host.Outcome State Fault Refusal := .next (s.dmaStartWrite c.val w)

/-- A descriptor arrives (R265): checked, then its data are asked for, or read and sent. -/
def State.hdDesc (s : State) (c : Nat) (d : BitVec 256) (obs : List (Nat × LineObs)) : State :=
  let s := s.setHd c { s.hd c with desc := some d }
  if !hdValid d then s.hdBad c dsInvalid
  else if hdToHost d then
    s.bgArrive { req := .host, via := .dma (Fin.ofNat 4 c), addr := hdMod d, len := hdLen d, write := none, tag := BitVec.ofNat 32 c } obs
  else s.hostFetch c (hdHost d) (hdLen d)

/-- Data of a host-to-module transfer arrive: written to module memory, or discarded when poisoned (R266). -/
def State.hdData (s : State) (c off : Nat) (bytes : List Byte) (ep : Bool) (obs : List (Nat × LineObs)) : State :=
  match (s.hd c).desc with
  | none => s
  | some d =>
    let s := s.setHd c { s.hd c with got := (s.hd c).got + bytes.length }
    if ep then s.hdBad c dsPoisoned
    else
      s.bgArrive { req := .host, via := .dma (Fin.ofNat 4 c), addr := hdMod d + BitVec.ofNat 64 off, len := bytes.length, write := some bytes,
                   tag := BitVec.ofNat 32 c } obs

def execDmaCompletionRx (c : Fin 4) (cpl : DmaCpl) (obs : List (Nat × LineObs)) (s : State) : Host.Outcome State Fault Refusal :=
  if s.hdBusy c.val then
    match cpl with
    | .desc raw => .next (if (s.hd c.val).desc.isNone && !(s.hd c.val).stopping then s.hdDesc c.val raw obs else s)
    | .data off bytes ep => .next (s.hdData c.val off bytes ep obs)
    | .failed => .next (s.hdBad c.val dsFailed)
  else .next s

/-- The STATUS byte is written to the current descriptor, after the data and never relaxed (R266). -/
def State.hdWriteStatus (s : State) (c code : Nat) : State :=
  let s := s.put (F.HOSTDMA_CH_STATE_LAST_STATUS c) code
  s.toHost (s.rd64 (Reg.HOSTDMA_CH_CUR_LO c) + 23) [BitVec.ofNat 8 code] false false

/-- A descriptor ends with an error: the channel stops (R267). -/
def State.hdError (s : State) (c code : Nat) : State :=
  let s := ((s.hdWriteStatus c code).hdSetBusy c false).putB (F.HOSTDMA_CH_STATE_ERR c) true
  let s := ((s.setHd c {}).errInc P.HOSTDMA).raise P.HOSTDMA B.HOSTDMA_DMA_ERROR Evn.HOST_DMA_ERROR
  s.msixCause (8 + c)

/-- Writes of a channel that are still held. -/
def State.hdWaiting (s : State) (c : Nat) : Bool := s.bg.any (fun h => decide (h.acc.via = .dma (Fin.ofNat 4 c)))

/-- A descriptor completes (R266, R267). -/
def execDmaDescComplete (c : Fin 4) (s : State) : Host.Outcome State Fault Refusal :=
  let x := s.hd c.val
  if s.hdBusy c.val ∧ !x.stopping then
    if x.bad ≠ 0 then .next (s.hdError c.val x.bad)
    else
      match x.desc with
      | none => .next s
      | some d =>
        if (hdToHost d && x.sent) || (!hdToHost d && decide (hdLen d ≤ x.got) && !s.hdWaiting c.val) then
          let s := (s.hdWriteStatus c.val dsComplete).bumpW (Reg.HOSTDMA_CH_DONE c.val) 1
          let s := if hdIrq d then s.msixCause (8 + c.val) else s
          .next (if hdNext d = 0 then (s.setHd c.val {}).hdSetBusy c.val false else s.hdTake c.val (hdNext d))
        else .next s
  else .next s

/-- STOP halts issue and waits for outstanding completions (R267). -/
def State.hdStop (s : State) (c : Nat) : State := if s.hdBusy c then s.setHd c { s.hd c with stopping := true } else s

/-- A write of CHc_CTRL (R267, R274). -/
def State.dmaCtrlWrite (s : State) (c : Nat) (w : WriteReq) : State :=
  s.gateW (Reg.HOSTDMA_CH_CTRL c) w (hostOrCanopy w.req) (fun s => if w.data.toNat.testBit 0 then s.hdStop c else s)

def execDmaStop (c : Fin 4) (req : Req) (s : State) : Host.Outcome State Fault Refusal :=
  .next (s.dmaCtrlWrite c.val { req := req, data := 1, be := 15 })

/-- The completions have arrived, or 50 ms have passed: 0x06 is written to the current descriptor (R267). -/
def execDmaStopDone (c : Fin 4) (s : State) : Host.Outcome State Fault Refusal :=
  if s.hdBusy c.val ∧ (s.hd c.val).stopping then .next (s.hdError c.val dsStopped) else .next s

/-- A non-posted request gets no completion within 50 ms (Table 11.1, R258, Table 11.6). -/
def execCompletionTimeout (c : Option (Fin 4)) (s : State) : Host.Outcome State Fault Refusal :=
  let s := s.aerUncorr
  match c with
  | some c => .next (if s.hdBusy c.val then s.hdBad c.val dsFailed else s)
  | none => .next s

/-! ## The link and the endpoint (R257 to R259, R469) -/

/-- The endpoint is powered in every power state but Standby (R259). -/
def State.endpointOn (s : State) : Bool := decide (s.mod.power ≠ .standby)

/-- The PCIe link trains; below 32 GT/s x8 it is degraded (R257). -/
def execPcieLinkUp (width : BitVec 4) (speed : BitVec 3) (s : State) : Host.Outcome State Fault Refusal :=
  if s.endpointOn && !s.mod.perst then
    let s := ((s.putB F.HOSTDMA_STATUS_LINK_UP true).put F.HOSTDMA_STATUS_WIDTH width.toNat).put F.HOSTDMA_STATUS_SPEED speed.toNat
    .next (if width = 8 ∧ speed = 5 then s else s.raise P.HOSTDMA B.HOSTDMA_LINK_DEGRADED Evn.HOST_LINK_DEGRADED)
  else .next s

/-- LINK_UP, WIDTH and SPEED as with the link down. -/
def State.pcieDownRegs (s : State) : State :=
  ((s.putB F.HOSTDMA_STATUS_LINK_UP false).put F.HOSTDMA_STATUS_WIDTH 0).put F.HOSTDMA_STATUS_SPEED 0

/-- The link goes down: every running channel stops with STATUS 0x05 (R257). -/
def execPcieLinkDown (s : State) : Host.Outcome State Fault Refusal :=
  if s.flag F.HOSTDMA_STATUS_LINK_UP then
    let s := (s.pcieDownRegs).raise P.HOSTDMA B.HOSTDMA_LINK_DOWN Evn.HOST_LINK_DOWN
    .next ((4).fold (fun c _ s => if s.hdBusy c then s.hdError c dsFailed else s) s)
  else .next s

/-- The uncorrectable errors of R258. -/
def aerIsUncorr : AerKind → Bool
  | .receiverError => false
  | .badTlp => false
  | .badDllp => false
  | .replayRollover => false
  | .replayTimeout => false
  | .advisoryNonFatal => false
  | .poisonedTlp => true
  | .completionTimeout => true
  | .completerAbort => true
  | .unexpectedCompletion => true
  | .unsupportedRequest => true
  | .dlProtocol => true
  | .fcProtocol => true
  | .receiverOverflow => true
  | .malformedTlp => true

def execAerError (k : AerKind) (s : State) : Host.Outcome State Fault Refusal := .next (if aerIsUncorr k then s.aerUncorr else s)

/-- FN_RESET of the HOSTDMA page: channels stop at once; what the endpoint link and Glade's timer report is not reset (R273). -/
def State.hostdmaReset (s : State) : State :=
  let st := s.rd Reg.HOSTDMA_STATUS
  let s := s.fnResetPage P.HOSTDMA
  { s.wr Reg.HOSTDMA_STATUS (st &&& 0x7F30) with host := { s.host with chans := [] } }

/-- FN_RESET of the SUBMIT page: scans stop, and completions not yet written go with the rings. -/
def State.submitReset (s : State) : State :=
  let s := s.fnResetPage P.SUBMIT
  { s with host := { s.host with torn := 0, cq := [], cqFull := [] } }

/-- FLR, hot reset and PERST_L reset the endpoint, the MSI-X table and the two pages (R259). -/
def State.endpointReset (s : State) : State := ((s.setMsix {}).hostdmaReset).submitReset

def execFlr (s : State) : Host.Outcome State Fault Refusal := .next (if s.endpointOn then s.endpointReset else s)

def execHotReset (s : State) : Host.Outcome State Fault Refusal := .next (if s.endpointOn then s.endpointReset else s)

/-- PERST_L is asserted (R259, R469). -/
def execPerstAssert (s : State) : Host.Outcome State Fault Refusal :=
  let s := { s with mod := { s.mod with perst := true } }
  .next (if s.endpointOn then (s.endpointReset).pcieDownRegs else s)

/-- PERST_L is deasserted: the endpoint trains once it is ready to (R469). -/
def execPerstDeassert (s : State) : Host.Outcome State Fault Refusal :=
  let s := { s with mod := { s.mod with perst := false } }
  .next (if s.endpointOn then s.emit .pcieTrain else s)

/-- A configuration request is answered with Retry Status until step 2 of bring-up completes (R469). -/
def execConfigRequest (tag : BitVec 32) (s : State) : Host.Outcome State Fault Refusal :=
  .next (if s.endpointOn && !s.mod.perst then s.emit (.cfgReply tag (!s.host.cfgOk)) else s)

/-! ## BAR2 (R261, R262) -/

/-- BAR2 offset o reaches module address BAR2_BASE + o. -/
def State.bar2Addr (s : State) (off : BitVec 34) : Dword := s.rd64 Reg.HOSTDMA_BAR2_BASE_LO + off.setWidth 64

def execBar2Read (off : BitVec 34) (len : Nat) (tag : BitVec 32) (obs : List (Nat × LineObs)) (s : State) : Host.Outcome State Fault Refusal :=
  .next (s.bgArrive { req := .host, via := .bar2, addr := s.bar2Addr off, len := len, write := none, tag := tag } obs)

/-- A write TLP with EP = 1 is discarded, logged as a poisoned TLP and raises HOST.POISON_RX (R262). -/
def execBar2Write (off : BitVec 34) (bytes : List Byte) (ep : Bool) (tag : BitVec 32) (obs : List (Nat × LineObs)) (s : State) :
    Host.Outcome State Fault Refusal :=
  if ep then
    .next (if s.endpointOn then (s.aerUncorr).raise P.HOSTDMA B.HOSTDMA_POISON_RX Evn.HOST_POISON_RX else s)
  else .next (s.bgArrive { req := .host, via := .bar2, addr := s.bar2Addr off, len := bytes.length, write := some bytes, tag := tag } obs)

/-- A BAR2 read held longer than READ_HOLD_MAX completes with CA (Table 11.3). -/
def execBar2ReadAbort (tag : BitVec 32) (s : State) : Host.Outcome State Fault Refusal :=
  match s.bg.find? (fun h => h.acc.tag == tag && decide (h.acc.via = .bar2) && h.acc.write.isNone) with
  | none => .next s
  | some h =>
    let s := ({ s with bg := s.bg.filter (fun x => decide (x.num ≠ h.num)) }).bgHeldFlags
    .next ((s.raise P.HOSTDMA B.HOSTDMA_BAR2_READ_ABORT Evn.HOST_BAR2_READ_ABORT).bgAbort h.acc)

/-! ## Completion rings (R272) -/

/-- The `n` low bytes of a bit vector, byte 0 first. -/
def bvBytes {w : Nat} (n : Nat) (v : BitVec w) : List Byte := leBytes n v.toNat

/-- A ring is full (R272). -/
def State.cqIsFull (s : State) (r : Nat) : Bool :=
  decide ((s.rd (Reg.SUBMIT_CQ_SIZE r)).toNat ≤ (s.rd (Reg.SUBMIT_CQ_TAIL r) - s.rd (Reg.SUBMIT_CQ_HEAD r)).toNat)

/-- A full episode begins with one HOST.CQ_FULL and ends when there is space (R272). -/
def State.cqEpisode (s : State) (r : Nat) : State :=
  let full := s.cqIsFull r
  if full && !aget false s.host.cqFull r then
    ({ s with host := { s.host with cqFull := aset false s.host.cqFull r true } }).raise P.SUBMIT B.SUBMIT_CQ_FULL Evn.HOST_CQ_FULL
  else { s with host := { s.host with cqFull := aset false s.host.cqFull r full } }

/-- A completion body joins its ring's records; a disabled ring takes none. -/
def State.cqPost (s : State) (r : Nat) (body : BitVec 480) : State :=
  if s.rd (Reg.SUBMIT_CQ_SIZE r) = 0 then s
  else { s with host := { s.host with cq := aset [] s.host.cq r (aget [] s.host.cq r ++ [body]) } }

/-- The oldest waiting record of a ring is written: body, then CSEQ, then the ring's vector (R272). A full ring holds it. -/
def State.cqWrite (s : State) (r : Nat) : State :=
  match aget [] s.host.cq r with
  | [] => s
  | b :: bs =>
    if s.cqIsFull r then s.cqEpisode r
    else if !s.flag F.HOSTDMA_STATUS_LINK_UP then s
    else
      let size := (s.rd (Reg.SUBMIT_CQ_SIZE r)).toNat
      let cseq := s.rd (Reg.SUBMIT_CQ_CSEQ r)
      let addr := s.rd64 (Reg.SUBMIT_CQ_BASE_LO r) + BitVec.ofNat 64 (64 * ((cseq.toNat + 2 ^ 32 - 1) % 2 ^ 32 % size))
      let s := { s with host := { s.host with cq := aset [] s.host.cq r bs } }
      let s := (s.toHost addr (bvBytes 60 b) false false).toHost (addr + 60) (bvBytes 4 cseq) false false
      let s := (s.bumpW (Reg.SUBMIT_CQ_TAIL r) 1).wr (Reg.SUBMIT_CQ_CSEQ r) (if cseq = 0xFFFFFFFF then 1 else cseq + 1)
      let s := if s.flag (F.SUBMIT_CQ_VEC_MSI_EN r) then s.msixCause (s.get (F.SUBMIT_CQ_VEC_VECTOR r)) else s
      s.cqEpisode r

/-- CQ_RECORD_WRITE. -/
def execCqRecordWrite (r : Fin 16) (s : State) : Host.Outcome State Fault Refusal :=
  .next (if s.fn P.SUBMIT = fnReady ∨ s.fn P.SUBMIT = fnDraining then s.cqWrite r.val else s)

/-- The records that now fit are written. -/
def State.cqDrain (s : State) (r : Nat) : Nat → State
  | 0 => s
  | n + 1 => if s.cqIsFull r then s.cqEpisode r else (s.cqWrite r).cqDrain r n

/-- A write of CQr_HEAD: refused when TAIL − HEAD would exceed the size; else held records resume (R272, R275). -/
def State.cqHeadSet (s : State) (r : Nat) (w : WriteReq) : State :=
  let off := Reg.SUBMIT_CQ_HEAD r
  s.gateW off w (hostCanopySvc w.req && decide ((s.rd (Reg.SUBMIT_CQ_TAIL r) - w.data).toNat ≤ (s.rd (Reg.SUBMIT_CQ_SIZE r)).toNat))
    (fun s =>
      let s := s.wr off w.data
      if s.rd (Reg.SUBMIT_CQ_SIZE r) = 0 then s else (s.cqEpisode r).cqDrain r (aget [] s.host.cq r).length)

def execCqHeadWrite (r : Fin 16) (w : WriteReq) (s : State) : Host.Outcome State Fault Refusal := .next (s.cqHeadSet r.val w)

/-- A completion body (Table 12.4). -/
def cqBody (kind reason count : Nat) (seq : Word) (tag : Dword) (first total : Nat) (step ftime : Dword) (slot : Nat) : BitVec 480 :=
  BitVec.ofNat 480 (kind + 2 ^ 8 * reason + 2 ^ 16 * count + 2 ^ 32 * seq.toNat + 2 ^ 64 * tag.toNat + 2 ^ 128 * first + 2 ^ 160 * total
    + 2 ^ 192 * step.toNat + 2 ^ 256 * ftime.toNat + 2 ^ 320 * slot)

/-! ## Service cores and the scan (R270, R271, R277) -/

/-- READY service cores, ascending. -/
def State.svcReady (s : State) : List Nat := (List.range 8).filter (fun c => decide (s.fn (P.SVC c) = fnReady))

/-- The sequencer's core: the lowest of one, else the second-lowest (Table 12.1). -/
def State.seqCore (s : State) : Option Nat :=
  match s.svcReady with
  | [] => none
  | [c] => some c
  | _ :: c :: _ => some c

/-- ROLE and SCAN_TOO of every core, and SCAN_CORE and SCANNING (Table 12.1, R271). -/
def State.svcRoles (s : State) : State :=
  let r := s.svcReady
  let role := fun (c : Nat) =>
    if !r.contains c then 0
    else if s.seqCore = some c then 2
    else if r.head? = some c then 1
    else 3
  let s := (8).fold (fun c _ (s : State) =>
    (s.put (F.SVC_STATUS_ROLE c) (role c)).putB (F.SVC_STATUS_SCAN_TOO c) (decide (s.seqCore = some c) && decide (r.length = 1))) s
  (s.put F.SUBMIT_STATUS_SCAN_CORE (r.headD 0)).putB F.SUBMIT_STATUS_SCANNING (!r.isEmpty && decide (s.fn P.SUBMIT = fnReady))

/-- CRC-32C (Castagnoli) of bytes. -/
def crc32c (bs : List Byte) : Nat :=
  let bit := fun (c : Nat) => if c % 2 = 1 then c / 2 ^^^ 0x82F63B78 else c / 2
  (bs.foldl (fun c b => (8).fold (fun _ _ c => bit c) (c ^^^ b.toNat)) 0xFFFFFFFF) ^^^ 0xFFFFFFFF

/-- Fields of a request record (Table 11.7). -/
def recSeq (v : BitVec 512) : Word := v.setWidth 32
def recType (v : BitVec 512) : Nat := v.toNat / 2 ^ 32 % 256
def recTag (v : BitVec 512) : Dword := (v >>> 64).setWidth 64
def recChecked (v : BitVec 512) : Bool := decide (v.toNat / 2 ^ 480 = crc32c ((bvBytes 64 v).take 60))

/-- Reads slot CONSUMED_SEQ mod WIN_SLOTS; an uncorrectable line counts as unchecked. -/
def State.scanSlot (s : State) : State × Option (BitVec 512) :=
  let slots := (s.rd Reg.SUBMIT_WIN_SLOTS).toNat
  let i := (s.rd Reg.SUBMIT_CONSUMED_SEQ).toNat % slots
  match s.target ((s.rd64 Reg.SUBMIT_WIN_BASE_LO).toNat / 64 + i) with
  | none => (s.addrInvalid, none)
  | some t =>
    let r := s.bgFetch t none
    (r.1.bgCount t, if r.2.bad then none else some r.2.v)

/-- A slot that has stalled TORN_SCANS scans is rejected (R270). -/
def State.scanReject (s : State) (v : BitVec 512) : State :=
  let cons := s.rd Reg.SUBMIT_CONSUMED_SEQ
  let s := ((s.bump Reg.SUBMIT_REJECTED 1).errInc P.SUBMIT).raise P.SUBMIT B.SUBMIT_REC_REJECTED Evn.HOST_REC_REJECTED
  let s := s.cqPost 0 (cqBody 4 0x10 0 cons (recTag v) 0 0 0 s.ftime 0xFFFF)
  let s := (s.wr Reg.SUBMIT_CONSUMED_SEQ (cons + 1)).putB F.SUBMIT_STATUS_STALLED false
  { s with host := { s.host with torn := 0 } }

/-- The slot at which a scan stops (R270). -/
def State.scanStop (s : State) (v : Option (BitVec 512)) : State :=
  let cons := s.rd Reg.SUBMIT_CONSUMED_SEQ
  let slots := s.rd Reg.SUBMIT_WIN_SLOTS
  match v with
  | none => s
  | some v =>
    if recSeq v = cons then
      let n := s.host.torn + 1
      let s := s.putB F.SUBMIT_STATUS_STALLED true
      if s.get F.SUBMIT_SCAN_CFG_TORN_SCANS ≤ n then s.scanReject v else { s with host := { s.host with torn := n } }
    else
      let s := ({ s with host := { s.host with torn := 0 } }).putB F.SUBMIT_STATUS_STALLED false
      if recChecked v && decide (recSeq v ≠ cons - slots) then s.raise P.SUBMIT B.SUBMIT_SEQ_GAP Evn.HOST_SEQ_GAP else s

/-- The records of one scan. -/
def State.scanLoop (s : State) : Nat → State
  | 0 => s
  | n + 1 =>
    let r := s.scanSlot
    match r.2 with
    | some v =>
      if recSeq v = r.1.rd Reg.SUBMIT_CONSUMED_SEQ ∧ recType v ≠ 0 ∧ recChecked v then
        let s := (r.1.bumpW Reg.SUBMIT_CONSUMED_SEQ 1).putB F.SUBMIT_STATUS_STALLED false
        ({ s with host := { s.host with torn := 0, submitted := s.host.submitted ++ [v] } }).scanLoop n
      else r.1.scanStop r.2
    | none => r.1.scanStop none

/-- A scan of the submission window by the lowest-numbered READY service core (R270, R271). -/
def execSubmitScan (s : State) : Host.Outcome State Fault Refusal :=
  if s.fn P.SUBMIT = fnReady ∧ !s.svcReady.isEmpty ∧ s.mod.power ≠ .hold ∧ s.mod.power ≠ .standby then
    let before := s.rd Reg.SUBMIT_CONSUMED_SEQ
    let s := (s.scanLoop (s.get F.SUBMIT_SCAN_CFG_SCAN_MAX)).bumpW Reg.SUBMIT_SCANS 1
    let after := s.rd Reg.SUBMIT_CONSUMED_SEQ
    let shadow := s.rd64 Reg.SUBMIT_SHADOW_LO
    .next (if after ≠ before ∧ shadow ≠ 0 then s.toHost shadow (bvBytes 4 after) false false else s)
  else .next s

/-- FN_ENABLE of SUBMIT: the window must lie in usable LPDDR5X clear of the armed stand's declarations (R268, R269, R272). -/
def State.submitStart (s : State) : State :=
  let base := (s.rd64 Reg.SUBMIT_WIN_BASE_LO).toNat
  let slots := (s.rd Reg.SUBMIT_WIN_SLOTS).toNat
  let b0 := base / 64 - 0x400000000
  let inside := decide (0x10000000000 ≤ base) && decide (b0 + slots ≤ 32768 * s.lpUsable)
  let overlap := fun (r : Region) => decide (r.base * lpUnit < b0 + slots) && decide (b0 < (r.base + r.len) * lpUnit)
  let wins := s.lpddr.wins.any (fun w => overlap ⟨w.base, w.len⟩ || overlap ⟨w.alt, w.len⟩)
  if !inside || (s.armed && (wins || s.lpddr.scratch.any overlap || s.lpddr.reads.any overlap)) then s.toFault P.SUBMIT
  else
    let s := (s.wr Reg.SUBMIT_CONSUMED_SEQ (s.rd Reg.SUBMIT_START_SEQ)).wr Reg.SUBMIT_SCANS 0
    let s := (16).fold (fun r _ (s : State) => s.wr (Reg.SUBMIT_CQ_CSEQ r) 1) s
    (({ s with host := { s.host with torn := 0 } }).setFn P.SUBMIT fnReady).svcRoles

/-! ## HOST_ALIVE (R273) -/

/-- ALIVE_AGE in ms: 0 in STANDBY, BRINGUP and TRIPPED. -/
def State.aliveAge (s : State) : Nat :=
  match s.mod.mstate with
  | .standby => 0
  | .bringup => 0
  | .tripped => 0
  | _ => min (s.host.alive.value ticksMs s.now) 0xFFFFFFFF

/-- A write of HOST_ALIVE: only the host's is accepted (R273). -/
def State.hostAliveWrite (s : State) (w : WriteReq) : State :=
  s.gateW Reg.HOSTDMA_HOST_ALIVE w (w.req == .host) (fun s =>
    if F.HOSTDMA_HOST_ALIVE_ALIVE.of w.data = 1 then
      ({ s with host := { s.host with alive := { acc := 0, base := s.now } } }).putB F.HOSTDMA_STATUS_ALIVE_EXPIRED false
    else s)

def execHostAlive (w : WriteReq) (s : State) : Host.Outcome State Fault Refusal := .next (s.hostAliveWrite w)

end Sys2Proof.Machine
end

