-- ==== Sys2Proof/Machine/StandOps.lean ====
section
/-! DEFINITION. Shared operations of the stand member: issue, ending, disarming and starting a step (R162, R163, R180, R90). -/

namespace Sys2Proof.Machine

/-- The group epoch in progress. -/
def State.gepoch (s : State) : Nat := (s.rd64 Reg.STAND_GEPOCH_LO).toNat

/-- N of the armed stand. -/
def State.nEpochs (s : State) : Nat := s.get F.STAND_GEOM_N_M1 + 1

/-- X, the last epoch of a step (R164). -/
def State.lastEpochOf (s : State) (c : StepAt) : Nat := c.start + s.nEpochs - 1

/-- C, the commit epoch of a step (R166). -/
def State.commitEpochOf (s : State) (c : StepAt) : Nat := s.lastEpochOf c + 2 * s.dMax + 2

/-- COMPUTE.ISSUE_REFUSED. -/
def State.issueRefused (s : State) : State := s.raise P.STAND B.STAND_ISSUE_REFUSED Evn.COMPUTE_ISSUE_REFUSED

/-- Whether the lead accepts an issue of a step (R162). -/
def State.issueOk (s : State) (step : Dword) : Bool :=
  s.armed && !s.suspended && !s.flag F.STAND_STATUS_ISSUE_PENDING && !s.flag F.STAND_STATUS_END_PENDING
    && (decide (s.rd64 Reg.STAND_LAST_COMMIT_LO < step) || !s.stand.anyCommit)

/-- COMMAND.ISSUE: the step in NEXT_STEP is accepted, or discarded with COMPUTE.ISSUE_REFUSED (R162). -/
def State.issueCmd (s : State) : State :=
  let step := s.rd64 Reg.STAND_NEXT_STEP_LO
  if s.issueOk step then
    { s.putB F.STAND_STATUS_ISSUE_PENDING true with stand := { s.stand with issueStep := step } }
  else s.issueRefused

/-- A pending issue and an announced step are discarded, with COMPUTE.ISSUE_REFUSED for each at the lead (R168, R180). -/
def State.dropIssues (s : State) : State :=
  let s := if s.flag F.STAND_STATUS_ISSUE_PENDING then (s.putB F.STAND_STATUS_ISSUE_PENDING false).issueRefused else s
  let n := s.stand.announce.isSome || s.stand.announceRx.isSome
  let s := { s with stand := { s.stand with announce := none, announceRx := none } }
  if n && s.isLead then s.issueRefused else s

/-- The lead sends FLAGS.UNLOAD from the next group control message when no step is outstanding (R180). -/
def State.unloadStart (s : State) : State :=
  if s.isLead && s.stand.ending && s.stand.current.isNone && s.stand.unloadRx.isNone then
    { s with stand := { s.stand with unloadRx := some s.gepoch } }
  else s

/-- The lead sees END_REQ, or COMMAND.UNLOAD: it starts no further step (R180). -/
def State.leadEnd (s : State) : State :=
  if s.stand.ending then s
  else
    let s := s.putB F.STAND_STATUS_END_PENDING true
    ({ s.dropIssues with stand := { s.dropIssues.stand with ending := true } }).unloadStart

/-- END_REQ is set at this member (R180, R336). -/
def State.endRequest (s : State) : State :=
  if s.armed then
    let s := { s.putB F.STAND_STATUS_END_PENDING true with stand := { s.stand with endReq := true } }
    if s.isLead then s.leadEnd else s
  else s

/-- Clears what identifies the armed stand; the module holds no image. -/
def State.clearStand (s : State) : State :=
  let s := (List.range 96).foldl (fun s l => (s.putB (F.LINK_STATUS_GROUP l) false).putB (F.LINK_STATUS_SCHED l) false) s
  let s := (16).fold (fun g _ (s : State) => (s.putB (F.GROVE_STATUS_STAND_ARMED g) false).putB (F.GROVE_STATUS_UNCOMMITTED g) false) s
  let s := s.putB F.FLOOR_STATUS_SCHED_LOADED false
  let s := (List.range 96).foldl (fun (s : State) l => (s.putB (F.REDUCE_STATUS_PROG_LOADED l) false).put (F.REDUCE_PROG_RUNS l) 0) s
  let s := (s.putB F.EVT_GROUP_STATUS_RESUME_BUSY false).putB F.THERM_STATUS_END_REQUESTED false
  let s := ((s.wr Reg.STAND_STATUS 0).wr Reg.STAND_STAND_ID 0).wr Reg.STAND_MEMBERSHIP 0
  let s := { s with reduce := [], groves := amap {} (fun _ x => { x with chans := [], descs := [], dyn := [] }) s.groves }
  { s with image := none, stand := {}, group := { s.group with members := 0, rejoined := false, reqFrom := [], answers := [], release := none }, lpddr := { s.lpddr with scratch := [], reads := [] } }

/-- The member folds its windows, disarms, raises COMPUTE.UNLOADED and moves to READY (R143, R180, R182, R246, R409). An uncommitted
step leaves no trace. A HALTED member, which is in Hold, returns to Idle unless FLOW_STOP keeps it there (Table 1.6, R479). -/
def State.disarm (s : State) : State :=
  if s.armed then
    let s : State := if s.stepActive then s.discardStep else s.clearDirty
    let s : State := ((16).fold (fun g _ (s : State) => s.groveFoldStart g) s).lpFoldStart
    let s : State := s.clearStand
    let s : State := (s.wr Reg.STAND_LOAD_STATUS 0).put F.STAND_LOAD_STATUS_RESULT (if s.folding then 4 else 0)
    let s : State := s.raiseBare P.STAND Evn.COMPUTE_UNLOADED
    let halted := decide (s.mod.mstate = .halted)
    let s : State := if s.mod.mstate = .running ∨ s.mod.mstate = .halted then s.setMState .ready else s
    let s : State := s.powerIdle
    let s : State := if s.fn P.SERVE = fnReady then { s with serve := { s.serve with ending := true } } else s
    if halted then
      if s.flag F.GLADE_STATUS_FLOW_STOP then { s with mod := { s.mod with fsHold := true } }
      else { s with mod := { s.mod with target := some .idle, byCommand := false } }
    else s
  else s

/-! ## A step starts (R90, R163) -/

/-- The state of R90 in which an engine starts a step: index, address and accumulator-mode state clears, contents stay, and the
entry bundle is next. -/
def EngineSt.stepStart (x : EngineSt) (entry : BitVec 13) : EngineSt :=
  { x with aregs := [], xregs := [], loops := [], buf0 := { x.buf0 with we := 0, f32 := false, flags := 0 },
           buf1 := { x.buf1 with we := 0, f32 := false, flags := 0 }, sendq := [], recvq := [], pc := entry, tick := 0, count := 0,
           stall := .none, reads := [], writes := [], ops := [], flags := 0, scat := [], lw := [], stopBuf := [] }

/-- One stream of the image starts on the engine that serves its logical engine. -/
def State.streamStart (s : State) (t : EngStream) : State :=
  match s.engIdx t.a with
  | none => s
  | some i =>
    let s : State := s.setEng i ((s.eng i).stepStart t.entry)
    (s.putB (F.ENGINE_STATUS_ISSUING (i / 16) (i % 16)) true).putB (F.ENGINE_STATUS_HALT_REACHED (i / 16) (i % 16)) false

/-- The announced step starts (R163): CUR_STEP, STEP_ACTIVE, the engines of R90, empty queues and buffers, and power state Run. -/
def State.stepBegin (s : State) (a : StepAt) : State :=
  let s : State := (s.wr64 Reg.STAND_CUR_STEP_LO a.step).wr64 Reg.STAND_START_EPOCH_LO (BitVec.ofNat 64 a.start)
  let s : State := (s.putB F.STAND_STATUS_STEP_ACTIVE true).putB F.STAND_STATUS_ABORT_VOTE false
  let s : State := s.putB F.FLOOR_STATUS_SCHED_RUNNING true
  let s : State := (16).fold (fun g _ (s : State) => if s.flag (F.GROVE_STATUS_STAND_ARMED g) then
      (s.putB (F.GROVE_STATUS_STEP_ACTIVE g) true).putB (F.GROVE_STATUS_UNCOMMITTED g) true else s) s
  let s : State := ((s.image.map (fun im => im.frames.map (fun f => f.m.val))).getD []).foldl
    (fun s m => s.putB (F.LPDDR_STATUS_FRAMES_ACTIVE m) true) s
  let s : State :=
    { s with
      stand := { s.stand with current := some a, announce := none, vote := none }
      links := amap {} (fun _ x => { x with txBuf := [], rxBuf := [] }) s.links
      reduce := amap {} (fun _ x => { prog := x.prog }) s.reduce
      sample := {}
      lpddr := { s.lpddr with outq := [], waitq := [], inq := [] } }
  let s : State := ((s.image.map (fun im => im.streams)).getD []).foldl (fun (s : State) t => s.streamStart t) s
  if s.mod.power = .idle then s.setPower .run else s

end Sys2Proof.Machine
end

