-- ==== Sys2Proof/Machine/Serve.lean ====
section
/-! DEFINITION. The serving sequencer (R276 to R291). -/

namespace Sys2Proof.Machine

def State.setServe (s : State) (x : ServeSt) : State := { s with serve := x }

/-- A value the specification leaves open, taken from the model's free values. -/
def State.takeFree (s : State) : State × Dword :=
  ({ s with freeCtr := s.freeCtr + 2 }, Config.freeWord s.freeCtr ++ Config.freeWord (s.freeCtr + 1))

/-! ## Registers -/

def State.kvPages (s : State) : Nat := s.get F.SERVE_KV_CFG_KV_PAGES_M1 + 1
def State.ptPerSlot (s : State) : Nat := s.get F.SERVE_KV_CFG_PT_PER_SLOT
def State.slotsN (s : State) : Nat := s.get F.SERVE_SLOT_CFG_SLOTS
def State.tokStep (s : State) : Nat := s.get F.SERVE_SLOT_CFG_TOKSTEP
def State.pageTokens (s : State) : Nat := (s.rd Reg.SERVE_PAGE_TOKENS).toNat
def State.ctxMax (s : State) : Nat := (s.rd Reg.SERVE_CTX_MAX).toNat

/-- A request's KV pages m (R286). -/
def State.pagesFor (s : State) (r : Request) : Nat := (r.promptLen + r.maxNew + s.pageTokens - 1) / s.pageTokens

/-- The slots in use, in order. -/
def State.slots (s : State) : List (Nat × SlotSt) := s.serve.slots.filterMap (fun e => e.2.map (fun x => (e.1, x)))

def State.setSlot (s : State) (i : Nat) (x : Option SlotSt) : State := s.setServe { s.serve with slots := aset none s.serve.slots i x }

/-- Pages in use. -/
def State.pagesUsed (s : State) : List Nat := s.slots.flatMap (fun e => e.2.pages)

/-- The lowest free slot. -/
def State.freeSlot (s : State) : Option Nat := (List.range s.slotsN).find? (fun i => (aget none s.serve.slots i).isNone)

/-- Whether the head of the queue would be admitted (R286). -/
def State.headFits (s : State) : Bool :=
  match s.serve.queue with
  | [] => false
  | r :: _ => s.freeSlot.isSome && decide (s.pagesFor r + s.pagesUsed.length ≤ s.kvPages)

/-- STATUS and KV_FREE from the sequencer's state (Table 12.8). -/
def State.serveStatus (s : State) : State :=
  let s := (s.put F.SERVE_STATUS_ACTIVE s.slots.length).putB F.SERVE_STATUS_OUTSTANDING (!s.serve.mine.isEmpty)
  let wait := !s.serve.queue.isEmpty && s.freeSlot.isSome && !s.headFits
  let s := (s.putB F.SERVE_STATUS_ADMIT_WAIT wait).put F.SERVE_STATUS_QUEUED s.serve.queue.length
  s.wr Reg.SERVE_KV_FREE (BitVec.ofNat 32 (s.kvPages - s.pagesUsed.length))

/-! ## Completions (R284) -/

/-- A ring that a request may use: enabled. -/
def State.ringOk (s : State) (r : Nat) : Bool := decide (s.rd (Reg.SUBMIT_CQ_SIZE r) ≠ 0)

/-- REJECTED (Table 12.4). -/
def State.rejectRec (s : State) (ring reason : Nat) (seq : Word) (tag : Dword) : State :=
  s.cqPost ring (cqBody 4 reason 0 seq tag 0 0 0 s.ftime 0xFFFF)

/-- FINAL for a request, with the tokens it reports first (Table 12.4). STEP and FTIME name the last commit that delivered a token;
a request without one leaves them open. -/
def State.finalRec (s : State) (r : Request) (reason total reported : Nat) (last : Option (Dword × Dword)) (slot : Nat) : State :=
  let f := s.takeFree
  let g := f.1.takeFree
  let s := if last.isSome then s else g.1
  let p := last.getD (f.2, g.2)
  (s.cqPost r.ring (cqBody 3 reason (total - reported) r.seq r.tag reported total p.1 p.2 slot)).bumpW Reg.SERVE_FINISHED 1

/-- FINAL for the request of a slot. -/
def State.finalSlot (s : State) (i : Nat) (x : SlotSt) (reason : Nat) : State := s.finalRec x.req reason x.total x.reported x.last i

/-! ## SERVE in FAULT (R280, R291) -/

abbrev scNotLead : Nat := 1
abbrev scNoSubmit : Nat := 2
abbrev scLayout : Nat := 3
abbrev scRange : Nat := 4
abbrev scNoCore : Nat := 5
abbrev scForeign : Nat := 6
abbrev scBadOutput : Nat := 7
abbrev scCoreLost : Nat := 8

/-- SERVE goes to FAULT with a CAUSE: the sequencer stops issuing, and SEQ_FAULT records are due (R291). -/
def State.serveFault (s : State) (cause : Nat) : State :=
  let s := (s.toFault P.SERVE).put F.SERVE_LAST_FAULT_CAUSE cause
  let s := s.setServe { s.serve with mine := [], commit := none, withheld := false, ending := false, faulted := true }
  (s.raise P.SERVE B.SERVE_SEQ_FAULT Evn.SERVICE_SEQ_FAULT).serveStatus

/-- SERVE is serving. -/
def State.serving (s : State) : Bool := decide (s.fn P.SERVE = fnReady)

/-- SERVE is serving, or draining with a step outstanding (R290). -/
def State.handling (s : State) : Bool := s.serving || decide (s.fn P.SERVE = fnDraining)

/-- A change `f` by which core c leaves READY; roles move, and SERVE faults when the sequencer's core leaves (R277, R278). -/
def State.svcLeave (s : State) (c : Nat) (f : State → State) : State :=
  let was := decide (s.seqCore = some c)
  let s := (f s).svcRoles
  if was && s.serving && decide (s.fn (P.SVC c) ≠ fnReady) then s.serveFault scCoreLost else s

/-- A service core's page goes to FAULT with its FAULT_INFO code; the third time between two starts adds a Deadwood entry (R278, R394). -/
def State.svcFault (s : State) (c info ev : Nat) : State :=
  s.svcLeave c (fun s =>
    let n := aget 0 s.boot.svcFaults c + 1
    let s : State := (s.toFault (P.SVC c)).wr (Reg.SVC_FAULT_INFO c) (BitVec.ofNat 32 info)
    let s : State := { s with boot := { s.boot with svcFaults := aset 0 s.boot.svcFaults c n } }
    if n = 3 then s.dwAdd dwSvc c 0 ev 5 else s)

/-- Firmware advances HEARTBEAT (R278). -/
def execSvcHeartbeatAdvance (c : Fin 8) (s : State) : Host.Outcome State Fault Refusal :=
  if s.fn (P.SVC c.val) = fnReady then
    .next ((s.setServe { s.serve with beats := aset {} s.serve.beats c.val { acc := 0, base := s.now } }).bumpW (Reg.SVC_HEARTBEAT c.val) 1)
  else .next s

/-- HEARTBEAT has not advanced for 50 ms: the core's page goes to FAULT (R278). -/
def execCoreHang (c : Fin 8) (s : State) : Host.Outcome State Fault Refusal :=
  let n := c.val
  if s.fn (P.SVC n) = fnReady then
    .next ((s.svcFault n 1 Evn.SERVICE_CORE_HANG.code).raise (P.SVC n) B.SVC_CORE_HANG Evn.SERVICE_CORE_HANG)
  else .next s

/-! ## Enabling (R280) -/

/-- Bytes [a, a + n) lie wholly inside one of the armed stand's windows (copy 0): module byte addresses. -/
def State.inWindows (s : State) (a n : Nat) : Bool :=
  s.groves.any (fun g => g.2.wins.any (fun w =>
      decide (64 * groveLine g.1 w.base ≤ a) && decide (a + n ≤ 64 * groveLine g.1 (w.base + w.len))))
    || s.lpddr.wins.any (fun w => decide (64 * lpddrLine (w.base * lpUnit) ≤ a) && decide (a + n ≤ 64 * lpddrLine ((w.base + w.len) * lpUnit)))

/-- Bytes [a, a + n) lie wholly inside one read region. -/
def State.inReads (s : State) (a n : Nat) : Bool :=
  s.lpddr.reads.any (fun w => decide (64 * lpddrLine (w.base * lpUnit) ≤ a) && decide (a + n ≤ 64 * lpddrLine ((w.base + w.len) * lpUnit)))

/-- STRIDE of the token output area (R282). -/
def State.tokStride (s : State) : Nat := 64 * ((4 + 4 * s.tokStep + 63) / 64)

def State.slotTable (s : State) : Nat := (s.rd64 Reg.SERVE_SLOT_TABLE_LO).toNat
def State.tokOut (s : State) : Nat := (s.rd64 Reg.SERVE_TOKOUT_LO).toNat
def State.pageTable (s : State) : Nat := (s.rd64 Reg.SERVE_PT_LO).toNat
def State.promptBase (s : State) : Nat := (s.rd64 Reg.SERVE_PROMPT_BASE_LO).toNat
def State.promptBytes (s : State) : Nat := 4096 * (s.rd Reg.SERVE_PROMPT_SIZE).toNat

/-- A power of two from 16 to 4,096. -/
def pageTokensOk (n : Nat) : Bool := [16, 32, 64, 128, 256, 512, 1024, 2048, 4096].contains n

/-- The CAUSE with which FN_ENABLE of SERVE fails; none where every check passes (R280). -/
def State.serveCheck (s : State) : Option Nat :=
  if !(s.armed && s.isLead) then some scNotLead
  else if s.fn P.SUBMIT ≠ fnReady then some scNoSubmit
  else if !(s.inWindows s.slotTable (64 * s.slotsN) && s.inWindows s.tokOut (s.tokStride * s.slotsN)
      && s.inWindows s.pageTable (4 * s.slotsN * s.ptPerSlot) && s.inReads s.promptBase s.promptBytes) then some scLayout
  else if !(decide (1 ≤ s.slotsN) && decide (s.slotsN ≤ 256) && decide (1 ≤ s.tokStep) && decide (1 ≤ s.ptPerSlot)
      && pageTokensOk s.pageTokens && decide (1 ≤ s.ctxMax) && decide (s.ctxMax ≤ 16777215)) then some scRange
  else if s.svcReady.isEmpty then some scNoCore
  else none

/-- FN_ENABLE of SERVE: READY with empty queue and counters, or FAULT (R280, R295). -/
def State.serveStart (s : State) : State :=
  match s.serveCheck with
  | some c => s.serveFault c
  | none =>
    let s := s.setServe { beats := s.serve.beats, handled := s.rd64 Reg.STAND_LAST_COMMIT_LO }
    let s := ((s.wr Reg.SERVE_ADMITTED 0).wr Reg.SERVE_FINISHED 0).wr64 Reg.SERVE_TOKENS_LO 0
    ((s.wr Reg.SERVE_REISSUES 0).setFn P.SERVE fnReady).serveStatus

/-! ## Records (R283, R286, R289) -/

def recField (v : BitVec 512) (byte width : Nat) : Nat := v.toNat / 2 ^ (8 * byte) % 2 ^ width

/-- A GENERATE body (Table 12.3). -/
def requestOf (v : BitVec 512) : Request :=
  { seq := recSeq v, ring := recField v 5 4, streamRec := decide (recField v 5 8 / 16 % 2 = 1), maxNew := recField v 6 16, tag := recTag v,
    prompt := BitVec.ofNat 64 (recField v 16 64), promptLen := recField v 24 32, out := BitVec.ofNat 64 (recField v 28 64),
    seed := BitVec.ofNat 64 (recField v 36 64), tempQ := recField v 44 16, topPQ := recField v 46 16, topK := recField v 48 16,
    repPenQ := recField v 50 16, stop0 := BitVec.ofNat 32 (recField v 52 32), stop1 := BitVec.ofNat 32 (recField v 56 32) }

/-- Every field is in the range of Table 12.3. -/
def State.fieldsOk (s : State) (v : BitVec 512) (r : Request) : Bool :=
  decide (recType v = 1) && decide (recField v 5 8 < 32) && s.ringOk r.ring && decide (1 ≤ r.maxNew)
    && decide (r.prompt.toNat % 4 = 0) && decide (s.promptBase ≤ r.prompt.toNat)
    && decide (r.prompt.toNat + 4 * r.promptLen ≤ s.promptBase + s.promptBytes)
    && decide (1 ≤ r.promptLen) && decide (r.promptLen + r.maxNew ≤ s.ctxMax) && decide (r.out.toNat % 4 = 0) && decide (r.topK ≤ 256)

/-- A TAG that is queued or active (finished requests aside). -/
def State.tagInUse (s : State) (tag : Dword) : Bool :=
  s.serve.queue.any (fun r => r.tag == tag) || s.slots.any (fun e => e.2.req.tag == tag && !e.2.finished)

/-- The ring for a rejection of a record: its own when it is a GENERATE with an enabled ring, else ring 0 (R284). -/
def State.rejectRing (s : State) (v : BitVec 512) : Nat :=
  if recType v = 1 ∧ s.ringOk (recField v 5 4) then recField v 5 4 else 0

/-- The reason for which a GENERATE record is rejected; none where it is queued (Table 12.5). -/
def State.generateReason (s : State) (v : BitVec 512) : Option Nat :=
  let r := requestOf v
  if !s.serving then some 0x16
  else if !s.fieldsOk v r then some 0x11
  else if s.ptPerSlot < s.pagesFor r ∨ s.kvPages < s.pagesFor r then some 0x12
  else if s.tagInUse r.tag then some 0x13
  else if 4096 ≤ s.serve.queue.length then some 0x14
  else none

/-- The oldest accepted record is a GENERATE, or has a reserved TYPE: it is queued or rejected (R283, R286). -/
def execGenerate (s : State) : Host.Outcome State Fault Refusal :=
  match s.host.submitted with
  | v :: rest =>
    if recType v = 2 then .next s
    else
      let s := { s with host := { s.host with submitted := rest } }
      match s.generateReason v with
      | none => .next (s.setServe { s.serve with queue := s.serve.queue ++ [requestOf v] }).serveStatus
      | some why =>
        let s := s.rejectRec (s.rejectRing v) why (recSeq v) (recTag v)
        .next (if why = 0x14 then s.raise P.SERVE B.SERVE_QUEUE_FULL Evn.SERVICE_QUEUE_FULL else s)
  | [] => .next s

/-- The oldest accepted record is a CANCEL (R289). -/
def execCancel (s : State) : Host.Outcome State Fault Refusal :=
  match s.host.submitted with
  | v :: rest =>
    if recType v ≠ 2 then .next s
    else
      let s := { s with host := { s.host with submitted := rest } }
      let tag := recTag v
      if !s.serving then .next (s.rejectRec 0 0x16 (recSeq v) tag)
      else if recField v 5 24 ≠ 0 ∨ recField v 16 352 ≠ 0 then .next (s.rejectRec 0 0x11 (recSeq v) tag)
      else
        match s.serve.queue.find? (fun r => r.tag == tag) with
        | some r =>
          let s := s.setServe { s.serve with queue := s.serve.queue.filter (fun q => q.tag != tag) }
          .next (s.finalRec r 0x05 0 0 none 0xFFFF).serveStatus
        | none =>
          match s.slots.find? (fun e => e.2.req.tag == tag && !e.2.finished) with
          | some (i, x) =>
            .next (if x.cancel.isSome then s else s.setSlot i (some { x with cancel := some (s.rd64 Reg.STAND_LAST_COMMIT_LO) }))
          | none => .next (s.rejectRec 0 0x15 (recSeq v) tag)
  | [] => .next s

/-! ## Issue (R285, R288) -/

/-- A register write by the sequencer's core. -/
def State.seqWrite (s : State) (off : Nat) (data : Word) (eff : State → State) : State :=
  match s.seqCore with
  | some c => s.accept (.svc (Fin.ofNat 8 c)) off data eff
  | none => s

/-- The sequencer issues a step (R162, R285): NEXT_STEP, then COMMAND.ISSUE. A suspended group keeps the issue for its resume. -/
def State.seqIssue (s : State) (step : Dword) : State :=
  if s.suspended then s.setServe { s.serve with withheld := true }
  else
    let s := s.seqWrite Reg.STAND_NEXT_STEP_LO (step.setWidth 32) (fun s => s.wr Reg.STAND_NEXT_STEP_LO (step.setWidth 32))
    let s := s.seqWrite Reg.STAND_NEXT_STEP_HI ((step >>> 32).setWidth 32) (fun s => s.wr Reg.STAND_NEXT_STEP_HI ((step >>> 32).setWidth 32))
    let ok := s.issueOk step
    let s := s.seqWrite Reg.STAND_COMMAND 1 (fun s => s.issueCmd)
    (if ok then s.setServe { s.serve with mine := s.serve.mine ++ [step], withheld := false } else s).serveStatus

/-- An admission point is due (R285). -/
def State.needAdmission (s : State) : Bool := s.slots.any (fun e => e.2.finished || e.2.cancel.isSome) || s.headFits

/-- A step has started: the sequencer issues the next, or withholds it for an admission point (R285). -/
def State.seqOnStart (s : State) (step : Dword) : State :=
  if s.serving && s.serve.mine.contains step && !s.serve.ending then
    if s.needAdmission then s.setServe { s.serve with withheld := true } else s.seqIssue (step + 1)
  else s

/-- LAST_COMMIT has advanced to `step` (R285, R287). -/
def State.seqOnCommit (s : State) (step : Dword) : State :=
  if s.handling then
    if s.serve.mine.contains step then
      (s.setServe { s.serve with mine := s.serve.mine.filter (fun x => x != step), commit := some (step, s.ftime) }).serveStatus
    else (s.raise P.SERVE B.SERVE_FOREIGN_ISSUE Evn.SERVICE_FOREIGN_ISSUE).serveFault scForeign
  else s

/-- The oldest step still outstanding is issued again (R288); REISSUES counts one that had started. -/
def State.seqReissue (s : State) : State :=
  match s.serve.mine with
  | [] => s
  | n :: _ =>
    let s := s.setServe { s.serve with mine := [], withheld := false }
    let s := if s.rd64 Reg.STAND_CUR_STEP_LO = n then s.bumpW Reg.SERVE_REISSUES 1 else s
    s.seqIssue n

/-- A step has aborted: without suspension the sequencer issues it again at once (R288), unless it is ending (R290). -/
def State.seqOnAbort (s : State) : State :=
  if s.serve.ending then (s.setServe { s.serve with mine := [] }).serveStatus
  else if s.serving && !s.suspended then s.seqReissue
  else s

/-- The group has resumed (R288). -/
def State.seqOnResume (s : State) : State := if s.serving && !s.serve.ending then s.seqReissue else s

/-! ## Admission points (R281, R282, R285, R286) -/

/-- A slot entry as the sequencer writes it on admission (Table 12.2). -/
def slotEntry (r : Request) (repWindow : Nat) : BitVec 512 :=
  BitVec.ofNat 512 (1 + 2 ^ 64 * r.seed.toNat + 2 ^ 128 * r.tag.toNat + 2 ^ 192 * r.tempQ + 2 ^ 208 * r.topPQ + 2 ^ 224 * r.topK
    + 2 ^ 240 * r.repPenQ + 2 ^ 256 * r.promptLen + 2 ^ 288 * repWindow + 2 ^ 320 * r.prompt.toNat)

/-- A write of the sequencer's core through the background path. -/
def State.coreStore (s : State) (addr : Nat) (bs : List Byte) : State :=
  match s.seqCore with
  | some c =>
    let b : BgAccess := { req := .svc (Fin.ofNat 8 c), via := .core, addr := BitVec.ofNat 64 addr, len := bs.length, write := some bs, tag := 0 }
    s.bgArrive b []
  | none => s

/-- Whether a write of the sequencer's core has yet to take effect. -/
def State.coreWaits (s : State) : Bool :=
  s.bg.any (fun h => h.acc.write.isSome && (match h.acc.req, s.seqCore with
    | .svc c, some k => decide (c.val = k)
    | _, _ => false))

/-- Finished and cancelled slots are freed: VALID clears, pages return, and a cancelled one gets its FINAL record (R285, R289). -/
def State.freeSlots (s : State) : State :=
  s.slots.foldl (fun (s : State) e =>
    let x := e.2
    if x.finished || x.cancel.isSome then
      let s := if x.finished then s else s.finalSlot e.1 x 0x05
      (s.setSlot e.1 none).coreStore (s.slotTable + 64 * e.1) [0]
    else s) s

/-- The lowest m free pages. -/
def State.takePages (s : State) (m : Nat) : List Nat :=
  let used := s.pagesUsed
  ((List.range s.kvPages).filter (fun p => !used.contains p)).take m

/-- The head of the queue takes slot i (R281, R282, R286). -/
def State.admitHead (s : State) (i : Nat) (r : Request) (rest : List Request) : State :=
  let pages := s.takePages (s.pagesFor r)
  let x : SlotSt := { req := r, total := 0, reported := 0, last := none, pages := pages, finished := false, cancel := none }
  let s := (s.setServe { s.serve with queue := rest }).setSlot i (some x)
  let s := s.coreStore (s.slotTable + 64 * i) (bvBytes 64 (slotEntry r (s.rd Reg.SERVE_REP_WINDOW).toNat))
  let s := s.coreStore (s.pageTable + 4 * (i * s.ptPerSlot)) (pages.flatMap (fun p => leBytes 4 p))
  let s := s.bumpW Reg.SERVE_ADMITTED 1
  if r.streamRec then
    let f := s.takeFree
    f.1.cqPost r.ring (cqBody 1 0 0 r.seq r.tag 0 0 (f.1.rd64 Reg.STAND_LAST_COMMIT_LO + 1) f.2 i)
  else s

/-- Admission from the head until it fails a test (R286). -/
def State.admitAll (s : State) : Nat → State
  | 0 => s
  | n + 1 =>
    match s.serve.queue, s.freeSlot with
    | r :: rest, some i => if s.headFits then (s.admitHead i r rest).admitAll n else s
    | _, _ => s

/-- An admission point (R285). -/
def State.admissionPoint (s : State) : State :=
  let s := s.freeSlots
  let s := s.admitAll s.serve.queue.length
  let s := s.serveStatus
  if s.slots.isEmpty && s.serve.queue.isEmpty then s.setServe { s.serve with withheld := false }
  else if s.coreWaits then s.setServe { s.serve with withheld := true }
  else s.seqIssue (s.rd64 Reg.STAND_LAST_COMMIT_LO + 1)

/-- ADMISSION_POINT: no step of the sequencer is outstanding and the last commit's tokens are handled. -/
def execAdmissionPoint (s : State) : Host.Outcome State Fault Refusal :=
  if s.serving && !s.serve.ending && s.serve.mine.isEmpty && s.serve.commit.isNone && (s.serve.withheld || s.needAdmission) then
    .next s.admissionPoint
  else .next s

/-! ## Tokens (R282, R287) -/

/-- The lowest reason with which a token ends a request that has then produced `total` tokens (Table 12.5). -/
def State.stopReason (s : State) (r : Request) (total : Nat) (t : Word) : Option Nat :=
  let none32 : Word := 0xFFFFFFFF
  if s.rd Reg.SERVE_EOS_TOKEN ≠ none32 ∧ t = s.rd Reg.SERVE_EOS_TOKEN then some 1
  else if (r.stop0 ≠ none32 ∧ t = r.stop0) ∨ (r.stop1 ≠ none32 ∧ t = r.stop1) then some 2
  else if total = r.maxNew then some 3
  else if s.ctxMax ≤ r.promptLen + total then some 4
  else none

/-- The tokens taken from a record, up to the first that ends the request. -/
def State.takeTokens (s : State) (r : Request) (total : Nat) : List Word → List Word × Option Nat
  | [] => ([], none)
  | t :: ts =>
    match s.stopReason r (total + 1) t with
    | some why => ([t], some why)
    | none =>
      let q := s.takeTokens r (total + 1) ts
      (t :: q.1, q.2)

/-- 32-bit words of little-endian bytes. -/
def wordsOf : List Byte → List Word
  | a :: b :: c :: d :: rest => BitVec.ofNat 32 (leValue [a, b, c, d]) :: wordsOf rest
  | _ => []

/-- A slot's record yields its tokens: delivered to OUT_ADDR, then reported (R284, R287). -/
def State.deliverTokens (s : State) (i : Nat) (x : SlotSt) (step time : Dword) (toks : List Word) : State :=
  let q := s.takeTokens x.req x.total toks
  let n := q.1.length
  let s := if n = 0 then s
    else s.toHost (x.req.out + BitVec.ofNat 64 (4 * x.total)) (q.1.flatMap (fun t => leBytes 4 t.toNat)) false false
  let s := s.bump64 Reg.SERVE_TOKENS_LO n
  let x := if n = 0 then x else { x with total := x.total + n, last := some (step, time) }
  match q.2 with
  | some why => (s.finalSlot i x why).setSlot i (some { x with reported := x.total, finished := true })
  | none =>
    if x.req.streamRec ∧ n ≠ 0 then
      let s := s.cqPost x.req.ring (cqBody 2 0 (x.total - x.reported) x.req.seq x.req.tag x.reported x.total step time i)
      s.setSlot i (some { x with reported := x.total })
    else s.setSlot i (some x)

/-- The records of the remaining slots of one commit. -/
def State.harvestSlots (s : State) (step time : Dword) (obs : List (Nat × LineObs)) : List (Nat × SlotSt) → State
  | [] => s
  | (i, x) :: rest =>
    let late := match x.cancel with
      | some c => decide (c < step)
      | none => false
    if x.finished || late then s.harvestSlots step time obs rest
    else
      let r := s.bgReadParts obs (512 * i) (accParts (BitVec.ofNat 64 (s.tokOut + s.tokStride * i)) (4 + 4 * s.tokStep))
      let ws := wordsOf r.2.1
      let n := (ws.headD 0).toNat
      if s.tokStep < n then (r.1.raise P.SERVE B.SERVE_BAD_OUTPUT Evn.SERVICE_BAD_OUTPUT).serveFault scBadOutput
      else (r.1.deliverTokens i x step time ((ws.drop 1).take n)).harvestSlots step time obs rest

/-- Some token record cannot be read yet: its memory holds background reads (R136, R143). -/
def State.tokensHeld (s : State) : Bool :=
  s.slots.any (fun e => (accParts (BitVec.ofNat 64 (s.tokOut + s.tokStride * e.1)) (4 + 4 * s.tokStep)).any
    (fun p => ((s.target p.1).map (fun t => s.holds t false)).getD false))

/-- TOKEN_HARVEST: the tokens of the last commit (R287). -/
def execTokenHarvest (obs : List (Nat × LineObs)) (s : State) : Host.Outcome State Fault Refusal :=
  match s.serve.commit with
  | some (step, time) =>
    if s.handling && !s.tokensHeld then
      let s := s.setServe { s.serve with commit := none, handled := step }
      .next (s.harvestSlots step time obs s.slots).serveStatus
    else .next s
  | none => .next s

/-! ## Ending and faults (R290, R291) -/

/-- FINAL for every active request and REJECTED for every queued one, and nothing left in hand. -/
def State.endAll (s : State) (reason : Nat) : State :=
  let s := s.slots.foldl (fun (s : State) e => if e.2.finished then s else s.finalSlot e.1 e.2 reason) s
  let s := s.serve.queue.foldl (fun (s : State) r => s.rejectRec r.ring reason r.seq r.tag) s
  (s.setServe { beats := s.serve.beats }).serveStatus

/-- SEQ_STAND_END: once the outstanding step has ended and its tokens are handled, the sequencer ends (R290). -/
def execSeqStandEnd (s : State) : Host.Outcome State Fault Refusal :=
  if s.serve.ending && s.handling && s.serve.commit.isNone && (s.serve.mine.isEmpty || !s.armed || s.suspended) then
    .next (((s.endAll 0x06).raise P.SERVE B.SERVE_STAND_ENDED Evn.SERVICE_STAND_ENDED).drained P.SERVE)
  else .next s

/-- SEQ_FAULT: a remaining READY core writes the records (R291). -/
def execSeqFault (s : State) : Host.Outcome State Fault Refusal :=
  if s.serve.faulted && decide (s.fn P.SERVE = fnFault) && !s.svcReady.isEmpty then .next (s.endAll 0x07) else .next s

end Sys2Proof.Machine
end

