-- ==== Sys2Proof/Machine/Xbar.lean ====
section
/-! DEFINITION. The floor crossbar (R132, R144, R209, R213, R218, R226): a line leaves its source, is decoded at the receiving
port and enters its destination. -/

namespace Sys2Proof.Machine

/-- The two half-lines of a line, bytes 0–31 first. -/
def lineHalves (v : Line) : BitVec 256 × BitVec 256 := (v.extractLsb' 0 256, v.extractLsb' 256 256)

/-- A line from its half-lines. -/
def halvesLine (lo hi : BitVec 256) : Line := hi ++ lo

/-- Lines in a local operand queue: two operands a line, the last perhaps half taken (Table 9.4). -/
def lqLines (q : List (BitVec 256 × Bool)) : Nat := (q.length + 1) / 2

/-- LQ0_FILL and LQ1_FILL. -/
def State.lqFill (s : State) (l : Nat) : State :=
  (s.put (F.REDUCE_STATUS_LQ0_FILL l) (lqLines (s.red l).lq0)).put (F.REDUCE_STATUS_LQ1_FILL l) (lqLines (s.red l).lq1)

/-- A line enters a local operand queue as two operands; a line found uncorrectable counts at the unit and its operands are
poisoned (R218, R229). -/
def State.lqPush (s : State) (l : Nat) (q : Bool) (v : Line) (bad : Bool) : State :=
  let h := lineHalves v
  let ops := [(h.1, bad), (h.2, bad)]
  let x := s.red l
  let s := s.setRed l (if q then { x with lq1 := x.lq1 ++ ops } else { x with lq0 := x.lq0 ++ ops })
  (if bad then s.errInc (P.REDUCE l) else s).lqFill l

/-- A line is placed at its destination (R144, R209, R218, R240). -/
def State.xbarPlace (s : State) (src dst : Port) (v : Line) (bad : Bool) : State :=
  match dst with
  | .queue g e q =>
    match s.engIdx { g := g, e := e } with
    | some i =>
      let x := s.eng i
      s.setEng i { x with recvq := aset [] x.recvq q.val (aget [] x.recvq q.val ++ [v]) }
    | none => s
  | .dma g ch =>
    let c := s.chan g.val ch.val
    (s.setChan g.val ch.val { c with inbuf := c.inbuf ++ [v] }).dmaTakeIn g.val ch.val
  | .link l =>
    let x := s.link l.val
    let h := lineHalves v
    s.setLink l.val { x with txBuf := x.txBuf ++ [(h.1, false, bad), (h.2, true, bad)] }
  | .lpddr m => s.lpArrive m.val src v bad
  | .reduce l q => s.lqPush l.val q v bad
  | .pcie => s.emit (.xbarOut .pcie v)
  | .svc c => s.emit (.xbarOut (.svc c) v)
  | .background => s.emit (.xbarOut .background v)
  | .sample => { s with sample := { s.sample with inbuf := s.sample.inbuf ++ [v] } }

/-- A line found uncorrectable at a receiving port (R132). -/
def State.xbarUncorr (s : State) : State :=
  ((s.errInc P.FLOOR).raise P.FLOOR B.FLOOR_XBAR_UNCORR Evn.MEM_XBAR_UNCORR).paceFaultEoe causeXbarUncorr

/-- Takes the first half-line of each half from a link's receive buffer. -/
def takeHalf (h : Bool) (q : List (BitVec 256 × Bool × Bool)) : Option ((BitVec 256 × Bool) × List (BitVec 256 × Bool × Bool)) :=
  (q.find? (fun e => e.2.1 == h)).map (fun e => ((e.1, e.2.2), q.eraseP (fun e => e.2.1 == h)))

/-- The head line of a crossbar source for a destination, with its poison mark, and the state without it; none where the
source holds no line. -/
def State.xbarTake (s : State) (src dst : Port) : Option (Line × Bool × State) :=
  match src with
  | .queue g e q =>
    match s.engIdx { g := g, e := e } with
    | none => none
    | some i =>
      let x := s.eng i
      match aget [] x.sendq q.val with
      | [] => none
      | v :: vs => some (v, false, s.setEng i { x with sendq := aset [] x.sendq q.val vs })
  | .dma g ch =>
    let c := s.chan g.val ch.val
    match c.outbuf with
    | [] => none
    | v :: vs => some (v, false, (s.setChan g.val ch.val { c with outbuf := vs }).put (chRemaining g.val ch.val) (min vs.length 0xFFFF))
  | .link l =>
    let x := s.link l.val
    match takeHalf false x.rxBuf with
    | none => none
    | some (lo, q) =>
      match takeHalf true q with
      | none => none
      | some (hi, q) => some (halvesLine lo.1 hi.1, lo.2 || hi.2, s.setLink l.val { x with rxBuf := q })
  | .lpddr m =>
    let q := aget [] s.lpddr.outq m.val
    match q.find? (fun e => e.1 == dst) with
    | none => none
    | some e => some (e.2.1, e.2.2, { s with lpddr := { s.lpddr with outq := aset [] s.lpddr.outq m.val (q.erase e) } })
  | .reduce _ _ => none
  | .pcie => none
  | .svc _ => none
  | .background => none
  | .sample =>
    match s.sample.outbuf with
    | [] => none
    | v :: vs => some (v, false, { s with sample := { s.sample with outbuf := vs } })

/-- A line delivered by the floor crossbar (R132, R144): decoded at its receiving port and placed in its queue or buffer, with
the multicast copies of R226. -/
def execXbarLineRx (src dst : Port) (copies : List Port) (obs : Option LineObs) (s : State) : Host.Outcome State Fault Refusal :=
  if s.stepActive then
    match s.xbarTake src dst with
    | none => .next s
    | some (v, held, s) =>
      let d := decodeLine 8 held v obs
      let s := if d.bad then s.xbarUncorr else s
      .next (((dst :: copies).foldl (fun s p => s.xbarPlace src p d.v d.bad) s).bump64 Reg.FLOOR_LINES_LO 1)
  else .next s

end Sys2Proof.Machine
end

