-- ==== Sys2Proof/Machine/Reduce.lean ====
section
/-! DEFINITION. Reduction units (09): the two lanes, their programs, and the known-answer test. -/

namespace Sys2Proof.Machine

/-- The fields of a run descriptor (Table 9.1). -/
def runField (d : BitVec 128) (word lo w : Nat) : Nat := d.toNat / 2 ^ (32 * word + lo) % 2 ^ w

/-- A decoded run descriptor. -/
def runOf (d : BitVec 128) : Run :=
  { start := runField d 0 0 28, sink := decide (runField d 0 28 4 = 2), count := runField d 1 0 13 + 1, src := runField d 1 16 7,
    lq := decide (runField d 1 23 1 = 1), dkind := runField d 2 12 4, dindex := runField d 2 0 12 }

/-- Inserts an indexed run by START. -/
def insertRun (e : Nat × Run) : List (Nat × Run) → List (Nat × Run)
  | [] => [e]
  | x :: xs => if e.2.start < x.2.start then e :: x :: xs else x :: insertRun e xs

/-- The runs of one lane with their numbers in the program, by START. -/
def laneRuns (prog : List Run) (sink : Bool) : List (Nat × Run) :=
  (((List.range prog.length).zip prog).filter (fun e => e.2.sink == sink)).foldl (fun l e => insertRun e l) []

/-- The schedule tick of a run's output n: consecutive ticks from START without those with τ mod 64 = 63 (R219). -/
def Run.tick (r : Run) (n : Nat) : Nat := r.start + n + (r.start % 64 + n) / 63

/-- The long sum of two operands value by value (R222): the sum and, per value, whether LONG_OVF arises. -/
def operandSum (a b : BitVec 256) : BitVec 256 × Bool × Bool :=
  let lo := longAdd (a.extractLsb' 0 128) (b.extractLsb' 0 128)
  let hi := longAdd (a.extractLsb' 128 128) (b.extractLsb' 128 128)
  (hi.1 ++ lo.1, lo.2, hi.2)

/-- Results of an operand that are NaN or ±SAT (R222). -/
def specials (v : BitVec 256) : Nat :=
  let f := fun (x : Long) => if x = longNaN ∨ isSat x then 1 else 0
  f (v.extractLsb' 0 128) + f (v.extractLsb' 128 128)

/-- One LONG_OVF of a unit (R222): counted, recorded, raised. -/
def State.reduceOvf (s : State) (l run : Nat) (sink : Bool) (value : Nat) : State :=
  let s := (s.put (F.REDUCE_OVF_INFO_RUN l) run).putB (F.REDUCE_OVF_INFO_LANE l) sink
  let s := (s.put (F.REDUCE_OVF_INFO_VALUE l) value).errInc (P.REDUCE l)
  s.raise (P.REDUCE l) B.REDUCE_LONG_OVF Evn.COMPUTE_LONG_OVF

/-- A poisoned output (R223). -/
def State.reducePoison (s : State) (l : Nat) : State :=
  (s.bump (Reg.REDUCE_POISON_OUT l) 1).raise (P.REDUCE l) B.REDUCE_REDUCE_POISON Evn.LINK_REDUCE_POISON

/-- What both lanes do with one output: the run's registers, the operand taken, the counters and any overflow. -/
structure LaneOut where
  s     : State
  run   : Run
  n     : Nat
  sum   : BitVec 256
  bad   : Bool
  ovf   : Bool

/-- The current run of a lane with its number. -/
def ReduceSt.cur (x : ReduceSt) (sink : Bool) : Option (Nat × Run) := (laneRuns x.prog sink)[if sink then x.snkRun else x.fwdRun]?

/-- The lane's position after one output. -/
def ReduceSt.advance (x : ReduceSt) (sink : Bool) (count : Nat) : ReduceSt :=
  if sink then
    if x.snkDone + 1 = count then { x with snkRun := x.snkRun + 1, snkDone := 0 } else { x with snkDone := x.snkDone + 1 }
  else
    if x.fwdDone + 1 = count then { x with fwdRun := x.fwdRun + 1, fwdDone := 0 } else { x with fwdDone := x.fwdDone + 1 }

/-- One output of a lane (R220 to R223); none when no run of the lane is left or its queue is empty, which the loader refuses. -/
def State.laneOut (s : State) (l : Nat) (sink : Bool) (incoming : BitVec 256) (poisoned : Bool) : Option LaneOut :=
  let x := s.red l
  match x.cur sink with
  | none => none
  | some (i, r) =>
    match (if r.lq then x.lq1 else x.lq0) with
    | [] => none
    | (op, opBad) :: rest =>
      let n := if sink then x.snkDone else x.fwdDone
      let q := operandSum incoming op
      let x := if r.lq then { x with lq1 := rest } else { x with lq0 := rest }
      let s := ((s.setRed l (x.advance sink r.count)).lqFill l).bump64 (Reg.REDUCE_ADDS_LO l) 2
      let s := (s.put (F.REDUCE_CUR_RUN_RUN l) i).put (F.REDUCE_CUR_RUN_LEFT l) (r.count - (n + 1))
      let act := if sink then F.REDUCE_STATUS_SINK_ACTIVE l else F.REDUCE_STATUS_FWD_ACTIVE l
      let s := (s.putB act (decide (n + 1 < r.count))).bump (Reg.REDUCE_SPEC_COUNT l) (specials q.1)
      let s := if q.2.1 then s.reduceOvf l i sink 0 else s
      let s := if q.2.2 then s.reduceOvf l i sink 1 else s
      some { s := s, run := r, n := n, sum := q.1, bad := poisoned || opBad, ovf := q.2.1 || q.2.2 }

/-- The pace fault of a LONG_OVF (R222, R175). -/
def State.ovfFault (s : State) (ovf : Bool) (l : Nat) : State := if ovf then s.paceFault causeLongOvf l else s

/-- Whether a unit works: a step is executing and the unit is READY. -/
def State.reduceOn (s : State) (l : Nat) : Bool := s.stepActive && decide (s.fn (P.REDUCE l) = fnReady)

/-- An ADD output: the sum is transmitted on link l at the run's tick (R220, R223). -/
def execReduceAdd (link : Fin 96) (incoming : BitVec 256) (poisoned : Bool) (s : State) : Host.Outcome State Fault Refusal :=
  if s.reduceOn link.val then
    match s.laneOut link.val false incoming poisoned with
    | none => .next s
    | some o =>
      let s := o.s.emit (.flit link.val (o.run.tick o.n) false o.bad o.sum)
      let s := if o.bad then s.reducePoison link.val else s
      .next (s.ovfFault o.ovf link.val)
  else .next s

/-- The destination of a SINK run (Table 9.1); none for a reserved DKIND, which the loader refuses. -/
def Run.dest (r : Run) : Option Port :=
  let d := r.dindex
  if r.dkind = 0 then some (.queue (Fin.ofNat 16 (d / 64)) (Fin.ofNat 8 (d / 8)) (Fin.ofNat 8 d))
  else if r.dkind = 1 then some (.dma (Fin.ofNat 16 (d / 64)) (Fin.ofNat 16 d))
  else if r.dkind = 2 ∧ d % 128 < 96 then some (.reduce (Fin.ofNat 96 (d % 128)) (decide (d / 128 % 2 = 1)))
  else none

/-- A sink line is delivered; a poisoned one carries a poisoned RS encoding, which its receiving port finds uncorrectable
(R221, R223, R132). -/
def State.sinkLine (s : State) (l : Nat) (r : Run) (v : Line) (bad : Bool) : State :=
  match r.dest with
  | none => s
  | some p =>
    let s := s.bumpW (Reg.REDUCE_SINK_LINES l) 1
    let s := if bad then (s.reducePoison l).xbarUncorr else s
    (s.xbarPlace (.reduce (Fin.ofNat 96 l) false) p v bad).bump64 Reg.FLOOR_LINES_LO 1

/-- A SINK output: outputs pair into lines, and an odd last one is completed with zeros (R221). -/
def execReduceSink (link : Fin 96) (incoming : BitVec 256) (poisoned : Bool) (s : State) : Host.Outcome State Fault Refusal :=
  if s.reduceOn link.val then
    match s.laneOut link.val true incoming poisoned with
    | none => .next s
    | some o =>
      let x := o.s.red link.val
      let s := match x.half with
        | some h => (o.s.setRed link.val { x with half := none }).sinkLine link.val o.run (halvesLine h.1 o.sum) (h.2 || o.bad)
        | none =>
          if o.n + 1 = o.run.count then o.s.sinkLine link.val o.run (halvesLine o.sum 0) o.bad
          else o.s.setRed link.val { x with half := some (o.sum, o.bad) }
      .next (s.ovfFault o.ovf link.val)
  else .next s

/-- The known-answer test of FN_ENABLE passes (R225). -/
def State.reduceStarted (s : State) (l : Nat) : State := (s.putB (F.REDUCE_STATUS_KAT_PASS l) true).setFn (P.REDUCE l) fnReady

/-- The known-answer test fails (R225): FAULT, LINK.REDUCE_FAULT and a Deadwood entry. -/
def State.reduceStartFailed (s : State) (l : Nat) : State :=
  let s := (s.putB (F.REDUCE_STATUS_KAT_PASS l) false).toFault (P.REDUCE l)
  (s.raise (P.REDUCE l) B.REDUCE_REDUCE_FAULT Evn.LINK_REDUCE_FAULT).dwAdd dwReduce l 0 Evn.LINK_REDUCE_FAULT.code 2

end Sys2Proof.Machine
end

