-- ==== Sys2Proof/Machine/Walk.lean ====
section
/-! DEFINITION. What the loader can know of a stand before it runs (R153, R156): crossbar arrivals, the issue of every bundle of a grove's
streams, and the accesses that the issued operations make at their ticks (Table 5.3). -/

namespace Sys2Proof.Machine

/-! ## Crossbar arrivals -/

/-- The first schedule tick of a frame of the step: 42 per epoch, 96 ticks apart (R239). -/
def frameTick (n : Nat) : Nat := 4096 * (n / 42) + 96 * (n % 42)

/-- Insertion by the first component. -/
def insertTick {α : Type} (e : Nat × α) : List (Nat × α) → List (Nat × α)
  | [] => [e]
  | x :: xs => if e.1 < x.1 then e :: x :: xs else x :: insertTick e xs

/-- A list of ticks with their contents, in order of tick. -/
def byTick {α : Type} (l : List (Nat × α)) : List (Nat × α) := l.foldl (fun m e => insertTick e m) []

/-- The ticks at which a link presents halves of lines for a crossbar destination: the first or the second halves. -/
def linkHalves (p : LinkPlan) (dst : Port) (h : Bool) : List Nat :=
  (byTick ((p.rx.filter (fun f => f.half == h && f.dests.contains (.xbar dst))).map (fun f => (f.tick, ())))).map (·.1)

/-- The crossbar destinations of a link's flits. -/
def linkXdests (p : LinkPlan) : List Port :=
  (p.rx.flatMap (fun f => f.dests.filterMap (fun d => match d with
    | .xbar dst => some dst
    | _ => none))).eraseDups

/-- Lines that arrive from links: at p₂ + 6 (R209). -/
def linkArrivals (p : LinkPlan) : List (Nat × Port) :=
  (linkXdests p).flatMap (fun d => ((linkHalves p d false).zip (linkHalves p d true)).map (fun e => (max e.1 e.2 + 6, d)))

/-- Lines of a frame's reads: block i is at its destination at F + 55 + 5i (R240). -/
def frameArrivals (f : FramePlan) : List (Nat × Port) :=
  if entryDir f.entry = 1 then f.ports.zipIdx.map (fun e => (frameTick f.frame + 55 + 5 * e.2, e.1)) else []

/-- Lines of a SINK run: at T₂ + 6 (R221). -/
def Run.arrivals (r : Run) : List (Nat × Port) :=
  match r.sink, r.dest with
  | true, some d => (List.range ((r.count + 1) / 2)).map (fun k => (r.tick (min (2 * k + 1) (r.count - 1)) + 6, d))
  | _, _ => []

/-- Every crossbar delivery of a stand, with its destination. -/
def imArrivals (im : Image) : List (Nat × Port) :=
  im.xbar.map (fun x => (x.tick + 7, x.dst)) ++ im.plans.flatMap linkArrivals ++ im.frames.flatMap frameArrivals
    ++ im.reduce.flatMap (fun p => (p.runs.map runOf).flatMap (fun r => r.arrivals))

/-- Ticks at which lines arrive at a port, ascending. -/
def imAt (im : Image) (d : Port) : List Nat := (byTick (((imArrivals im).filter (fun e => e.2 = d)).map (fun e => (e.1, ())))).map (·.1)

/-- Ticks at which the crossbar schedule takes lines from a port, ascending. -/
def imTaken (im : Image) (src : Port) : List Nat := (byTick ((im.xbar.filter (fun x => x.src = src)).map (fun x => (x.tick, ())))).map (·.1)

/-! ## Grove DMA (R145, R146, Table 6.4) -/

/-- A started descriptor: channel, number, start tick, its words, and the engine whose DMAT started it. -/
structure DmaStat where
  ch    : Nat
  desc  : Nat
  start : Nat
  d     : BitVec 256
  byEng : Option Nat
  deriving DecidableEq, Repr

def DmaStat.kind (x : DmaStat) : Nat := descField x.d 0 0 4
def DmaStat.rate (x : DmaStat) : Nat := descField x.d 0 4 3
def DmaStat.len (x : DmaStat) : Nat := descField x.d 0 16 16 + 1
def DmaStat.src (x : DmaStat) : Nat := descField x.d 1 0 24
def DmaStat.dst (x : DmaStat) : Nat := descField x.d 2 0 24
def DmaStat.eng (x : DmaStat) : Nat := descField x.d 0 8 3
def DmaStat.half (x : DmaStat) : Nat := descField x.d 0 11 1

/-- A descriptor of the image. -/
def imDescr (im : Image) (g ch desc : Nat) : BitVec 256 :=
  ((im.descrs.find? (fun d => decide (d.g.val = g) && decide (d.ch.val = ch) && decide (d.desc.toNat = desc))).map (fun d => d.raw)).getD 0

/-- Lines that arrive at the channel from the descriptor's start. -/
def imInbound (im : Image) (g : Nat) (x : DmaStat) : List Nat :=
  ((imAt im (.dma (Fin.ofNat 16 g) (Fin.ofNat 16 x.ch))).filter (fun t => decide (x.start ≤ t))).take x.len

/-- Lines that the crossbar takes of the descriptor. -/
def imOutbound (im : Image) (g : Nat) (x : DmaStat) : List Nat :=
  ((imTaken im (.dma (Fin.ofNat 16 g) (Fin.ofNat 16 x.ch))).filter (fun t => decide (x.start ≤ t))).take x.len

/-- The descriptor's completion tick (R146): the last line visible, or taken by the crossbar; none when too few lines come or go. -/
def imDmaEnd (im : Image) (g : Nat) (x : DmaStat) : Option Nat :=
  if x.kind = 0 then some (x.start + 18 + (x.len - 1) / x.rate)
  else if x.kind = 1 then
    if (imOutbound im g x).length = x.len then (imOutbound im g x).getLast? else none
  else if x.kind = 2 then
    if (imInbound im g x).length = x.len then (imInbound im g x).getLast?.map (· + 10) else none
  else some (x.start + 12 + (x.len - 1))

/-- Whether a started descriptor runs at tick t. -/
def imDmaBusy (im : Image) (g : Nat) (x : DmaStat) (t : Nat) : Bool :=
  decide (x.start ≤ t) && (match imDmaEnd im g x with
    | some e => decide (t < e)
    | none => true)

/-! ## The issue of a grove's streams -/

/-- A bundle issued: engine, tick, address, the bundle, and the engine's index and address registers at that tick. -/
structure Issue where
  e    : Nat
  tick : Nat
  pc   : Nat
  b    : Bundle
  x    : EngineSt
  deriving DecidableEq, Repr

/-- Why the loader stops at a bundle. -/
inductive WalkBad where
  | bundle | hazard
  deriving DecidableEq, Repr

/-- One engine in the walk: its registers, the tick of its next bundle, and what the loader found. -/
structure WalkE where
  e    : Nat
  x    : EngineSt := {}
  next : Option Nat := some 0
  bad  : Option (WalkBad × Nat) := none
  deriving DecidableEq, Repr

/-- The walk of one grove. -/
structure Walk where
  g      : Nat
  engs   : List WalkE := []
  dma    : List DmaStat := []
  issues : List Issue := []
  deriving DecidableEq, Repr

/-- The bundles of a segment as the image places it. -/
def imSegmentAt (im : Image) (g line : Nat) : Option (List (BitVec 256)) :=
  (im.streams.filter (fun t => decide (t.a.g.val = g))).findSome? (fun t => (t.further.find? (fun f => decide (f.1 = line))).map (·.2))

/-- The engine's stream. -/
def imStream (im : Image) (g e : Nat) : Option EngStream := im.streams.find? (fun t => decide (t.a.g.val = g) && decide (t.a.e.val = e))

/-- The bundle at an address at a tick: the last segment load whose bundle is visible, else the entry segment (R100, R146). -/
def Walk.fetch (im : Image) (w : Walk) (e pc t : Nat) : Option (BitVec 256) :=
  let loads := (w.dma.filter (fun x => decide (x.kind = 3) && decide (x.eng = e) && decide (x.half = pc / 4096)
    && decide (pc % 4096 < 2 * x.len) && decide (x.start + 12 + pc % 4096 / 2 ≤ t)))
  match (byTick (loads.map (fun x => (x.start, x)))).getLast? with
  | some (_, x) => ((imSegmentAt im w.g x.src).map (fun bs => bs.getD (pc % 4096) 0))
  | none =>
    match imStream im w.g e with
    | none => none
    | some st => if st.segBase ≤ pc ∧ pc < st.segBase + st.bundles.length then st.bundles[pc - st.segBase]? else some 0

/-- Whether a segment load into the half of an address is in progress (R100). -/
def Walk.loading (im : Image) (w : Walk) (e pc t : Nat) : Bool :=
  w.dma.any (fun x => decide (x.kind = 3) && decide (x.eng = e) && decide (x.half = pc / 4096) && imDmaBusy im w.g x t)

/-- Class and last visible tick of the operations of a bundle issued at t, for FENCE (R99, Table 5.3). -/
def tenDone (t : Nat) : Ten → Option Nat
  | .nop => none
  | .mma afmt _ rows _ _ _ _ _ _ _ => some (t + rows.toNat + (if afmt.toNat ≤ 2 then 24 else 20))
  | .loadw .. => some (t + 20)
  | .drain _ _ raw _ _ rows _ _ _ _ => some (t + (if raw then 2 * rows.toNat + 15 else rows.toNat + 14))
  | .accadd _ rows _ _ _ _ _ => some (t + 2 * rows.toNat + 10)

/-- Latency of a vector operation (Table 5.9). -/
def vecLat (op : Nat) : Nat :=
  if op = 0x01 ∨ op = 0x02 ∨ op = 0x03 ∨ op = 0x09 ∨ op = 0x0A ∨ op = 0x50 then 4
  else if op = 0x04 ∨ op = 0x30 ∨ op = 0x31 ∨ op = 0x33 ∨ op = 0x34 then 6
  else if op = 0x32 then 8
  else if op = 0x40 ∨ op = 0x41 then 10
  else if 0x20 ≤ op ∧ op ≤ 0x23 then 12
  else 2

def memDone (t : Nat) : Mem → Option (Nat × Nat)
  | .ld rate len _ _ _ _ _ => some (0, t + 18 + len.toNat / rate.toNat)
  | .st rate len _ _ _ _ _ => some (0, t + 10 + len.toNat / rate.toNat)
  | .send _ len _ _ => some (1, t + 1 + len.toNat / 2)
  | .recv _ len _ _ => some (1, t + 2 + len.toNat / 2)
  | .gather _ _ n _ _ => some (2, t + 34 + 2 * n.toNat)
  | .scatter _ _ n _ _ => some (2, t + 34 + 2 * n.toNat)
  | _ => none

def opsOf (t : Nat) (b : Bundle) : List OpPending :=
  ((tenDone t b.ten).map (fun d => ({ cls := 4, done := d } : OpPending))).toList
    ++ (if b.vec.op = 0 then [] else [{ cls := 5, done := t + vecLat b.vec.op.toNat }])
    ++ [b.mema, b.memb].filterMap (fun m => (memDone t m).map (fun d => ({ cls := d.1, done := d.2 } : OpPending)))

/-- The address registers after a MEM slot (R113). -/
def memAreg (x : EngineSt) : Mem → List (Nat × Word)
  | .ld _ len areg ainc _ _ _ => if ainc then [(areg.toNat, x.a areg.toNat + BitVec.ofNat 32 (len.toNat + 1))] else []
  | .st _ len areg ainc _ _ _ => if ainc then [(areg.toNat, x.a areg.toNat + BitVec.ofNat 32 (len.toNat + 1))] else []
  | .seta areg v => [(areg.toNat, v)]
  | .adda areg v => [(areg.toNat, x.a areg.toNat + v)]
  | _ => []

/-- The FENCE tick, grove DMA of this engine included (R99). -/
def Walk.fence (im : Image) (w : Walk) (x : EngineSt) (e t : Nat) (mask : BitVec 6) : Nat :=
  let d := if mask.getLsbD 3 then w.dma.filterMap (fun r => if r.byEng = some e then some ((imDmaEnd im w.g r).getD 0) else none) else []
  d.foldl max (({ x with tick := t }).fenceTick mask)

/-- The engine after its bundle's CTL slot: registers and the next bundle's tick, or why the loader refuses it (R97 to R102). -/
def Walk.ctl (im : Image) (w : Walk) (x : EngineSt) (e t : Nat) : Ctl → EngineSt × Option Nat × Option WalkBad
  | .nop | .evt _ => ({ x with pc := x.pc + 1 }, some (t + 1), none)
  | .wait n => ({ x with pc := x.pc + 1 }, some (t + 2 + n.toNat), none)
  | .loop n => ({ x with pc := x.pc + 1, loops := { count := n.toNat + 1, body := x.pc + 1 } :: x.loops }, some (t + 1),
                if 4 ≤ x.loops.length then some .hazard else none)
  | .endloop r xen st =>
    match x.loops with
    | [] => (x, none, some .hazard)
    | l :: ls =>
      let bad := if l.body.toNat / 4096 = x.pc.toNat / 4096 then none else some WalkBad.hazard
      let y := if xen then { x with xregs := aset 0 x.xregs r.toNat (aget 0 x.xregs r.toNat + st) } else x
      if l.count ≤ 1 then ({ y with pc := y.pc + 1, loops := ls }, some (t + 1), bad)
      else ({ y with pc := l.body, loops := { l with count := l.count - 1 } :: ls }, some (t + 1), bad)
  | .epochWait k => ({ x with pc := x.pc + 1 }, some (4096 * k.toNat), if 4096 * k.toNat ≤ t then some .hazard else none)
  | .fence m => ({ x with pc := x.pc + 1 }, some (w.fence im x e t m), none)
  | .seg a => ({ x with pc := a }, some (t + 1), if x.loops.isEmpty then none else some .hazard)
  | .halt => (x, none, if x.loops.isEmpty then none else some .hazard)
  | .xset r v => ({ x with pc := x.pc + 1, xregs := aset 0 x.xregs r.toNat v }, some (t + 1), none)

/-- Whether a bundle runs on into the other half, or past address 8,191 (R100). -/
def crosses (c : Ctl) (pc : Nat) (y : EngineSt) : Bool :=
  match c with
  | .seg _ | .halt => false
  | _ => decide (pc % 4096 = 4095) && decide (y.pc.toNat = (pc + 1) % 8192)

/-- One engine's bundle at tick t. -/
def Walk.issue (im : Image) (w : Walk) (we : WalkE) (t : Nat) : WalkE × List Issue × List DmaStat :=
  let stop := fun (b : WalkBad) => ({ we with next := none, bad := some (b, we.x.pc.toNat) }, ([] : List Issue), ([] : List DmaStat))
  match (w.fetch im we.e we.x.pc.toNat t).bind decodeBundle with
  | none => stop .bundle
  | some b =>
    if w.loading im we.e we.x.pc.toNat t then stop .hazard
    else
      let x := { we.x with tick := t, ops := (we.x.ops.filter (fun o => decide (t < o.done))) }
      let r := w.ctl im x we.e t b.ctl
      let y := { r.1 with ops := r.1.ops ++ opsOf t b, count := r.1.count + 1,
                          aregs := (memAreg x b.mema ++ memAreg x b.memb).foldl (fun m p => aset 0 m p.1 p.2) r.1.aregs }
      let ds := [b.mema, b.memb].filterMap (fun m => match m with
        | .dmat ch desc => some ({ ch := ch.toNat, desc := desc.toNat, start := t + 1, d := imDescr im w.g ch.toNat desc.toNat, byEng := some we.e } : DmaStat)
        | _ => none)
      let bad := match r.2.2 with
        | some k => some (k, we.x.pc.toNat)
        | none => if crosses b.ctl we.x.pc.toNat y then some (.hazard, we.x.pc.toNat) else none
      ({ we with x := y, next := if bad.isSome then none else r.2.1, bad := bad }, [{ e := we.e, tick := t, pc := we.x.pc.toNat, b := b, x := x }], ds)

/-- One tick of the walk: every engine whose next bundle is due. -/
def Walk.tick (im : Image) (w : Walk) (t : Nat) : Walk :=
  w.engs.foldl (fun (v : Walk) we =>
    if we.next = some t then
      let r := w.issue im we t
      { v with engs := v.engs.map (fun k => if k.e = we.e then r.1 else k), dma := v.dma ++ r.2.2, issues := v.issues ++ r.2.1 }
    else v) w

/-- The walk over `n` ticks from t. -/
def Walk.run (im : Image) (w : Walk) (t : Nat) : Nat → Walk
  | 0 => w
  | n + 1 => (w.tick im t).run im (t + 1) n

/-- The walk of a grove's streams over the whole step (R90, R102). -/
def imWalk (im : Image) (g : Nat) : Walk :=
  let engs := (im.streams.filter (fun t => decide (t.a.g.val = g))).map (fun t => ({ e := t.a.e.val, x := { pc := t.entry } } : WalkE))
  let dma := (im.starts.filter (fun d => decide (d.g.val = g))).map (fun d =>
    ({ ch := d.ch.val, desc := d.desc.toNat, start := d.tick, d := imDescr im g d.ch.val d.desc.toNat, byEng := none } : DmaStat))
  ({ g := g, engs := engs, dma := dma } : Walk).run im 0 (4096 * im.nEpochs)

/-! ## What the issued operations do (Table 5.3) -/

/-- A place in an engine that a stand must write before it reads it (R90): a line of the operand store, a vector register, an
accumulator row of a buffer, a weight bank. -/
inductive Place where
  | line (n : Nat)
  | vreg (r : Nat)
  | acc (buf : Bool) (row : Nat)
  | bank (wsel : Bool)
  | areg (r : Nat)
  | xreg (r : Nat)
  deriving DecidableEq, Repr

/-- An access: its tick, the operation it belongs to, whether it writes, and its place. For a write the tick is that of visibility. -/
structure Acc where
  tick  : Nat
  op    : Nat
  write : Bool
  place : Place
  deriving DecidableEq, Repr

/-- A line moved between grove SRAM and the operand store, or by a dynamic access or DMA: tick, line, whether it is written, and for LD
and ST the operation. -/
structure SramAcc where
  tick  : Nat
  line  : Nat
  write : Bool
  xfer  : Bool
  deriving DecidableEq, Repr

/-- Lines of the operand store from `n`. -/
def lineAccs (t op : Nat) (w : Bool) (n k : Nat) : List Acc :=
  (List.range k).map (fun j => { tick := t, op := op, write := w, place := .line ((n + j) % 32768) })

/-- The lines that operand-store writes name. -/
def writtenLines (t op : Nat) (ws : List WriteOp) : List Acc :=
  ws.filterMap (fun w => match w with
    | .store n _ => some { tick := t, op := op, write := true, place := .line n }
    | .storeBytes n _ _ => some { tick := t, op := op, write := true, place := .line n }
    | _ => none)

/-- Accesses of the TEN slot. -/
def tenAccs (x : EngineSt) (op : Nat) : Ten → List Acc
  | .nop => []
  | .mma afmt kb rowsM1 rbase buf clr wsel _ xsel osa =>
    let o := x.osa xsel osa
    let rows := rowsM1.toNat + 1
    let wide := decide (512 < fmtWidth afmt.toNat * 32 * (kb.toNat + 1))
    (List.range rows).flatMap (fun r =>
      lineAccs (x.tick + r) op false (o + 2 * r) (if wide then 2 else 1)
        ++ (if afmt.toNat ≤ 2 then [] else lineAccs (x.tick + r) op false (o + 2 * rows + r / 8) 1)
        ++ [{ tick := x.tick + r, op := op, write := false, place := .bank wsel },
            { tick := x.tick + r + (if afmt.toNat ≤ 2 then 24 else 20), op := op, write := true, place := .acc buf (rbase.toNat + r) }]
        ++ (if clr then [] else [{ tick := x.tick + r + (if afmt.toNat ≤ 2 then 24 else 20), op := op, write := false, place := .acc buf (rbase.toNat + r) }]))
  | .loadw _ _ wsel xsel osa =>
    (List.range 17).flatMap (fun j => lineAccs (x.tick + j) op false (x.osa xsel osa + 16 * j) 16)
      ++ [{ tick := x.tick + 20, op := op, write := true, place := .bank wsel }]
  | .drain fmt rm raw smode buf rowsM1 rbase os xsel osa =>
    let o := x.osa xsel osa
    let rows := rowsM1.toNat + 1
    let c := if raw then 2 else 1
    (List.range rows).flatMap (fun r =>
      [{ tick := x.tick + c * r, op := op, write := false, place := .acc buf (rbase.toNat + r) }]
        ++ (if raw then writtenLines (x.tick + c * r + 14) op (rawWrites {} 0 r 0 o) ++ writtenLines (x.tick + c * r + 15) op (rawWrites {} 0 r 1 o)
            else writtenLines (x.tick + r + 14) op (drainWrites r rows fmt.toNat o (drainRow {} 0 fmt.toNat rm.toNat smode.toNat os (fun _ => 0)))))
  | .accadd buf rowsM1 rbase clr _ xsel osa =>
    let o := x.osa xsel osa
    (List.range (rowsM1.toNat + 1)).flatMap (fun r =>
      lineAccs (x.tick + 2 * r) op false (o + 32 * r) 16 ++ lineAccs (x.tick + 2 * r + 1) op false (o + 32 * r + 16) 16
        ++ [{ tick := x.tick + 2 * r + 10, op := op, write := true, place := .acc buf (rbase.toNat + r) }]
        ++ (if clr then [] else [{ tick := x.tick + 2 * r + 10, op := op, write := false, place := .acc buf (rbase.toNat + r) }]))

/-- Accesses of the VEC slot. -/
def vecAccs (x : EngineSt) (op : Nat) (v : Vec) : List Acc :=
  match vecForm v.op.toNat with
  | none => []
  | some (f, d, a, b, c) =>
    let rd := fun (u : Bool) (r : BitVec 6) => if u then [({ tick := x.tick, op := op, write := false, place := .vreg r.toNat } : Acc)] else []
    let o := x.osa (fld v.ext 15 3) (fld v.ext 0 15)
    rd a v.va ++ rd b v.vb ++ rd c v.vc
      ++ (if d then [{ tick := x.tick + vecLat v.op.toNat, op := op, write := true, place := .vreg v.vd.toNat }] else [])
      ++ (if f = .m then (if d then lineAccs x.tick op false o 16 else lineAccs (x.tick + 2) op true o 16) else [])

/-- Accesses of a MEM slot inside the engine. -/
def memAccs (x : EngineSt) (op : Nat) (m : Mem) : List Acc :=
  (match m with
  | .ld rate len _ _ _ xsel osa => (List.range (len.toNat + 1)).flatMap (fun k => lineAccs (x.tick + 18 + k / rate.toNat) op true (x.osa xsel osa + k) 1)
  | .st rate len _ _ _ xsel osa => (List.range (len.toNat + 1)).flatMap (fun k => lineAccs (x.tick + k / rate.toNat) op false (x.osa xsel osa + k) 1)
  | .send _ len xsel osa => (List.range (len.toNat + 1)).flatMap (fun k => lineAccs (x.tick + k / 2) op false (x.osa xsel osa + k) 1)
  | .recv _ len xsel osa => (List.range (len.toNat + 1)).flatMap (fun k => lineAccs (x.tick + 2 + k / 2) op true (x.osa xsel osa + k) 1)
  | .gather vs _ n xsel osa =>
    { tick := x.tick, op := op, write := false, place := .vreg vs.toNat } :: lineAccs (x.tick + 34 + 2 * n.toNat) op true (x.osa xsel osa) (n.toNat + 1)
  | .scatter vs _ n xsel osa =>
    { tick := x.tick, op := op, write := false, place := .vreg vs.toNat }
      :: (List.range (n.toNat + 1)).flatMap (fun k => lineAccs (x.tick + k / 2) op false (x.osa xsel osa + k) 1)
  | _ => [])
  ++ (memAreg x m).map (fun p => { tick := x.tick + 1, op := op, write := true, place := .areg p.1 })

/-- Index registers that a bundle writes. -/
def ctlAccs (x : EngineSt) (op : Nat) : Ctl → List Acc
  | .xset r _ => [{ tick := x.tick + 1, op := op, write := true, place := .xreg r.toNat }]
  | .endloop r xen _ => if xen then [{ tick := x.tick + 1, op := op, write := true, place := .xreg r.toNat }] else []
  | _ => []

/-- Every access of a bundle inside its engine; operations are numbered by tick and slot. -/
def Issue.accs (i : Issue) : List Acc :=
  let n := 5 * i.tick
  ctlAccs i.x n i.b.ctl ++ tenAccs i.x (n + 1) i.b.ten ++ vecAccs i.x (n + 2) i.b.vec ++ memAccs i.x (n + 3) i.b.mema ++ memAccs i.x (n + 4) i.b.memb

/-- First line of a transfer. -/
def xferBase (x : EngineSt) (areg : BitVec 4) (off : BitVec 9) : Nat := (x.a areg.toNat).toNat % 2 ^ 24 + off.toNat

/-- The grove lines that a bundle's LD and ST move. -/
def Issue.sram (i : Issue) : List SramAcc :=
  [i.b.mema, i.b.memb].flatMap (fun m => match m with
    | .ld rate len areg _ off _ _ =>
      (List.range (len.toNat + 1)).map (fun k => { tick := i.tick + 8 + k / rate.toNat, line := xferBase i.x areg off + k, write := false, xfer := true })
    | .st rate len areg _ off _ _ =>
      (List.range (len.toNat + 1)).map (fun k => { tick := i.tick + 10 + k / rate.toNat, line := xferBase i.x areg off + k, write := true, xfer := true })
    | _ => [])

/-- The grove lines that a started descriptor moves (Table 6.4). -/
def imDmaSram (im : Image) (g : Nat) (x : DmaStat) : List SramAcc :=
  let rd := (List.range x.len).map (fun i => ({ tick := x.start + i / x.rate, line := x.src + i, write := false, xfer := false } : SramAcc))
  if x.kind = 0 then rd ++ (List.range x.len).map (fun i => { tick := x.start + 18 + i / x.rate, line := x.dst + i, write := true, xfer := false })
  else if x.kind = 2 then (imInbound im g x).zipIdx.map (fun e => { tick := e.1 + 10, line := x.dst + e.2, write := true, xfer := false })
  else rd

/-- Dynamic operations of a bundle: region, first and last tick of the reservation, and whether it scatters (R138). -/
def Issue.dyns (i : Issue) : List (Nat × Nat × Nat × Bool) :=
  [i.b.mema, i.b.memb].filterMap (fun m => match m with
    | .gather _ dreg n _ _ => some (dreg.toNat, i.tick, i.tick + 34 + 2 * n.toNat, false)
    | .scatter _ dreg n _ _ => some (dreg.toNat, i.tick, i.tick + 34 + 2 * n.toNat, true)
    | _ => none)

/-- Lines put into a send queue and taken from a receive queue, by engine and queue: the ticks, ascending. -/
def Walk.pushes (w : Walk) (e q : Nat) : List Nat :=
  (byTick ((w.issues.filter (fun i => decide (i.e = e))).flatMap (fun i => [i.b.mema, i.b.memb].flatMap (fun m => match m with
    | .send k len _ _ => if k.toNat = q then (List.range (len.toNat + 1)).map (fun j => (i.tick + 1 + j / 2, ())) else []
    | _ => [])))).map (·.1)

def Walk.pops (w : Walk) (e q : Nat) : List Nat :=
  (byTick ((w.issues.filter (fun i => decide (i.e = e))).flatMap (fun i => [i.b.mema, i.b.memb].flatMap (fun m => match m with
    | .recv k len _ _ => if k.toNat = q then (List.range (len.toNat + 1)).map (fun j => (i.tick + 1 + j / 2, ())) else []
    | _ => [])))).map (·.1)

end Sys2Proof.Machine
end

