-- ==== Sys2Proof/Machine/Loader.lean ====
section
/-! DEFINITION. The stand manifest (Table 18.2) and the loader's checks of a stand image (R153 to R157 and the rules Table 7.1 and Table
7.3 name). -/

namespace Sys2Proof.Machine

/-! ## The manifest (R410, Table 18.2) -/

/-- The little-endian value of `n` bytes from `o`. -/
def leAt (b : Nat → Byte) (o n : Nat) : Nat := leValue ((List.range n).map (fun i => b (o + i)))

/-- One member's entry, with its digest list. -/
def manMember (b : Nat → Byte) (i : Nat) : ManMember :=
  let o := 16 + 24 * i
  { serial := BitVec.ofNat 64 (leAt b o 8), length := BitVec.ofNat 64 (leAt b (o + 8) 8),
    chunks := (List.range (leAt b (o + 20) 4)).map (fun k => BitVec.ofNat 256 (leAt b (leAt b (o + 16) 4 + 32 * k) 32)) }

/-- MEMBERS. -/
def manCount (b : Nat → Byte) : Nat := leAt b 4 2

/-- Bytes before the signature: to the end of the last digest list. -/
def manBody (b : Nat → Byte) : Nat :=
  (List.range (manCount b)).foldl (fun m i => max m (leAt b (16 + 24 * i + 16) 4 + 32 * leAt b (16 + 24 * i + 20) 4)) (16 + 24 * manCount b)

/-- The manifest that bytes spell. -/
def manifestOf (raw : List Byte) : Manifest :=
  let b := fun i => raw.getD i 0
  { standId := BitVec.ofNat 32 (leAt b 0 4), lead := BitVec.ofNat 16 (leAt b 6 2), dMax := BitVec.ofNat 8 (leAt b 8 1),
    members := (List.range (manCount b)).map (manMember b), signature := BitVec.ofNat 512 (leAt b (manBody b) 64) }

/-- A manifest's bytes before its signature. -/
def manSigned (raw : List Byte) : List Byte := raw.take (manBody (fun i => raw.getD i 0))

/-- The manifest's bytes in module memory from address `a`. -/
def State.manifestAt (s : State) (a : Nat) : List Byte :=
  memBytes s.mem a (manBody (fun i => memByte s.mem (a + i)) + 64)

/-- The index of a serial in the member table. -/
def manIndex (m : Manifest) (serial : Dword) : Option Nat := m.members.findIdx? (fun x => decide (x.serial = serial))

/-- The distinct chunks of a manifest, in the order of their first naming. -/
def manDigests (m : Manifest) : List (BitVec 256) := (m.members.flatMap (fun x => x.chunks)).eraseDups

/-! ## The staging area (Table 18.5) -/

/-- Logical LPDDR5X pages of 2 MiB that the staging area takes: first and count. STAGE_BASE = 0 selects the top 1/16. -/
def State.staging (s : State) : Nat × Nat :=
  let base := (s.rd64 Reg.EVT_STAGE_BASE_LO).toNat
  if base = 0 then (s.lpUsable - s.lpUsable / 16, s.lpUsable / 16)
  else ((base - 0x10000000000) / 0x200000, (s.rd Reg.EVT_STAGE_SIZE).toNat % 65536)

/-- Whether 1 KiB units [b, b + n) meet the staging area. -/
def State.inStaging (s : State) (b n : Nat) : Bool :=
  let st := s.staging
  decide (b < 2048 * (st.1 + st.2)) && decide (2048 * st.1 < b + n)

/-- A 4 KiB block of the staging area of the lead that has this digest (R410). -/
def State.stagedChunk (s : State) (d : BitVec 256) : Option Chunk :=
  let st := s.staging
  let at_ := fun i => (List.range 64).map (fun k => s.line (0x400000000 + 32768 * st.1 + 64 * i + k))
  ((List.range (512 * st.2)).find? (fun i => decide (Config.sm3 ((at_ i).flatMap lineBytes) = d))).map at_

/-! ## Refusals (R157, Table 7.3) -/

abbrev lrTime : Nat := 0x01
abbrev lrSignature : Nat := 0x02
abbrev lrShape : Nat := 0x03
abbrev lrLatLong : Nat := 0x04
abbrev lrLatTable : Nat := 0x05
abbrev lrBundle : Nat := 0x06
abbrev lrHazard : Nat := 0x07
abbrev lrBank : Nat := 0x08
abbrev lrLink : Nat := 0x09
abbrev lrXbar : Nat := 0x0A
abbrev lrRegion : Nat := 0x0B
abbrev lrGeometry : Nat := 0x0C
abbrev lrState : Nat := 0x0D

/-- A refusal: REASON, UNIT and LOAD_DETAIL. -/
structure LoadFail where
  reason : Nat
  unit   : Nat := 0xFF
  detail : Nat := 0
  deriving DecidableEq, Repr

/-- A refusal unless a condition holds. -/
def need (ok : Bool) (f : LoadFail) : Option LoadFail := if ok then none else some f

/-- A refusal at the first element that fails. -/
def needAll {α : Type} (l : List α) (ok : α → Bool) (f : α → LoadFail) : Option LoadFail := (l.find? (fun x => !ok x)).map f

/-- Two elements with the same key stand in the list: the second of the first such pair. -/
def firstDup {α β : Type} [BEq β] (key : α → β) : List α → Option α
  | [] => none
  | x :: xs => match xs.find? (fun y => key y == key x) with
    | some y => some y
    | none => firstDup key xs

/-- R49. -/
def State.loadTime (s : State) : Option LoadFail := need (s.flag F.CLK_STATUS_TIME_VALID) { reason := lrTime }

/-! ## Geometry and shape (R122, R153, R219) -/

def loadGeometry (ld : LoadSt) (man : Manifest) (im : Image) : Option LoadFail :=
  need (decide (1 ≤ im.nEpochs) && decide (im.nEpochs ≤ 65536) && decide (im.dMax ≤ 32) && decide (im.member = ld.member)
    && decide (im.lead = man.lead.toNat) && decide (im.dMax = man.dMax.toNat) && decide (im.standId = man.standId)
    && decide (im.lead < man.members.length) && decide (man.members.length ≤ 8192)
    && (decide (man.members.length ≠ 1) || (decide (im.dMax = 0) && im.plans.all (fun p => !p.group))))
    { reason := lrGeometry }

def State.loadShape (s : State) (im : Image) : Option LoadFail :=
  needAll im.groves (fun n => decide (n.engines ≤ s.get (F.GROVE_SHAPE_LENGINES n.g.val)) && decide (n.banks ≤ s.get (F.GROVE_SHAPE_USABLE_BANKS n.g.val)))
      (fun n => { reason := lrShape, unit := n.g.val })
    |>.or (needAll im.streams (fun t => decide (t.a.e.val < s.get (F.GROVE_SHAPE_LENGINES t.a.g.val))) (fun t => { reason := lrShape, unit := t.a.g.val }))
    |>.or (needAll im.links (fun l => !s.absent (P.LINK l.val)) (fun l => { reason := lrShape, unit := l.val, detail := l.val }))
    |>.or (need (decide (im.pagesU ≤ s.lpUsable)) { reason := lrShape })
    |>.or (needAll (im.reduceU ++ im.reduce.map (fun p => p.l)) (fun l => !s.absent (P.REDUCE l.val)) (fun l => { reason := lrShape, unit := l.val, detail := l.val }))
    |>.or (need (!im.sample || !s.absent P.SAMPLE) { reason := lrShape })

/-! ## Links and latencies (R154, R194, R201, R208, R219 to R221, R226) -/

/-- The runs of a link's reduction unit. -/
def imRuns (im : Image) (l : Nat) : List Run := (im.reduce.filter (fun p => decide (p.l.val = l))).flatMap (fun p => p.runs.map runOf)

/-- Ticks of a run's outputs. -/
def Run.ticks (r : Run) : List Nat := (List.range r.count).map r.tick

/-- A run descriptor without reserved values (Table 9.1). -/
def runOk (d : BitVec 128) : Bool :=
  let op := runField d 0 28 4
  let r := runOf d
  (decide (op = 1) || decide (op = 2)) && decide (runField d 1 13 3 = 0) && decide (r.src < 96) && decide (runField d 1 24 8 = 0)
    && decide (runField d 2 16 16 = 0) && decide (runField d 3 0 32 = 0) && decide (r.start % 64 ≠ 63)
    && (if op = 1 then decide (r.dkind = 0) && decide (r.dindex = 0)
        else if r.dkind = 0 then decide (r.dindex < 1024)
        else if r.dkind = 1 then decide (r.dindex < 1024) && decide (r.dindex / 16 % 4 = 0)
        else decide (r.dkind = 2) && decide (r.dindex < 256) && decide (r.dindex % 128 < 96))

/-- Whether link `a` presents a scheduled flit at tick T for a destination. -/
def presents (im : Image) (a t : Nat) (d : FlitDest) : Bool :=
  im.plans.any (fun p => decide (p.l.val = a) && p.rx.any (fun f => decide (f.tick = t) && f.dests.contains d))

/-- A flit slot of one direction: no second flit in its tick, no service slot, inside the step. -/
def flitTicksOk (n : Nat) (l : Nat) (ts : List Nat) : Option LoadFail :=
  (firstDup id ts).map (fun t => ({ reason := lrLink, unit := l, detail := t } : LoadFail))
    |>.or (needAll ts (fun t => decide (t % 64 ≠ 63) && decide (t < 4096 * n)) (fun t => { reason := lrLink, unit := l, detail := t }))

def State.loadLink (s : State) (im : Image) (p : LinkPlan) : Option LoadFail :=
  let l := p.l.val
  let bad := fun t => ({ reason := lrLink, unit := l, detail := t } : LoadFail)
  need (!s.absent (P.LINK l)) (bad l)
    |>.or (flitTicksOk im.nEpochs l (p.rx.map (fun f => f.tick)))
    |>.or (flitTicksOk im.nEpochs l (p.tx.map (fun f => f.tick)))
    |>.or (needAll p.rx (fun f => decide (1 ≤ f.dests.length) && decide (f.dests.length ≤ 8)
        && decide ((f.dests.filter (fun d => match d with
          | .xbar _ => true
          | _ => false)).length ≤ 1)
        && f.dests.all (fun d => match d with
          | .forward o => im.plans.any (fun q => decide (q.l = o) && q.tx.any (fun x => decide (x.tick = f.tick + 5) && decide (x.src = .forward)))
          | .reduceIn o => (imRuns im o.val).any (fun r => decide (r.src = l) && r.ticks.contains (f.tick + 5))
          | .xbar _ => true)) (fun f => bad f.tick))
    |>.or (needAll p.tx (fun x => match x.src with
        | .forward => decide ((im.plans.filter (fun q => decide (5 ≤ x.tick) && q.rx.any (fun f => decide (f.tick = x.tick - 5) && f.dests.contains (.forward p.l)))).length = 1)
        | .reduce => !x.half && (imRuns im l).any (fun r => !r.sink && r.ticks.contains x.tick)
        | .xbar => im.xbar.any (fun y => decide (y.dst = .link p.l) && decide (y.tick + 6 ≤ x.tick))
            || im.frames.any (fun f => decide (entryDir f.entry = 1) && f.ports.contains (.link p.l))) (fun x => bad x.tick))

def loadReduce (im : Image) (p : ReducePlan) : Option LoadFail :=
  let l := p.l.val
  let bad := fun t => ({ reason := lrLink, unit := l, detail := t } : LoadFail)
  let lanes := fun (k : Bool) => ((p.runs.map runOf).filter (fun r => r.sink == k)).flatMap (fun r => r.ticks)
  need (decide (p.runs.length ≤ 2048)) (bad l)
    |>.or (needAll p.runs runOk (fun d => bad (runOf d).start))
    |>.or ((firstDup id (lanes false)).map bad)
    |>.or ((firstDup id (lanes true)).map bad)
    |>.or (needAll (p.runs.map runOf) (fun r => r.ticks.all (fun t => decide (5 ≤ t) && decide (t < 4096 * im.nEpochs) && presents im r.src (t - 5) (.reduceIn p.l)
        && (r.sink || im.plans.any (fun q => decide (q.l = p.l) && q.tx.any (fun x => decide (x.tick = t) && decide (x.src = .reduce)))))) (fun r => bad r.start))

/-- A direction that the stand uses has an entry of 1 to 1,024 ticks. -/
def latEntryOk (used : Bool) (e : Option Nat) : Bool :=
  !used || (match e with
    | some n => decide (1 ≤ n) && decide (n ≤ 1024)
    | none => false)

def loadLatTable (p : LinkPlan) : Option LoadFail :=
  need (latEntryOk (p.group || !p.rx.isEmpty) p.latRx && latEntryOk (p.group || !p.tx.isEmpty) p.latTx)
    { reason := lrLatTable, unit := p.l.val, detail := p.l.val }

/-- R194, at load and again at arming. -/
def State.loadLatLong (s : State) (im : Image) : Option LoadFail :=
  needAll im.plans (fun p => !(p.group || !p.rx.isEmpty) ||
      (s.linkUp p.l.val && (match p.latRx with
        | some e => decide (s.get (F.LINK_LAT_LAMBDA_RX p.l.val) ≤ e)
        | none => false)))
    (fun p => { reason := lrLatLong, unit := p.l.val, detail := p.l.val })

/-! ## Bundles and engine hazards (R63, R90, R94, R96, R98 to R100, R106, R108) -/

/-- What filled a weight bank, and a buffer's mode and WE, as the walk of one engine finds them in order of issue: format and KB of each
bank, and F32 and WE of each buffer. -/
structure FmtState where
  bank0 : Option (Nat × Nat) := none
  bank1 : Option (Nat × Nat) := none
  buf0  : Option (Bool × BitVec 16) := none
  buf1  : Option (Bool × BitVec 16) := none
  bad   : Option (Nat × Nat) := none
  deriving DecidableEq, Repr

def FmtState.bank (f : FmtState) (w : Bool) : Option (Nat × Nat) := if w then f.bank1 else f.bank0
def FmtState.buf (f : FmtState) (b : Bool) : Option (Bool × BitVec 16) := if b then f.buf1 else f.buf0
def FmtState.setBuf (f : FmtState) (b : Bool) (v : Bool × BitVec 16) : FmtState := if b then { f with buf1 := some v } else { f with buf0 := some v }
def FmtState.fail (f : FmtState) (reason pc : Nat) : FmtState := if f.bad.isSome then f else { f with bad := some (reason, pc) }

/-- R106 and R108 for one bundle. -/
def FmtState.step (f : FmtState) (i : Issue) : FmtState :=
  match i.b.ten with
  | .loadw wfmt kb wsel _ _ =>
    let v := some (wfmt.toNat, kb.toNat + 1)
    if wsel then { f with bank1 := v } else { f with bank0 := v }
  | .mma afmt kb _ _ buf clr wsel we _ _ =>
    let f := match f.bank wsel with
      | none => f.fail lrHazard i.pc
      | some (w, k) =>
        let wide := decide (afmt.toNat ≤ 2)
        if (wide || decide (w ≤ 2)) && decide (w ≠ afmt.toNat) then f.fail lrBundle i.pc
        else if k ≠ kb.toNat + 1 ∨ rate4 w ≠ rate4 afmt.toNat then f.fail lrHazard i.pc else f
    if clr then f.setBuf buf (decide (afmt.toNat ≤ 2), we)
    else if f.buf buf = some (decide (afmt.toNat ≤ 2), we) then f else f.fail lrHazard i.pc
  | .accadd buf _ _ clr we _ _ =>
    if clr then f.setBuf buf (false, we) else if f.buf buf = some (false, we) then f else f.fail lrHazard i.pc
  | _ => f

/-- Ticks in which a TEN operation occupies what the next of its kind needs (R96): MMA rows, LOADW's 17 ticks, DRAIN and ACCADD reads. -/
def tenBusy (i : Issue) : Option (Nat × Nat) :=
  match i.b.ten with
  | .nop => none
  | .mma _ _ rows .. => some (1, i.tick + rows.toNat + 1)
  | .loadw .. => some (2, i.tick + 17)
  | .drain _ _ raw _ _ rows .. => some (3, i.tick + (if raw then 2 else 1) * rows.toNat + 1)
  | .accadd _ rows .. => some (3, i.tick + 2 * rows.toNat + 2)

/-- R96 tensor occupancy: the first bundle issued too soon after the previous operation of its kind. -/
def tenClash : List Issue → Option Nat
  | [] => none
  | i :: is =>
    match tenBusy i with
    | none => tenClash is
    | some (k, free) =>
      match is.find? (fun j => decide ((tenBusy j).map (·.1) = some k) && decide (j.tick < free)) with
      | some j => some j.pc
      | none => tenClash is

/-- The bank of an operand-store access, with its tick (Table 5.1). -/
def Acc.bankTick (a : Acc) : Option (Nat × Nat) :=
  match a.place with
  | .line n => some (a.tick, n / 2048)
  | _ => none

/-- R96: an operand-store bank has at most one access in a tick, of up to 16 lines. -/
def storeClash (as : List Acc) : Option Nat :=
  ((as.filter (fun a => a.bankTick.isSome)).find? (fun a =>
      as.any (fun b => decide (b.bankTick = a.bankTick) && (decide (b.op ≠ a.op) || b.write != a.write))
        || decide (16 < ((as.filter (fun b => decide (b.bankTick = a.bankTick))).eraseDups).length))).map (fun a => a.tick)

/-- R96: two writes of one vector, address or index register that become visible in one tick. -/
def doubleWrite (as : List Acc) : Option Nat :=
  let ws := as.filter (fun a => a.write && (match a.place with
    | .vreg _ | .areg _ | .xreg _ => true
    | _ => false))
  (firstDup (fun (a : Acc) => (a.tick, a.place)) ws).map (fun a => a.tick)

/-- R90: a read of a place that nothing has written, or whose first write becomes visible only later. -/
def unwritten (as : List Acc) : Option Nat :=
  (as.find? (fun a => !a.write && !(as.any (fun b => b.write && decide (b.op ≠ a.op) && decide (b.place = a.place) && decide (b.tick ≤ a.tick))))).map (fun a => a.tick)

/-- More lines in a queue than it holds, or more taken than have come, at some tick: pushes and pops by tick (R96, R144, R146). -/
def queueBad (cap : Nat) (ins outs : List Nat) : Option Nat :=
  ((ins ++ outs).find? (fun t =>
    let i := (ins.filter (fun x => decide (x ≤ t))).length
    let o := (outs.filter (fun x => decide (x ≤ t))).length
    decide (i < o) || decide (cap + (outs.filter (fun x => decide (x < t))).length < i)))

/-- One engine's hazards. -/
def loadEngine (im : Image) (w : Walk) (we : WalkE) : Option LoadFail :=
  let is := w.issues.filter (fun i => decide (i.e = we.e))
  let as := is.flatMap (fun i => i.accs)
  let hz := fun d => ({ reason := lrHazard, unit := w.g, detail := d } : LoadFail)
  let last := 4096 * im.nEpochs - 1
  let entry := match imStream im w.g we.e with
    | some t => (List.range t.bundles.length).all (fun k => decide (w.fetch im we.e (t.segBase + k) last = t.bundles[k]?))
    | none => true
  (we.bad.map (fun b => ({ reason := if b.1 = .bundle then lrBundle else lrHazard, unit := w.g, detail := b.2 } : LoadFail)))
    |>.or ((is.foldl FmtState.step {}).bad.map (fun b => { reason := b.1, unit := w.g, detail := b.2 }))
    |>.or ((storeClash as).map hz)
    |>.or ((doubleWrite as).map hz)
    |>.or ((tenClash is).map hz)
    |>.or ((unwritten as).map hz)
    |>.or (need (we.next.isNone && we.x.ops.all (fun o => decide (o.done ≤ last))) (hz we.x.pc.toNat))
    |>.or (need entry (hz we.x.pc.toNat))
    |>.or ((List.range 8).findSome? (fun q => (queueBad 64 (w.pushes we.e q) (imTaken im (.queue (Fin.ofNat 16 w.g) (Fin.ofNat 8 we.e) (Fin.ofNat 8 q)))).map hz))
    |>.or ((List.range 8).findSome? (fun q =>
        (queueBad (imArrivals im).length (imAt im (.queue (Fin.ofNat 16 w.g) (Fin.ofNat 8 we.e) (Fin.ofNat 8 q))) (w.pops we.e q)).map hz))

/-- Every bundle of every stream is valid (R94). -/
def loadBundles (t : EngStream) : Option LoadFail :=
  ((t.bundles.zipIdx.find? (fun b => (decodeBundle b.1).isNone)).map (fun b => ({ reason := lrBundle, unit := t.a.g.val, detail := t.segBase + b.2 } : LoadFail)))
    |>.or (t.further.findSome? (fun f => (f.2.zipIdx.find? (fun b => (decodeBundle b.1).isNone)).map (fun b => ({ reason := lrBundle, unit := t.a.g.val, detail := b.2 } : LoadFail))))

/-! ## Banks, transfers and grove DMA (R96, R125, R126, R138, R144 to R146) -/

/-- The banks of a dynamic region. -/
def dynBanks (d : DynRegion) : List Nat := (List.range d.nb).map (fun k => d.bb + k)

/-- Lines moved in grove g at their ticks: by LD and ST, and by grove DMA. -/
def groveAccs (im : Image) (w : Walk) : List SramAcc := w.issues.flatMap (fun i => i.sram) ++ w.dma.flatMap (fun x => imDmaSram im w.g x)

/-- The reservations of grove g: region, first and last tick, SCATTER. -/
def groveDyns (im : Image) (w : Walk) : List (DynRegion × Nat × Nat × Bool) :=
  (w.issues.flatMap (fun i => i.dyns)).filterMap (fun d =>
    ((im.gmem.filter (fun m => decide (m.g.val = w.g))).flatMap (fun m => m.dyn)).find? (fun r => decide (r.dreg.val = d.1)) |>.map (fun r => (r, d.2.1, d.2.2.1, d.2.2.2)))

def loadBanks (im : Image) (w : Walk) : Option LoadFail :=
  let as := groveAccs im w
  let ds := groveDyns im w
  let bk := fun d => ({ reason := lrBank, unit := w.g, detail := d } : LoadFail)
  ((firstDup (fun (a : SramAcc) => (a.tick, a.line % 512)) as).map (fun a => bk a.line))
    |>.or (needAll as (fun a => decide (a.tick % 256 ≠ a.line % 512 % 256)) (fun a => bk a.line))
    |>.or (needAll as (fun a => ds.all (fun d => !(decide (d.2.1 ≤ a.tick) && decide (a.tick ≤ d.2.2.1) && (dynBanks d.1).contains (a.line % 512)))) (fun a => bk a.line))
    |>.or (needAll ds.zipIdx (fun d => ds.zipIdx.all (fun e => decide (e.2 ≤ d.2)
        || decide (d.1.2.2.1 < e.1.2.1) || decide (e.1.2.2.1 < d.1.2.1)
        || (dynBanks d.1.1).all (fun b => !(dynBanks e.1.1).contains b))) (fun d => bk d.1.2.1))

/-- R96: LD and ST move at most 5 lines in one tick. -/
def loadPorts (w : Walk) (e : Nat) : Option LoadFail :=
  let as := ((w.issues.filter (fun i => decide (i.e = e))).flatMap (fun i => i.sram))
  needAll as (fun a => decide ((as.filter (fun b => decide (b.tick = a.tick))).length ≤ 5)) (fun a => { reason := lrHazard, unit := w.g, detail := a.tick })

def loadDma (im : Image) (w : Walk) : Option LoadFail :=
  let xb := fun d => ({ reason := lrXbar, unit := w.g, detail := d } : LoadFail)
  let mv := w.dma.flatMap (fun x => imDmaSram im w.g x)
  needAll (im.descrs.filter (fun d => decide (d.g.val = w.g))) (fun d => descOk d.raw) (fun d => xb d.desc.toNat)
    |>.or (needAll w.dma (fun x => descOk x.d && w.dma.all (fun y => decide (y = x) || decide (y.ch ≠ x.ch) || decide (x.start < y.start) || !imDmaBusy im w.g y x.start)
        && (match imDmaEnd im w.g x with
          | some e => decide (e < 4096 * im.nEpochs)
          | none => false)) (fun x => xb x.start))
    |>.or (needAll mv (fun a => decide ((mv.filter (fun b => decide (b.tick = a.tick) && b.write == a.write)).length ≤ 5)) (fun a => xb a.tick))
    |>.or (needAll w.dma (fun x => decide (x.kind ≠ 3) || ((imSegmentAt im w.g x.src).isSome && decide (x.eng < 8))) (fun x => { reason := lrBundle, unit := w.g, detail := x.src }))
    |>.or ((List.range 16).findSome? (fun ch =>
        let xs := w.dma.filter (fun x => decide (x.ch = ch))
        let out := (byTick ((xs.filter (fun x => decide (x.kind = 1))).flatMap (fun x => (List.range x.len).map (fun i => (x.start + 8 + i / x.rate, ()))))).map (·.1)
        let inn := imAt im (.dma (Fin.ofNat 16 w.g) (Fin.ofNat 16 ch))
        let used := (byTick ((xs.filter (fun x => decide (x.kind = 2))).flatMap (fun x => (imInbound im w.g x).map (fun t => (t + 10, ()))))).map (·.1)
        ((queueBad 64 out (imTaken im (.dma (Fin.ofNat 16 w.g) (Fin.ofNat 16 ch)))).map xb).or ((queueBad 64 inn used).map xb)))

/-! ## The crossbar, link buffers and frames (R144, R209, R221, R240, R241) -/

/-- The grove behind a port, with 5 line slots per tick in a direction (R144); other ports take one. -/
def portGrove : Port → Option Nat
  | .queue g _ _ => some g.val
  | .dma g _ => some g.val
  | _ => none

/-- Whether lines that arrive at their ticks keep to the destinations' slots. -/
def slotsOk (as : List (Nat × Port)) (a : Nat × Port) : Bool :=
  match portGrove a.2 with
  | some g => decide ((as.filter (fun b => decide (b.1 = a.1) && decide (portGrove b.2 = some g))).length ≤ 5)
  | none => decide ((as.filter (fun b => decide (b = a))).length ≤ 1)

def loadXbar (im : Image) : Option LoadFail :=
  let as := imArrivals im
  let outs := im.xbar.map (fun x => (x.tick, x.src))
  let xb := fun t => ({ reason := lrXbar, detail := t } : LoadFail)
  needAll as (slotsOk as) (fun a => xb a.1)
    |>.or (needAll outs (slotsOk outs) (fun a => xb a.1))
    |>.or (needAll im.xbar (fun x => decide (x.tick < 4096 * im.nEpochs)) (fun x => xb x.tick))
    |>.or (im.plans.findSome? (fun p =>
        let tin := (byTick (((im.xbar.filter (fun x => decide (x.dst = .link p.l))).flatMap (fun x => [(x.tick + 6, ()), (x.tick + 6, ())]))
          ++ (im.frames.filter (fun f => decide (entryDir f.entry = 1))).flatMap (fun f => (f.ports.zipIdx.filter (fun e => decide (e.1 = .link p.l))).flatMap (fun e =>
              [(frameTick f.frame + 54 + 5 * e.2, ()), (frameTick f.frame + 54 + 5 * e.2, ())])))).map (·.1)
        let tout := (byTick ((p.tx.filter (fun x => decide (x.src = .xbar))).map (fun x => (x.tick, ())))).map (·.1)
        (queueBad 64 tin tout).map (fun t => ({ reason := lrXbar, unit := p.l.val, detail := t } : LoadFail))))

/-- A frame entry: valid, on its channel, its writes' lines in time (R240, R241), inside the stand's memory (R241). -/
def State.loadFrame (s : State) (im : Image) (f : FramePlan) : Option LoadFail :=
  let bs := maskBlocks f.entry
  let first := 16 * entryRun f.entry
  let xb := ({ reason := lrXbar, detail := entryRun f.entry } : LoadFail)
  let inR := fun (rs : List Region) => rs.any (fun r => decide (16 * r.base ≤ first) && decide (first + 16 ≤ 16 * (r.base + r.len)))
  let inW := im.lwins.any (fun r => decide (16 * r.base ≤ first) && decide (first + 16 ≤ 16 * (r.base + r.len)))
  let place := match s.lpPlace first with
    | some pl => decide (pl.m = f.m.val) && decide (pl.ch = f.ch.val)
    | none => false
  let lines := f.ports.zipIdx.all (fun e => decide (entryDir f.entry ≠ 2)
    || im.xbar.any (fun x => decide (x.src = e.1) && decide (x.dst = .lpddr f.m) && decide (x.tick ≤ frameTick f.frame + 1 + 5 * e.2)))
  need (decide (entryDir f.entry ≤ 2) && decide (f.entry.toNat / 2 ^ 48 = 0) && decide (f.frame < 42 * im.nEpochs) && !s.absent (P.LPDDR f.m.val)
      && (decide (entryDir f.entry = 0) || (decide (bs.length = f.ports.length) && place && lines))) xb
    |>.or (need (decide (entryDir f.entry = 0) || inW || inR im.lscratch || (decide (entryDir f.entry = 1) && inR im.lread))
        { reason := lrRegion, detail := entryRun f.entry })

/-! ## Memory regions (R113, R134, R137, R140, R155, R244, R268, R414, R478) -/

/-- Whether the lines [a, a + n) of grove g hold a retired bank. -/
def State.hitsRetired (s : State) (g a n : Nat) : Bool := (List.range 512).any (fun b => s.bankRetired g b && decide ((b + 512 - a % 512) % 512 < n))

/-- Ranges that overlap. -/
def overlaps (a n b m : Nat) : Bool := decide (a < b + m) && decide (b < a + n)

/-- Both copies of a window. -/
def winCopies (w : Win) : List (Nat × Nat) := [(w.base, w.len), (w.alt, w.len)]

def State.loadGroveMem (s : State) (m : GroveMem) : Option LoadFail :=
  let g := m.g.val
  let rg := fun d => ({ reason := lrRegion, unit := g, detail := d } : LoadFail)
  let usable := s.get (F.GROVE_SHAPE_USABLE_BANKS g)
  let dynLines := fun (d : DynRegion) => decide (0 < d.nb) && decide (d.nb ≤ 512) && ((List.range 10).any (fun k => d.nb = 2 ^ k)) && decide (d.bb % d.nb = 0) && decide (d.bb + d.nb ≤ 512)
  needAll m.dyn (fun d => dynLines d && decide (d.len ≤ d.nb * (32768 - d.rb)) && (dynBanks d).all (fun b => !s.bankRetired g b)
      && m.dyn.all (fun e => decide (e = d) || decide (e.bb + e.nb ≤ d.bb) || decide (d.bb + d.nb ≤ e.bb)
          || decide (e.rb + (e.len + e.nb - 1) / e.nb ≤ d.rb) || decide (d.rb + (d.len + d.nb - 1) / d.nb ≤ e.rb))) (fun d => rg d.dreg.val)
    |>.or (need (decide (m.dyn.length ≤ 16) && (firstDup (fun (d : DynRegion) => d.dreg.val) m.dyn).isNone) (rg 0))
    |>.or (need (decide (m.wins.length ≤ 64)) (rg 0))
    |>.or (needAll m.wins.zipIdx (fun e => decide ((e.1.alt + 512 - e.1.base % 512) % 512 = 0)
        && (winCopies e.1).all (fun c => decide (c.1 + c.2 ≤ 2 ^ 24) && !s.hitsRetired g c.1 c.2)
        && !overlaps e.1.base e.1.len e.1.alt e.1.len
        && m.wins.zipIdx.all (fun f => decide (f.2 = e.2) || (winCopies e.1).all (fun c => (winCopies f.1).all (fun d => !overlaps c.1 c.2 d.1 d.2)))) (fun e => rg e.1.base))
    |>.or (need (decide (8 * (m.wins.map (fun w => w.len)).sum ≤ 32768 * usable)) (rg 0))
    |>.or (needAll m.scratch (fun r => decide (r.base + r.len ≤ 2 ^ 24) && !s.hitsRetired g r.base r.len) (fun r => rg r.base))

/-- The lines that a step may write in a grove: windows and scratch regions (R155). -/
def writable (im : Image) (g line : Nat) : Bool :=
  (im.gmem.filter (fun m => decide (m.g.val = g))).any (fun m =>
    m.wins.any (fun w => decide (w.base ≤ line) && decide (line < w.base + w.len)) || m.scratch.any (fun r => decide (r.base ≤ line) && decide (line < r.base + r.len)))

/-- A scratch line of a grove. -/
def inScratch (im : Image) (g line : Nat) : Bool :=
  (im.gmem.filter (fun m => decide (m.g.val = g))).any (fun m => m.scratch.any (fun r => decide (r.base ≤ line) && decide (line < r.base + r.len)))

/-- Addresses that the step reaches in a grove: usable lines, writes confined, scratch written before it is read, SCATTER regions inside
what may be written, address registers with bits [31:24] clear (R113, R134, R155). -/
def State.loadReach (s : State) (im : Image) (w : Walk) : Option LoadFail :=
  let rg := fun d => ({ reason := lrRegion, unit := w.g, detail := d } : LoadFail)
  let as := groveAccs im w
  let hi := w.issues.find? (fun i => [i.b.mema, i.b.memb].any (fun m => match m with
    | .ld _ _ areg .. => decide (2 ^ 24 ≤ (i.x.a areg.toNat).toNat)
    | .st _ _ areg .. => decide (2 ^ 24 ≤ (i.x.a areg.toNat).toNat)
    | _ => false))
  (hi.map (fun i => rg i.pc))
    |>.or (needAll as (fun a => decide (a.line < 2 ^ 24) && !s.bankRetired w.g (a.line % 512) && (!a.write || writable im w.g a.line)) (fun a => rg a.line))
    |>.or (needAll as (fun a => a.write || !inScratch im w.g a.line || as.any (fun b => b.write && decide (b.line = a.line) && decide (b.tick ≤ a.tick))
        || (groveDyns im w).any (fun d => d.2.2.2 && decide (d.2.2.1 ≤ a.tick) && (List.range d.1.len).any (fun k => dynRegionLine d.1 k = a.line))) (fun a => rg a.line))
    |>.or (needAll (groveDyns im w) (fun d => !d.2.2.2 || (List.range d.1.len).all (fun k => writable im w.g (dynRegionLine d.1 k))) (fun d => rg d.1.dreg.val))
    |>.or (needAll (w.issues.flatMap (fun i => i.dyns)) (fun d => (groveDyns im w).any (fun r => decide (r.1.dreg.val = d.1))) (fun d => rg d.1))

/-- LPDDR5X windows and regions, in 1 KiB units (R244, R268, R414, R478). -/
def State.loadLpddr (s : State) (im : Image) : Option LoadFail :=
  let u := 2048 * s.lpUsable
  let rg := fun d => ({ reason := lrRegion, detail := d } : LoadFail)
  let sub := fun (b n : Nat) => decide (s.fn P.SUBMIT ≠ fnReady)
    || !overlaps (0x40000000 + b) n ((s.rd64 Reg.SUBMIT_WIN_BASE_LO).toNat / 1024) ((64 * (s.rd Reg.SUBMIT_WIN_SLOTS).toNat + 1023) / 1024)
  let all := im.lwins.flatMap winCopies ++ (im.lscratch ++ im.lread).map (fun r => (r.base, r.len))
  need (decide (im.lwins.length ≤ 256)) (rg 0)
    |>.or (needAll im.lwins.zipIdx (fun e => decide ((e.1.alt + 2048 - e.1.base % 2048) % 2048 = 0) && !overlaps e.1.base e.1.len e.1.alt e.1.len
        && im.lwins.zipIdx.all (fun f => decide (f.2 = e.2) || (winCopies e.1).all (fun c => (winCopies f.1).all (fun d => !overlaps c.1 c.2 d.1 d.2)))) (fun e => rg e.1.base))
    |>.or (needAll all (fun c => decide (c.1 + c.2 ≤ u) && !s.inStaging c.1 c.2 && sub c.1 c.2) (fun c => rg c.1))
    |>.or (need (decide (8 * (im.lwins.map (fun w => w.len)).sum ≤ u)) (rg 0))

/-- Further segments are placed in usable lines of their grove (R134). -/
def State.loadSegments (s : State) (t : EngStream) : Option LoadFail :=
  needAll t.further (fun f => decide (f.1 + (f.2.length + 1) / 2 ≤ 2 ^ 24) && !s.hitsRetired t.a.g.val f.1 ((f.2.length + 1) / 2))
    (fun f => { reason := lrRegion, unit := t.a.g.val, detail := f.1 })

/-! ## The whole check (R153, R157) -/

/-- Everything the loader checks in one grove. -/
def State.loadGrove (s : State) (im : Image) (g : Nat) : Option LoadFail :=
  let w := imWalk im g
  (w.engs.findSome? (loadEngine im w)) |>.or (w.engs.findSome? (fun e => loadPorts w e.e)) |>.or (loadDma im w) |>.or (loadBanks im w) |>.or (s.loadReach im w)

/-- The loader's checks in the order of Table 7.1, and the first failing item (R157). -/
def State.loaderCheck (s : State) (ld : LoadSt) (man : Manifest) (im : Image) : Option LoadFail :=
  loadGeometry ld man im
    |>.or (s.loadShape im)
    |>.or (im.plans.findSome? loadLatTable)
    |>.or (s.loadLatLong im)
    |>.or (im.plans.findSome? (s.loadLink im))
    |>.or (im.reduce.findSome? (loadReduce im))
    |>.or (im.streams.findSome? loadBundles)
    |>.or (im.gmem.findSome? s.loadGroveMem)
    |>.or (s.loadLpddr im)
    |>.or (im.streams.findSome? s.loadSegments)
    |>.or ((List.range 16).findSome? (s.loadGrove im))
    |>.or (loadXbar im)
    |>.or (im.frames.findSome? (s.loadFrame im))

end Sys2Proof.Machine
end

