-- ==== Sys2Proof/Machine/Stand.lean ====
section
/-! DEFINITION. Steps, votes, pace and the group control message (R158 to R182), and the changes between Idle and Hold (R176, R400, R404,
R479). -/

namespace Sys2Proof.Machine

/-! ## COMMAND (R162, R165, R180, R181) -/

/-- The requesters of R181. -/
def standWriter (r : Req) : Bool := r == .host || isSvc r || isCanopy r

/-- COMMAND.UNLOAD at the lead of a running group (R180); of a suspended one, an UNLOAD message of class ARM (R409). -/
def State.unloadCmd (s : State) : State :=
  if s.armed then
    if s.suspended then (s.sendAll s.groupLinks .unload).disarm else s.leadEnd
  else s

/-- The bits of a COMMAND write, bit 0 first (R181). -/
def State.standCommand (s : State) (v : Word) : State :=
  let s := if v.toNat.testBit 0 then s.issueCmd else s
  let s := if v.toNat.testBit 1 then s.unloadCmd else s
  let s := if v.toNat.testBit 2 && s.stepActive then s.putB F.STAND_STATUS_ABORT_VOTE true else s
  if v.toNat.testBit 3 then s.endRequest else s

/-- A write of COMMAND. ISSUE and UNLOAD are accepted only at the lead; with no stand armed there is none, and an ISSUE is refused
under R162. -/
def State.standCommandWrite (s : State) (w : WriteReq) : State :=
  let lead := decide (w.data.toNat % 4 = 0) || !s.armed || s.isLead
  s.gateW Reg.STAND_COMMAND w (standWriter w.req && lead) (fun s => s.standCommand w.data)

def execIssue (req : Req) (s : State) : Host.Outcome State Fault Refusal := .next (s.standCommandWrite { req := req, data := 1, be := 15 })
def execUnload (req : Req) (s : State) : Host.Outcome State Fault Refusal := .next (s.standCommandWrite { req := req, data := 2, be := 15 })
def execAbortVote (req : Req) (s : State) : Host.Outcome State Fault Refusal := .next (s.standCommandWrite { req := req, data := 4, be := 15 })
def execEndReq (req : Req) (s : State) : Host.Outcome State Fault Refusal := .next (s.standCommandWrite { req := req, data := 8, be := 15 })

/-! ## Group epochs (R158, R160, R163, R166, R171 to R174) -/

/-- The pace this member requires, latched at an epoch's first tick (R172). -/
def State.ownPace (s : State) : Nat := max s.therm.pace (s.rd Reg.STAND_PACE_FLOOR).toNat

/-- Entrywise maximum of two wave lists (R173). -/
def waveMax : List (BitVec 14) → List (BitVec 14) → List (BitVec 14)
  | [], ys => ys
  | xs, [] => xs
  | x :: xs, y :: ys => (if x < y then y else x) :: waveMax xs ys

/-- w(E, h) for the epoch that begins: this member's pace, then each earlier entry with what was received in its stage (R173). -/
def nextWave (d q : Nat) (old rx : List (BitVec 14)) : List (BitVec 14) := BitVec.ofNat 14 q :: (waveMax old (rx.take old.length)).take d

/-- The pace wave at the first tick of epoch k (R172, R173): P_OWN, the wave, and the pace settled for epoch k − D. -/
def State.paceWave (s : State) (k : Nat) : State :=
  let d := s.dMax
  let q := s.ownPace
  let w := nextWave d q s.stand.wave s.stand.waveRx
  let s := s.put F.STAND_PACE_P_OWN q
  let st := { s.stand with wave := w, waveRx := [] }
  if s.stand.waveBase + d ≤ k then
    let p := (w.getD d 0).toNat
    { s.wr Reg.STAND_PACE_SETTLED (BitVec.ofNat 32 p) with stand := { st with settled := st.settled ++ [{ epoch := k - d, pace := p }] } }
  else { s with stand := st }

/-- The pace in force for epoch k (R174). -/
def State.paceFor (s : State) (k : Nat) : Nat :=
  let back := 2 * s.dMax + 2
  if k < s.stand.waveBase + back then s.stand.basePace
  else ((s.stand.settled.find? (fun x => x.epoch == k - back)).map (fun x => x.pace)).getD s.stand.basePace

/-- The pace of epoch k takes effect; PACE_CHANGE when it differs from the pace before, PACE_MAX (R174, Table 7.11). -/
def State.paceApply (s : State) (k : Nat) : State :=
  let p := s.paceFor k
  let change := decide (s.get F.STAND_PACE_P_APPLIED ≠ p)
  let s := s.put F.STAND_PACE_P_APPLIED p
  let s := if (s.rd Reg.STAND_PACE_MAX).toNat < p then s.wr Reg.STAND_PACE_MAX (BitVec.ofNat 32 p) else s
  let s := { s with stand := { s.stand with settled := s.stand.settled.filter (fun x => decide (k < x.epoch + 2 * s.dMax + 2)) } }
  if change then s.raise P.STAND B.STAND_PACE_CHANGE Evn.COMPUTE_PACE_CHANGE else s

/-- The vote wave at the first tick of epoch k (R166): the OR this member sends, and from X + D + 1 the group vote, which at the lead
is the verdict. -/
def State.voteWave (s : State) (k : Nat) : State :=
  match s.stand.vote with
  | none => s
  | some v =>
    let d := s.dMax
    let or := v.own || v.orNext
    let v' : VoteSt := { v with orNow := or, orNext := false }
    let v' : VoteSt := if k = v.lastEpoch + d + 1 then
        { v' with group := some or, verdict := if s.isLead then (if or then .abort else .commit) else v'.verdict } else v'
    { s with stand := { s.stand with vote := some v' } }

/-- The group control message that this member sends in epoch k (R160, R163, R166, R173, R180, Table 7.4). -/
def State.composeGcm (s : State) (k : Nat) : Gcm :=
  let d := s.dMax
  let step := match s.stand.announce with
    | some a => if a.start = k then a.step else s.rd64 Reg.STAND_CUR_STEP_LO
    | none => s.rd64 Reg.STAND_CUR_STEP_LO
  let ann := match s.stand.announce with
    | some a => if k < a.start then some a else none
    | none => none
  let settled := decide (s.stand.waveBase + d ≤ k)
  let voting := match s.stand.vote with
    | some v => decide (v.lastEpoch + 1 ≤ k) && decide (k ≤ v.lastEpoch + d)
    | none => false
  let verdict := match s.stand.vote, s.stand.current with
    | some v, some c => if k < s.commitEpochOf c then v.verdict else .none
    | _, _ => .none
  { gepoch := BitVec.ofNat 32 k, step := step.setWidth 32, pApplied := BitVec.ofNat 14 (s.get F.STAND_PACE_P_APPLIED),
    confirm := if settled then s.stand.wave.getD d 0 else 0, confirmV := settled,
    abortOr := voting && ((s.stand.vote.map (fun v => v.orNow)).getD false), voteV := voting, verdict := verdict,
    endReq := s.stand.endReq, unload := decide (s.stand.unloadRx.map (· + 1) = some k),
    startStep := (ann.map (fun a => a.step)).getD 0, startEpoch := BitVec.ofNat 32 ((ann.map (fun a => a.start)).getD 0),
    startV := ann.isSome, wave := s.stand.wave.take d }

/-- The lead takes a pending issue at the first tick of epoch k while no announced step waits (R163). -/
def State.takeIssue (s : State) (k : Nat) : State :=
  if s.isLead && s.flag F.STAND_STATUS_ISSUE_PENDING && s.stand.announce.isNone then
    let c := match s.stand.current with
      | some c => s.commitEpochOf c
      | none => 0
    let a : StepAt := { step := s.stand.issueStep, start := max (k + s.dMax + 2) c }
    let s := (s.putB F.STAND_STATUS_ISSUE_PENDING false).wr64 Reg.STAND_START_EPOCH_LO (BitVec.ofNat 64 a.start)
    { s with stand := { s.stand with announce := some a } }
  else s

/-- Group epoch k begins (R158): pace wave, pace in force, vote wave, announcements, the message on every group link, and the lead's
take of a pending issue. -/
def State.epochBegin (s : State) (k : Nat) : State :=
  let s := s.wr64 Reg.STAND_GEPOCH_LO (BitVec.ofNat 64 k)
  let s := { s with stand := { s.stand with phase := 0 } }
  let s := ((s.paceWave k).paceApply k).voteWave k
  let s := match s.stand.announceRx with
    | some a => { s with stand := { s.stand with announce := some a, announceRx := none } }
    | none => s
  let m := s.composeGcm k
  (s.emitAll (s.groupLinks.map (fun l => Out.gcm l m))).takeIssue k

/-- GROUP_EPOCH_START: the faults held for the end of the epoch are declared (R175); unless they suspend the group, the next epoch
begins. -/
def execGroupEpochStart (s : State) : Host.Outcome State Fault Refusal :=
  if s.stand.epochs then
    let s := s.declareEoe
    if s.stand.epochs then
      .next ((s.bump64 Reg.STAND_IDLE_LO (s.get F.STAND_PACE_P_APPLIED)).epochBegin (s.gepoch + 1))
    else .next s
  else .next s

/-! ## Received messages (R161, R163, R166, R173, R180) -/

/-- The 64-bit number nearest to `own` whose low 32 bits are `low` (R160). -/
def nearest64 (own : Nat) (low : Word) : Nat :=
  let base := own / 2 ^ 32 * 2 ^ 32 + low.toNat
  if own + 2 ^ 31 < base ∧ 2 ^ 32 ≤ base then base - 2 ^ 32
  else if base + 2 ^ 31 < own then base + 2 ^ 32
  else base

/-- Whether a received message differs from this member's state (R161, R166). -/
def State.gcmDiffers (s : State) (m : Gcm) : Bool :=
  let settled := decide (s.stand.waveBase + s.dMax ≤ s.gepoch)
  decide (m.gepoch ≠ s.rd Reg.STAND_GEPOCH_LO) || decide (m.step ≠ s.rd Reg.STAND_CUR_STEP_LO)
    || decide (m.pApplied.toNat ≠ s.get F.STAND_PACE_P_APPLIED)
    || (m.confirmV && settled && decide (m.confirm ≠ s.stand.wave.getD s.dMax 0))
    || (match s.stand.vote with
        | some v => decide (m.verdict ≠ .none) &&
            (decide (v.verdict ≠ .none ∧ v.verdict ≠ m.verdict)
              || (match v.group with
                  | some g => decide (m.verdict ≠ (if g then Verdict.abort else Verdict.commit))
                  | none => false))
        | none => false)

/-- A received announcement (R163): late, or the first one, copied from the next epoch. -/
def State.takeAnnounce (s : State) (m : Gcm) : State :=
  if m.startV then
    let start := nearest64 s.gepoch m.startEpoch
    if start ≤ s.gepoch then s.paceFault causeStartLate
    else if s.stand.announce.isNone && s.stand.announceRx.isNone && s.stand.unloadRx.isNone && !s.stand.ending then
      let s := s.wr64 Reg.STAND_START_EPOCH_LO (BitVec.ofNat 64 start)
      { s with stand := { s.stand with announceRx := some { step := m.startStep, start := start } } }
    else s
  else s

/-- A received message's wave, vote and verdict (R166, R173). -/
def State.takeVote (s : State) (m : Gcm) : State :=
  let v := s.stand.vote.map (fun v =>
    { v with orNext := v.orNext || (m.voteV && m.abortOr), verdict := if v.verdict = .none then m.verdict else v.verdict })
  { s with stand := { s.stand with vote := v, waveRx := waveMax s.stand.waveRx (m.wave.take s.dMax) } }

/-- A received message's END_REQ and UNLOAD (R180). -/
def State.takeEnd (s : State) (m : Gcm) : State :=
  let s := if m.endReq then s.endRequest else s
  if m.unload && s.stand.unloadRx.isNone then
    let s := s.putB F.STAND_STATUS_END_PENDING true
    { s with stand := { s.stand with unloadRx := some s.gepoch, announce := none, announceRx := none } }
  else s

/-- A group control message received on a group link while group epochs run (R160, R161). -/
def execGcmRx (link : Fin 96) (m : Gcm) (s : State) : Host.Outcome State Fault Refusal :=
  if s.stand.epochs && s.flag (F.LINK_STATUS_GROUP link.val) && s.linkUp link.val then
    let s := if s.gcmDiffers m then s.paceFaultEoe causeGcmMismatch link.val else s
    .next (((s.takeVote m).takeEnd m).takeAnnounce m)
  else .next s

/-! ## Steps (R163 to R168) -/

/-- STEP_START: the announced step starts at the first tick of its start epoch (R163). -/
def execStepStart (s : State) : Host.Outcome State Fault Refusal :=
  match s.stand.announce with
  | some a =>
    if s.stand.epochs ∧ a.start = s.gepoch ∧ s.stand.current.isNone then .next ((s.stepBegin a).seqOnStart a.step) else .next s
  | none => .next s

/-- VOTE_SAMPLE: at the last tick of epoch X, after the faults declared at its end (R165). -/
def execVoteSample (s : State) : Host.Outcome State Fault Refusal :=
  match s.stand.current with
  | some c =>
    if s.stepActive ∧ s.stand.epochs ∧ s.gepoch = s.lastEpochOf c then
      let s := s.declareEoe
      if s.stepActive then
        let own := s.flag F.STAND_STATUS_ABORT_VOTE
        let s := ((s.stepOff).putB F.STAND_STATUS_ABORT_VOTE false).powerIdle
        .next { s with stand := { s.stand with vote := some { lastEpoch := s.lastEpochOf c, step := c.step, own := own } } }
      else .next s
    else .next s
  | none => .next s

/-- The step flags of every engine become visible (R77, R119). -/
def State.publishFlags (s : State) : State :=
  s.engines.foldl (fun (s : State) e =>
    let g := e.1 / 16
    let p := e.1 % 16
    if s.flag (F.ENGINE_MAP_IN_USE g p) then
      let f := e.2.flags.setWidth 32
      let s := (s.wr (Reg.ENGINE_STEP_FLAGS g p) f).wr (Reg.ENGINE_FLAGS_ACC g p) (s.rd (Reg.ENGINE_FLAGS_ACC g p) ||| f)
      let s := s.wr (Reg.ENGINE_FLAGS_STEP g p) (s.rd Reg.STAND_CUR_STEP_LO)
      if f = 0 then s else s.raise (P.ENGINE g p) B.ENGINE_FLAG_SET Evn.COMPUTE_FLAG_SET
    else s) s

/-- The outstanding step ends with a fate. -/
def State.stepEnds (s : State) (fate : VerdictState) : State :=
  { s.groveUncommitted false with stand := { s.stand with current := none, vote := none, lastFate := fate } }

/-- COMMIT: every window flips, LAST_COMMIT and COMMITS update, step flags are published (R119, R141, R166, R245). -/
def State.commitStep (s : State) (step : Dword) : State :=
  let s := ((s.groves.foldl (fun (s : State) e => if e.2.wins.isEmpty then s else s.groveCommit e.1) s).lpCommit).publishFlags
  let s := (s.stepEnds .commit).wr64 Reg.STAND_LAST_COMMIT_LO step
  let s := { s.bumpW Reg.STAND_COMMITS 1 with stand := { s.stand with anyCommit := true } }
  (s.raise P.STAND B.STAND_STEP_COMMIT Evn.COMPUTE_STEP_COMMIT).seqOnCommit step

/-- ABORT: every dirty bit clears, ABORTS counts, and later announced and pending steps are cancelled (R166, R168). -/
def State.abortStep (s : State) : State :=
  let s := s.groves.foldl (fun (s : State) e => if e.2.wins.isEmpty then s else s.bumpW (Reg.GWIN_ABORTS e.1) 1) s.clearDirty
  let s := ((s.stepEnds .abort).bumpW Reg.STAND_ABORTS 1).raise P.STAND B.STAND_STEP_ABORT Evn.COMPUTE_STEP_ABORT
  s.dropIssues

/-- The verdict is applied to the outstanding step; without one it stays uncommitted (R166, R167). -/
def State.applyVerdict (s : State) (step : Dword) (v : Verdict) : State :=
  match v with
  | .commit => s.commitStep step
  | .abort => s.abortStep
  | .none => { s.putB F.STAND_STATUS_UNCOMMITTED true with stand := { s.stand with lastFate := .uncommitted } }

/-- COMMIT_TICK: the first tick of epoch C, or of its time in a member that a fault after the sample has suspended (R166, R167). -/
def execCommitTick (s : State) : Host.Outcome State Fault Refusal :=
  match s.stand.current, s.stand.vote with
  | some c, some v =>
    if (s.stand.epochs && decide (s.gepoch = s.commitEpochOf c)) || (s.suspended && !s.flag F.STAND_STATUS_UNCOMMITTED) then
      let s := s.applyVerdict c.step v.verdict
      let s := if s.stand.suspendAtC then { s.suspend with stand := { s.suspend.stand with suspendAtC := false } } else s
      let s := s.unloadStart
      .next (if v.verdict = .abort then s.seqOnAbort else s)
    else .next s
  | _, _ => .next s

/-- STAND_DISARM: a member that has received UNLOAD and forwarded it for one epoch unloads (R180). -/
def execStandDisarm (s : State) : Host.Outcome State Fault Refusal :=
  match s.stand.unloadRx with
  | some r => .next (if s.stand.epochs && decide (r + 2 ≤ s.gepoch) then s.disarm else s)
  | none => .next s

/-! ## Hold and Idle (R176, R400, R404, R479) -/

/-- A present link that is UP or training is taken down; `mark` records that Hold did it (R215, R400). -/
def State.linkDown (s : State) (mark : Bool) (l : Nat) : State :=
  if lsDetect ≤ s.lstate l ∧ s.lstate l ≤ lsUp then
    (s.setLink l { s.link l with byHold := mark }).linkTakedown l
  else s

/-- PACE_FAULT_LINK_DOWN: ABORT is no longer repeated, and the links of the armed stand are taken down (Table 7.8). -/
def execPaceFaultLinkDown (s : State) : Host.Outcome State Fault Refusal :=
  if s.mod.mstate = .halted ∧ s.stand.abortMsg.isSome then
    let s := { s with stand := { s.stand with abortTicks := 0, abortMsg := none } }
    .next (s.standLinks.foldl (fun (s : State) l => s.linkDown false l) s)
  else .next s

/-- The way to Hold begins: links are taken down, and READY service cores stop after their current work (R297, R400). -/
def State.holdBegin (s : State) (byCommand : Bool) : State :=
  let s := (List.range 96).foldl (fun (s : State) l => s.linkDown true l) s
  let cores := s.svcReady
  let s := cores.foldl (fun (s : State) c => s.svcLeave c (fun s => s.setFn (P.SVC c) fnDraining)) s
  { s with mod := { s.mod with target := some .hold, byCommand := byCommand, svcHeld := cores } }

/-- READY controllers' self-refresh, on and off (R255, R400). -/
def State.selfRefresh (s : State) (b : Bool) : State :=
  (List.range 16).foldl (fun (s : State) m => if s.fn (P.LPDDR m) = fnReady then s.putB (F.LPDDR_STATUS_SELF_REFRESH m) b else s) s

/-- HOLD_REACHED: engines and links are off, service cores stopped, LPDDR5X in self-refresh; MSTATE.HOLD for a requested Hold. -/
def execHoldReached (s : State) : Host.Outcome State Fault Refusal :=
  if s.mod.target = some .hold ∧ s.mod.power ≠ .standby then
    let s := (List.range 96).foldl (fun (s : State) l =>
      if lsDetect ≤ s.lstate l ∧ s.lstate l ≤ lsTakedown then s.linkOff l else s) s
    let ready := s.svcReady
    let s := ready.foldl (fun (s : State) c => s.svcLeave c (fun s => s.setFn (P.SVC c) fnOff)) s
    let s := (List.range 8).foldl (fun (s : State) c => if s.fn (P.SVC c) = fnDraining then s.setFn (P.SVC c) fnOff else s) s
    let s := s.selfRefresh true
    let s := if s.mod.byCommand then s.putB F.MODULE_MSTATE_HOLD true else s
    .next { s.setPower .hold with mod := { (s.setPower .hold).mod with target := none, svcHeld := s.mod.svcHeld ++ ready } }
  else .next s

/-- The way to Idle begins: service cores start again and every link that Hold took down is enabled (R400). -/
def State.wakeBegin (s : State) (byCommand : Bool) : State :=
  let s := s.mod.svcHeld.foldl (fun (s : State) c => if s.fn (P.SVC c) = fnOff then s.setFn (P.SVC c) fnStarting else s) s
  let s := (List.range 96).foldl (fun (s : State) l =>
    if (s.link l).byHold then
      let s := s.setLink l { s.link l with byHold := false }
      if s.lstate l = lsOff ∧ s.fn (P.LINK l) = fnOff then s.linkEnable l else s
    else s) s
  { s with mod := { s.mod with target := some .idle, byCommand := byCommand, svcHeld := [], fsHold := false } }

/-- IDLE_REACHED: LPDDR5X leaves self-refresh; MSTATE.HOLD clears (R400). A member that left Hold without COMMAND.WAKE brings back its
service cores too. -/
def execIdleReached (s : State) : Host.Outcome State Fault Refusal :=
  if s.mod.target = some .idle ∧ s.mod.power = .hold then
    let s := (s.selfRefresh false).putB F.MODULE_MSTATE_HOLD false
    let s := s.mod.svcHeld.foldl (fun (s : State) c => if s.fn (P.SVC c) = fnOff then s.setFn (P.SVC c) fnStarting else s) s
    .next { s.setPower .idle with mod := { (s.setPower .idle).mod with target := none, svcHeld := [] } }
  else .next s

end Sys2Proof.Machine
end

