-- ==== Sys2Proof/Machine/Group.lean ====
section
/-! DEFINITION. Rejoin and resume of a suspended group, and loading a stand on a group (R404 to R415). -/

namespace Sys2Proof.Machine

/-! ## Readiness (R28, R405) -/

/-- The groves that an image assigns work to. -/
def imGroves (im : Image) : List Nat :=
  (List.range 16).filter (fun g => im.groves.any (fun n => decide (n.g.val = g) && decide (0 < n.engines)) || im.streams.any (fun t => decide (t.a.g.val = g))
    || im.descrs.any (fun d => decide (d.g.val = g)) || im.starts.any (fun d => decide (d.g.val = g)) || im.gmem.any (fun m => decide (m.g.val = g)))

/-- Logical engines that an image uses in a grove. -/
def imEngines (im : Image) (g : Nat) : List Nat :=
  (List.range 8).filter (fun e => im.groves.any (fun n => decide (n.g.val = g) && decide (e < n.engines))
    || im.streams.any (fun t => decide (t.a.g.val = g) && decide (t.a.e.val = e)))

/-- LPDDR5X controllers that serve a window or region of an image. -/
def State.imControllers (s : State) (im : Image) : List Nat :=
  let units := (im.lwins.flatMap winCopies ++ (im.lscratch ++ im.lread).map (fun r => (r.base, r.len))).flatMap (fun c =>
    (List.range (min c.2 2048)).map (fun k => c.1 + k))
  (units.filterMap (fun u => (s.lpPlace (lpUnit * u)).map (fun p => p.m))).eraseDups

/-- The pages that are stand-critical under an image (R28, R296, R343). -/
def State.imPages (s : State) (im : Image) : List Nat :=
  (imGroves im).flatMap (fun g => [P.GROVE g, P.GSRAM g, P.GWIN g, P.GDMA g, P.GSENS g]
      ++ (imEngines im g).filterMap (fun e => (s.physOf g e).map (fun p => P.ENGINE g p)))
    ++ (im.plans.filter (fun p => !p.rx.isEmpty || !p.tx.isEmpty)).map (fun p => P.LINK p.l.val)
    ++ (im.reduceU ++ im.reduce.map (fun p => p.l)).eraseDups.map (fun l => P.REDUCE l.val)
    ++ (s.imControllers im).map (fun m => P.LPDDR m) ++ (if im.sample then [P.SAMPLE] else []) ++ [P.FLOOR, P.STAND, P.CLK]

/-- The stand-critical pages of the armed stand. -/
def State.standPages (s : State) : List Nat := ((s.image.filter (fun _ => s.armed)).map s.imPages).getD []

/-- This member's unmet condition of R405, by the codes of GROUP_STATUS.CAUSE: 0 when it is ready to resume. -/
def State.readyCause (s : State) : Nat :=
  if !s.armed ∨ (s.mod.mstate ≠ .running ∧ s.mod.mstate ≠ .halted) then 1
  else if !s.flag F.CLK_STATUS_TIME_VALID then 2
  else if s.standPages.any (fun pg => decide (s.fn pg ≠ fnReady)) then 3
  else if s.standLinks.any (fun l => !s.linkUp l || !s.flag (F.LINK_STATUS_FITS l)) then 4
  else if !s.flag F.THERM_STATUS_RUN_OK ∨ s.flag F.GLADE_STATUS_FLOW_STOP then 5
  else if s.mod.mstate = .halted ∧ !s.group.rejoined then 6
  else 0

/-- GROUP_STATUS as it reads now. -/
def State.groupStatus (s : State) : Word :=
  let c := s.readyCause
  setBits (setBits (s.rd Reg.EVT_GROUP_STATUS) 2 3 c) 0 1 (if s.group.rejoined && decide (c = 0) then 1 else 0)

/-! ## Rejoin and resume (R404 to R409) -/

/-- REJOIN: from Hold to Idle, and every group or scheduled link that is OFF is enabled (R404). -/
def State.rejoin (s : State) : State :=
  let s := s.standLinks.foldl (fun (s : State) l => if s.fn (P.LINK l) = fnOff then s.linkEnable l else s) s
  { s with mod := { s.mod with target := if s.mod.power = .idle then none else some .idle, byCommand := false, fsHold := false },
           group := { s.group with rejoined := true } }

/-- This member's answer to RESUME_REQ (R406). -/
def State.ownAnswer (s : State) : ResumeAns :=
  { member := BitVec.ofNat 13 (s.get F.STAND_MEMBERSHIP_MEMBER), ready := decide (s.readyCause = 0), cause := BitVec.ofNat 3 s.readyCause,
    q := BitVec.ofNat 14 s.ownPace, verdict := s.stand.lastFate }

/-- The lead refuses the resume: RESUME_INFO and COMPUTE.RESUME_REFUSED; the group stays suspended (R406). -/
def State.resumeRefused (s : State) (member cause : Nat) (timeout : Bool) : State :=
  (s.wr Reg.EVT_RESUME_INFO (BitVec.ofNat 32 (member % 8192 + 8192 * cause + (if timeout then 65536 else 0)))).resumeCancel

/-- The lead sends RELEASE of the resume barrier (R406). -/
def State.resumeRelease (s : State) : State :=
  let as := s.group.answers
  let r : ReleaseMsg :=
    { resume := true, tRel := s.ftime + BitVec.ofNat 64 (2048 * (s.dMax + 2)), gR := BitVec.ofNat 64 (s.gepoch + 1),
      pace := BitVec.ofNat 14 (as.foldl (fun m a => max m a.q.toNat) (s.get F.STAND_PACE_P_APPLIED)),
      verdict := if as.any (fun a => a.verdict == .commit) then .commit else .abort }
  let s := s.sendAll s.groupLinks (.release r)
  { s with group := { s.group with release := some r } }

/-- The lead decides once it holds every answer (R406). -/
def State.resumeDecide (s : State) : State :=
  if s.group.answers.length < s.group.members ∨ s.group.release.isSome then s
  else match s.group.answers.find? (fun a => !a.ready) with
    | some a => s.resumeRefused a.member.toNat a.cause.toNat false
    | none => s.resumeRelease

/-- The lead begins a resume (R406). -/
def State.resumeBegin (s : State) : State :=
  let s := (s.putB F.EVT_GROUP_STATUS_RESUME_BUSY true).wr Reg.EVT_RESUME_INFO 0
  let s : State := { s with group := { s.group with answers := [s.ownAnswer], reqFrom := [], release := none, parent := none } }
  (s.sendAll s.groupLinks .resumeReq).resumeDecide

/-- Whether a RESUME may be accepted here (R406). -/
def State.resumeOk (s : State) : Bool := s.armed && s.isLead && s.suspended && !s.flag F.EVT_GROUP_STATUS_RESUME_BUSY

/-- A write of GROUP_CTRL (R404, R406, R421). -/
def State.groupCtrlWrite (s : State) (w : WriteReq) : State :=
  let v := w.data.toNat
  s.gateW Reg.EVT_GROUP_CTRL w (hostCanopySvc w.req && (!v.testBit 0 || decide (s.mod.mstate = .halted)) && (!v.testBit 1 || s.resumeOk)) (fun (s : State) =>
    let s := if v.testBit 0 then s.rejoin else s
    if v.testBit 1 then s.resumeBegin else s)

def execRejoin (req : Req) (s : State) : Host.Outcome State Fault Refusal := .next (s.groupCtrlWrite { req := req, data := 1, be := 15 })
def execResume (req : Req) (s : State) : Host.Outcome State Fault Refusal := .next (s.groupCtrlWrite { req := req, data := 2, be := 15 })

/-- Links on which a first copy is forwarded: the group links but the one it came by. -/
def State.onward (s : State) (l : Nat) : List Nat := s.groupLinks.filter (fun k => decide (k ≠ l))

/-- RESUME_REQ: the first copy gives the parent link, goes on, and is answered; a copy on a link that has brought one before belongs to
the lead's next attempt (R406). -/
def execResumeReqRx (link : Fin 96) (s : State) : Host.Outcome State Fault Refusal :=
  let l := link.val
  let s := s.takeInbox l .resumeReq
  if s.armed && s.suspended && !s.isLead then
    let again := s.group.reqFrom.contains l
    if s.group.reqFrom.isEmpty || again then
      let s : State := { s with group := { s.group with reqFrom := [l], parent := some l, release := none } }
      .next ((s.sendAll (s.onward l) .resumeReq).sendMsg l (.resumeAnswer s.ownAnswer))
    else .next { s with group := { s.group with reqFrom := s.group.reqFrom ++ [l] } }
  else .next s

/-- An answer goes along the parent links to the lead, which collects it (R406). -/
def execResumeAnswerRx (link : Fin 96) (a : ResumeAns) (s : State) : Host.Outcome State Fault Refusal :=
  let s := s.takeInbox link.val (.resumeAnswer a)
  if s.armed && s.suspended then
    if s.isLead then
      if s.flag F.EVT_GROUP_STATUS_RESUME_BUSY && s.group.release.isNone && s.group.answers.all (fun b => decide (b.member ≠ a.member)) then
        .next ({ s with group := { s.group with answers := s.group.answers ++ [a] } }).resumeDecide
      else .next s
    else match s.group.parent with
      | some p => .next (s.sendMsg p (.resumeAnswer a))
      | none => .next s
  else .next s

/-- LOAD_TIMEOUT passes at the lead before every answer is in: a member that answered NOT_READY is named, else the first that gave none
(R406). -/
def execResumeTimeout (s : State) : Host.Outcome State Fault Refusal :=
  if s.flag F.EVT_GROUP_STATUS_RESUME_BUSY && s.group.release.isNone then
    match s.group.answers.find? (fun a => !a.ready) with
    | some a => .next (s.resumeRefused a.member.toNat a.cause.toNat false)
    | none =>
      let m := ((List.range s.group.members).find? (fun i => s.group.answers.all (fun a => decide (a.member.toNat ≠ i)))).getD 0
      .next (s.resumeRefused m 0 true)
  else .next s

/-- At T_rel: the verdict, RUNNING, group epoch G_R, and the suspension ends (R407). -/
def State.resumed (s : State) (r : ReleaseMsg) : State :=
  let s := if s.flag F.STAND_STATUS_UNCOMMITTED then
      let step := (s.stand.current.map (fun c => c.step)).getD (s.rd64 Reg.STAND_CUR_STEP_LO)
      (if r.verdict = .commit then s.commitStep step else s.abortStep).putB F.STAND_STATUS_UNCOMMITTED false
    else s
  let s := if s.mod.mstate = .halted then s.setMState .running else s
  let s := (s.putB F.STAND_STATUS_SUSPENDED false).putB F.EVT_GROUP_STATUS_RESUME_BUSY false
  let s : State :=
    { s with
      stand := { s.stand with epochs := true, waveBase := r.gR.toNat, basePace := r.pace.toNat, settled := [], wave := [], waveRx := [],
                              eoe := [], abortTicks := 0, abortMsg := none }
      group := { s.group with rejoined := false, reqFrom := [], answers := [], release := none } }
  ((s.raiseBare P.STAND Evn.COMPUTE_RESUMED).epochBegin r.gR.toNat).unloadStart.seqOnResume

def execReleaseTick (s : State) : Host.Outcome State Fault Refusal :=
  match s.group.release with
  | some r => .next (if s.armed && s.suspended && decide (r.tRel = s.ftime) then s.resumed r else s)
  | none => .next s

/-- UNLOAD of class ARM: forwarded once, and the member unloads (R409). -/
def execUnloadMsgRx (link : Fin 96) (s : State) : Host.Outcome State Fault Refusal :=
  let s := s.takeInbox link.val .unload
  if s.armed && s.suspended then .next ((s.sendAll (s.onward link.val) .unload).disarm) else .next s

/-! ## Loading on a group: state and reports (R157, R410 to R413) -/

/-- LOAD_STATE. -/
def State.loadState (s : State) (n : Nat) : State := s.wr Reg.EVT_LOAD_STATE (BitVec.ofNat 32 n)

def State.setLoad (s : State) (ld : LoadSt) : State := { s with group := { s.group with load := ld } }

/-- The UP links whose partner's serial a manifest lists (R412). -/
def State.loadLinks (s : State) (m : Manifest) : List Nat :=
  (List.range 96).filter (fun l => s.linkUp l && (match (s.link l).trained with
    | some r => m.members.any (fun x => decide (x.serial = r.serial))
    | none => false))

/-- Links that a load's messages of class ARM flood: the parent link and those the manifest was sent on. -/
def loadPeers (ld : LoadSt) : List Nat := ld.parent.toList ++ ld.sent

/-- The chunks of this member's image, in image order. -/
def ownChunks (ld : LoadSt) : List (BitVec 256) := ((ld.man.bind (fun m => m.members[ld.member]?)).map (fun x => x.chunks)).getD []

def heldChunk (ld : LoadSt) (d : BitVec 256) : Option Chunk := aget none ld.held d.toNat

/-- Chunks of this member's image that it does not hold, each once. -/
def missingChunks (ld : LoadSt) : List (BitVec 256) := (ownChunks ld).eraseDups.filter (fun d => (heldChunk ld d).isNone)

/-- CHUNKS_NEED, CHUNKS_HAVE, and LOAD_STATE 1 or 2 while chunks are missing. -/
def State.loadCounts (s : State) : State :=
  let ld := s.group.load
  let own := ownChunks ld
  let s := (s.wr Reg.EVT_CHUNKS_NEED (BitVec.ofNat 32 own.length)).wr Reg.EVT_CHUNKS_HAVE
    (BitVec.ofNat 32 (own.filter (fun d => (heldChunk ld d).isSome)).length)
  if ld.checked then s else s.loadState (if ld.endParent && !(missingChunks ld).isEmpty then 2 else 1)

/-- MISSING_COUNT at the lead. -/
def State.missingCount (s : State) : State :=
  s.wr Reg.EVT_MISSING_COUNT (BitVec.ofNat 32 (s.group.listed - s.group.ready.length))

/-- MISSING_MEMBER as MISSING_SEL selects it; 0 beyond the list. -/
def State.missingMember (s : State) : Word :=
  let list := (List.range s.group.listed).filter (fun i => s.group.ready.all (fun r => decide (r.1 ≠ i)))
  match list[(s.rd Reg.EVT_MISSING_SEL).toNat % 8192]? with
  | none => 0
  | some i =>
    match s.group.refused.find? (fun r => r.1 == i) with
    | some r => BitVec.ofNat 32 (i + 8192 + 65536 * r.2)
    | none => BitVec.ofNat 32 i

/-- The load is discarded here: the staging area is released and the module stays READY (R415). -/
def State.loadDiscard (s : State) : State :=
  let s := if s.get F.STAND_LOAD_STATUS_RESULT = 1 then (s.wr Reg.STAND_LOAD_STATUS 0).put F.STAND_LOAD_STATUS_UNIT 0xFF else s
  (s.setLoad {}).loadState 5

/-- The lead ends a load (R415): LOAD_INCOMPLETE and CANCEL on every link the manifest went by. -/
def State.loadEnd (s : State) : State :=
  let sent := s.group.load.sent
  let s := s.raiseBare P.STAND Evn.COMPUTE_LOAD_INCOMPLETE
  (s.sendAll sent .cancel).loadDiscard

/-- An ARM_REFUSED at the lead ends the load (R415). -/
def State.armRefusedAtLead (s : State) (member reason : Nat) : State :=
  let s : State := { s with group := { s.group with refused := s.group.refused ++ [(member, reason)] } }
  s.missingCount.loadEnd

/-- This member refuses the load: reported under R157, and ARM_REFUSED toward the lead (R411, R414). -/
def State.loadRefuse (s : State) (f : LoadFail) : State :=
  let s := ((s.wr Reg.STAND_LOAD_STATUS (BitVec.ofNat 32 (3 + 256 * f.reason + 65536 * f.unit))).wr Reg.STAND_LOAD_DETAIL (BitVec.ofNat 32 f.detail))
  let s := s.raise P.STAND B.STAND_LOAD_REFUSED Evn.COMPUTE_LOAD_REFUSED
  let ld := s.group.load
  let s := s.setLoad { ld with checked := true }
  if ld.lead then s.armRefusedAtLead ld.member f.reason
  else match ld.parent with
    | some p => s.sendMsg p (.armRefused (BitVec.ofNat 13 ld.member) (BitVec.ofNat 8 f.reason))
    | none => s

/-- The reasons of R411 for which a member refuses a manifest. -/
def State.manifestFail (s : State) (raw : List Byte) (m : Manifest) : Option LoadFail :=
  need ((manIndex m s.serial).isSome) { reason := lrGeometry }
    |>.or (need (s.ownerSigned (manSigned raw) m.signature) { reason := lrSignature })
    |>.or (need (decide (s.mod.mstate = .ready) && !s.armed && !s.folding && !s.flag F.MODULE_MSTATE_HOLD) { reason := lrState })
    |>.or s.loadTime
    |>.or (need (decide ((manDigests m).length ≤ 512 * s.staging.2)) { reason := lrRegion })

/-- The arm barrier is complete: RELEASE on the group links of the image (R415). -/
def State.armRelease (s : State) : State :=
  let ld := s.group.load
  match ld.image with
  | none => s
  | some im =>
    let r : ReleaseMsg :=
      { resume := false, tRel := s.ftime + BitVec.ofNat 64 (2048 * (im.dMax + 2)), gR := 0,
        pace := BitVec.ofNat 14 (s.group.ready.foldl (fun m e => max m e.2) 0), verdict := .none }
    let s := s.sendAll ((im.plans.filter (fun p => p.group)).map (fun p => p.l.val)) (.release r)
    s.setLoad { ld with release := some r }

/-- ARM_READY of a member at the lead (R415). -/
def State.armReadyAtLead (s : State) (member q : Nat) : State :=
  if s.group.ready.any (fun r => r.1 == member) || decide (s.group.listed ≤ member) then s
  else
    let s : State := { s with group := { s.group with ready := s.group.ready ++ [(member, q)] } }
    let s := s.missingCount
    if s.group.ready.length = s.group.listed ∧ s.group.load.release.isNone then s.armRelease else s

/-- The image's bytes: its chunks in order, without the padding of the last (R410). -/
def imageBytes (ld : LoadSt) : List Byte :=
  let n := ((ld.man.bind (fun m => m.members[ld.member]?)).map (fun x => x.length.toNat)).getD 0
  ((ownChunks ld).flatMap (fun d => ((heldChunk ld d).getD []).flatMap lineBytes)).take n

/-- Further segments are copied from staging to their grove lines, two bundles a line (R134, R414). -/
def State.placeSegments (s : State) (im : Image) : State :=
  im.streams.foldl (fun (s : State) t => t.further.foldl (fun (s : State) f =>
    (List.range ((f.2.length + 1) / 2)).foldl (fun (s : State) k =>
      let n := groveLine t.a.g.val (f.1 + k)
      (s.wbDrop t.a.g.val (f.1 + k)).setLine n ((f.2.getD (2 * k + 1) 0) ++ (f.2.getD (2 * k) 0))) s) s) s

/-- Once every chunk of its image is verified, a member checks the image and answers toward the lead (R414). -/
def State.loadCheck (s : State) : State :=
  let ld := s.group.load
  match ld.man with
  | none => s
  | some man =>
    if ld.checked || !ld.endParent || !(missingChunks ld).isEmpty then s
    else match Config.stand (imageBytes ld) with
      | none => s.loadRefuse { reason := lrSignature }
      | some im =>
        match s.loadTime.or (s.loaderCheck ld man im) with
        | some f => s.loadRefuse f
        | none =>
          let s := (s.placeSegments im).loadState 3
          let s := s.setLoad { ld with checked := true, image := some im }
          if ld.lead then s.armReadyAtLead ld.member s.ownPace
          else match ld.parent with
            | some p => s.sendMsg p (.armReady (BitVec.ofNat 13 ld.member) (BitVec.ofNat 14 s.ownPace))
            | none => s

/-! ## Start and distribution (R410 to R412) -/

/-- What a first manifest leaves: the load begins, and is refused at once for a reason of R411. -/
def State.manifestTake (s : State) (raw : List Byte) (man : Manifest) (lead : Bool) (parent : Option Nat) : State :=
  let links := (s.loadLinks man).filter (fun l => decide (some l ≠ parent))
  let ld : LoadSt := { man := some man, raw := raw, lead := lead, member := (manIndex man s.serial).getD (Config.unlistedMember s.serial).toNat, parent := parent, sent := links }
  match s.manifestFail raw man with
  | some f => ((s.setLoad { ld with sent := if lead then [] else links }).loadRefuse f).sendAll (if lead then [] else links) (.manifest raw)
  | none =>
    let s := (s.setLoad ld).loadState 1
    let s := ((s.wr Reg.STAND_LOAD_STATUS 1).put F.STAND_LOAD_STATUS_UNIT 0xFF).wr Reg.STAND_LOAD_DETAIL 0
    (s.sendAll links (.manifest raw)).loadCounts

/-- START at the lead: the manifest and the distinct chunks come from its staging area and go to every listed neighbour (R410, R412). -/
def State.loadBegin (s : State) : State :=
  let raw := s.manifestAt (s.rd64 Reg.EVT_MANIFEST_LO).toNat
  let man := manifestOf raw
  let s : State := { s with group := { s.group with listed := man.members.length, ready := [], refused := [] } }
  let s := (s.missingCount).manifestTake raw man true none
  if s.group.load.man.isNone ∨ s.group.load.checked then s
  else
    let found := (manDigests man).filterMap (fun d => (s.stagedChunk d).map (fun c => (d, c)))
    let ld := s.group.load
    let s := found.foldl (fun (s : State) e => s.sendAll ld.sent (.chunk e.1 e.2)) s
    let s := s.sendAll ld.sent .imageEnd
    let s := s.setLoad { ld with held := found.foldl (fun (m : AMap (Option Chunk)) e => aset none m e.1.toNat (some e.2)) [], seen := found.map (fun e => e.1),
                                 ended := true, endParent := true }
    s.loadCounts.loadCheck

/-- Whether START is accepted: at the lead of the stand being loaded, with no load in progress (R421). -/
def State.loadStartOk (s : State) : Bool :=
  let man := manifestOf (s.manifestAt (s.rd64 Reg.EVT_MANIFEST_LO).toNat)
  s.group.load.raw.isEmpty && decide ((man.members[man.lead.toNat]?).map (fun x => x.serial) = some s.serial)

/-- Whether CANCEL is accepted: at the lead of the stand being loaded. -/
def State.loadCancelOk (s : State) : Bool := s.group.load.man.isSome && s.group.load.lead

/-- A write of LOAD_CTRL (R410, R415, R421). -/
def State.loadCtrlWrite (s : State) (w : WriteReq) : State :=
  let v := w.data.toNat
  s.gateW Reg.EVT_LOAD_CTRL w (hostCanopySvc w.req && (!v.testBit 0 || s.loadStartOk) && (!v.testBit 1 || s.loadCancelOk)) (fun (s : State) =>
    let s := if v.testBit 0 then s.loadBegin else s
    if v.testBit 1 && s.loadCancelOk then s.loadEnd else s)

def execLoadStart (req : Req) (s : State) : Host.Outcome State Fault Refusal := .next (s.loadCtrlWrite { req := req, data := 1, be := 15 })
def execLoadCancel (req : Req) (s : State) : Host.Outcome State Fault Refusal := .next (s.loadCtrlWrite { req := req, data := 2, be := 15 })

/-- The first manifest makes its link the parent link; later copies are discarded (R411, R412). -/
def execManifestRx (link : Fin 96) (raw : List Byte) (s : State) : Host.Outcome State Fault Refusal :=
  let s := s.takeInbox link.val (.manifest raw)
  if s.group.load.raw.isEmpty then .next (s.manifestTake raw (manifestOf raw) false (some link.val)) else .next s

/-- A verified chunk is stored. -/
def State.storeChunk (s : State) (d : BitVec 256) (c : Chunk) : State :=
  let ld := s.group.load
  s.setLoad { ld with held := aset none ld.held d.toNat (some c), asked := ld.asked.filter (fun x => decide (x ≠ d)) }

/-- A chunk matches its digest. -/
def chunkOk (d : BitVec 256) (c : Chunk) : Bool := decide (Config.sm3 (c.flatMap lineBytes) = d)

/-- A chunk: its first copy goes on, and is stored when it matches its digest (R412). -/
def execChunkRx (link : Fin 96) (digest : BitVec 256) (data : Chunk) (s : State) : Host.Outcome State Fault Refusal :=
  let s := s.takeInbox link.val (.chunk digest data)
  let ld := s.group.load
  match ld.man with
  | none => .next s
  | some man =>
    if ld.seen.contains digest then .next s
    else
      let s := s.setLoad { ld with seen := digest :: ld.seen }
      let s := s.sendAll (ld.sent.filter (fun l => decide (l ≠ link.val))) (.chunk digest data)
      let s := if chunkOk digest data && (manDigests man).contains digest then s.storeChunk digest data else s
      .next s.loadCounts.loadCheck

/-! ## Repair (R413) -/

/-- The neighbours asked, in order: the parent, then the others by ascending link number. -/
def repairOrder (ld : LoadSt) : List Nat := ld.parent.toList ++ ld.sent

/-- A request to the neighbour whose turn the first missing digest has: up to 64 missing digests with that turn. -/
def State.repairAsk (s : State) : State :=
  let ld := s.group.load
  let order := repairOrder ld
  match (missingChunks ld).filter (fun d => !ld.asked.contains d && decide (aget 0 ld.tries d.toNat < order.length)) with
  | [] => s
  | d :: ds =>
    let turn := aget 0 ld.tries d.toNat
    let batch := (d :: ds.filter (fun x => decide (aget 0 ld.tries x.toNat = turn))).take 64
    match order[turn]? with
    | none => s
    | some l => (s.setLoad { ld with asked := batch, askOf := turn }).sendMsg l (.repairReq batch)

/-- END: its first copy goes on; on the parent link it starts the repair of what is missing (R412, R413). -/
def execImageEndRx (link : Fin 96) (s : State) : Host.Outcome State Fault Refusal :=
  let s := s.takeInbox link.val .imageEnd
  let ld := s.group.load
  if ld.man.isNone then .next s
  else
    let first := !ld.ended
    let par := decide (ld.parent = some link.val) && !ld.endParent
    let s := s.setLoad { ld with ended := true, endParent := ld.endParent || par }
    let s := if first then s.sendAll (ld.sent.filter (fun l => decide (l ≠ link.val))) .imageEnd else s
    if par && !ld.checked then
      let s := s.loadCounts
      .next (if (missingChunks s.group.load).isEmpty then s.loadCheck else s.repairAsk)
    else .next s

/-- A member answers each digest with the chunk when it holds it, or NOT_HELD (R413). -/
def execRepairReqRx (link : Fin 96) (digests : List (BitVec 256)) (s : State) : Host.Outcome State Fault Refusal :=
  let s := s.takeInbox link.val (.repairReq digests)
  if s.group.load.man.isSome then
    .next ((digests.take 64).foldl (fun (s : State) d => s.sendMsg link.val (.repairReply d (heldChunk s.group.load d))) s)
  else .next s

/-- An answer to a repair request: a verified chunk is stored and counted; else the next neighbour has the turn (R413). -/
def execRepairReplyRx (link : Fin 96) (digest : BitVec 256) (data : Option Chunk) (s : State) : Host.Outcome State Fault Refusal :=
  let s := s.takeInbox link.val (.repairReply digest data)
  let ld := s.group.load
  if !ld.asked.contains digest then .next s
  else
    let s := match data.filter (fun c => chunkOk digest c) with
      | some c => (s.storeChunk digest c).bump Reg.EVT_REPAIRS 1
      | none => s.setLoad { ld with asked := ld.asked.filter (fun x => decide (x ≠ digest)), tries := aset 0 ld.tries digest.toNat (ld.askOf + 1) }
    let s := s.loadCounts
    if (missingChunks s.group.load).isEmpty then .next s.loadCheck
    else .next (if s.group.load.asked.isEmpty then s.repairAsk else s)

/-- Every 1 ms: unanswered digests are asked again, from the parent on (R413). -/
def execRepairRetry (s : State) : Host.Outcome State Fault Refusal :=
  let ld := s.group.load
  if ld.man.isSome && ld.endParent && !ld.checked && !(missingChunks ld).isEmpty && !ld.lead then
    .next (s.setLoad { ld with asked := [], tries := [] }).repairAsk
  else .next s

/-! ## The arm barrier (R414, R415) -/

/-- ARM_READY toward the lead. -/
def execArmReadyRx (link : Fin 96) (member : BitVec 13) (q : BitVec 14) (s : State) : Host.Outcome State Fault Refusal :=
  let s := s.takeInbox link.val (.armReady member q)
  let ld := s.group.load
  if ld.man.isNone then .next s
  else if ld.lead then .next (s.armReadyAtLead member.toNat q.toNat)
  else match ld.parent with
    | some p => .next (s.sendMsg p (.armReady member q))
    | none => .next s

/-- ARM_REFUSED toward the lead, where it ends the load. -/
def execArmRefusedRx (link : Fin 96) (member : BitVec 13) (reason : BitVec 8) (s : State) : Host.Outcome State Fault Refusal :=
  let s := s.takeInbox link.val (.armRefused member reason)
  let ld := s.group.load
  if ld.man.isNone then .next s
  else if ld.lead then .next (s.armRefusedAtLead member.toNat reason.toNat)
  else match ld.parent with
    | some p => .next (s.sendMsg p (.armRefused member reason))
    | none => .next s

/-- The stand is armed and CANCEL still reaches it: epochs 0 to 2·D_MAX + 1 after arming (R415). -/
def State.armCancellable (s : State) : Bool :=
  s.armed && s.stand.epochs && decide (s.stand.waveBase = 0) && decide (s.gepoch ≤ 2 * s.dMax + 1)

/-- CANCEL: forwarded once; the load is discarded, or the newly armed member disarms (R415). -/
def execCancelRx (link : Fin 96) (s : State) : Host.Outcome State Fault Refusal :=
  let s := s.takeInbox link.val .cancel
  let ld := s.group.load
  if s.armCancellable then .next (((s.sendAll (s.onward link.val) .cancel).disarm).loadState 5)
  else if ld.man.isSome then .next ((s.sendAll ((loadPeers ld).filter (fun l => decide (l ≠ link.val))) .cancel).loadDiscard)
  else .next s

/-- LOAD_TIMEOUT after START (R415): LOAD_INCOMPLETE, once. -/
def execLoadTimeout (s : State) : Host.Outcome State Fault Refusal :=
  let ld := s.group.load
  if s.loadCancelOk && !ld.incomplete && ld.release.isNone then
    .next ((s.raiseBare P.STAND Evn.COMPUTE_LOAD_INCOMPLETE).setLoad { ld with incomplete := true })
  else .next s

/-- RELEASE of either barrier: the first copy goes on; one of the arm barrier that is held only at or after T_rel sends CANCEL (R406,
R415). -/
def execReleaseRx (link : Fin 96) (r : ReleaseMsg) (s : State) : Host.Outcome State Fault Refusal :=
  let l := link.val
  let s := s.takeInbox l (.release r)
  if r.resume then
    if s.armed && s.suspended && !s.isLead && s.group.release.isNone && !s.group.reqFrom.isEmpty then
      .next { s.sendAll (s.onward l) (.release r) with group := { (s.sendAll (s.onward l) (.release r)).group with release := some r } }
    else .next s
  else
    let ld := s.group.load
    match ld.image with
    | none => .next s
    | some im =>
      if ld.release.isSome || ld.lead then .next s
      else
        let s := s.sendAll (((im.plans.filter (fun p => p.group)).map (fun p => p.l.val)).filter (fun k => decide (k ≠ l))) (.release r)
        if r.tRel.toNat ≤ s.ftime.toNat then .next ((s.sendAll (loadPeers ld) .cancel).loadDiscard)
        else .next (s.setLoad { ld with release := some r })

/-- One stream's entry segment and its engine's roles. -/
def State.armStream (s : State) (t : EngStream) : State :=
  match s.engIdx t.a with
  | none => s
  | some i => s.setEng i { s.eng i with bundles := t.bundles.zipIdx.foldl (fun (m : AMap (BitVec 256)) e => aset 0 m (t.segBase + e.2) e.1) [] }

/-- A grove's windows, dynamic regions and GWIN registers. -/
def State.armGroveMem (s : State) (m : GroveMem) : State :=
  let g := m.g.val
  let s := m.wins.zipIdx.foldl (fun (s : State) e =>
    (((s.wr (Reg.GWIN_BASE g e.2) (BitVec.ofNat 32 e.1.base)).wr (Reg.GWIN_LEN g e.2) (BitVec.ofNat 32 e.1.len)).wr (Reg.GWIN_ALT g e.2) (BitVec.ofNat 32 e.1.alt)).wr
      (Reg.GWIN_DIRTY g e.2) 0) s
  let s := ((s.put (F.GWIN_STATUS_WIN_COUNT g) m.wins.length).wr (Reg.GWIN_WIN_LINES g) (BitVec.ofNat 32 (m.wins.map (fun w => w.len)).sum))
  let s := (s.wr (Reg.GWIN_COMMITS g) 0).wr (Reg.GWIN_ABORTS g) 0
  s.setGrove g { s.grove g with wins := m.wins, sel := [], dirty := [], dyn := m.dyn }

/-- The image's parts take their places (Table 7.1). -/
def State.armParts (s : State) (im : Image) : State :=
  let s := im.streams.foldl (fun (s : State) t => s.armStream t) s
  let s := im.gmem.foldl (fun (s : State) m => s.armGroveMem m) s
  let s := im.descrs.foldl (fun (s : State) d =>
    s.setGrove d.g.val { s.grove d.g.val with descs := aset 0 (s.grove d.g.val).descs (256 * d.ch.val + d.desc.toNat) d.raw }) s
  let s := (imGroves im).foldl (fun (s : State) g => s.putB (F.GROVE_STATUS_STAND_ARMED g) true) s
  let s := im.reduce.foldl (fun (s : State) p =>
    ((s.setRed p.l.val { prog := p.runs.map runOf }).putB (F.REDUCE_STATUS_PROG_LOADED p.l.val) true).put (F.REDUCE_PROG_RUNS p.l.val) p.runs.length) s
  let s := s.lpPresent.foldl (fun (s : State) m => s.put (F.LPDDR_WIN_STATUS_WIN_COUNT m) im.lwins.length) s
  let s : State := { s with lpddr := { s.lpddr with wins := im.lwins, sel := [], dirty := [], scratch := im.lscratch, reads := im.lread } }
  let s := im.plans.foldl (fun (s : State) p =>
    (s.putB (F.LINK_STATUS_GROUP p.l.val) p.group).putB (F.LINK_STATUS_SCHED p.l.val) (!p.rx.isEmpty || !p.tx.isEmpty)) s
  s.putB F.FLOOR_STATUS_SCHED_LOADED true

/-- STAND's registers at arming. -/
def State.armRegs (s : State) (im : Image) : State :=
  let s := (((s.wr Reg.STAND_STATUS 0).putB F.STAND_STATUS_ARMED true).putB F.STAND_STATUS_IS_LEAD (decide (im.member = im.lead))).wr Reg.STAND_STAND_ID im.standId
  let s := ((s.wr Reg.STAND_MEMBERSHIP 0).put F.STAND_MEMBERSHIP_MEMBER im.member).put F.STAND_MEMBERSHIP_LEAD im.lead
  let s := ((s.wr Reg.STAND_GEOM 0).put F.STAND_GEOM_N_M1 (im.nEpochs - 1)).put F.STAND_GEOM_D_MAX im.dMax
  let s := ((s.wr64 Reg.STAND_SEED_LO im.seed).wr64 Reg.STAND_CUR_STEP_LO 0).wr64 Reg.STAND_LAST_COMMIT_LO 0
  let s := ((s.wr64 Reg.STAND_START_EPOCH_LO 0).wr64 Reg.STAND_IDLE_LO 0).wr Reg.STAND_PACE_MAX 0
  let s := (s.wr Reg.STAND_COMMITS 0).wr Reg.STAND_ABORTS 0
  (s.wr Reg.STAND_LOAD_STATUS (BitVec.ofNat 32 (2 + 65536 * 0xFF))).wr Reg.STAND_LOAD_DETAIL 0

/-- The member arms at T_rel: the image is in force, group epoch 0 begins at P_ARM, the module is RUNNING, M6 is extended with the manifest,
and the staging area is released (R158, R415, R443). -/
def State.arm (s : State) (ld : LoadSt) (im : Image) (r : ReleaseMsg) : State :=
  let s := ((s.armRegs im).armParts im).setMState .running
  let s : State :=
    { s with
      image := some im
      stand := { epochs := true, basePace := r.pace.toNat }
      group := { s.group with load := {}, parent := ld.parent, members := ((ld.man.map (fun m => m.members.length)).getD 0),
                              rejoined := false, reqFrom := [], answers := [], release := none } }
  let s := im.plans.foldl (fun (s : State) p => s.fitLink p.l.val) s
  let s := (s.extendM 6 (bytesOf (Config.sm3 ld.raw))).loadState 4
  (s.raise P.STAND B.STAND_ARMED Evn.COMPUTE_ARMED).epochBegin 0

/-- ARM_TICK: T_rel of the arm barrier. A member whose latencies no longer fit, whose fabric time is no longer valid, or that has left
READY, refuses instead of arming and sends CANCEL, as after a late RELEASE (R49, R154, R415). -/
def execArmTick (s : State) : Host.Outcome State Fault Refusal :=
  let ld := s.group.load
  match ld.image, ld.release with
  | some im, some r =>
    if r.tRel = s.ftime then
      match ((need (decide (s.mod.mstate = .ready) && !s.armed) ({ reason := lrState } : LoadFail)).or s.loadTime).or (s.loadLatLong im) with
      | none => .next (s.arm ld im r)
      | some f =>
        let s := s.loadRefuse f
        .next (if ld.lead then s else (s.sendAll (loadPeers ld) .cancel).loadDiscard)
    else .next s
  | _, _ => .next s

end Sys2Proof.Machine
end

