-- ==== Sys2Proof/Machine/SideOps.lean ====
section
/-! DEFINITION. Shared operations of the tray side-band (R448, R450, R456, R457). -/

namespace Sys2Proof.Machine

/-- Interface modes (Table 21.6). -/
abbrev smDual : Nat := 0
abbrev smI3c : Nat := 1
abbrev smSmbus : Nat := 2

/-- The interface is powered and its function runs (R448). -/
def State.sideOn (s : State) : Bool :=
  decide (s.fn P.SIDEBAND = fnReady) && decide (s.mod.mstate ≠ .standby) && decide (s.mod.mstate ≠ .tripped)

/-- Whether a transaction is answered: SMBus in dual or SMBus mode, I3C in dual or I3C mode (R448). -/
def State.sideAnswers (s : State) (smbus : Bool) : Bool :=
  s.sideOn && decide (s.get F.SIDEBAND_STATUS_MODE ≠ (if smbus then smI3c else smSmbus))

/-- A transaction addressed to the module ends the tray controller's silence (R457). -/
def State.sideTouch (s : State) : State :=
  let s : State := { s with side := { s.side with lastRx := { acc := 0, base := s.now } } }
  if s.flag F.SIDEBAND_STATUS_SILENT then
    (s.putB F.SIDEBAND_STATUS_SILENT false).raise P.SIDEBAND B.SIDEBAND_TRAY_RESUMED Evn.SIDEBAND_TRAY_RESUMED
  else s

/-- An SMBus transaction in dual mode: SMBus mode, and SMBUS_FALLBACK (R448). -/
def State.sideFallback (s : State) (smbus : Bool) : State :=
  if smbus && decide (s.get F.SIDEBAND_STATUS_MODE = smDual) then
    (s.put F.SIDEBAND_STATUS_MODE smSmbus).raise P.SIDEBAND B.SIDEBAND_SMBUS_FALLBACK Evn.SIDEBAND_SMBUS_FALLBACK
  else s

/-- A request message: counted, and discarded as the ninth outstanding (R450); else it has its effect. -/
def State.sideRx (s : State) (smbus : Bool) (f : State → State) : State :=
  if s.sideAnswers smbus then
    let s := (s.sideTouch.sideFallback smbus).bumpW Reg.SIDEBAND_RX_MSGS 1
    if 8 ≤ s.side.waiting.length then s.bump Reg.SIDEBAND_DROPPED 1 else f s
  else s

/-- An answer sent. -/
def State.sideReply (s : State) (smbus : Bool) (r : SideReply) : State := (s.bumpW Reg.SIDEBAND_TX_MSGS 1).emit (.sideReply smbus r)

/-- ALERT_L is asserted while the PLDM buffer holds an entry (R456). -/
def State.sideAlert (s : State) : State := s.putB F.SIDEBAND_STATUS_ALERT (!s.evt.pldm.isEmpty)

end Sys2Proof.Machine
end

