-- ==== Sys2Proof/Machine/Events.lean ====
section
/-! DEFINITION. The event arbiter: raising, sequencing, routing and forwarding (R416 to R421). -/

namespace Sys2Proof.Machine

/-! ## Codes and summary bits (R31, R420) -/

/-- The event codes of each page kind that have an EVT_SUMMARY bit, with the bit (the owning chapters' field tables). -/
def summaryBits : PageKind → List (Nat × Nat)
  | .canopy => [(Evn.CANOPY_CORE_FAILED.code, B.CANOPY_CORE_FAILED), (Evn.CANOPY_FW_FALLBACK.code, B.CANOPY_FW_FALLBACK),
      (Evn.CANOPY_REVOKED.code, B.CANOPY_REVOKED), (Evn.CANOPY_SEIZED.code, B.CANOPY_SEIZED),
      (Evn.CANOPY_SNOOP_OVERFLOW.code, B.CANOPY_SNOOP_OVERFLOW), (Evn.CANOPY_SWITCHOVER.code, B.CANOPY_SWITCHOVER),
      (Evn.CANOPY_TOKEN_RELEASED.code, B.CANOPY_TOKEN_RELEASED)]
  | .clk => [(Evn.CLK_HOLDOVER_EXPIRED.code, B.CLK_HOLDOVER_EXPIRED), (Evn.CLK_PLL_UNLOCK.code, B.CLK_PLL_UNLOCK),
      (Evn.CLK_REF_LOST.code, B.CLK_REF_LOST), (Evn.CLK_REF_RESTORED.code, B.CLK_REF_RESTORED),
      (Evn.CLK_SYNC_DONE.code, B.CLK_SYNC_DONE), (Evn.CLK_SYNC_MISMATCH.code, B.CLK_SYNC_MISMATCH),
      (Evn.CLK_SYNC_ROOT_CONFLICT.code, B.CLK_SYNC_ROOT_CONFLICT)]
  | .coolant => [(Evn.FLUID_COOLANT_DISAGREE.code, B.COOLANT_COOLANT_DISAGREE),
      (Evn.FLUID_COOLANT_SENSOR_INVALID.code, B.COOLANT_COOLANT_SENSOR_INVALID), (Evn.FLUID_LEAK.code, B.COOLANT_LEAK),
      (Evn.FLUID_LEAK_CLEARED.code, B.COOLANT_LEAK_CLEARED), (Evn.FLUID_LEAK_SENSE_OPEN.code, B.COOLANT_LEAK_SENSE_OPEN)]
  | .dwood => [(Evn.MODULE_DWOOD_ADDED.code, B.DWOOD_DWOOD_ADDED), (Evn.MODULE_DWOOD_CLEARED.code, B.DWOOD_DWOOD_CLEARED),
      (Evn.MODULE_DWOOD_FULL.code, B.DWOOD_DWOOD_FULL)]
  | .engine => [(Evn.COMPUTE_DYN_RANGE.code, B.ENGINE_DYN_RANGE), (Evn.COMPUTE_FLAG_SET.code, B.ENGINE_FLAG_SET),
      (Evn.COMPUTE_LONG_OVF.code, B.ENGINE_LONG_OVF), (Evn.COMPUTE_ENGINE_RESIDUE.code, B.ENGINE_RESIDUE),
      (Evn.COMPUTE_STAND_EVT.code, B.ENGINE_STAND_EVT)]
  | .evt => [(Evn.EVT_OVERFLOW.code, B.EVT_OVERFLOW), (Evn.EVT_TEST.code, B.EVT_TEST)]
  | .floor => [(Evn.MEM_ADDR_INVALID.code, B.FLOOR_ADDR_INVALID), (Evn.MEM_XBAR_UNCORR.code, B.FLOOR_XBAR_UNCORR)]
  | .glade => [(Evn.GLADE_FLOW_STOP.code, B.GLADE_FLOW_STOP), (Evn.GLADE_INPUT_TIMEOUT.code, B.GLADE_INPUT_TIMEOUT),
      (Evn.GLADE_ISLAND_OVERFLOW.code, B.GLADE_ISLAND_OVERFLOW), (Evn.GLADE_OSC_RANGE.code, B.GLADE_OSC_RANGE),
      (Evn.GLADE_POWER_INVALID.code, B.GLADE_POWER_INVALID), (Evn.GLADE_TABLE_ENTER.code, B.GLADE_TABLE_ENTER),
      (Evn.GLADE_TABLE_EXIT.code, B.GLADE_TABLE_EXIT), (Evn.GLADE_TRIP.code, B.GLADE_TRIP),
      (Evn.GLADE_VIN_RANGE.code, B.GLADE_VIN_RANGE)]
  | .gsens => [(Evn.THERM_SENSOR_DISAGREE.code, B.GSENS_SENSOR_DISAGREE), (Evn.THERM_SENSOR_INVALID.code, B.GSENS_SENSOR_INVALID)]
  | .gsram => [(Evn.MEM_POISON_READ.code, B.GSRAM_POISON_READ), (Evn.MEM_SRAM_CORR.code, B.GSRAM_SRAM_CORR),
      (Evn.MEM_SRAM_UNCORR.code, B.GSRAM_SRAM_UNCORR), (Evn.MEM_SRAM_WEAR.code, B.GSRAM_SRAM_WEAR)]
  | .gwin => [(Evn.MEM_FOLD_DONE.code, B.GWIN_FOLD_DONE), (Evn.MEM_WIN_ALT_ACCESS.code, B.GWIN_WIN_ALT_ACCESS)]
  | .hostdma => [(Evn.HOST_AER.code, B.HOSTDMA_AER), (Evn.HOST_ALIVE_LOST.code, B.HOSTDMA_ALIVE_LOST),
      (Evn.HOST_BAR2_READ_ABORT.code, B.HOSTDMA_BAR2_READ_ABORT), (Evn.HOST_DMA_ERROR.code, B.HOSTDMA_DMA_ERROR),
      (Evn.HOST_LINK_DEGRADED.code, B.HOSTDMA_LINK_DEGRADED), (Evn.HOST_LINK_DOWN.code, B.HOSTDMA_LINK_DOWN),
      (Evn.HOST_MEM_UNAVAILABLE.code, B.HOSTDMA_MEM_UNAVAILABLE), (Evn.HOST_POISON_RX.code, B.HOSTDMA_POISON_RX)]
  | .link => [(Evn.LINK_ABORT_FOREIGN.code, B.LINK_ABORT_FOREIGN), (Evn.LINK_CHANNEL_FAULT.code, B.LINK_CHANNEL_FAULT),
      (Evn.LINK_LANE_WEAR.code, B.LINK_LANE_WEAR), (Evn.LINK_LOST.code, B.LINK_LOST), (Evn.LINK_MARGIN_LOW.code, B.LINK_MARGIN_LOW),
      (Evn.LINK_PARTNER_DOWN.code, B.LINK_PARTNER_DOWN), (Evn.LINK_POISON_RX.code, B.LINK_POISON_RX),
      (Evn.LINK_RREQ_DONE.code, B.LINK_RREQ_DONE), (Evn.LINK_SCHED_MISMATCH.code, B.LINK_SCHED_MISMATCH),
      (Evn.LINK_SLIP.code, B.LINK_SLIP), (Evn.LINK_SPARE_USED.code, B.LINK_SPARE_USED), (Evn.LINK_TRAIN_FAIL.code, B.LINK_TRAIN_FAIL),
      (Evn.LINK_UNCORR_FLIT.code, B.LINK_UNCORR_FLIT), (Evn.LINK_UP.code, B.LINK_UP)]
  | .lpddr => [(Evn.MEM_LPDDR_CORR.code, B.LPDDR_LPDDR_CORR), (Evn.MEM_LPDDR_FOLD_DONE.code, B.LPDDR_LPDDR_FOLD_DONE),
      (Evn.MEM_LPDDR_HOT.code, B.LPDDR_LPDDR_HOT), (Evn.MEM_LPDDR_RETIRE_FULL.code, B.LPDDR_LPDDR_RETIRE_FULL),
      (Evn.MEM_LPDDR_TRAIN_FAIL.code, B.LPDDR_LPDDR_TRAIN_FAIL), (Evn.MEM_LPDDR_UNCORR.code, B.LPDDR_LPDDR_UNCORR),
      (Evn.MEM_LPDDR_WEAR.code, B.LPDDR_LPDDR_WEAR), (Evn.MEM_POISON_READ.code, B.LPDDR_POISON_READ),
      (Evn.MEM_WIN_ALT_ACCESS.code, B.LPDDR_WIN_ALT_ACCESS)]
  | .module => [(Evn.MODULE_BOOT_DONE.code, B.MODULE_BOOT_DONE), (Evn.MODULE_BOOT_FAIL.code, B.MODULE_BOOT_FAIL),
      (Evn.MODULE_BOOT_STEP_FAIL.code, B.MODULE_BOOT_STEP_FAIL), (Evn.MODULE_SERVICE_ENTER.code, B.MODULE_SERVICE_ENTER),
      (Evn.MODULE_SHAPE_CHANGED.code, B.MODULE_SHAPE_CHANGED)]
  | .pump => [(Evn.FLUID_PUMP_FAILED.code, B.PUMP_PUMP_FAILED), (Evn.FLUID_PUMP_INSUFFICIENT.code, B.PUMP_PUMP_INSUFFICIENT),
      (Evn.FLUID_PUMP_I_ABNORMAL.code, B.PUMP_PUMP_I_ABNORMAL), (Evn.FLUID_PUMP_START_FAIL.code, B.PUMP_PUMP_START_FAIL),
      (Evn.FLUID_PUMP_START_RETRY.code, B.PUMP_PUMP_START_RETRY), (Evn.FLUID_TACH_LOST.code, B.PUMP_TACH_LOST)]
  | .reduce => [(Evn.COMPUTE_LONG_OVF.code, B.REDUCE_LONG_OVF), (Evn.LINK_REDUCE_FAULT.code, B.REDUCE_REDUCE_FAULT),
      (Evn.LINK_REDUCE_POISON.code, B.REDUCE_REDUCE_POISON)]
  | .rlog => [(Evn.RLOG_LOG_CLEARED.code, B.RLOG_LOG_CLEARED), (Evn.RLOG_LOG_DROP.code, B.RLOG_LOG_DROP)]
  | .sample => [(Evn.SERVICE_SAMPLE_CLAMP.code, B.SAMPLE_SAMPLE_CLAMP), (Evn.SERVICE_SAMPLE_FAULT.code, B.SAMPLE_SAMPLE_FAULT),
      (Evn.SERVICE_SAMPLE_NAN.code, B.SAMPLE_SAMPLE_NAN)]
  | .sec => [(Evn.SEC_DEBUG_UNLOCKED.code, B.SEC_DEBUG_UNLOCKED), (Evn.SEC_IMAGE_REJECTED.code, B.SEC_IMAGE_REJECTED),
      (Evn.SEC_TOKEN_ACCEPTED.code, B.SEC_TOKEN_ACCEPTED), (Evn.SEC_TOKEN_REJECTED.code, B.SEC_TOKEN_REJECTED)]
  | .serve => [(Evn.SERVICE_BAD_OUTPUT.code, B.SERVE_BAD_OUTPUT), (Evn.SERVICE_FOREIGN_ISSUE.code, B.SERVE_FOREIGN_ISSUE),
      (Evn.SERVICE_QUEUE_FULL.code, B.SERVE_QUEUE_FULL), (Evn.SERVICE_SEQ_FAULT.code, B.SERVE_SEQ_FAULT),
      (Evn.SERVICE_STAND_ENDED.code, B.SERVE_STAND_ENDED)]
  | .sideband => [(Evn.SIDEBAND_RACK_CAP_SET.code, B.SIDEBAND_RACK_CAP_SET),
      (Evn.SIDEBAND_SMBUS_FALLBACK.code, B.SIDEBAND_SMBUS_FALLBACK), (Evn.SIDEBAND_TRAY_RESUMED.code, B.SIDEBAND_TRAY_RESUMED),
      (Evn.SIDEBAND_TRAY_SILENT.code, B.SIDEBAND_TRAY_SILENT)]
  | .stand => [(Evn.COMPUTE_ARMED.code, B.STAND_ARMED), (Evn.COMPUTE_ISSUE_REFUSED.code, B.STAND_ISSUE_REFUSED),
      (Evn.COMPUTE_LOAD_REFUSED.code, B.STAND_LOAD_REFUSED), (Evn.COMPUTE_PACE_CHANGE.code, B.STAND_PACE_CHANGE),
      (Evn.COMPUTE_PACE_FAULT.code, B.STAND_PACE_FAULT), (Evn.COMPUTE_STEP_ABORT.code, B.STAND_STEP_ABORT),
      (Evn.COMPUTE_STEP_COMMIT.code, B.STAND_STEP_COMMIT), (Evn.COMPUTE_SUSPENDED.code, B.STAND_SUSPENDED)]
  | .submit => [(Evn.HOST_CQ_FULL.code, B.SUBMIT_CQ_FULL), (Evn.HOST_REC_REJECTED.code, B.SUBMIT_REC_REJECTED),
      (Evn.HOST_SEQ_GAP.code, B.SUBMIT_SEQ_GAP)]
  | .svc => [(Evn.SERVICE_CORE_HANG.code, B.SVC_CORE_HANG), (Evn.SERVICE_FW_REJECTED.code, B.SVC_FW_REJECTED)]
  | .therm => [(Evn.THERM_CAP_CLAMPED.code, B.THERM_CAP_CLAMPED), (Evn.THERM_CAP_EXCEEDED.code, B.THERM_CAP_EXCEEDED),
      (Evn.THERM_COOLING_DEGRADED.code, B.THERM_COOLING_DEGRADED), (Evn.THERM_FLOW_END.code, B.THERM_FLOW_END),
      (Evn.THERM_PACE_URGENT.code, B.THERM_PACE_URGENT), (Evn.THERM_SENSOR_INVALID.code, B.THERM_SENSOR_INVALID)]
  | .valve => [(Evn.FLUID_BANK_FAULT.code, B.VALVE_BANK_FAULT), (Evn.FLUID_BANK_SATURATED.code, B.VALVE_BANK_SATURATED),
      (Evn.FLUID_COIL_FAULT.code, B.VALVE_COIL_FAULT), (Evn.FLUID_ISO_MOVED.code, B.VALVE_ISO_MOVED),
      (Evn.FLUID_VALVE_START_LATE.code, B.VALVE_VALVE_START_LATE)]
  | .grove | .gdma | .arb | .hwood | .telem => []

/-- The EVT_SUMMARY bit of an event at the page that raises it. A grove's SENSOR_INVALID has a bit for each severity (R323). -/
def bitOfEvent (page code sev : Nat) : Option Nat :=
  match pageAt (page / 4096) with
  | none => none
  | some (k, _) =>
    if k = .gsens ∧ code = Evn.THERM_SENSOR_INVALID.code ∧ 2 ≤ sev then some B.GSENS_SENSOR_BOTH_INVALID
    else ((summaryBits k).find? (fun e => e.1 == code)).map (·.2)

/-- Codes of each class, from 0x01 up (Table 18.4); every other code is reserved. -/
def classCodes : List Nat := [0, 9, 16, 7, 16, 7, 15, 18, 11, 10, 7, 8, 2, 2, 4, 4]

def knownCode (code : Nat) : Bool := decide (1 ≤ code % 256) && decide (code % 256 ≤ classCodes.getD (code / 256) 0)

/-- An entry's event is masked at its page (R31). A forwarded entry's page is another member's. -/
def State.evtMasked (s : State) (e : EvEntry) : Bool :=
  !e.remote && (match bitOfEvent e.page e.code e.sev with
    | some b => (s.rd (Hdr.EVT_MASK e.page)).toNat.testBit b
    | none => false)

/-- EVENT_RAISE: a source page raises an event of Table 18.4 (R31, R416). -/
def execEventRaise (page : BitVec 10) (code : BitVec 16) (sev : BitVec 2) (d0 d1 : Word) (s : State) : Host.Outcome State Fault Refusal :=
  let pg := 4096 * page.toNat
  let k : EvKind := { code := code.toNat, sev := sev.toNat }
  if (pageAt page.toNat).isSome && knownCode code.toNat then
    match bitOfEvent pg code.toNat sev.toNat with
    | some b => .next (s.raiseSev pg b k sev.toNat (some d0) (some d1))
    | none => .next (s.eventOf pg k sev.toNat (some d0) (some d1))
  else .next s

/-! ## Order and routing (R416, R419) -/

/-- Whether entry `a` is numbered before `b`: stamp, source class order, page, code (R416). -/
def evBefore (a b : EvEntry) : Bool :=
  let ka := [a.stamp.toNat, classOrder a.code, a.page, a.code]
  let kb := [b.stamp.toNat, classOrder b.code, b.page, b.code]
  decide (ka < kb)

/-- The entry that comes first. -/
def evFirst : List EvEntry → Option EvEntry
  | [] => none
  | e :: es => some (es.foldl (fun m x => if evBefore x m then x else m) e)

/-- Entries of the queue and its reserved slot. -/
def State.evAll (s : State) : List EvEntry := s.evt.queue ++ s.evt.ovfSlot.toList

/-- Replaces an entry wherever it stands. -/
def State.evReplace (s : State) (old new : EvEntry) : State :=
  if s.evt.ovfSlot = some old then { s with evt := { s.evt with ovfSlot := some new } }
  else { s with evt := { s.evt with queue := s.evt.queue.map (fun x => if x = old then new else x) } }

/-- An entry that Ringlog and the MSI-X router have both taken leaves the queue (R419). -/
def State.evRelease (s : State) : State :=
  let gone := fun (e : EvEntry) => e.rlogTaken && e.msiTaken
  ({ s with evt := { s.evt with queue := s.evt.queue.filter (fun e => !gone e), ovfSlot := s.evt.ovfSlot.filter (fun e => !gone e) } }).evtStatus

/-- To the PLDM buffer of 64 entries. -/
def State.toPldm (s : State) (e : EvEntry) : State :=
  if s.evt.pldm.length < 64 then ({ s with evt := { s.evt with pldm := s.evt.pldm ++ [e] } }).sideAlert
  else s.bump Reg.EVT_PLDM_DROP 1

/-- CANOPY_HELD: entries wait for a token holder. -/
def State.canopyHeld (s : State) : State := s.putB F.EVT_STATUS_CANOPY_HELD (!s.evt.canopy.isEmpty)

/-- To the token holder, or to the buffer of 256 entries while there is none (R365). -/
def State.toCanopy (s : State) (e : EvEntry) : State :=
  if s.holder ≠ 0 ∧ s.evt.canopy.isEmpty then s.emit (.canopyEvent e)
  else if s.evt.canopy.length < 256 then ({ s with evt := { s.evt with canopy := s.evt.canopy ++ [e] } }).canopyHeld
  else s.bump Reg.EVT_CANOPY_DROP 1

/-- The new holder is given the held entries in arbiter order (R365). -/
def State.canopyDrain (s : State) : State :=
  if s.holder = 0 then s
  else ({ s.emitAll (s.evt.canopy.map Out.canopyEvent) with evt := { s.evt with canopy := [] } }).canopyHeld

/-- Coalesces into the first buffered entry of equal code and source. -/
def fwdCoalesce (n : EvEntry) : List EvEntry → Option (List EvEntry)
  | [] => none
  | e :: es => if e.code = n.code ∧ e.page = n.page then some (e.coalesce n :: es) else (fwdCoalesce n es).map (fun r => e :: r)

/-- To the forwarding buffer of 64 entries (R419). -/
def State.toForward (s : State) (e : EvEntry) : State :=
  if s.evt.fwd.length < 64 then { s with evt := { s.evt with fwd := s.evt.fwd ++ [e] } }
  else match fwdCoalesce e s.evt.fwd with
    | some l => { s with evt := { s.evt with fwd := l } }
    | none => s.bump Reg.EVT_FWD_SKIP 1

/-- The head of the forwarding buffer becomes a message once no event message waits on the parent link. -/
def State.fwdDrain (s : State) : State :=
  match s.group.parent, s.evt.fwd with
  | some l, e :: rest =>
    if s.armed && s.linkUp l && !(s.link l).txq.any (fun m => m.cls == .event) then
      let f : FwdEvent := { origin := BitVec.ofNat 13 (s.get F.STAND_MEMBERSHIP_MEMBER), stamp := e.stamp, code := BitVec.ofNat 16 e.code,
                            sev := BitVec.ofNat 2 e.sev, page := BitVec.ofNat 10 (e.page / 4096), data0 := e.data0, data1 := e.data1 }
      { s.sendMsg l (.event f) with evt := { s.evt with fwd := rest } }
    else s
  | _, _ => s

/-- A numbered entry goes to its destinations; the MSI-X router takes it at once (R419). -/
def State.evRoute (s : State) (e : EvEntry) : State :=
  let shown := !s.evtMasked e
  let s := if shown && decide (s.get F.EVT_ROUTE_MSI_MIN ≤ e.sev) then
      let v := classOrder e.code - 1
      (s.msixCause v).msixTry v
    else s
  let s := if shown && decide (s.get F.EVT_ROUTE_PLDM_MIN ≤ e.sev) then s.toPldm e else s
  let s := s.toCanopy e
  if s.armed && !s.isLead && s.flag F.EVT_ROUTE_FWD_EN && decide (s.get F.EVT_ROUTE_FWD_MIN ≤ e.sev) then s.toForward e else s

/-- The first entry whose stamp is at least `age` ticks old takes the next sequence number and is routed (R416, R419). -/
def State.evSequence (s : State) (age : Nat) : State :=
  match evFirst (s.evAll.filter (fun e => e.seq.isNone && decide (e.stamp.toNat + age ≤ s.ftime.toNat))) with
  | none => s
  | some e =>
    let n := s.rd Reg.EVT_SEQ
    let e' : EvEntry := { e with seq := some n, msiTaken := true, rlogTaken := e.rlogTaken || decide (e.sev < s.get F.EVT_ROUTE_RLOG_MIN) }
    (((s.evReplace e e').wr Reg.EVT_SEQ (n + 1)).evRoute e').evRelease

/-- EVENT_SEQUENCE: an entry is numbered 64 ticks after its stamp. -/
def execEventSequence (s : State) : Host.Outcome State Fault Refusal := .next (s.evSequence 64)

/-- A forwarded event is relayed unchanged; at the lead it enters the arbiter (R419). -/
def execEventFwdRx (link : Fin 96) (e : FwdEvent) (s : State) : Host.Outcome State Fault Refusal :=
  let s := s.takeInbox link.val (.event e)
  if s.armed then
    if s.isLead then
      let n : EvEntry := { stamp := e.stamp, last := e.stamp.setWidth 32, code := e.code.toNat, sev := e.sev.toNat, page := 4096 * e.page.toNat,
                           remote := true, origin := e.origin.toNat, data0 := e.data0, data1 := e.data1 }
      .next ((s.bumpW Reg.EVT_FWD_RX 1).evtEnter n)
    else match s.group.parent with
      | some p => .next (s.sendMsg p (.event e))
      | none => .next s
  else .next s

/-- INJECT: every accepted write raises EVT.TEST with the value written (R421). -/
def State.injectWrite (s : State) (w : WriteReq) : State :=
  s.gateW Reg.EVT_INJECT w (hostOrCanopy w.req) (fun (s : State) => s.raiseSev P.EVT B.EVT_TEST Evn.EVT_TEST Evn.EVT_TEST.sev (some w.data) none)

def execInject (w : WriteReq) (s : State) : Host.Outcome State Fault Refusal := .next (s.injectWrite w)

end Sys2Proof.Machine
end

