-- ==== Sys2Proof/Machine/Rlog.lean ====
section
/-! DEFINITION. Ringlog, the event recorder (R422 to R433). -/

namespace Sys2Proof.Machine

/-! ## Records (R422 to R424, Table 19.1) -/

/-- A slot of a module fresh from the factory: empty. -/
abbrev slotNew : BitVec 512 := BitVec.allOnes 512

/-- `n` bytes of a record from byte `o`. -/
def recBytes (v : BitVec 512) (o n : Nat) : Nat := v.toNat / 2 ^ (8 * o) % 2 ^ (8 * n)

def slotEmpty (v : BitVec 512) : Bool := decide (recBytes v 0 8 = 2 ^ 64 - 1)

/-- CHECK of a slot's bytes passes. -/
def slotCrc (v : BitVec 512) : Bool := decide (recBytes v 60 4 = crc32c (leBytes 60 (v.toNat % 2 ^ 480)))

/-- The slot holds a record. -/
def slotValid (v : BitVec 512) : Bool := !slotEmpty v && slotCrc v

def slotWseq (v : BitVec 512) : Nat := recBytes v 0 8
def slotSev (v : BitVec 512) : Nat := recBytes v 22 1 % 4

/-- A record's bytes 0 to 59 in 60 bytes, with CHECK. -/
def sealRec (n : Nat) : BitVec 512 := BitVec.ofNat 512 (n % 2 ^ 480 + 2 ^ 480 * crc32c (leBytes 60 (n % 2 ^ 480)))

/-- The record of an entry under write number `w` (Table 19.1). -/
def State.recordOf (s : State) (e : EvEntry) (w : Nat) (eseq : Word) (xdata : Nat) : BitVec 512 :=
  let flags := e.sev + (if e.remote then 4 else 0) + (if e.island then 8 else 0) + (if s.flag F.CLK_STATUS_TIME_VALID then 16 else 0)
  sealRec (w + 2 ^ 64 * e.stamp.toNat + 2 ^ 128 * eseq.toNat + 2 ^ 160 * e.code + 2 ^ 176 * flags + 2 ^ 192 * (e.page / 4096)
    + 2 ^ 208 * e.origin + 2 ^ 224 * e.count + 2 ^ 256 * e.last.toNat + 2 ^ 288 * (s.rd Reg.MODULE_BOOT_COUNT).toNat
    + 2 ^ 320 * e.data0.toNat + 2 ^ 352 * e.data1.toNat + 2 ^ 384 * xdata)

def State.rlogSlot (s : State) (i : Nat) : BitVec 512 := aget slotNew s.rlog.slots i

/-! ## The index (R427, Table 19.4) -/

/-- The valid records, by slot. -/
def State.records (s : State) : List (Nat × BitVec 512) := s.rlog.slots.filter (fun e => slotValid e.2)

/-- The record of lowest write number in a list. -/
def oldestRec : List (Nat × BitVec 512) → Option (Nat × BitVec 512)
  | [] => none
  | e :: es => some (es.foldl (fun m x => if slotWseq x.2 < slotWseq m.2 then x else m) e)

/-- The record of highest write number in a list. -/
def newestRec : List (Nat × BitVec 512) → Option (Nat × BitVec 512)
  | [] => none
  | e :: es => some (es.foldl (fun m x => if slotWseq m.2 < slotWseq x.2 then x else m) e)

/-- CNT_INFO to CNT_CRIT, FREE and NEWEST from the slots. -/
def State.rlogCounts (s : State) : State :=
  let rs := s.records
  let n := fun k => (rs.filter (fun e => decide (slotSev e.2 = k))).length
  let s := (List.range 4).foldl (fun (s : State) k => s.wr (Reg.RLOG_CNT_INFO + 4 * k) (BitVec.ofNat 32 (n k))) s
  let s := s.wr Reg.RLOG_FREE (BitVec.ofNat 32 (65536 - rs.length))
  s.wr Reg.RLOG_NEWEST (BitVec.ofNat 32 (((newestRec rs).map (·.1)).getD 0))

/-- Lowest-numbered slot without a valid record, of `n` from `i`. -/
def State.rlogFree (s : State) (i : Nat) : Nat → Option Nat
  | 0 => none
  | n + 1 => if slotValid (s.rlogSlot i) then s.rlogFree (i + 1) n else some i

/-- The slot for a record of severity `sev`, and whether a record is overwritten (R425). -/
def State.slotFor (s : State) (sev : Nat) : Option (Nat × Bool) :=
  match s.rlogFree 0 65536 with
  | some i => some (i, false)
  | none =>
    let at_ := fun k => s.records.filter (fun e => decide (slotSev e.2 = k))
    match (List.range (sev + 1)).find? (fun k => !(at_ k).isEmpty) with
    | some k => (oldestRec (at_ k)).map (fun e => (e.1, true))
    | none => none

/-- The drop counter of a severity. -/
def dropFld (sev : Nat) : Fld :=
  if sev = 0 then F.RLOG_DROP_LO_INFO else if sev = 1 then F.RLOG_DROP_LO_WARN else if sev = 2 then F.RLOG_DROP_HI_ERR else F.RLOG_DROP_HI_CRIT

/-- A record is dropped: counted, and LOG_DROP raised at the first drop of an episode (R425, R426). -/
def State.rlogDrop (s : State) (sev : Nat) : State :=
  let s := s.bumpF (dropFld sev) 1
  if s.flag F.RLOG_STATUS_DROP_EPISODE then s
  else
    (s.putB F.RLOG_STATUS_DROP_EPISODE true).raiseSev P.RLOG B.RLOG_LOG_DROP Evn.RLOG_LOG_DROP Evn.RLOG_LOG_DROP.sev
      (some (BitVec.ofNat 32 sev)) (some (BitVec.ofNat 32 (s.get (dropFld sev))))

/-- A record goes to its slot under the next write number, or is dropped (R422, R425, R426). -/
def State.rlogPut (s : State) (e : EvEntry) (eseq : Word) (xdata : Nat) : State :=
  match s.slotFor e.sev with
  | none => s.rlogDrop e.sev
  | some (i, ovw) =>
    let w := (s.rd64 Reg.RLOG_NEXT_LO).toNat
    let v := s.recordOf e w eseq xdata
    let s : State := { s with rlog := { s.rlog with slots := aset slotNew s.rlog.slots i v } }
    let s := s.bump64 Reg.RLOG_NEXT_LO 1
    let s := if ovw then s.bump Reg.RLOG_OVERWRITES 1 else s
    (s.putB F.RLOG_STATUS_DROP_EPISODE false).rlogCounts

/-- The numbered entry that Ringlog takes next. -/
def State.rlogNext (s : State) : Option EvEntry :=
  let n := s.rd Reg.EVT_SEQ
  let age := fun (e : EvEntry) => (n - e.seq.getD n).toNat
  match s.evAll.filter (fun e => e.seq.isSome && !e.rlogTaken) with
  | [] => none
  | e :: es => some (es.foldl (fun m x => if age m < age x then x else m) e)

/-- Ringlog takes one entry, except during a clear or the index build (R419, R422). -/
def State.rlogTake (s : State) : State :=
  if s.flag F.RLOG_STATUS_READY && !s.flag F.RLOG_STATUS_CLEAR_BUSY then
    match s.rlogNext with
    | none => s
    | some e => ((s.evReplace e { e with rlogTaken := true }).evRelease).rlogPut e (e.seq.getD 0) 0
  else s

/-- RLOG_WRITE. -/
def execRlogWrite (s : State) : Host.Outcome State Fault Refusal := .next s.rlogTake

/-! ## Clearing (R431, R432) -/

/-- Whether a clear removes a record. -/
def RlogClear.removes (c : RlogClear) (v : BitVec 512) : Bool :=
  slotValid v && decide (recBytes v 20 2 ≠ Evn.RLOG_LOG_CLEARED.code)
    && (if c.scope = 1 then decide (slotSev v ≤ c.arg.toNat) else decide (recBytes v 36 4 < c.arg.toNat))

/-- An emptied slot: bytes 0 to 7 all ones; no rule gives the others. -/
def emptied (v : BitVec 512) : BitVec 512 := sealRec (2 ^ 64 - 1 + 2 ^ 64 * (Config.emptiedSlot v).toNat)

/-- The clear is carried out: slots emptied, LOG_CLEARED written, and the pending mark removed (R432). -/
def State.clearFinish (s : State) (c : RlogClear) : State :=
  let n := (s.rlog.slots.filter (fun e => c.removes e.2)).length
  let slots := (s.rlog.slots.map (fun e => (e.1, if c.removes e.2 then emptied e.2 else e.2))).filter (fun e => decide (e.2 ≠ slotNew))
  let s : State := { s with rlog := { s.rlog with slots := slots, clear := none } }
  let s := s.wr Reg.RLOG_OVERWRITES 0
  let s := if c.scope = 1 then (List.range 4).foldl (fun (s : State) k => if k ≤ c.arg.toNat then s.put (dropFld k) 0 else s) s else s
  let d1 := BitVec.ofNat 32 (c.scope + (if c.cut then 256 else 0) + 65536 * c.slot)
  let e : EvEntry := { stamp := s.ftime, last := s.ftime.setWidth 32, code := Evn.RLOG_LOG_CLEARED.code, sev := 3, page := P.RLOG, data0 := c.arg, data1 := d1,
                       rlogTaken := true }
  let s := s.rlogPut e 0xFFFFFFFF n
  let s := ((s.putB F.RLOG_STATUS_CLEAR_BUSY false).putB F.RLOG_STATUS_CLEAR_RESUMED c.cut).bump Reg.RLOG_CLEARS 1
  (s.putB ⟨Hdr.EVT_SUMMARY P.RLOG, B.RLOG_LOG_CLEARED, 1⟩ true).evtEnter e

/-- Whether GO is accepted (R431). -/
def State.clearOk (s : State) (scope : Nat) : Bool :=
  let arg := s.rd Reg.RLOG_CLEAR_ARG
  (decide (s.mod.mstate = .ready) || decide (s.mod.mstate = .service)) && !s.flag F.RLOG_STATUS_CLEAR_BUSY
    && ((decide (scope = 1) && decide (arg.toNat ≤ 3) && s.hasToken 0x04 arg) || (decide (scope = 2) && s.hasToken 0x05 arg))

/-- A write of CLEAR (R431, R432). -/
def State.rlogClearWrite (s : State) (w : WriteReq) : State :=
  let scope := F.RLOG_CLEAR_SCOPE.of w.data
  let go := F.RLOG_CLEAR_GO.of w.data = 1
  s.gateW Reg.RLOG_CLEAR w (hostOrCanopy w.req && (!go || s.clearOk scope)) (fun (s : State) =>
    let s := s.put F.RLOG_CLEAR_SCOPE scope
    if go then
      let slot := ((s.sec.token.map (fun t => t.signer)).getD 1) - 1
      let c : RlogClear := { scope := scope, arg := s.rd Reg.RLOG_CLEAR_ARG, slot := slot }
      { s.consumeToken.putB F.RLOG_STATUS_CLEAR_BUSY true with rlog := { s.rlog with clear := some c } }
    else s)

def execRlogClear (w : WriteReq) (s : State) : Host.Outcome State Fault Refusal := .next (s.rlogClearWrite w)

def execRlogClearDone (s : State) : Host.Outcome State Fault Refusal :=
  match s.rlog.clear with
  | some c => .next (if s.flag F.RLOG_STATUS_CLEAR_BUSY then s.clearFinish c else s)
  | none => .next s

/-! ## Start (R419, R427) -/

/-- The index build begins at entry to BRINGUP: the arbiter accepts no event (R419, R427). -/
def State.indexBegin (s : State) : State :=
  { (s.putB F.RLOG_STATUS_READY false) with evt := { s.evt with building := true } }

/-- Held events pass through the queue in stamp order (R419). -/
def State.releaseHeld (s : State) : State :=
  let sorted := s.evt.held.foldl (fun (acc : List EvEntry) e => acc.filter (fun x => !evBefore e x) ++ [e] ++ acc.filter (fun x => evBefore e x)) []
  sorted.foldl (fun (s : State) e => s.evtEnter e) { s with evt := { s.evt with held := [] } }

/-- RLOG_INDEX_DONE: the index is complete, a clear that power loss cut off is finished, and held events enter the arbiter (R419, R427). -/
def execRlogIndexDone (s : State) : Host.Outcome State Fault Refusal :=
  if s.evt.building then
    let torn := (s.rlog.slots.filter (fun e => !slotEmpty e.2 && !slotCrc e.2)).length
    let next := ((newestRec s.records).map (fun e => slotWseq e.2 + 1)).getD 0
    let s : State := { s with evt := { s.evt with building := false } }
    let s := (List.range torn).foldl (fun (s : State) _ => s.errInc P.RLOG) s
    let s := ((s.wr64 Reg.RLOG_NEXT_LO (BitVec.ofNat 64 next)).rlogCounts).putB F.RLOG_STATUS_READY true
    let s := match s.rlog.clear with
      | some c => s.clearFinish { c with cut := true }
      | none => s
    .next s.releaseHeld
  else .next s

/-! ## Reading (R428) -/

def State.rlogSelOf (s : State) (r : Req) : RlogSel := aget {} s.rlog.sels (reqIdent r).toNat
def State.setRlogSel (s : State) (r : Req) (x : RlogSel) : State := { s with rlog := { s.rlog with sels := aset {} s.rlog.sels (reqIdent r).toNat x } }

/-- Slot `i` is copied into a requester's window (R428). -/
def State.rlogCopy (s : State) (x : RlogSel) (i : Nat) : RlogSel :=
  let v := s.rlogSlot i
  { x with status := BitVec.ofNat 32 (i + 65536 + (if slotCrc v then 131072 else 0) + (if slotEmpty v then 262144 else 0)), win := v,
           check := BitVec.ofNat 64 (slotWseq v) }

/-- A write of SEL: every requester may make it, on its own selection (R428, R433). -/
def State.rlogSelWrite (s : State) (w : WriteReq) : State :=
  s.gateW Reg.RLOG_SEL w true (fun (s : State) =>
    let i := w.data.toNat % 65536
    s.setRlogSel w.req (s.rlogCopy { s.rlogSelOf w.req with sel := BitVec.ofNat 32 i } i))

/-- A write of SEEK_HI: the seek (R35, R428). -/
def State.rlogSeekWrite (s : State) (w : WriteReq) : State :=
  s.gateW Reg.RLOG_SEEK_HI w true (fun (s : State) =>
    let x := s.rlogSelOf w.req
    let lo := (aget none (s.reqCtx w.req).heldLo Reg.RLOG_SEEK_LO).getD x.seekLo
    let x := { x with seekLo := lo, seekHi := w.data }
    let from_ := (w.data ++ lo : Dword).toNat
    let x := match oldestRec (s.records.filter (fun e => decide (from_ ≤ slotWseq e.2))) with
      | some e => s.rlogCopy x e.1
      | none => { x with status := setBits x.status 16 1 0 }
    (s.dropLo w.req Reg.RLOG_SEEK_LO).setRlogSel w.req x)

def execRlogSel (w : WriteReq) (s : State) : Host.Outcome State Fault Refusal := .next (s.rlogSelWrite w)
def execRlogSeek (w : WriteReq) (s : State) : Host.Outcome State Fault Refusal := .next (s.rlogSeekWrite w)

/-- What a requester reads of its selection at page offset `o`. -/
def State.rlogSelRead (s : State) (r : Req) (o : Nat) : Option Word :=
  let x := s.rlogSelOf r
  if o = 0x70 then some x.sel else if o = 0x74 then some x.seekLo else if o = 0x78 then some x.seekHi else if o = 0x7C then some x.status
  else if 0x80 ≤ o ∧ o < 0xC0 then some (BitVec.ofNat 32 (recBytes x.win (o - 0x80) 4))
  else if o = 0xC0 then some (x.check.setWidth 32) else if o = 0xC4 then some ((x.check >>> 32).setWidth 32) else none

/-! ## The side-band (R430, Table 19.2) -/

/-- Side-band STATUS. -/
def execRlogStatus (smbus : Bool) (s : State) : Host.Outcome State Fault Refusal :=
  .next (s.sideRx smbus (fun (s : State) =>
    s.sideReply smbus (.msg .success (s.regBytes Reg.RLOG_CNT_INFO 5 ++ s.regBytes Reg.RLOG_DROP_LO 2 ++ s.regBytes Reg.RLOG_NEXT_LO 2))))

/-- Records in ascending write number, up to `n` of them. -/
def recSorted : Nat → List (Nat × BitVec 512) → List (BitVec 512)
  | 0, _ => []
  | n + 1, l => match oldestRec l with
    | none => []
    | some e => e.2 :: recSorted n (l.filter (fun x => decide (x.1 ≠ e.1)))

/-- Side-band READ: up to four records at or above a write number and a severity. A copy here is never rewritten under its reader, so that
no record is BAD. -/
def execRlogRead (smbus : Bool) (start : Dword) (max sevMin : BitVec 8) (s : State) : Host.Outcome State Fault Refusal :=
  .next (s.sideRx smbus (fun (s : State) =>
    if max.toNat = 0 ∨ 4 < max.toNat ∨ 3 < sevMin.toNat then s.sideReply smbus (.msg .invalidData [])
    else
      let rs := recSorted max.toNat (s.records.filter (fun e => decide (start.toNat ≤ slotWseq e.2) && decide (sevMin.toNat ≤ slotSev e.2)))
      let next := match rs.getLast? with
        | some v => if rs.length = max.toNat then slotWseq v + 1 else (s.rd64 Reg.RLOG_NEXT_LO).toNat
        | none => (s.rd64 Reg.RLOG_NEXT_LO).toNat
      s.sideReply smbus (.msg .success (leBytes 1 rs.length ++ leBytes 1 0 ++ leBytes 8 next ++ rs.flatMap (fun v => leBytes 64 v.toNat)))))

end Sys2Proof.Machine
end

