-- ==== Sys2Proof/Machine/Sample.lean ====
section
/-! DEFINITION. The sampling unit (R292, R293, R296). -/

namespace Sys2Proof.Machine

/-! ## The algorithm of R293 -/

/-- The correctly rounded quotient of two values with a finite nonzero divisor (RNE). -/
def divF32 (a b : Word) : Word :=
  match valF32 a, valF32 b with
  | .nan, _ => nanF32
  | _, .nan => nanF32
  | .inf _, .inf _ => nanF32
  | .inf s, .fin t _ _ => infF32 (s != t)
  | .fin s _ _, .inf t => zeroF32 (s != t)
  | .fin s m e, .fin t n f =>
    if n = 0 then (if m = 0 then nanF32 else infF32 (s != t))
    else if m = 0 then zeroF32 (s != t)
    else
      let x := m * 2 ^ 64
      roundF32 0 0 (s != t) (2 * (x / n) + (if x % n = 0 then 0 else 1)) (e - f - 65)

/-- An unsigned integer divided by 2^k, in binary32 (RNE). -/
def uintF32 (n k : Nat) : Word := roundF32 0 0 false n (-(k : Int))

/-- a < b, false when either is NaN. -/
def ltF32 (a b : Word) : Bool := (ltVal (valF32 a) (valF32 b)).getD false

/-- Minus infinity. -/
abbrev negInfF32 : Word := 0xFF800000

/-- 32-bit words and 16-bit half-words of lines in order. -/
def lineWords (v : Line) : List Word := (List.range 16).map (fun i => (v >>> (32 * i)).setWidth 32)
def lineHalfWords (v : Line) : List Nat := (List.range 32).map (fun i => v.toNat / 2 ^ (16 * i) % 65536)

/-- The logits of the stream's lines in FP32; a NaN becomes −infinity. The Bool says whether one did (step 1). -/
def logitsOf (lfmt vocab : Nat) (ls : List Line) : List Word × Bool :=
  let raw := if lfmt = 1 then ls.flatMap (fun v => (lineHalfWords v).map (fun c => toF32 (decodeElem fmtBF16 c)))
    else ls.flatMap lineWords
  let raw := raw.take vocab
  (raw.map (fun x => if valF32 x = .nan then negInfF32 else x), raw.any (fun x => decide (valF32 x = .nan)))

/-- The repetition penalty (step 2). -/
def penalise (pen : Nat) (ids : List Nat) (xs : List Word) : List Word :=
  if pen = 0 then xs
  else
    let th := uintF32 pen 10
    xs.zipIdx.map (fun p => if ids.contains p.2 then (if ltF32 0 p.1 then divF32 p.1 th else mulF32 p.1 th) else p.1)

/-- Inserts a candidate into a list in descending order, after its equals, keeping the first k. -/
def topInsert (c : Word × Nat) : List (Word × Nat) → List (Word × Nat)
  | [] => [c]
  | d :: ds => if ltF32 d.1 c.1 then c :: d :: ds else d :: topInsert c ds

/-- The k largest entries in descending order, ties taken lowest index first (step 5). -/
def topK (k : Nat) (xs : List Word) : List (Word × Nat) := xs.zipIdx.foldl (fun a c => (topInsert c a).take k) []

/-- The running sums s_j (step 6). -/
def runningSums : Word → List Word → List Word
  | _, [] => []
  | s, w :: ws => addF32 s w :: runningSums (addF32 s w) ws

/-- sample_rand (R293). -/
def sampleRand (seed stream : Dword) (position : Word) : Nat :=
  let h := mix (seed ^^^ 0x3C6EF37200000000)
  let h := mix (h ^^^ stream)
  let h := mix (h ^^^ position.setWidth 64)
  h.toNat % 2 ^ 32

/-- Steps 6 to 8: the token chosen among the candidates. -/
def chooseToken (cs : List (Word × Nat)) (topP : Nat) (rnd : Nat) : Nat :=
  match cs with
  | [] => 0
  | c0 :: _ =>
    if c0.1 = negInfF32 then c0.2
    else
      let ws := cs.map (fun c => exp2F32 (mulF32 (subF32 c.1 c0.1) 0x3FB8AA3B))
      let ss := runningSums 0 ws
      let total := ss.getLastD 0
      let m := if topP = 0 then cs.length
        else
          let t := mulF32 (uintF32 topP 16) total
          match ss.findIdx? (fun s => !ltF32 s t && decide (valF32 s ≠ .nan)) with
          | some i => i + 1
          | none => cs.length
      let t := mulF32 (mulF32 (uintF32 rnd 0) 0x2F800000) (ss.getD (m - 1) 0)
      match ((cs.zip ss).take m).find? (fun p => ltF32 t p.2) with
      | some p => p.1.2
      | none => (cs.getD (m - 1) c0).2

/-- What the unit finds for one stream: TOKEN, GREEDY, CLAMPED and NAN_SEEN. -/
structure SampleOut where
  token   : Nat
  greedy  : Bool
  clamped : Bool
  nanSeen : Bool
  deriving DecidableEq, Repr

/-- R293 over a stream: header line, history lines and logit lines. -/
def sampleStreamOut (vocab lfmt hlines : Nat) (header : Line) (hist logits : List Line) : SampleOut :=
  let h := header.toNat
  let tempQ := h / 2 ^ 192 % 65536
  let topP := h / 2 ^ 208 % 65536
  let topKQ := h / 2 ^ 224 % 65536
  let pen := h / 2 ^ 240 % 65536
  let win := h / 2 ^ 288 % 2 ^ 32
  let x := logitsOf lfmt vocab logits
  let ids := ((hist.flatMap lineWords).take (min win (16 * hlines))).map (fun w => w.toNat)
  let xs := penalise pen (ids.filter (fun i => decide (i < vocab))) x.1
  if tempQ = 0 then
    { token := ((topK 1 xs).headD (0, 0)).2, greedy := true, clamped := false, nanSeen := x.2 }
  else
    let xs := xs.map (fun v => divF32 v (uintF32 tempQ 10))
    let k := min (if topKQ = 0 then 256 else topKQ) vocab
    let rnd := sampleRand ((header >>> 64).setWidth 64) ((header >>> 128).setWidth 64) ((header >>> 32).setWidth 32)
    { token := chooseToken (topK (min k 256) xs) topP rnd, greedy := false,
      clamped := decide (256 < k) || decide (1024 < win), nanSeen := x.2 }

/-! ## The unit -/

/-- Logit lines of a stream, V (R292). -/
def State.sampleV (s : State) : Nat :=
  let vocab := s.get F.SAMPLE_CFG_VOCAB
  if s.get F.SAMPLE_CFG_LFMT = 1 then vocab / 32 else vocab / 16

/-- Lines of a stream: header, history and logits. -/
def State.sampleLines (s : State) : Nat := 1 + s.get F.SAMPLE_CFG_HLINES + s.sampleV

/-- The unit takes a whole stream that the crossbar has delivered (R292). -/
def execSampleStream (s : State) : Host.Outcome State Fault Refusal :=
  if s.fn P.SAMPLE = fnReady ∧ s.stepActive ∧ s.sample.stream.isNone ∧ s.sampleLines ≤ s.sample.inbuf.length then
    let n := s.sampleLines
    .next ({ s with sample := { s.sample with stream := some (s.sample.inbuf.take n), inbuf := s.sample.inbuf.drop n } }.putB
      F.SAMPLE_STATUS_BUSY true)
  else .next s

/-- The result line (R292): TOKEN, POSITION from the header, and the three flags. -/
def sampleLine (o : SampleOut) (header : Line) : Line :=
  BitVec.ofNat 512 (o.token + 2 ^ 32 * (header.toNat / 2 ^ 32 % 2 ^ 32)
    + 2 ^ 64 * ((if o.greedy then 1 else 0) + (if o.clamped then 2 else 0) + (if o.nanSeen then 4 else 0)))

/-- The result leaves the unit (R292, R293, R296). -/
def execSampleResult (s : State) : Host.Outcome State Fault Refusal :=
  match s.sample.stream with
  | some (header :: rest) =>
    let hl := s.get F.SAMPLE_CFG_HLINES
    let o := sampleStreamOut (s.get F.SAMPLE_CFG_VOCAB) (s.get F.SAMPLE_CFG_LFMT) hl header (rest.take hl) (rest.drop hl)
    let s := { s with sample := { s.sample with stream := none, outbuf := s.sample.outbuf ++ [sampleLine o header] } }
    let s := (s.putB F.SAMPLE_STATUS_BUSY false).bump64 Reg.SAMPLE_STREAMS_LO 1
    let s := if o.nanSeen then (s.bump Reg.SAMPLE_NAN_COUNT 1).raise P.SAMPLE B.SAMPLE_SAMPLE_NAN Evn.SERVICE_SAMPLE_NAN else s
    .next (if o.clamped then (s.bump Reg.SAMPLE_CLAMP_COUNT 1).raise P.SAMPLE B.SAMPLE_SAMPLE_CLAMP Evn.SERVICE_SAMPLE_CLAMP else s)
  | _ => .next s

/-- The known-answer test passes: READY (R296). -/
def State.sampleStarted (s : State) : State := (s.putB F.SAMPLE_STATUS_KAT_PASS true).setFn P.SAMPLE fnReady

/-- The known-answer test fails: FAULT, SERVICE.SAMPLE_FAULT and a Deadwood entry (R296). -/
def State.sampleStartFailed (s : State) : State :=
  let s := (s.putB F.SAMPLE_STATUS_KAT_PASS false).toFault P.SAMPLE
  (s.raise P.SAMPLE B.SAMPLE_SAMPLE_FAULT Evn.SERVICE_SAMPLE_FAULT).dwAdd dwSample 0 0 Evn.SERVICE_SAMPLE_FAULT.code 2

end Sys2Proof.Machine
end

