-- ==== Sys2Proof/Machine/Fluid.lean ====
section
/-! DEFINITION. Pumps, zone valves, valve banks and isolation valves (R301 to R313, R319, R320). -/

namespace Sys2Proof.Machine

/-! ## Which command drives an actuator (R301, Table 13.3) -/

/-- The leak latch is set (rank 1). -/
def State.leakLatched (s : State) : Bool := s.flag F.COOLANT_LEAK_INFO_LATCHED

/-- Power absent: module state STANDBY or TRIPPED, or the 48 V conversion is off (rank 2). -/
def State.powerAbsent (s : State) : Bool := decide (s.mod.power = .standby)

/-- Autonomous table mode is in force (rank 4). -/
def State.tableMode (s : State) : Bool := s.flag F.GLADE_STATUS_TABLE_MODE

/-- The table entry in force (R354). -/
def State.tmEntry (s : State) : Nat := s.get F.GLADE_TM_STATE_ENTRY

/-- The writers of SETn, CTLn and SETv (R319, R320). -/
def actuatorWriter (r : Req) : Bool := r == .glade || hostOrCanopy r

/-! ## Pumps (R302 to R307) -/

abbrev psOff : Nat := 0
abbrev psStarting : Nat := 1
abbrev psRunning : Nat := 2
abbrev psStopping : Nat := 3
abbrev psRetry : Nat := 4
abbrev psFailed : Nat := 5

def State.pstate (s : State) (n : Nat) : Nat := s.get (F.PUMP_ST_PSTATE n)

/-- Whether STATUS.FORCED names a pump. -/
def State.pumpForced (s : State) (n : Nat) : Bool := s.flag ⟨Reg.PUMP_STATUS, 6 + n, 1⟩

/-- The applied code of a pump whose regulator is on; none while it is off (Table 13.3, R303). -/
def State.pumpCode (s : State) (n : Nat) : Option Nat :=
  if s.pstate n = psStarting then some 0x55
  else if s.pstate n = psRunning then
    some (if s.pumpForced n then 0xFF
      else if s.tableMode then s.get (F.GLADE_TM_ENTRY_LO_PUMP_CODE s.tmEntry)
      else s.get (F.PUMP_SET_CODE n))
  else none

/-- The regulator's output in mV for a code (R302). -/
def pumpMv (code : Nat) : Nat := 6000 + code * 18000 / 255

/-- APPLIED and the regulator's output follow the applied code. -/
def State.pumpApply (s : State) (n : Nat) : State :=
  match s.pumpCode n with
  | some c => (s.put (F.PUMP_ST_APPLIED n) c).put ⟨Reg.PUMP_MEAS n, 0, 16⟩ (pumpMv c)
  | none => (s.put (F.PUMP_ST_APPLIED n) 0).wr (Reg.PUMP_MEAS n) 0

/-- A pump is in service (R305). -/
def State.pumpInService (s : State) (n : Nat) : Bool :=
  decide (s.pstate n = psStarting) || decide (s.pstate n = psRunning) || decide (s.pstate n = psRetry)

/-- STATUS.INSUFFICIENT and its event at each change from 0 to 1 (R305). -/
def State.pumpSuff (s : State) : State :=
  let n := ((List.range 3).filter (fun n => s.pumpInService n)).length
  let b := decide (n < 2) && !s.leakLatched && !s.powerAbsent
  if b && !s.flag F.PUMP_STATUS_INSUFFICIENT then
    (s.putB F.PUMP_STATUS_INSUFFICIENT true).raise P.PUMP B.PUMP_PUMP_INSUFFICIENT Evn.FLUID_PUMP_INSUFFICIENT
  else s.putB F.PUMP_STATUS_INSUFFICIENT b

/-- Ticks in one hour (R42). -/
abbrev ticksHour : Nat := 3600000 * ticksMs

/-- A pump's lifetime running hours now (HOURSn); they saturate. -/
def State.pumpHours (s : State) (n : Nat) : Nat :=
  let t := aget {} s.fluid.ran n
  min ((t.acc + (if s.pstate n = psRunning then s.now - t.base else 0)) / ticksHour) 0xFFFFFFFF

/-- A pump changes state: STn, STATUS, its applied code and running time follow. -/
def State.pumpSet (s : State) (n st : Nat) : State :=
  let old := s.pstate n
  if old = st then s
  else
    let t := aget {} s.fluid.ran n
    let ran := if st = psRunning then aset {} s.fluid.ran n { t with base := s.now }
      else if old = psRunning then aset {} s.fluid.ran n { t with acc := t.acc + (s.now - t.base) } else s.fluid.ran
    let s : State := { s with fluid := { s.fluid with ran := ran } }
    let s : State := s.put (F.PUMP_ST_PSTATE n) st
    let s : State := (s.putB ⟨Reg.PUMP_STATUS, n, 1⟩ (decide (st = psRunning))).putB ⟨Reg.PUMP_STATUS, 3 + n, 1⟩ (decide (st = psFailed))
    (s.pumpApply n).wr (Reg.PUMP_HOURS n) (BitVec.ofNat 32 (s.pumpHours n))

/-- A start attempt (R303). -/
def State.pumpAttempt (s : State) (n : Nat) : State := (s.bumpW (Reg.PUMP_STARTS n) 1).pumpSet n psStarting

/-- A pump starts unless rank 1 or 2 of Table 13.3 holds it off. -/
def State.pumpStart (s : State) (n : Nat) : State :=
  if s.leakLatched || s.powerAbsent then s else ((s.put (F.PUMP_ST_ATTEMPT n) 0).pumpAttempt n).pumpSuff

/-- A pump stops at once; a FAILED one stays so (R306, R307, R393). -/
def State.pumpHalt (s : State) (n : Nat) : State :=
  let s := s.putB (F.PUMP_ST_PENDING_EN n) false
  if s.pstate n = psFailed then s else s.pumpSet n psOff

/-- PUMP_EN takes effect (R303, R306, R319). -/
def State.pumpEnable (s : State) (n : Nat) : State :=
  if s.fn P.PUMP ≠ fnReady then s
  else if s.pstate n = psOff then s.pumpStart n
  else if s.pstate n = psStopping then s.putB (F.PUMP_ST_PENDING_EN n) true
  else s

/-- PUMP_DIS takes effect (R306, R307). -/
def State.pumpDisable (s : State) (n : Nat) : State :=
  if s.pstate n = psStarting ∨ s.pstate n = psRunning then
    ((s.putB ⟨Reg.PUMP_STATUS, 6 + n, 1⟩ false).pumpSet n psStopping).pumpSuff
  else if s.pstate n = psStopping then s.putB (F.PUMP_ST_PENDING_EN n) false
  else if s.pstate n = psRetry then (s.pumpHalt n).pumpSuff
  else s

/-- A write of CTLn; PUMP_DIS wins over PUMP_EN, as R24 has it (R306, R316, R319). -/
def State.pumpCtlWrite (s : State) (n : Nat) (w : WriteReq) : State :=
  let en := (F.PUMP_CTL_PUMP_EN n).of w.data = 1
  let dis := (F.PUMP_CTL_PUMP_DIS n).of w.data = 1
  s.gateW (Reg.PUMP_CTL n) w (actuatorWriter w.req && !(decide en && s.leakLatched)) (fun s =>
    if dis then s.pumpDisable n else if en then s.pumpEnable n else s)

def execPumpEn (n : Fin 3) (req : Req) (s : State) : Host.Outcome State Fault Refusal :=
  .next (s.pumpCtlWrite n.val { req := req, data := 1, be := 15 })
def execPumpDis (n : Fin 3) (req : Req) (s : State) : Host.Outcome State Fault Refusal :=
  .next (s.pumpCtlWrite n.val { req := req, data := 2, be := 15 })

/-- A write of SETn: stored, and applied where no higher source is in force (R301, R319). -/
def State.pumpSetWrite (s : State) (n : Nat) (w : WriteReq) : State :=
  s.gateW (Reg.PUMP_SET n) w (actuatorWriter w.req) (fun s => (s.put (F.PUMP_SET_CODE n) ((F.PUMP_SET_CODE n).of w.data)).pumpApply n)

/-- Values of LIMITS within their ranges (Table 13.8). -/
def pumpLimitsOk (v : Word) : Bool :=
  let lo := F.PUMP_LIMITS_I_MIN.of v
  let hi := F.PUMP_LIMITS_I_MAX.of v
  let p := F.PUMP_LIMITS_TACH_LOW_PCT.of v
  decide (1 ≤ lo) && decide (lo ≤ 50) && decide (60 ≤ hi) && decide (hi ≤ 150) && decide (10 ≤ p) && decide (p ≤ 90)

/-- A write of PUMP.LIMITS (R319). -/
def State.pumpLimitsWrite (s : State) (w : WriteReq) : State :=
  s.gateW Reg.PUMP_LIMITS w (isCanopy w.req && pumpLimitsOk w.data) (fun s => s.wr Reg.PUMP_LIMITS (w.data &&& 0xFFFFFF))

/-- Glade takes in a pump's filtered speed and current when both are in their ranges (R302, R347); a powered module only. -/
def State.pumpSample (s : State) (n : Nat) (rpm ma : BitVec 16) : Option State :=
  if s.powerAbsent then none
  else if rpm.toNat ≤ 10000 ∧ ma.toNat ≤ 1500 then
    let s : State := s.put ⟨Reg.PUMP_TACH n, 0, 16⟩ rpm.toNat
    let s : State := s.put ⟨Reg.PUMP_MEAS n, 16, 16⟩ (if (s.pumpCode n).isSome then ma.toNat else 0)
    some (s.putB ⟨Reg.GLADE_INPUT_VALID, 9 + n, 1⟩ true)
  else none

/-- PUMP_START_OK: a starting pump has reached 750 rpm (R303). -/
def execPumpStartOk (n : Fin 3) (rpm ma : BitVec 16) (s : State) : Host.Outcome State Fault Refusal :=
  match s.pumpSample n.val rpm ma with
  | some s => .next (if s.pstate n.val = psStarting ∧ 750 ≤ rpm.toNat then s.pumpSet n.val psRunning else s)
  | none => .next s

/-- A pump fails: its regulator is off, and it is counted and named in Deadwood (R303, R304). -/
def State.pumpFail (s : State) (n bit : Nat) (ev : EvKind) : State :=
  let s := (s.putB (F.PUMP_ST_PENDING_EN n) false).putB ⟨Reg.PUMP_STATUS, 6 + n, 1⟩ false
  (((s.pumpSet n psFailed).errInc P.PUMP).raise P.PUMP bit ev).dwAdd dwPump n 0 ev.code 5

/-- PUMP_START_TIMEOUT: an attempt has failed after 1.5 s (R303). -/
def execPumpStartTimeout (n : Fin 3) (rpm ma : BitVec 16) (s : State) : Host.Outcome State Fault Refusal :=
  let s := (s.pumpSample n.val rpm ma).getD s
  if s.pstate n.val = psStarting ∧ rpm.toNat < 750 then
    let k := s.get (F.PUMP_ST_ATTEMPT n.val)
    if k < 3 then
      .next (((s.pumpSet n.val psRetry).put (F.PUMP_ST_ATTEMPT n.val) (k + 1)).raise P.PUMP B.PUMP_PUMP_START_RETRY Evn.FLUID_PUMP_START_RETRY)
    else .next (s.pumpFail n.val B.PUMP_PUMP_START_FAIL Evn.FLUID_PUMP_START_FAIL).pumpSuff
  else .next s

/-- PUMP_RETRY: RETRY_WAIT ends with the next attempt (R303). -/
def execPumpRetry (n : Fin 3) (s : State) : Host.Outcome State Fault Refusal :=
  .next (if s.pstate n.val = psRetry then s.pumpAttempt n.val else s)

/-- Every other RUNNING pump goes to code 0xFF at once (R305). -/
def State.pumpForce (s : State) (n : Nat) : State :=
  [0, 1, 2].foldl (fun (s : State) m =>
    if m ≠ n ∧ s.pstate m = psRunning then (s.putB ⟨Reg.PUMP_STATUS, 6 + m, 1⟩ true).pumpApply m else s) s

/-- Whether a speed is below TACH_LOW_PCT of the expected speed of 250 rpm per volt at the applied code (R302, R304). -/
def State.pumpLow (s : State) (n rpm : Nat) : Bool :=
  decide (rpm * 255 * 100 < 250 * (6 * 255 + s.get (F.PUMP_ST_APPLIED n) * 18) * s.get F.PUMP_LIMITS_TACH_LOW_PCT)

/-- PUMP_CHECK: a speed and current that have held for 500 ms are acted on (R304, Table 13.4). -/
def execPumpCheck (n : Fin 3) (rpm ma : BitVec 16) (s : State) : Host.Outcome State Fault Refusal :=
  match s.pumpSample n.val rpm ma with
  | none => .next s
  | some s =>
    if s.pstate n.val ≠ psRunning then .next s
    else
      let low := s.pumpLow n.val rpm.toNat
      let inr := decide (s.get F.PUMP_LIMITS_I_MIN * 10 ≤ ma.toNat) && decide (ma.toNat ≤ s.get F.PUMP_LIMITS_I_MAX * 10)
      let lost := s.flag (F.PUMP_ST_TACH_LOST n.val)
      if !inr && (low || lost) then
        .next (((s.pumpFail n.val B.PUMP_PUMP_FAILED Evn.FLUID_PUMP_FAILED).pumpForce n.val).pumpSuff)
      else if low then
        .next (if lost then s else (s.putB (F.PUMP_ST_TACH_LOST n.val) true).raise P.PUMP B.PUMP_TACH_LOST Evn.FLUID_TACH_LOST)
      else if !inr then
        .next (if s.flag (F.PUMP_ST_I_ABNORMAL n.val) then s
          else (s.putB (F.PUMP_ST_I_ABNORMAL n.val) true).raise P.PUMP B.PUMP_PUMP_I_ABNORMAL Evn.FLUID_PUMP_I_ABNORMAL)
      else .next ((s.putB (F.PUMP_ST_TACH_LOST n.val) false).putB (F.PUMP_ST_I_ABNORMAL n.val) false)

/-- PUMP_STOP_DONE: a stopping pump goes to OFF, and starts again where an enable is latched (R306). -/
def execPumpStopDone (n : Fin 3) (rpm ma : BitVec 16) (s : State) : Host.Outcome State Fault Refusal :=
  let s := (s.pumpSample n.val rpm ma).getD s
  if s.pstate n.val = psStopping then
    let pend := s.flag (F.PUMP_ST_PENDING_EN n.val)
    let s : State := (s.putB (F.PUMP_ST_PENDING_EN n.val) false).pumpSet n.val psOff
    .next (if pend then s.pumpStart n.val else s)
  else .next s

/-- Every pump stops as PUMP_DIS stops it (FN_DISABLE of the PUMP page, R306). -/
def State.pumpsDisable (s : State) : State := [0, 1, 2].foldl (fun (s : State) n => s.pumpDisable n) s

/-- Every pump stops at once (R306, R307, Table 13.6). -/
def State.pumpsHalt (s : State) : State := ([0, 1, 2].foldl (fun (s : State) n => s.pumpHalt n) s).pumpSuff

/-- Every pump takes its applied code anew. -/
def State.pumpsApply (s : State) : State := [0, 1, 2].foldl (fun (s : State) n => s.pumpApply n) s

/-- Every pump is OFF or FAILED. -/
def State.pumpsOff (s : State) : Bool := [0, 1, 2].all (fun n => decide (s.pstate n = psOff) || decide (s.pstate n = psFailed))

/-- FN_RESET of the PUMP page: pumps stop at once and block registers go to reset, SETn to 0xAA; a FAILED pump stays FAILED and forcing
lasts to the next start (R305, R306, R393). -/
def State.pumpReset (s : State) : State :=
  let s := s.pumpsHalt
  let keep := s.rd Reg.PUMP_STATUS &&& 0xE38
  let failed := [0, 1, 2].filter (fun n => decide (s.pstate n = psFailed))
  let s := (s.fnResetPage P.PUMP).wr Reg.PUMP_STATUS keep
  failed.foldl (fun (s : State) n => s.put (F.PUMP_ST_PSTATE n) psFailed) s

/-! ## Zone valves and banks (R308 to R312) -/

abbrev vsOff : Nat := 0
abbrev vsWait : Nat := 1
abbrev vsPeak : Nat := 2
abbrev vsHold : Nat := 3
abbrev vsDecay : Nat := 4

def State.vstate (s : State) (v : Nat) : Nat := s.get (F.VALVE_ST_VSTATE v)
def State.valve (s : State) (v : Nat) : ValveSt := aget {} s.fluid.valves v
def State.setValve (s : State) (v : Nat) (x : ValveSt) : State := { s with fluid := { s.fluid with valves := aset {} s.fluid.valves v x } }

/-- Bank `b`'s switch is open (R312). -/
def State.bankOpen (s : State) (b : Nat) : Bool := s.flag ⟨Reg.VALVE_STATUS, 8 + b, 1⟩

/-- The zone valves of a bank (Table 13.1). -/
def bankValves (b : Nat) : List Nat := if b < 6 then [4 * b, 4 * b + 1, 4 * b + 2, 4 * b + 3] else []

/-- The applied hold of a zone valve before bank scaling (Table 13.3; R320 while the page is not READY). -/
def State.valveTarget (s : State) (v : Nat) : Nat :=
  if s.fluid.released || s.powerAbsent then 0
  else if s.tableMode then
    let k := s.tmEntry
    if v < 16 then s.get (F.GLADE_TM_ENTRY_LO_HOLD_GROVE k)
    else if v < 20 then s.get (F.GLADE_TM_ENTRY_HI_HOLD_MEM k) else s.get (F.GLADE_TM_ENTRY_HI_HOLD_LINK k)
  else if s.fn P.VALVE ≠ fnReady then 0
  else s.get (F.VALVE_SET_HOLD v)

/-- A valve's coil current in mA, as commanded. -/
def State.coilMa (s : State) (v : Nat) : Nat :=
  if s.vstate v = vsHold then 5 * s.get (F.VALVE_ST_APPLIED v)
  else if s.vstate v = vsPeak ∨ s.vstate v = vsDecay then (s.valve v).ma else 0

/-- What valve `u` adds to the holds of its bank: its applied hold, or the current it decays from (R309, R311). -/
def State.holdMa (s : State) (u : Nat) : Nat :=
  if s.vstate u = vsHold then 5 * s.get (F.VALVE_ST_APPLIED u) else if s.vstate u = vsDecay then (s.valve u).ma else 0

/-- The other holds of valve `v`'s bank in mA (R309). -/
def State.otherHolds (s : State) (v : Nat) : Nat :=
  ((bankValves (v / 4)).filter (fun u => decide (u ≠ v))).foldl (fun a u => a + s.holdMa u) 0

/-- I_MEAS of a bank's valves and BANKk_I, as commanded. -/
def State.bankMeas (s : State) (b : Nat) : State :=
  let s := (bankValves b).foldl (fun (s : State) u => s.put (F.VALVE_ST_I_MEAS u) (s.coilMa u)) s
  let sum := if b < 6 then (bankValves b).foldl (fun a u => a + s.coilMa u) 0 else if s.fluid.iso.isSome then 2000 else 0
  s.put ⟨Reg.VALVE_BANK_I b, 0, 12⟩ (min sum 4095)

/-- Bank scaling (R311): the holds of valves in HOLD are scaled while the unscaled holds exceed 2.8 A. -/
def State.rescale (s : State) (b : Nat) : State :=
  let vs := bankValves b
  let sum := vs.foldl (fun a u =>
    a + (if s.vstate u = vsHold then 5 * (s.valve u).hold else if s.vstate u = vsDecay then (s.valve u).ma else 0)) 0
  let sat := decide (2800 < sum)
  let s := vs.foldl (fun (s : State) u =>
    if s.vstate u = vsHold then
      s.put (F.VALVE_ST_APPLIED u) (if sat then (s.valve u).hold * 2800 / sum else (s.valve u).hold)
    else s.put (F.VALVE_ST_APPLIED u) 0) s
  let f : Fld := ⟨Reg.VALVE_STATUS, b, 1⟩
  let s : State := if sat && !s.flag f then
      (s.bump Reg.VALVE_SAT_COUNT 1).raise P.VALVE B.VALVE_BANK_SATURATED Evn.FLUID_BANK_SATURATED else s
  (s.putB f sat).bankMeas b

/-- A valve enters WAIT (R309). -/
def State.valveWait (s : State) (v : Nat) : State :=
  { s.put (F.VALVE_ST_VSTATE v) vsWait with fluid := { s.fluid with waiting := s.fluid.waiting.filter (· ≠ v) ++ [v] } }

/-- A valve leaves WAIT. -/
def State.valveUnwait (s : State) (v st : Nat) : State :=
  { s.put (F.VALVE_ST_VSTATE v) st with fluid := { s.fluid with waiting := s.fluid.waiting.filter (· ≠ v) } }

/-- A valve enters DECAY from HOLD or PEAK (Table 13.5). -/
def State.valveDecay (s : State) (v : Nat) : State :=
  let ma := s.coilMa v
  ((s.setValve v { ma := ma }).put (F.VALVE_ST_VSTATE v) vsDecay).putB (F.VALVE_ST_PENDING v) false

/-- A zone valve follows its applied hold (R308, Table 13.5). -/
def State.valveUpdate (s : State) (v : Nat) : State :=
  let t := s.valveTarget v
  let st := s.vstate v
  let s : State :=
    if st = vsOff then (if t ≠ 0 ∧ !s.bankOpen (v / 4) then s.valveWait v else s)
    else if st = vsWait then (if t = 0 then s.valveUnwait v vsOff else s)
    else if st = vsPeak then (if t = 0 then s.valveDecay v else s)
    else if st = vsHold then (if t = 0 then s.valveDecay v else s.setValve v { hold := t })
    else s.putB (F.VALVE_ST_PENDING v) (decide (t ≠ 0))
  s.rescale (v / 4)

/-- Every zone valve follows its applied hold. -/
def State.valvesUpdate (s : State) : State := (List.range 24).foldl (fun (s : State) v => s.valveUpdate v) s

/-- A write of SETv (R308, R316, R320). -/
def State.valveSetWrite (s : State) (v : Nat) (w : WriteReq) : State :=
  let h := (F.VALVE_SET_HOLD v).of w.data
  s.gateW (Reg.VALVE_SET v) w (actuatorWriter w.req && decide (h ≤ 240) && !(decide (h ≠ 0) && s.leakLatched)) (fun s =>
    (s.put (F.VALVE_SET_HOLD v) h).valveUpdate v)

def execValveSet (v : Fin 24) (w : WriteReq) (s : State) : Host.Outcome State Fault Refusal := .next (s.valveSetWrite v.val w)

/-- Valve `v` is the first of its bank to have entered WAIT, and the bank has no valve in PEAK (R309). -/
def State.valveNext (s : State) (v : Nat) : Bool :=
  decide (s.vstate v = vsWait) && decide ((s.fluid.waiting.filter (fun u => u / 4 = v / 4)).head? = some v)
    && !s.bankOpen (v / 4) && (bankValves (v / 4)).all (fun u => decide (s.vstate u ≠ vsPeak))

/-- A peak of `ma` begins (R308, R309). -/
def State.valvePeak (s : State) (v ma : Nat) (late : Bool) : State :=
  (((s.valveUnwait v vsPeak).setValve v { ma := ma }).putB (F.VALVE_ST_LATE v) late).rescale (v / 4)

/-- VALVE_PEAK_START: the bank admits the 2.0 A peak (R309). -/
def execValvePeakStart (v : Fin 24) (s : State) : Host.Outcome State Fault Refusal :=
  .next (if s.valveNext v.val && decide (s.otherHolds v.val ≤ 1200) then s.valvePeak v.val 2000 false else s)

/-- VALVE_START_LATE: a valve that has waited 20 ms starts with a reduced peak (R309). -/
def execValveStartLate (v : Fin 24) (s : State) : Host.Outcome State Fault Refusal :=
  .next (if s.valveNext v.val && decide (1200 < s.otherHolds v.val) then
      ((s.valvePeak v.val (3200 - s.otherHolds v.val) true).bump Reg.VALVE_LATE_COUNT 1).raise P.VALVE B.VALVE_VALVE_START_LATE
        Evn.FLUID_VALVE_START_LATE
    else s)

/-- VALVE_PEAK_END: after 3 ms of peak the valve is in HOLD at its applied hold (R308). -/
def execValvePeakEnd (v : Fin 24) (s : State) : Host.Outcome State Fault Refusal :=
  .next (if s.vstate v.val = vsPeak then
      ((s.setValve v.val { hold := s.valveTarget v.val }).put (F.VALVE_ST_VSTATE v.val) vsHold).rescale (v.val / 4)
    else s)

/-- VALVE_DECAY_END: after 3 ms the valve is OFF, or waits again with PENDING set (R308). -/
def execValveDecayEnd (v : Fin 24) (s : State) : Host.Outcome State Fault Refusal :=
  .next (if s.vstate v.val = vsDecay then
      let pend := s.flag (F.VALVE_ST_PENDING v.val)
      let s : State := (s.setValve v.val {}).putB (F.VALVE_ST_PENDING v.val) false
      let s : State := if pend then s.valveWait v.val else s.put (F.VALVE_ST_VSTATE v.val) vsOff
      s.rescale (v.val / 4)
    else s)

/-- A zone valve loses its current at once. -/
def State.valveKill (s : State) (v : Nat) : State :=
  ((s.setValve v {}).valveUnwait v vsOff).putB (F.VALVE_ST_PENDING v) false

/-- Every valve of a bank loses its current at once. -/
def State.bankKill (s : State) (b : Nat) : State := ((bankValves b).foldl (fun (s : State) v => s.valveKill v) s).rescale b

/-! ## Isolation valves (R310, R313) -/

/-- ISO_STATE of an isolation valve. -/
def isoPos (i : Nat) : Fld := if i = 0 then F.VALVE_ISO_STATE_POS_IN else F.VALVE_ISO_STATE_POS_OUT

/-- The next isolation command pulses its valve, one at a time, when bank B6 is closed and the module has power. -/
def State.isoNext (s : State) : State :=
  match s.fluid.iso, s.fluid.isoQ with
  | none, c :: q =>
    if s.bankOpen 6 || s.powerAbsent then s
    else
      let s : State := { s with fluid := { s.fluid with iso := some c, isoQ := q } }
      (s.put (isoPos c.1) 3).bankMeas 6
  | _, _ => s

/-- An isolation command is accepted. -/
def State.isoCommand (s : State) (i : Nat) (close : Bool) : State :=
  { s with fluid := { s.fluid with isoQ := s.fluid.isoQ ++ [(i, close)] } }.isoNext

/-- A pulse in progress is cut: the position is unknown (R313). Commands behind it are dropped. -/
def State.isoCut (s : State) : State :=
  let s : State := match s.fluid.iso with
    | some c => s.put (isoPos c.1) 0
    | none => s
  { s with fluid := { s.fluid with iso := none, isoQ := [] } }.bankMeas 6

/-- Whether R313, R316 and R320 accept an ISO_CMD write. -/
def State.isoOk (s : State) (req : Req) (v : Word) : Bool :=
  let b := v.toNat % 16
  let close := decide (b / 2 % 2 = 1) || decide (b / 8 = 1)
  !s.leakLatched && decide (b % 4 ≠ 3) && decide (b / 4 ≠ 3)
    && (req == .glade || (isCanopy req && decide (s.fn P.VALVE = fnReady)
      && (decide (s.mod.mstate = .ready) || decide (s.mod.mstate = .halted) || decide (s.mod.mstate = .service))
      && (!close || s.pumpsOff)))

/-- An accepted ISO_CMD write: V24 before V25 (R313). -/
def State.isoAct (s : State) (v : Word) : State :=
  let b := v.toNat % 16
  let s := if b % 4 = 0 then s else s.isoCommand 0 (decide (b % 4 = 2))
  if b / 4 = 0 then s else s.isoCommand 1 (decide (b / 4 = 2))

/-- A write of ISO_CMD (R313). -/
def State.isoWrite (s : State) (w : WriteReq) : State := s.gateW Reg.VALVE_ISO_CMD w (s.isoOk w.req w.data) (fun s => s.isoAct w.data)

def execOpenIn (req : Req) (s : State) : Host.Outcome State Fault Refusal := .next (s.isoWrite { req := req, data := 1, be := 15 })
def execCloseIn (req : Req) (s : State) : Host.Outcome State Fault Refusal := .next (s.isoWrite { req := req, data := 2, be := 15 })
def execOpenOut (req : Req) (s : State) : Host.Outcome State Fault Refusal := .next (s.isoWrite { req := req, data := 4, be := 15 })
def execCloseOut (req : Req) (s : State) : Host.Outcome State Fault Refusal := .next (s.isoWrite { req := req, data := 8, be := 15 })

/-- ISO_MOVED: the pulse completes and ISO_STATE records the position (R313). -/
def execIsoMoved (s : State) : Host.Outcome State Fault Refusal :=
  match s.fluid.iso with
  | some c =>
    let s : State := s.put (isoPos c.1) (if c.2 then 2 else 1)
    let s : State := { s with fluid := { s.fluid with iso := none } }
    .next (((s.raise P.VALVE B.VALVE_ISO_MOVED Evn.FLUID_ISO_MOVED).bankMeas 6).isoNext)
  | none => .next s

/-! ## Bank switches and coils (R312) -/

/-- BANK_FAULT: a bank switch that has carried more than 3.5 A for 1 ms opens; a second trip within 10 s keeps it open. -/
def execBankFault (b : Fin 7) (ma : BitVec 12) (s : State) : Host.Outcome State Fault Refusal :=
  if 3500 < ma.toNat ∧ !s.bankOpen b.val ∧ !s.powerAbsent then
    let again := match aget none s.fluid.tripAt b.val with
      | some t => decide (s.now < t + 10000 * ticksMs)
      | none => false
    let s : State := s.putB ⟨Reg.VALVE_STATUS, 8 + b.val, 1⟩ true
    let q := match s.fluid.iso with
      | some c => if b.val = 6 then c :: s.fluid.isoQ else s.fluid.isoQ
      | none => s.fluid.isoQ
    let s : State := if b.val = 6 then { s.isoCut with fluid := { s.isoCut.fluid with isoQ := q } } else s.bankKill b.val
    let s : State := s.put ⟨Reg.VALVE_BANK_I b.val, 0, 12⟩ 0
    let rec' := if again then s.fluid.reclosing else b.val :: s.fluid.reclosing
    let s : State := { s with fluid := { s.fluid with tripAt := aset none s.fluid.tripAt b.val (some s.now), reclosing := rec' } }
    .next ((s.errInc P.VALVE).raise P.VALVE B.VALVE_BANK_FAULT Evn.FLUID_BANK_FAULT)
  else .next s

/-- BANK_RECLOSE: 100 ms after a first trip the switch closes and each valve restarts from WAIT. -/
def execBankReclose (b : Fin 7) (s : State) : Host.Outcome State Fault Refusal :=
  if s.fluid.reclosing.contains b.val then
    let s : State := { s with fluid := { s.fluid with reclosing := s.fluid.reclosing.filter (· ≠ b.val) } }
    let s : State := s.putB ⟨Reg.VALVE_STATUS, 8 + b.val, 1⟩ false
    let s : State := (bankValves b.val).foldl (fun (s : State) v => s.valveUpdate v) s
    .next (if b.val = 6 then s.isoNext else s)
  else .next s

/-- COIL_FAULT: the coil current of a valve in HOLD has differed from the commanded one by more than 20 % for 50 ms. -/
def execCoilFault (v : Fin 24) (ma : BitVec 12) (s : State) : Host.Outcome State Fault Refusal :=
  let cmd := s.coilMa v.val
  let d := if ma.toNat < cmd then cmd - ma.toNat else ma.toNat - cmd
  if s.vstate v.val = vsHold ∧ cmd < 5 * d then
    let s : State := s.put (F.VALVE_ST_I_MEAS v.val) ma.toNat
    .next (if s.flag (F.VALVE_ST_COIL_FAULT v.val) then s
      else (s.putB (F.VALVE_ST_COIL_FAULT v.val) true).raise P.VALVE B.VALVE_COIL_FAULT Evn.FLUID_COIL_FAULT)
  else .next s

/-- FN_RESET of the VALVE page: every coil is de-energised at once, SETv and the held-open switches reset; the isolation valves stay
where they are (R312, R320). -/
def State.valveReset (s : State) : State :=
  let cut := match s.fluid.iso with
    | some c => s.put (isoPos c.1) 0
    | none => s
  let s : State := (List.range 24).foldl (fun (s : State) v => s.valveKill v) cut
  let st := s.rd Reg.VALVE_STATUS &&& 0x30000
  let s : State := (s.fnResetPage P.VALVE).wr Reg.VALVE_STATUS st
  let s : State := { s with fluid := { s.fluid with iso := none, isoQ := [], tripAt := [], reclosing := [] } }
  s.valvesUpdate

/-! ## Power and table mode -/

/-- Power goes: pumps off, coils without current, a pulse cut (Table 13.3 rank 2, R313). Call with the power state already changed. -/
def State.fluidOff (s : State) : State :=
  let s : State := s.pumpsHalt
  let s : State := (List.range 24).foldl (fun (s : State) v => s.valveKill v) s
  let s : State := (List.range 6).foldl (fun (s : State) b => s.rescale b) s.isoCut
  { s with fluid := { s.fluid with reclosing := [], tripAt := [] } }

/-- Pumps and valves follow their sources anew. -/
def State.fluidApply (s : State) : State := s.pumpsApply.valvesUpdate

end Sys2Proof.Machine
end

