-- ==== Sys2Proof/Machine/Coolant.lean ====
section
/-! DEFINITION. Glade's coolant inputs: range check, median, filter and timeouts (R299, R347), sensor disagreement (R300), table-entry
selection (R354), sudden loss of flow (R350, R351, R479), and leak detection with the leak sequence (R314 to R318). -/

namespace Sys2Proof.Machine

/-! ## One input's stages (R347) -/

/-- The middle one of three values. -/
def median3 (a b c : Int) : Int := max (min a b) (min (max a b) c)

/-- The nearest integer, ties upward. -/
def Frac.round (f : Frac) : Int := (2 * f.num + 2 ^ f.exp) / 2 ^ (f.exp + 1)

/-- y + (m − y) × 2⁻ᵏ, exactly. -/
def Frac.filter (y : Frac) (k : Nat) (m : Int) : Frac :=
  if y.num = m * 2 ^ y.exp then { num := m } else { num := y.num * (2 ^ k - 1) + m * 2 ^ y.exp, exp := y.exp + k }

/-- An accepted sample: it starts the history and the filter afresh, or passes the median of 3 and the filter. -/
def InputSt.accept (x : InputSt) (fresh : Bool) (k : Nat) (r : Int) : InputSt :=
  match x.hist with
  | a :: b :: _ => if fresh then { hist := [r, r, r], y := { num := r } }
      else { hist := [r, a, b], y := x.y.filter k (median3 r a b) }
  | _ => { hist := [r, r, r], y := { num := r } }

/-- The median of the last three accepted samples. -/
def InputSt.median (x : InputSt) : Int :=
  match x.hist with
  | a :: b :: c :: _ => median3 a b c
  | _ => 0

/-- A signed value as 16 register bits. -/
def int16 (x : Int) : Nat := (x % 65536).toNat

/-- 16 register bits as a signed value. -/
def sint16 (x : Nat) : Int := if x < 32768 then x else (x : Int) - 65536

/-- Valid range and filter k of coolant input `i` (Tables 13.2, 15.1): flow, four temperatures, two pressures. -/
def coolantRange (i : Nat) : Int × Int × Nat :=
  if i = 0 then (0, 10000, 4) else if i ≤ 4 then (-1000, 10000, 6) else (-500, 6000, 4)

def State.input (s : State) (i : Nat) : InputSt := aget {} s.coolant.inputs i

/-- The reported value of coolant input `i`. -/
def State.inputY (s : State) (i : Nat) : Int := (s.input i).y.round

/-- INPUT_VALID of coolant input `i`. -/
def State.inputValid (s : State) (i : Nat) : Bool := s.flag ⟨Reg.GLADE_INPUT_VALID, i, 1⟩

/-- Whether a raw reading passes the range check. -/
def rangeOk (i : Nat) (raw : Option Int) : Bool :=
  match raw with
  | some r => decide ((coolantRange i).1 ≤ r) && decide (r ≤ (coolantRange i).2.1)
  | none => false

/-- One raw reading of coolant input `i`: accepted, or discarded (R347). -/
def State.takeInput (s : State) (i : Nat) (raw : Option Int) : State :=
  if rangeOk i raw then
    let x := (s.input i).accept (!s.inputValid i) (coolantRange i).2.2 (raw.getD 0)
    { s.putB ⟨Reg.GLADE_INPUT_VALID, i, 1⟩ true with coolant := { s.coolant with inputs := aset {} s.coolant.inputs i x } }
  else s

/-! ## Reported values (R299, R300) -/

/-- The reading of a pair in use: the higher of the valid ones; none where neither is valid (R300). -/
def State.pairUse (s : State) (a : Nat) : Option Int :=
  if s.inputValid a then
    (if s.inputValid (a + 1) then some (max (s.inputY a) (s.inputY (a + 1))) else some (s.inputY a))
  else if s.inputValid (a + 1) then some (s.inputY (a + 1)) else none

/-- Writes the COOLANT registers from the inputs; an invalid input's register keeps its value. -/
def State.coolantRegs (s : State) : State :=
  let s := if s.inputValid 0 then s.put ⟨Reg.COOLANT_FLOW, 0, 16⟩ (int16 (s.inputY 0)) else s
  let s := [(1, Reg.COOLANT_TIN_AB, 0), (2, Reg.COOLANT_TIN_AB, 16), (3, Reg.COOLANT_TOUT_AB, 0), (4, Reg.COOLANT_TOUT_AB, 16),
      (5, Reg.COOLANT_PIN, 0), (6, Reg.COOLANT_POUT, 0)].foldl (fun (s : State) e =>
    if s.inputValid e.1 then s.put ⟨e.2.1, e.2.2, 16⟩ (int16 (s.inputY e.1)) else s) s
  let s := match s.pairUse 1 with
    | some t => s.put ⟨Reg.COOLANT_TIN, 0, 16⟩ (int16 t)
    | none => s
  let s := match s.pairUse 3 with
    | some t => s.put ⟨Reg.COOLANT_TOUT, 0, 16⟩ (int16 t)
    | none => s
  let s := (s.putB F.COOLANT_STATUS_FLOW_VALID (s.inputValid 0)).putB F.COOLANT_STATUS_TIN_VALID (s.pairUse 1).isSome
  let s := (s.putB F.COOLANT_STATUS_TOUT_VALID (s.pairUse 3).isSome).putB F.COOLANT_STATUS_PIN_VALID (s.inputValid 5)
  s.putB F.COOLANT_STATUS_POUT_VALID (s.inputValid 6)

/-- Sample periods in 1 s and in 100 ms at 10 kHz. -/
abbrev periodsSec : Nat := 10000
abbrev periods100ms : Nat := 1000

/-- DISAGREE of one pair (R300): `p` is 0 for the inlet pair and 1 for the outlet pair. -/
def State.pairDisagree (s : State) (p : Nat) : State :=
  let a := 1 + 2 * p
  let f : Fld := ⟨Reg.COOLANT_STATUS, 5 + p, 1⟩
  let both := s.inputValid a && s.inputValid (a + 1)
  let d := s.inputY a - s.inputY (a + 1)
  let far := both && decide (100 < d ∨ d < -100)
  let n := if far then min (aget 0 s.coolant.apart p + 1) (periodsSec + 1) else 0
  let m := if both && !far then min (aget 0 s.coolant.near p + 1) periodsSec else 0
  let s : State := { s with coolant := { s.coolant with apart := aset 0 s.coolant.apart p n, near := aset 0 s.coolant.near p m } }
  if n = periodsSec + 1 && !s.flag f then
    (s.putB f true).raise P.COOLANT B.COOLANT_COOLANT_DISAGREE Evn.FLUID_COOLANT_DISAGREE
  else if m = periodsSec then s.putB f false else s

/-! ## The table entry in force (R354) -/

/-- The highest entry whose TOUT_MIN is at or below `t`; entry 0 where there is none. -/
def State.tmHighest (s : State) (t : Int) : Nat :=
  (16).fold (fun k _ a => if sint16 (s.get (F.GLADE_TM_ENTRY_LO_TOUT_MIN k)) ≤ t then k else a) 0

/-- TM_STATE.ENTRY from TOUT with 1.00 °C of hysteresis downward; entry 15 while TOUT is invalid. -/
def State.tmSelect (s : State) : State :=
  match s.pairUse 3 with
  | none => s.put F.GLADE_TM_STATE_ENTRY 15
  | some t =>
    let cur := s.tmEntry
    let k := s.tmHighest t
    if cur ≤ k ∨ t < sint16 (s.get (F.GLADE_TM_ENTRY_LO_TOUT_MIN cur)) - 100 then s.put F.GLADE_TM_STATE_ENTRY k else s

/-- TABLE_ENTRY_SELECT: pumps and valves follow a change of the entry in table mode. -/
def State.tmReselect (s : State) : State :=
  let e := s.tmEntry
  let s := s.tmSelect
  if s.tableMode && decide (s.tmEntry ≠ e) then s.fluidApply else s

/-! ## Sudden loss of flow (R350, R351, R479) -/

/-- THERM.NOM_FLOW. -/
def State.nomFlow (s : State) : Int := (bitsOf (s.rd Reg.THERM_NOM_FLOW) 0 16 : Nat)

/-- The median flow. -/
def State.medFlow (s : State) : Int := (s.input 0).median

/-- The median of PIN − POUT. -/
def State.medDp (s : State) : Int :=
  match s.coolant.dp with
  | a :: b :: c :: _ => median3 a b c
  | _ => 0

/-- The differences and the counts behind R350 take in one sample period. -/
def State.flowCounts (s : State) (o : CoolantObs) : State :=
  let okF := rangeOk 0 o.flow
  let okP := rangeOk 5 o.pin && rangeOk 6 o.pout
  let c := s.coolant
  let d := o.pin.getD 0 - o.pout.getD 0
  let dp := if okP then (match c.dp with
      | a :: b :: _ => [d, a, b]
      | _ => [d, d, d]) else c.dp
  let s : State := { s with coolant := { s.coolant with dp := dp } }
  let f := s.medFlow
  let age := fun (a : Option Nat) => a.map (fun n => min (n + 1) (periods100ms + 1))
  let sf := if okF && decide (s.nomFlow * 4 ≤ f * 10) then some 0 else age c.sinceFlow
  let sp := if okP && decide (300 ≤ s.medDp) then some 0 else age c.sinceDp
  let nf := if s.inputValid 0 && decide (f * 10 < s.nomFlow) then min (c.noFlow + 1) periods100ms else 0
  let np := if okP then (if s.medDp < 100 then min (c.noDp + 1) 2 else 0) else c.noDp
  { s with coolant := { s.coolant with sinceFlow := sf, sinceDp := sp, noFlow := nf, noDp := np } }

/-- The rule of R350 that declares a sudden loss, with the value it records; none where no rule does. -/
def State.flowLoss (s : State) : Option (Nat × Int) :=
  let c := s.coolant
  let recent := fun (a : Option Nat) => match a with
    | some n => decide (n ≤ periods100ms)
    | none => false
  if s.inputValid 0 && decide (s.medFlow * 10 < s.nomFlow) && recent c.sinceFlow then some (0, s.medFlow)
  else if s.armed && s.inputValid 0 && decide (periods100ms ≤ c.noFlow) then some (1, s.medFlow)
  else if s.inputValid 5 && s.inputValid 6 && decide (2 ≤ c.noDp) && recent c.sinceDp then some (2, s.medDp)
  else none

/-- The module goes to Hold in its present module state, unless it is there or on its way (R351, R479). -/
def State.toHold (s : State) : State :=
  if s.mod.power = .hold ∧ s.mod.target ≠ some .idle then s
  else if s.mod.target = some .hold then s
  else s.holdBegin false

/-- FLOW_STOP during BRINGUP: a known-answer run in progress is abandoned and its results are discarded; any other step waits (R379). -/
def State.katAbandon (s : State) : State :=
  if s.boot.katOn then { s with boot := { s.boot with katLeft := [], katOn := false, katDone := false } }
  else { s with boot := { s.boot with held := true } }

/-- FLOW_STOP is declared (R350, R351, R379). -/
def State.flowStop (s : State) (rule : Nat) (value : Int) : State :=
  let s := (s.wr Reg.GLADE_FLOW_STOP_INFO 0).put F.GLADE_FLOW_STOP_INFO_RULE rule
  let s := (s.put F.GLADE_FLOW_STOP_INFO_VALUE (int16 value)).putB F.GLADE_STATUS_FLOW_STOP true
  let s := (s.putB F.THERM_STATUS_RUN_OK false).raise P.GLADE B.GLADE_FLOW_STOP Evn.GLADE_FLOW_STOP
  if s.armed then s.paceFault causeFlowStop
  else
    let s : State := if s.mod.mstate = .bringup then s.katAbandon else s
    let s : State := s.toHold
    { s with mod := { s.mod with fsHold := true } }

/-- FLOW_LOW and its effect on RUN_OK while the flow is valid (R337). -/
def State.flowLow (s : State) : State :=
  if s.inputValid 0 then
    let low := decide (s.inputY 0 < (bitsOf (s.rd Reg.THERM_RUN_MIN) 0 16 : Nat))
    let s := s.putB F.THERM_STATUS_FLOW_LOW low
    if low then s.putB F.THERM_STATUS_RUN_OK false else s
  else s

/-- The telemetry window takes in the flow (R340). -/
def State.winFlow (s : State) : State :=
  if s.inputValid 0 then
    let f := (s.inputY 0).toNat
    let w := s.therm.win
    { s with therm := { s.therm with win := { w with fN := w.fN + 1, fSum := w.fSum + f, fMin := if w.fN = 0 then f else min w.fMin f } } }
  else s

/-- COOLANT_SAMPLE: one 10 kHz sample period of the coolant inputs. In Standby and TRIPPED they are unpowered (R346). -/
def execCoolantSample (o : CoolantObs) (s : State) : Host.Outcome State Fault Refusal :=
  if s.powerAbsent then .next s
  else
    let s : State := [(0, o.flow), (1, o.tinA), (2, o.tinB), (3, o.toutA), (4, o.toutB), (5, o.pin), (6, o.pout)].foldl
      (fun (s : State) e => s.takeInput e.1 e.2) s
    let s : State := ((s.coolantRegs.pairDisagree 0).pairDisagree 1).flowLow.winFlow
    let s : State := (s.flowCounts o).tmReselect
    if s.flag F.GLADE_STATUS_FLOW_STOP then .next s
    else match s.flowLoss with
      | some (r, v) => .next (s.flowStop r v)
      | none => .next s

/-- FLOW_STOP_CLEAR: flow, and the pressure where it declared the loss, have been valid and recovered for 1 s (R351, R479). -/
def execFlowStopClear (s : State) : Host.Outcome State Fault Refusal :=
  let flowOk := s.inputValid 0 && decide (s.nomFlow * 4 ≤ s.medFlow * 10)
  let dpOk := decide (s.get F.GLADE_FLOW_STOP_INFO_RULE ≠ 2) || (s.inputValid 5 && s.inputValid 6 && decide (300 ≤ s.medDp))
  if s.flag F.GLADE_STATUS_FLOW_STOP ∧ !s.powerAbsent ∧ flowOk ∧ dpOk then
    let s : State := s.putB F.GLADE_STATUS_FLOW_STOP false
    let s : State := { s with boot := { s.boot with again := s.boot.again || s.boot.held, held := false } }
    if s.mod.fsHold then
      let s : State := { s with mod := { s.mod with fsHold := false } }
      .next (if s.flag F.MODULE_MSTATE_HOLD ∨ s.mod.byCommand then s else s.wakeBegin false)
    else .next s
  else .next s

/-! ## The leak rule and sequence (R314 to R316) -/

/-- Bring-up is abandoned (R379). -/
def State.bootAbandon (s : State) : State :=
  if s.mod.mstate = .bringup then { s with boot := { prevShape := s.boot.prevShape, svcFaults := s.boot.svcFaults } } else s

/-- The module enters LEAK: a stand is pace-faulted, bring-up is abandoned, and the way to Hold begins (R15, R16, R379). -/
def State.enterLeak (s : State) : State := (((s.paceFault causeLeak).bootAbandon).setMState .leak).toHold

/-- LEAK_L is asserted, or not. -/
def State.setLeakL (s : State) (b : Bool) : State :=
  { s.putB F.COOLANT_STATUS_LEAK_L b with mod := { s.mod with leakL := b } }

/-- A leak is latched (R314, R315): the record of t0, FLUID.LEAK, and with 48 V present the pace fault. -/
def State.leakLatch (s : State) (wet : Nat) : State :=
  let s : State := ((s.putB F.COOLANT_LEAK_INFO_LATCHED true).putB F.COOLANT_LEAK_INFO_CYCLED false).put F.COOLANT_LEAK_INFO_WET wet
  let s : State := (s.wr64 Reg.COOLANT_LEAK_T0_LO s.ftime).bump Reg.COOLANT_LEAK_COUNT 1
  let s : State := (s.putB F.VALVE_STATUS_LEAK_OVERRIDE true).raise P.COOLANT B.COOLANT_LEAK Evn.FLUID_LEAK
  if s.powerAbsent then s.setLeakL true else s.pumpSuff.enterLeak

/-- Sample periods in 1 s at 1 kHz. -/
abbrev leakSec : Nat := 1000

/-- One sample period of leak channel `k` (R314, R347). -/
def State.leakTake (s : State) (k : Nat) (raw : Option Int) : State :=
  let x := aget {} s.coolant.leaks k
  let fV : Fld := ⟨Reg.GLADE_INPUT_VALID, 12 + k, 1⟩
  let fO : Fld := ⟨Reg.COOLANT_LEAK_INFO, 4 + k, 1⟩
  let thresh : Int := (bitsOf (s.rd Reg.COOLANT_LEAK_THRESH) 0 16 : Nat)
  let up := fun (s : State) (x : LeakCh) =>
    let v := if s.flag fV && !s.flag fO then min (x.valid + 1) leakSec else 0
    ({ s with coolant := { s.coolant with leaks := aset {} s.coolant.leaks k { x with valid := v } } } : State)
  match raw with
  | none => up s { x with dry := min (x.dry + 1) leakSec }
  | some r =>
    if r < 0 ∨ 65534 < r then up s { x with dry := min (x.dry + 1) leakSec }
    else
      let inp := x.input.accept (!s.flag fV) 3 r
      let s : State := (s.putB fV true).put ⟨Reg.COOLANT_LEAK_Z k, 0, 16⟩ (int16 inp.y.round)
      let x : LeakCh := { x with input := inp, dry := if thresh < r then min (x.dry + 1) leakSec else 0 }
      if s.flag fO then
        let low := if r < 4000 then x.low + 1 else 0
        if leakSec ≤ low then up (s.putB fO false) { x with low := 0, high := 0, wet := 0 } else up s { x with low := low, wet := 0 }
      else
        let high := if 8000 < r then x.high + 1 else 0
        if leakSec ≤ high then
          up ((s.putB fO true).raise P.COOLANT B.COOLANT_LEAK_SENSE_OPEN Evn.FLUID_LEAK_SENSE_OPEN) { x with low := 0, high := 0, wet := 0 }
        else up s { x with high := high, wet := if r < thresh then min (x.wet + 1) 3 else 0 }

/-- The channels in which three accepted samples in a row were wet, one bit each. -/
def State.wetMask (s : State) : Nat :=
  [0, 1, 2, 3].foldl (fun a k => a + (if 3 ≤ (aget {} s.coolant.leaks k).wet then 2 ^ k else 0)) 0

/-- LEAK_SAMPLE: one 1 kHz sample period of the leak channels. -/
def execLeakSample (l0 l1 l2 l3 : Option Int) (s : State) : Host.Outcome State Fault Refusal :=
  if !s.mod.sbGood then .next s
  else
    let s : State := [(0, l0), (1, l1), (2, l2), (3, l3)].foldl (fun (s : State) e => s.leakTake e.1 e.2) s
    let m := s.wetMask
    if s.leakLatched then .next (s.put F.COOLANT_LEAK_INFO_WET (s.get F.COOLANT_LEAK_INFO_WET ||| m))
    else .next (if m = 0 then s else s.leakLatch m)

/-- t0 + 1 ms: pumps off, an isolation pulse cut, LEAK_L asserted (Table 13.6). -/
def State.leakPumpsOff (s : State) : State := ((s.pumpsHalt.isoCut).putB F.PUMP_STATUS_LEAK_OFF true).setLeakL true

/-- t0 + 5 ms: zone valves released, V24's close pulse (Table 13.6). -/
def State.leakRelease (s : State) : State :=
  let s : State := { s with fluid := { s.fluid with released := true } }
  s.valvesUpdate.isoCommand 0 true

def execLeakPumpsOff (s : State) : Host.Outcome State Fault Refusal :=
  .next (if s.leakLatched && !s.powerAbsent then s.leakPumpsOff else s)
def execLeakCloseV24 (s : State) : Host.Outcome State Fault Refusal :=
  .next (if s.leakLatched && !s.powerAbsent then s.leakRelease else s)
def execLeakCloseV25 (s : State) : Host.Outcome State Fault Refusal :=
  .next (if s.leakLatched && !s.powerAbsent then s.isoCommand 1 true else s)

/-- The third condition of R316: some channel has been valid for 1 s, and every such channel has been dry for it. -/
def State.leakDry (s : State) : Bool :=
  let ks := [0, 1, 2, 3].filter (fun k => decide (leakSec ≤ (aget {} s.coolant.leaks k).valid))
  !ks.isEmpty && ks.all (fun k => decide (leakSec ≤ (aget {} s.coolant.leaks k).dry))

/-! ## Timeouts (R299, R347) -/

/-- INPUT_VALID's bit of an input (Table 15.6). -/
def gladeInputBit : GladeInput → Nat
  | .flow => 0 | .tinA => 1 | .tinB => 2 | .toutA => 3 | .toutB => 4 | .pin => 5 | .pout => 6 | .vin => 7 | .iin => 8
  | .pump n => 9 + n.val | .leak k => 12 + k.val

/-- INPUT_TIMEOUT: an input that has accepted no sample within its timeout is invalid. Inputs that Standby leaves unpowered are so
already (R346). -/
def execInputTimeout (i : GladeInput) (s : State) : Host.Outcome State Fault Refusal :=
  let f : Fld := ⟨Reg.GLADE_INPUT_VALID, gladeInputBit i, 1⟩
  if s.mod.sbGood && s.flag f then
    let s : State := (s.putB f false).bump Reg.GLADE_TIMEOUTS 1
    let s : State := (s.errInc P.GLADE).raise P.GLADE B.GLADE_INPUT_TIMEOUT Evn.GLADE_INPUT_TIMEOUT
    let cool := fun (s : State) =>
      (s.coolantRegs.errInc P.COOLANT).raise P.COOLANT B.COOLANT_COOLANT_SENSOR_INVALID Evn.FLUID_COOLANT_SENSOR_INVALID
    match i with
    | .flow | .tinA | .tinB => .next (cool s)
    | .toutA | .toutB => .next (cool s).tmReselect
    | .pin | .pout => .next { cool s with coolant := { (cool s).coolant with dp := [], noDp := 0 } }
    | .vin | .iin | .pump _ => .next s
    | .leak k =>
      let x := aget {} s.coolant.leaks k.val
      .next (cool { s with coolant := { s.coolant with leaks := aset {} s.coolant.leaks k.val { x with wet := 0, valid := 0 } } })
  else .next s

/-- FN_RESET of the COOLANT page: the DISAGREE bits clear and their timers restart (R321). -/
def State.coolantReset (s : State) : State :=
  let s := (s.putB F.COOLANT_STATUS_TIN_DISAGREE false).putB F.COOLANT_STATUS_TOUT_DISAGREE false
  { s with coolant := { s.coolant with apart := [], near := [] } }

/-- A write of LEAK_THRESH (R321). -/
def State.leakThreshWrite (s : State) (w : WriteReq) : State :=
  let v := bitsOf w.data 0 16
  s.gateW Reg.COOLANT_LEAK_THRESH w (isCanopy w.req && decide (10 ≤ v) && decide (v ≤ 1000)) (fun s =>
    s.wr Reg.COOLANT_LEAK_THRESH (BitVec.ofNat 32 v))

/-- The inputs that 48 V powers are invalid in Standby and TRIPPED, and the counts behind Glade's decisions start anew (R346). -/
def State.inputsOff (s : State) : State :=
  let s : State := (s.wr Reg.GLADE_INPUT_VALID (s.rd Reg.GLADE_INPUT_VALID &&& 0xF000)).putB F.GLADE_STATUS_ON_STANDBY true
  { s with coolant := { leaks := s.coolant.leaks, inputs := s.coolant.inputs } }.coolantRegs

end Sys2Proof.Machine
end

