-- ==== Sys2Proof/Machine/Therm.lean ====
section
/-! DEFINITION. The thermal governor: temperature sensors, caps, pace, loss of flow, cooling levels and telemetry (R322 to R343). -/

namespace Sys2Proof.Machine

/-! ## Temperature sensors (R322 to R324) -/

/-- One sample period of a sensor with valid range −20 °C to `hi`: ten periods without an update make it invalid. -/
def TSens.take (x : TSens) (hi : Int) (r : Option Int) : TSens :=
  match r with
  | some v => if -2000 ≤ v ∧ v ≤ hi then { val := some v } else { x with miss := 0, bad := true }
  | none => if 10 ≤ x.miss + 1 then { x with miss := 10, bad := true } else { x with miss := x.miss + 1 }

/-- A valid sensor's reading. -/
def TSens.valid (x : TSens) : Option Int := if x.bad then none else x.val

/-- The trip threshold in effect, in 0.01 °C (Table 15.4). -/
def State.tripThreshold (s : State) : Int := (10800 + 400 * s.get F.GLADE_TRIP_EFFECTIVE : Nat)

/-- Whether both sensors of a grove are invalid; a page that is not READY counts so (R323). -/
def State.bothInvalid (s : State) (g : Nat) : Bool :=
  decide (s.fn (P.GSENS g) ≠ fnReady) || ((aget {} s.therm.groveT (2 * g)).bad && (aget {} s.therm.groveT (2 * g + 1)).bad)

/-- T_ctl of a grove (Table 14.2); none before its first sample, and during a start until its GSENS page is enabled (R477). -/
def State.tctl (s : State) (g : Nat) : Option Int :=
  if s.mod.mstate = .bringup ∧ s.fn (P.GSENS g) ≠ fnReady then none
  else if s.bothInvalid g then some s.tripThreshold
  else
    let a := aget {} s.therm.groveT (2 * g)
    let b := aget {} s.therm.groveT (2 * g + 1)
    match a.valid, b.valid with
    | some x, some y => some (if s.flag (F.GSENS_STATUS_DISAGREE g) then max x y + 200 else max x y)
    | some x, none => some (if b.bad then x + 200 else x)
    | none, some y => some (if a.bad then y + 200 else y)
    | none, none => none

/-- Grove sample periods in 50 ms at 10 kHz. -/
abbrev periods50ms : Nat := 500

/-- GSENS.STATUS.DISAGREE of a grove (R323). -/
def State.groveDisagree (s : State) (g : Nat) : State :=
  let a := (aget {} s.therm.groveT (2 * g)).valid
  let b := (aget {} s.therm.groveT (2 * g + 1)).valid
  let far := match a, b with
    | some x, some y => decide (500 < x - y ∨ 500 < y - x)
    | _, _ => false
  let both := a.isSome && b.isSome
  let n := if far then min (aget 0 s.therm.apart g + 1) (periods50ms + 1) else 0
  let m := if both && !far then min (aget 0 s.therm.near g + 1) periods50ms else 0
  let s : State := { s with therm := { s.therm with apart := aset 0 s.therm.apart g n, near := aset 0 s.therm.near g m } }
  if n = periods50ms + 1 ∧ !s.flag (F.GSENS_STATUS_DISAGREE g) then
    (s.putB (F.GSENS_STATUS_DISAGREE g) true).raise (P.GSENS g) B.GSENS_SENSOR_DISAGREE Evn.THERM_SENSOR_DISAGREE
  else if m = periods50ms then s.putB (F.GSENS_STATUS_DISAGREE g) false else s

/-- The GSENS registers of a grove, and PACE_URGENT where T_ctl reaches 105 °C with a valid sensor (R335, Table 14.8). -/
def State.gsensRegs (s : State) (g : Nat) : State :=
  let a := aget {} s.therm.groveT (2 * g)
  let b := aget {} s.therm.groveT (2 * g + 1)
  let s := match a.valid with
    | some x => s.put ⟨Reg.GSENS_TA g, 0, 16⟩ (int16 x)
    | none => s
  let s := match b.valid with
    | some x => s.put ⟨Reg.GSENS_TB g, 0, 16⟩ (int16 x)
    | none => s
  let s := (s.putB (F.GSENS_STATUS_A_VALID g) a.valid.isSome).putB (F.GSENS_STATUS_B_VALID g) b.valid.isSome
  let both := a.bad && b.bad
  let s := s.putB (F.GSENS_STATUS_AT_TRIP g) both
  match s.tctl g with
  | none => s
  | some t =>
    let was := s.flag (F.GSENS_STATUS_AT_MAX g)
    let s := s.put ⟨Reg.GSENS_TCTL g, 0, 16⟩ (int16 t)
    let s := s.putB (F.GSENS_STATUS_ABOVE_TARGET g) (decide ((s.get F.THERM_JCT_CFG_GROVE_TARGET : Int) * 100 < t))
    let s := if sint16 (s.get ⟨Reg.GSENS_PEAK g, 0, 16⟩) < t then s.put ⟨Reg.GSENS_PEAK g, 0, 16⟩ (int16 t) else s
    let s := s.putB (F.GSENS_STATUS_AT_MAX g) (decide (10500 ≤ t))
    if decide (10500 ≤ t) && !was && !both then s.paceUrgent g else s

/-- A sample period of a grove's two sensors (R322, R323). -/
def State.groveTemp (s : State) (g : Nat) (a b : Option Int) : State :=
  let x := aget {} s.therm.groveT (2 * g)
  let y := aget {} s.therm.groveT (2 * g + 1)
  let x' := x.take 15000 a
  let y' := y.take 15000 b
  let s : State := { s with therm := { s.therm with groveT := aset {} (aset {} s.therm.groveT (2 * g) x') (2 * g + 1) y' } }
  if s.fn (P.GSENS g) ≠ fnReady then s
  else
    let na := x'.bad && !x.bad
    let nb := y'.bad && !y.bad
    let s := if na then s.errInc (P.GSENS g) else s
    let s := if nb then s.errInc (P.GSENS g) else s
    let s :=
      if na || nb then
        (if x'.bad && y'.bad then
          (s.raiseSev (P.GSENS g) B.GSENS_SENSOR_BOTH_INVALID Evn.THERM_SENSOR_INVALID 2 none none).paceFault causeSensorInvalid g
        else s.raise (P.GSENS g) B.GSENS_SENSOR_INVALID Evn.THERM_SENSOR_INVALID)
      else s
    (s.groveDisagree g).gsensRegs g

/-- THERM.SENSOR_INVALID of a floor, package or area sensor that has become invalid (R324). -/
def State.kindInvalid (s : State) (new : Bool) : State :=
  if new then s.raise P.THERM B.THERM_SENSOR_INVALID Evn.THERM_SENSOR_INVALID else s

/-- TEMP_SAMPLE. The governor and its sensors have power only with 48 V. -/
def execTempSample (o : TempObs) (s : State) : Host.Outcome State Fault Refusal :=
  if s.powerAbsent then .next s
  else match o with
    | .grove g a b => .next (if s.absent (P.GROVE g.val) then s else s.groveTemp g.val a b)
    | .floor k t =>
      let x := aget {} s.therm.floorT k.val
      let y := x.take 15000 t
      .next ({ s with therm := { s.therm with floorT := aset {} s.therm.floorT k.val y } }.kindInvalid (y.bad && !x.bad))
    | .package p t =>
      let x := aget {} s.therm.memT p.val
      let y := x.take 12500 t
      .next (if s.absent (P.LPDDR (p.val / 2)) then s
        else { s with therm := { s.therm with memT := aset {} s.therm.memT p.val y } }.kindInvalid (y.bad && !x.bad))
    | .area z t =>
      let x := aget {} s.therm.areaT z.val
      let y := x.take 15000 t
      .next ({ s with therm := { s.therm with areaT := aset {} s.therm.areaT z.val y } }.kindInvalid (y.bad && !x.bad))

/-- The hottest sensor of a kind: value and index, an invalid sensor at the highest valid reading + 2.0 °C, and 10 K above the target
where none is valid (R324); none before the first sample. -/
def hottestOf (m : AMap TSens) (target : Int) : Option (Int × Nat) :=
  let valid := m.filterMap (fun e => e.2.valid.map (fun v => (v, e.1)))
  let bad := m.find? (fun e => e.2.bad)
  match valid, bad with
  | [], none => none
  | [], some e => some (target + 1000, e.1)
  | v :: vs, b =>
    let h := vs.foldl (fun (a : Int × Nat) x => if a.1 < x.1 then x else a) v
    match b with
    | some e => some (h.1 + 200, e.1)
    | none => some h

/-- The hottest T_ctl over the present groves, and its grove. -/
def State.hottestGrove (s : State) : Option (Int × Nat) :=
  (16).fold (fun g _ (a : Option (Int × Nat)) =>
    if s.absent (P.GROVE g) then a
    else match s.tctl g, a with
      | some t, some (u, h) => if u < t then some (t, g) else some (u, h)
      | some t, none => some (t, g)
      | none, a => a) none

/-! ## Caps (R325 to R330) -/

/-- The fused ceiling in W. -/
def State.ceiling (s : State) : Nat := bitsOf (s.rd Reg.THERM_LIMITS) 0 16

/-- The rack cap in force (R330). -/
def State.rackInForce (s : State) : Nat := if bitsOf (s.rd Reg.TELEM_MODE) 0 2 = 1 then s.ceiling else s.therm.rack

/-- The effective cap and the term that sets it (R328): each term clamped to 500 W to the ceiling, the lowest LIMITER code on a tie. -/
def State.capEff (s : State) (applied : Nat) : Nat × Nat :=
  let c := s.ceiling
  let cl := fun x => max 500 (min x c)
  let ts := [(cl s.rackInForce, 0), (cl applied, 1), (cl (bitsOf (s.rd Reg.THERM_THERMAL_CAP) 0 16), 2), (c, 3)]
  ts.foldl (fun (a : Nat × Nat) t => if t.1 < a.1 then t else a) (cl s.rackInForce, 0)

/-- The caps are recomputed: the rack cap in force, the applied host cap with CLAMPED, and the effective cap (R328 to R330). -/
def State.capUpdate (s : State) : State :=
  let r := s.rackInForce
  let req := bitsOf (s.rd Reg.THERM_HOST_CAP) 0 16
  let applied := min req r
  let s := (s.put ⟨Reg.THERM_RACK_CAP, 0, 16⟩ r).put ⟨Reg.THERM_HOST_CAP_APPLIED, 0, 16⟩ applied
  let e := s.capEff applied
  let s := (s.put F.THERM_CAP_EFF_CAP e.1).put F.THERM_CAP_EFF_LIMITER e.2
  let s : State := { s with therm := { s.therm with win := { s.therm.win with cap := min s.therm.win.cap e.1 } } }
  let clamped := decide (applied < req)
  if clamped && !s.flag F.THERM_STATUS_CLAMPED then
    (s.putB F.THERM_STATUS_CLAMPED true).raise P.THERM B.THERM_CAP_CLAMPED Evn.THERM_CAP_CLAMPED
  else s.putB F.THERM_STATUS_CLAMPED clamped

/-- Where x and the terms stand: the hottest of each kind, as registers report them (R325, Table 14.5). -/
def State.maxRegs (s : State) : State :=
  let s := match s.hottestGrove with
    | some (t, g) => s.wr Reg.THERM_TCTL_MAX (BitVec.ofNat 32 (int16 t + 65536 * g))
    | none => s
  let s := match hottestOf s.therm.floorT ((s.get F.THERM_JCT_CFG2_FLOOR_TARGET : Int) * 100) with
    | some (t, k) => s.wr Reg.THERM_FLOOR_MAX (BitVec.ofNat 32 (int16 t + 65536 * k))
    | none => s
  let s := match hottestOf s.therm.memT ((s.get F.THERM_JCT_CFG_MEM_TARGET : Int) * 100) with
    | some (t, k) => s.wr Reg.THERM_MEM_MAX (BitVec.ofNat 32 (int16 t + 65536 * k))
    | none => s
  match hottestOf s.therm.areaT ((s.get F.THERM_JCT_CFG2_AREA_TARGET : Int) * 100) with
  | some (t, k) => s.wr Reg.THERM_AREA_MAX (BitVec.ofNat 32 (int16 t + 65536 * k))
  | none => s

/-- The excess x of R325 in 0.01 K; none before any sensor's first sample. -/
def State.excess (s : State) : Option Int :=
  let tg := fun (f : Fld) => (s.get f : Int) * 100
  let d := fun (h : Option (Int × Nat)) (t : Int) => h.map (fun e => e.1 - t)
  let xs := [d s.hottestGrove (tg F.THERM_JCT_CFG_GROVE_TARGET),
    d (hottestOf s.therm.floorT (tg F.THERM_JCT_CFG2_FLOOR_TARGET)) (tg F.THERM_JCT_CFG2_FLOOR_TARGET),
    d (hottestOf s.therm.memT (tg F.THERM_JCT_CFG_MEM_TARGET)) (tg F.THERM_JCT_CFG_MEM_TARGET),
    d (hottestOf s.therm.areaT (tg F.THERM_JCT_CFG2_AREA_TARGET)) (tg F.THERM_JCT_CFG2_AREA_TARGET)]
  xs.foldl (fun (a : Option Int) x => match a, x with
    | some u, some v => some (max u v)
    | none, v => v
    | u, none => u) none

/-- J in 0.01 W after one run (R325). -/
def nextJ (j kj rel ceil : Nat) (x : Option Int) : Nat :=
  let j' : Int := match x with
    | none => j
    | some x => if 0 < x then (j : Int) - kj * x else if x < -200 then (j : Int) + rel * 100 else j
  (max 50000 (min j' ((ceil : Int) * 100))).toNat

/-- 48 V power over the last second: the sum of its samples in 0.1 mW, and how many (R327). -/
def State.powerSec (s : State) : Nat × Nat := (s.therm.sums.foldl (· + ·) 0, 10 * s.therm.sums.length)

/-- The measured rise TOUT − TIN in 0.01 K where flow and both temperatures are valid. -/
def State.coolRise (s : State) : Option Int :=
  match s.pairUse 1, s.pairUse 3 with
  | some i, some o => if s.inputValid 0 then some (o - i) else none
  | _, _ => none

/-- Whether the condition of RISE_ABNORMAL holds now (R327). -/
def State.riseHigh (s : State) : Bool :=
  match s.coolRise with
  | none => false
  | some r =>
    let q := s.inputY 0
    let (total, count) := s.powerSec
    decide (500 ≤ q) && decide ((total : Int) * 100
      < (r - 10 * (s.get F.THERM_COOLANT_CFG_RISE_TOL : Int)) * count * (s.get F.THERM_COOLANT_CFG_CF : Int) * q)

/-- RISE_ABNORMAL sets after 10 s with its condition and clears after 10 s without it (R327). -/
def State.riseUpdate (s : State) : State :=
  let h := s.riseHigh
  let n := if h then min (s.therm.riseN + 1) 10000 else 0
  let m := if h then 0 else min (s.therm.calmN + 1) 10000
  let on := if n = 10000 then true else if m = 10000 then false else s.flag F.THERM_STATUS_RISE_ABNORMAL
  let k := if on then min (s.therm.riseSet + 1) 60001 else 0
  { s.putB F.THERM_STATUS_RISE_ABNORMAL on with therm := { s.therm with riseN := n, calmN := m, riseSet := k } }

/-- Q_use in mL/min (R327). -/
def State.qUse (s : State) : Int :=
  if s.inputValid 0 then
    let q := s.inputY 0
    match s.flag F.THERM_STATUS_RISE_ABNORMAL, s.coolRise with
    | true, some r =>
      let (total, count) := s.powerSec
      if 0 < r then min q ((total : Int) * 100 / (count * (s.get F.THERM_COOLANT_CFG_CF : Int) * r)) else q
    | _, _ => q
  else 2000

/-- P_flow in whole W (R326). -/
def State.pFlow (s : State) : Nat :=
  let tin := (s.pairUse 1).getD 4500
  let d := (s.get F.THERM_LIMITS_T_OUT_LIM : Int) - tin - 10 * (s.get F.THERM_COOLANT_CFG_MARGIN : Int)
  ((s.get F.THERM_COOLANT_CFG_CF : Int) * s.qUse * d / 1000000).toNat

/-- The junction and flow terms and the thermal cap (R325 to R327). -/
def State.thermalTerms (s : State) : State :=
  let s := s.riseUpdate
  let s := (s.putB F.THERM_STATUS_FLOW_FALLBACK (!s.inputValid 0)).putB F.THERM_STATUS_TIN_FALLBACK (s.pairUse 1).isNone
  let j := nextJ s.therm.j (s.get F.THERM_JCT_CFG_KJ) (s.get F.THERM_JCT_CFG_RELEASE) s.ceiling s.excess
  let p := s.pFlow
  let s : State := { s with therm := { s.therm with j := j } }
  let s := s.wr Reg.THERM_TERMS (BitVec.ofNat 32 (min (j / 100) 65535 + 65536 * min p 65535))
  s.put ⟨Reg.THERM_THERMAL_CAP, 0, 16⟩ (min (min (j / 100) p) 65535)

/-! ## From cap to pace (R331 to R335) -/

/-- P_k with 4 fractional bits: the mean of the last ten samples. -/
def State.pk16 (s : State) : Nat :=
  let n := s.therm.samples.length
  if n = 0 then 0 else (s.therm.samples.foldl (· + ·) 0 * 32 + n * 10000) / (n * 20000)

/-- Quotient rounded to nearest, ties away from zero. -/
def roundAway (n : Int) (d : Nat) : Int :=
  if n < 0 then -((2 * (-n) + d) / (2 * d)) else (2 * n + d) / (2 * d)

/-- e_k with 20 fractional bits from P_k in 1/16 W and T_k in W (R332). -/
def loopError (p16 t : Nat) : Int := roundAway (((p16 : Int) - 16 * t) * 2 ^ 20) (16 * t)

/-- The accumulator in 1/256 after an update by delta in 2⁻²⁰, rounded with ties upward, then clamped (R332). -/
def loopAcc (acc delta : Int) : Int := max 0 (min ((acc * 4096 + delta + 2048) / 4096) (12288 * 256))

/-- q from the accumulator, rounded half up. -/
def loopQ (acc : Int) : Nat := ((acc + 128) / 256).toNat

/-- T_k (R331). -/
def State.loopTarget (s : State) : Nat := min (s.get F.THERM_CAP_EFF_CAP) (s.ceiling - 84)

/-- One run of the cap-to-pace loop (R332, R333) and its PACE_URGENT (R335). -/
def State.loopRun (s : State) : State :=
  let p := s.pk16
  let t := s.loopTarget
  let e := loopError p t
  let delta := (s.get F.THERM_LOOP_GAIN_KP : Int) * (e - s.therm.ePrev) + (s.get F.THERM_LOOP_GAIN_KI : Int) * e
  let frozen := s.armed && decide (s.therm.pace < s.get F.STAND_PACE_P_APPLIED)
  let acc := if frozen && decide (delta < 0) then s.therm.acc else loopAcc s.therm.acc delta
  let q := loopQ acc
  let top := decide (acc = 12288 * 256)
  let n := if top && decide (102 * 16 * t < 100 * p) then min (s.therm.satN + 1) 21 else 0
  let s : State := { s with therm := { s.therm with acc := acc, ePrev := e, pace := q, satN := n } }
  let s := (s.putB F.THERM_STATUS_FROZEN frozen).putB F.THERM_STATUS_LOOP_MAX top
  let s := s.wr Reg.THERM_LOOP_OUT (BitVec.ofNat 32 q)
  let w := (p + 8) / 16
  let s := (s.put ⟨Reg.THERM_POWER, 16, 16⟩ w).put ⟨Reg.TELEM_INST_POWER, 16, 16⟩ w
  if n = 20 then s.paceUrgent 0 else s

/-! ## Cooling levels (R339, Table 14.4) -/

/-- The counts of runs below each level's share of thermal cap and flow. -/
def State.coolCounts (s : State) : State :=
  let tc := bitsOf (s.rd Reg.THERM_THERMAL_CAP) 0 16
  let c := s.ceiling
  let s := [(1, 90), (2, 70), (3, 50)].foldl (fun (s : State) e =>
    let n := if tc * 100 < e.2 * c then min (aget 0 s.therm.capN e.1 + 1) 10001 else 0
    { s with therm := { s.therm with capN := aset 0 s.therm.capN e.1 n } }) s
  [(1, 85), (2, 60), (3, 40)].foldl (fun (s : State) e =>
    let low := s.inputValid 0 && decide (s.inputY 0 * 100 < e.2 * s.nomFlow)
    let n := if low then min (aget 0 s.therm.flowN e.1 + 1) 1001 else 0
    { s with therm := { s.therm with flowN := aset 0 s.therm.flowN e.1 n } }) s

/-- The level that each row of Table 14.4 asks for, in row order. -/
def State.coolRows (s : State) : List Nat :=
  let by_ := fun (m : AMap Nat) (lim : Nat) =>
    if lim < aget 0 m 3 then 3 else if lim < aget 0 m 2 then 2 else if lim < aget 0 m 1 then 1 else 0
  let rise := if s.flag F.THERM_STATUS_RISE_ABNORMAL then (if 60000 < s.therm.riseSet then 2 else 1) else 0
  let inp := if !s.inputValid 0 || (s.pairUse 1).isNone then 2 else if (s.pairUse 3).isNone then 1 else 0
  [by_ s.therm.capN 10000, by_ s.therm.flowN 1000, rise, inp]

/-- The highest level that any condition asks for. -/
def State.coolLevel (s : State) : Nat := s.coolRows.foldl max 0

/-- CAUSE bits, one for each row with a condition that holds. -/
def State.coolCause (s : State) : Nat :=
  match s.coolRows with
  | [a, b, c, d] => (if a = 0 then 0 else 1) + (if b = 0 then 0 else 2) + (if c = 0 then 0 else 4) + (if d = 0 then 0 else 8)
  | _ => 0

/-- Event severity of a cooling level: INFO for none and Advisory, WARN, CRIT. -/
def coolSev (l : Nat) : Nat := if l ≤ 1 then 0 else if l = 2 then 1 else 3

/-- The cooling level changes and is reported. -/
def State.coolSet (s : State) (l : Nat) : State :=
  (s.put F.THERM_DEGRADED_LEVEL l).raiseSev P.THERM B.THERM_COOLING_DEGRADED Evn.THERM_COOLING_DEGRADED (coolSev l) none none

/-- A rise of the cooling level is reported at once. -/
def State.coolUpdate (s : State) : State :=
  let s := s.coolCounts
  let s := s.put F.THERM_DEGRADED_CAUSE s.coolCause
  if s.get F.THERM_DEGRADED_LEVEL < s.coolLevel then s.coolSet s.coolLevel else s

/-- COOLING_LEVEL_FALL: 30 s without any condition of the current level lower it by one step (R339). -/
def execCoolingLevelFall (s : State) : Host.Outcome State Fault Refusal :=
  let l := s.get F.THERM_DEGRADED_LEVEL
  .next (if 0 < l ∧ s.coolLevel < l ∧ !s.powerAbsent then s.coolSet (l - 1) else s)

/-! ## The governor's run (R325 to R335, R339) -/

/-- The telemetry window takes in the hottest T_ctl, and INST_TEMP follows (R340). -/
def State.winTemp (s : State) : State :=
  let s := s.put ⟨Reg.TELEM_INST_TEMP, 16, 16⟩ (bitsOf (s.rd Reg.COOLANT_TOUT) 0 16)
  match s.hottestGrove with
  | none => s
  | some (t, _) =>
    let w := s.therm.win
    let w' := { w with tN := w.tN + 1, tSum := w.tSum + t, tMax := if w.tN = 0 then t else max w.tMax t }
    { s.put ⟨Reg.TELEM_INST_TEMP, 0, 16⟩ (int16 t) with therm := { s.therm with win := w' } }

/-- GOVERNOR_RUN: once per millisecond. -/
def execGovernorRun (s : State) : Host.Outcome State Fault Refusal :=
  if s.powerAbsent then .next s
  else
    let sum := s.therm.samples.foldl (· + ·) 0
    let s : State := { s with therm := { s.therm with sums := (sum :: s.therm.sums).take 1000 } }
    .next (s.maxRegs.thermalTerms.capUpdate.loopRun.coolUpdate.winTemp)

/-! ## Power samples (R334, R348) -/

/-- One raw reading of the voltage or current input, whose filter is none; limit `hi`. -/
def powerInput (x : InputSt) (valid : Bool) (hi : Int) (r : Option Int) : Option InputSt :=
  match r with
  | some v => if 0 ≤ v ∧ v ≤ hi then some (x.accept (!valid) 0 v) else none
  | none => none

/-- VIN_RANGE over the valid voltage (R348): 100 periods are 10 ms. -/
def State.vinRange (s : State) : State :=
  let g := s.glade
  let v := g.vin.y.round
  let out := s.inputValid 7 && decide (v < 4000 ∨ 6000 < v)
  let ok := s.inputValid 7 && !out
  let n := if out then min (g.vinOut + 1) 100 else 0
  let m := if ok then min (g.vinIn + 1) 100 else 0
  let raised := if m = 100 then false else g.vinRaised
  let fire := decide (n = 100) && !raised
  let s : State := { s with glade := { g with vinOut := n, vinIn := m, vinRaised := raised || fire } }
  if fire then s.raise P.GLADE B.GLADE_VIN_RANGE Evn.GLADE_VIN_RANGE else s

/-- A power sample in 0.1 mW reaches the governor: registers, energy, window, and the run above X (R331, R334, R340). -/
def State.powerTake (s : State) (p : Nat) : State :=
  let w := (p + 5000) / 10000
  let s := (s.put ⟨Reg.THERM_POWER, 0, 16⟩ w).put ⟨Reg.TELEM_INST_POWER, 0, 16⟩ w
  let t := s.therm
  let above := decide (11 * 1000 * s.get F.THERM_CAP_EFF_CAP < p) || decide (10000 * s.ceiling < p)
  let n := if above then min (t.overX + 1) 22 else 0
  let win := { t.win with pN := t.win.pN + 1, pSum := t.win.pSum + p, pMax := max t.win.pMax p }
  let e := t.energy + p
  let s : State := { s with therm := { t with samples := (p :: t.samples).take 10, overX := n, win := win, energy := e } }
  let s := s.wr64 Reg.TELEM_ENERGY_LO (BitVec.ofNat 64 (e / 100000000))
  let s := if n = 11 then s.bump Reg.THERM_EXCESS_COUNT 1 else s
  if n = 21 then
    (if s.armed then
      (if s.mod.mstate = .running then
        ((s.errInc P.THERM).putB ⟨Hdr.EVT_SUMMARY P.THERM, B.THERM_POWER_EXCESS, 1⟩ true).paceFault causePowerExcess
      else s)
    else s.raise P.THERM B.THERM_CAP_EXCEEDED Evn.THERM_CAP_EXCEEDED)
  else s

/-- POWER_SAMPLE: Glade forms a 10 kHz power sample; an invalid input puts the ceiling in its place (R348). -/
def execPowerSample (v i : Option Int) (s : State) : Host.Outcome State Fault Refusal :=
  if s.powerAbsent then .next s
  else
    let s : State := match powerInput s.glade.vin (s.inputValid 7) 7000 v with
      | some x => { s.putB ⟨Reg.GLADE_INPUT_VALID, 7, 1⟩ true with glade := { s.glade with vin := x } }
      | none => s
    let s : State := match powerInput s.glade.iin (s.inputValid 8) 8000 i with
      | some x => { s.putB ⟨Reg.GLADE_INPUT_VALID, 8, 1⟩ true with glade := { s.glade with iin := x } }
      | none => s
    let vy := s.glade.vin.y.round.toNat
    let iy := s.glade.iin.y.round.toNat
    let s : State := if s.inputValid 7 then s.put ⟨Reg.GLADE_VIN_IIN, 0, 16⟩ vy else s
    let s : State := if s.inputValid 8 then s.put ⟨Reg.GLADE_VIN_IIN, 16, 16⟩ iy else s
    let s : State := s.vinRange
    if s.inputValid 7 && s.inputValid 8 then
      .next ({ s with glade := { s.glade with powerBad := false } }.powerTake (vy * iy))
    else
      let s : State := if s.glade.powerBad then s
        else ({ s with glade := { s.glade with powerBad := true } }.errInc P.GLADE).raise P.GLADE B.GLADE_POWER_INVALID Evn.GLADE_POWER_INVALID
      .next (s.powerTake (10000 * s.ceiling))

/-! ## Loss of flow (R336, R337) -/

/-- FLOW_END: flow has stayed below RUN_MIN for more than 2 s with a stand armed. -/
def execFlowEnd (s : State) : Host.Outcome State Fault Refusal :=
  .next (if s.armed && s.inputValid 0 && s.flag F.THERM_STATUS_FLOW_LOW && !s.flag F.THERM_STATUS_END_REQUESTED then
      (s.putB F.THERM_STATUS_END_REQUESTED true).endRequest.raise P.THERM B.THERM_FLOW_END Evn.THERM_FLOW_END
    else s)

/-- RUN_OK_SET: flow has stayed at or above 1.10 × RUN_MIN for 10 s; not while FLOW_STOP reads 1 (R337, R351). -/
def execRunOkSet (s : State) : Host.Outcome State Fault Refusal :=
  let m : Int := (bitsOf (s.rd Reg.THERM_RUN_MIN) 0 16 : Nat)
  .next (if s.inputValid 0 && decide (11 * m ≤ 10 * s.inputY 0) && !s.flag F.GLADE_STATUS_FLOW_STOP && !s.powerAbsent then
      s.putB F.THERM_STATUS_RUN_OK true
    else s)

/-! ## Writes (R329, R330, R340 to R342) -/

/-- A cap within 500 W to the ceiling. -/
def State.capOk (s : State) (v : Word) : Bool := decide (500 ≤ bitsOf v 0 16) && decide (bitsOf v 0 16 ≤ s.ceiling)

/-- A write of RACK_CAP; each accepted one raises RACK_CAP_SET (R330, R453). -/
def State.rackCapWrite (s : State) (w : WriteReq) : State :=
  let mode := bitsOf (s.rd Reg.TELEM_MODE) 0 2
  s.gateW Reg.THERM_RACK_CAP w (w.req == .sideband && decide (mode ≠ 1) && s.capOk w.data) (fun s =>
    ({ s.putB F.THERM_STATUS_RACK_DEFAULT false with therm := { s.therm with rack := bitsOf w.data 0 16 } }).capUpdate.raise P.SIDEBAND
      B.SIDEBAND_RACK_CAP_SET Evn.SIDEBAND_RACK_CAP_SET (some (BitVec.ofNat 32 (bitsOf w.data 0 16))))

def execRackCapWrite (w : WriteReq) (s : State) : Host.Outcome State Fault Refusal := .next (s.rackCapWrite w)

/-- A write of HOST_CAP (R329). -/
def State.hostCapWrite (s : State) (w : WriteReq) : State :=
  s.gateW Reg.THERM_HOST_CAP w (hostOrCanopy w.req && s.capOk w.data) (fun s =>
    (s.put ⟨Reg.THERM_HOST_CAP, 0, 16⟩ (bitsOf w.data 0 16)).capUpdate)

def execHostCapWrite (w : WriteReq) (s : State) : Host.Outcome State Fault Refusal := .next (s.hostCapWrite w)

/-- A write of TELEM.MODE (R340). -/
def State.telemModeWrite (s : State) (w : WriteReq) : State :=
  let m := bitsOf w.data 0 2
  let ok := (w.req == .sideband || isCanopy w.req) && decide (m ≠ 3)
    && !(decide (m = 1) && s.flag F.HWOOD_PROTECT_RACK_CAP_REQUIRED)
  s.gateW Reg.TELEM_MODE w ok (fun s => (s.put ⟨Reg.TELEM_MODE, 0, 2⟩ m).capUpdate)

def execTelemModeWrite (w : WriteReq) (s : State) : Host.Outcome State Fault Refusal := .next (s.telemModeWrite w)

/-- RUN_MIN from the fused minimum flow and NOM_FLOW (R336). -/
def State.runMin (s : State) : State :=
  s.wr Reg.THERM_RUN_MIN (BitVec.ofNat 32 (max (bitsOf (s.rd Reg.HWOOD_MIN_FLOW) 0 16) (bitsOf (s.rd Reg.THERM_NOM_FLOW) 0 16 * 2 / 5)))

/-- Stated ranges of the governor's configuration registers (Tables 14.5, 14.6). -/
def thermCfgOk (off : Nat) (v : Word) : Bool :=
  let within := fun (f : Fld) lo hi => decide (lo ≤ f.of v) && decide (f.of v ≤ hi)
  if off = Reg.THERM_JCT_CFG then
    within F.THERM_JCT_CFG_KJ 1 255 && within F.THERM_JCT_CFG_RELEASE 1 255 && within F.THERM_JCT_CFG_GROVE_TARGET 60 100
      && within F.THERM_JCT_CFG_MEM_TARGET 60 95
  else if off = Reg.THERM_JCT_CFG2 then within F.THERM_JCT_CFG2_FLOOR_TARGET 60 110 && within F.THERM_JCT_CFG2_AREA_TARGET 60 110
  else if off = Reg.THERM_COOLANT_CFG then
    within F.THERM_COOLANT_CFG_CF 400 800 && within F.THERM_COOLANT_CFG_MARGIN 0 100 && within F.THERM_COOLANT_CFG_RISE_TOL 10 100
  else if off = Reg.THERM_NOM_FLOW then decide (1000 ≤ bitsOf v 0 16) && decide (bitsOf v 0 16 ≤ 10000)
  else true

/-- A write of LOOP_GAIN, JCT_CFG, JCT_CFG2, COOLANT_CFG or NOM_FLOW: the Canopy cores' alone (R341). -/
def State.thermCfgWrite (s : State) (off : Nat) (w : WriteReq) : State :=
  let mask : Word := if off = Reg.THERM_JCT_CFG2 ∨ off = Reg.THERM_NOM_FLOW then 0xFFFF else 0xFFFFFFFF
  s.gateW off w (isCanopy w.req && thermCfgOk off w.data) (fun s =>
    let s := s.wr off (w.data &&& mask)
    if off = Reg.THERM_NOM_FLOW then s.runMin else s)

/-- A write of TELEM.WINDOW (R342). -/
def State.telemWindowWrite (s : State) (w : WriteReq) : State :=
  let v := bitsOf w.data 0 13
  s.gateW Reg.TELEM_WINDOW w (hostOrCanopy w.req && decide (1 ≤ v) && decide (v ≤ 6000)) (fun s =>
    s.wr Reg.TELEM_WINDOW (BitVec.ofNat 32 v))

/-! ## Telemetry windows (R340, R342) -/

/-- A mean rounded to nearest, ties upward; 0 of no samples. -/
def meanOf (sum : Int) (n : Nat) : Int := if n = 0 then 0 else (2 * sum + n) / (2 * n)

/-- A fresh window. -/
def State.winRestart (s : State) : State :=
  { s with therm := { s.therm with win := { cap := s.get F.THERM_CAP_EFF_CAP } } }

/-- TELEM_WINDOW_CLOSE: every window register and WIN_SEQ update together (R340). -/
def execTelemWindowClose (s : State) : Host.Outcome State Fault Refusal :=
  if s.powerAbsent then .next s
  else
    let w := s.therm.win
    let s : State := s.bumpW Reg.TELEM_WIN_SEQ 1
    let s : State := s.wr Reg.TELEM_AVG_POWER (BitVec.ofNat 32 (int16 (meanOf w.pSum (w.pN * 10000))))
    let s : State := s.wr Reg.TELEM_PEAK_POWER (BitVec.ofNat 32 (min ((w.pMax + 5000) / 10000) 65535))
    let s : State := s.wr Reg.TELEM_TEMP_WIN (BitVec.ofNat 32 (int16 (meanOf w.tSum w.tN) + 65536 * int16 w.tMax))
    let s : State := s.wr Reg.TELEM_FLOW_WIN (BitVec.ofNat 32 (int16 (meanOf w.fSum w.fN) + 65536 * (w.fMin % 65536)))
    let s : State := s.wr Reg.TELEM_CAP_WIN (BitVec.ofNat 32 (w.cap % 65536))
    .next s.winRestart

/-- FN_RESET of the TELEM page: the window restarts; MODE and ENERGY stay (R342). -/
def State.telemReset (s : State) : State :=
  let mode := s.rd Reg.TELEM_MODE
  let e := s.rd64 Reg.TELEM_ENERGY_LO
  (((s.resetBlock P.TELEM).wr Reg.TELEM_MODE mode).wr64 Reg.TELEM_ENERGY_LO e).winRestart

/-- The governor's registers at their reset values for the present fuses, but for the rack cap (R341). -/
def State.thermDefaults (s : State) : State :=
  let s := s.resetBlock P.THERM
  let c := s.ceiling
  let s := (s.put ⟨Reg.THERM_HOST_CAP, 0, 16⟩ c).put ⟨Reg.THERM_THERMAL_CAP, 0, 16⟩ c
  let s : State := { s with therm := { groveT := s.therm.groveT, floorT := s.therm.floorT, memT := s.therm.memT, areaT := s.therm.areaT,
                                       rack := s.therm.rack, samples := s.therm.samples, sums := s.therm.sums, win := s.therm.win,
                                       energy := s.therm.energy, j := c * 100 } }
  s.runMin.capUpdate

/-- FN_RESET of the THERM page (R341): RACK_CAP and RACK_DEFAULT keep what the last accepted rack cap made them. -/
def State.thermReset (s : State) : State :=
  let d := s.flag F.THERM_STATUS_RACK_DEFAULT
  s.thermDefaults.putB F.THERM_STATUS_RACK_DEFAULT d

/-- The governor at power-on (R325, R330). -/
def State.thermPowerOn (s : State) : State :=
  let rack := if s.flag F.HWOOD_PROTECT_RACK_CAP_REQUIRED then 1300 else s.ceiling
  let s : State := { s with therm := { rack := rack } }
  (((s.resetBlock P.TELEM).thermDefaults).winRestart)

/-- FN_RESET of a GSENS page: the disagreement timer and PEAK clear (R343). -/
def State.gsensReset (s : State) (g : Nat) : State :=
  let s : State := { s with therm := { s.therm with apart := aset 0 s.therm.apart g 0, near := aset 0 s.therm.near g 0 } }
  s.wr (Reg.GSENS_PEAK g) 0

end Sys2Proof.Machine
end

