-- ==== Sys2Proof/Machine/FnCtl.lean ====
section
/-! DEFINITION. Function control (R22 to R28, R476): what FN_ENABLE, FN_DISABLE and FN_RESET do on each page, and how start and shut-down
sequences end. -/

namespace Sys2Proof.Machine

/-- The page base of page number `n`. -/
abbrev pageBase (n : Nat) : Nat := 4096 * n

/-! ## Starting -/

/-- An OFF function's start sequence begins. A link trains (R186); a Canopy core restarts (R370, R374). -/
def State.fnStart (s : State) (pg : Nat) : State :=
  match pageAt (pg / 4096) with
  | some (.link, l) => s.linkEnable l
  | some (.canopy, k) => s.beginRestart k false false 0
  | _ => s.setFn pg fnStarting

/-- FN_ENABLE on a page that is not continuous (Table 2.5). -/
def State.fnEnable (s : State) (pg : Nat) : State :=
  if s.absent pg then s
  else if s.fn pg = fnOff then s.fnStart pg
  else if s.fn pg = fnDraining then s.putB (Hdr.PENDING_ENABLE pg) true
  else s

/-! ## Stand-critical functions (R28) -/

/-- FN_RESET or FN_DISABLE of a stand-critical function pace-faults the module; DETAIL names the link or grove. -/
def State.fnCritical (s : State) (pg : Nat) : State :=
  if s.standPages.contains pg then
    let detail := match pageAt (pg / 4096) with
      | some (.link, l) | some (.reduce, l) => l
      | some (.engine, i) => i / 16
      | some (.grove, g) | some (.gsram, g) | some (.gwin, g) | some (.gdma, g) | some (.gsens, g) => g
      | _ => 0
    (s.paceFault causeFnReset detail).raiseBare P.STAND Evn.COMPUTE_FN_RESET_ABORT
  else s

/-! ## Shutting down -/

/-- Every zone valve goes through DECAY to OFF (R320). -/
def State.valvesDecay (s : State) : State :=
  (List.range 24).foldl (fun (s : State) v =>
    if s.vstate v = vsPeak ∨ s.vstate v = vsHold then s.valveDecay v else if s.vstate v = vsWait then s.valveUnwait v vsOff else s) s

/-- The shut-down of a READY or STARTING function begins, in its owning chapter's order. -/
def State.fnDrain (s : State) (pg : Nat) : State :=
  match pageAt (pg / 4096) with
  | some (.link, l) => s.linkTakedown l
  | some (.clk, _) => s.clkDisable
  | some (.canopy, k) =>
    let s := if s.canopy.former.map (·.val) = some k then s.overlapOff else s
    (s.setCore k { restarts := (s.core k).restarts }).setFn pg fnOff
  | some (.svc, c) => s.svcLeave c (fun s => s.setFn pg fnDraining)
  | some (.stand, _) => s.disarm.setFn pg fnDraining
  | some (.pump, _) => (s.setFn pg fnDraining).pumpsDisable
  | some (.valve, _) => (s.setFn pg fnDraining).valvesDecay
  | some (.hostdma, _) => (List.range 4).foldl (fun (s : State) c => s.hdStop c) (s.setFn pg fnDraining)
  | some (.serve, _) => ({ s with serve := { s.serve with ending := true } }).setFn pg fnDraining
  | some (.submit, _) => (s.setFn pg fnDraining).svcRoles
  | _ => s.setFn pg fnDraining

/-- FN_DISABLE on a page that is not continuous (Table 2.5). -/
def State.fnDisable (s : State) (pg : Nat) : State :=
  if s.absent pg then s
  else
    let st := s.fn pg
    if st = fnReady ∨ st = fnStarting then (s.fnCritical pg).fnDrain pg
    else if st = fnDraining then (s.fnCritical pg).putB (Hdr.PENDING_ENABLE pg) false
    else if st = fnFault then
      match pageAt (pg / 4096) with
      | some (.link, l) => (s.fnCritical pg).linkOff l
      | _ => (s.fnCritical pg).setFn pg fnOff
    else s

/-- Whether the shut-down of a DRAINING function can be complete: pumps stopped, valves through DECAY, no channel busy. -/
def State.drainOver (s : State) (pg : Nat) : Bool :=
  match pageAt (pg / 4096) with
  | some (.pump, _) => s.pumpsOff
  | some (.valve, _) => (List.range 24).all (fun v => decide (s.vstate v = vsOff))
  | some (.hostdma, _) => (List.range 4).all (fun c => !s.hdBusy c)
  | some (.serve, _) => false
  | _ => true

/-- SHUTDOWN_DONE: OFF, or STARTING with an enable latched (Table 2.5). SERVE's shut-down ends by SEQ_STAND_END (R290). -/
def execShutdownDone (page : BitVec 10) (s : State) : Host.Outcome State Fault Refusal :=
  let pg := pageBase page.toNat
  if decide (s.fn pg = fnDraining) && s.drainOver pg then
    match pageAt page.toNat with
    | some (.link, l) => .next (s.takedownEnd l)
    | some (.svc, c) => .next ((s.drained (P.SVC c)).svcRoles)
    | some (.lpddr, m) => .next ((s.lpddrSelfRefresh m).drained pg)
    | _ => .next (s.drained pg)
  else .next s

/-! ## Reset -/

/-- Registers of a page that its FN_RESET leaves as they are: those that report or hold what the reset does not end — the armed stand's
windows, programs and link roles, and groves' live status (R143, R229, R255). -/
def resetKeeps (k : PageKind) (o : Nat) : Word :=
  match k with
  | .grove => if o = 0x48 then 0xF else 0
  | .gwin => if o = 0x40 then 0xFFF else if o = 0x4C ∨ 0x100 ≤ o then 0xFFFFFFFF else 0
  | .link => if o = 0x40 then 0x30 else 0
  | .reduce => if o = 0x40 then 1 else if o = 0x44 then 0xFFF else 0
  | .lpddr => if o = 0x40 then 0x18 else if o = 0x74 ∨ o = 0x78 ∨ 0x100 ≤ o then 0xFFFFFFFF else 0
  | .floor => if o = 0x40 then 3 else 0
  | .sideband => if o = 0x44 then 0x7F else 0
  | _ => 0

/-- FN_RESET's register part on an ordinary page. -/
def State.fnResetKeeping (s : State) (k : PageKind) (pg : Nat) : State :=
  let kept := (s.regs.filter (fun e => decide (pg + 0x40 ≤ e.1) && decide (e.1 < pg + 0x1000))).map (fun e => (e.1, resetKeeps k (e.1 - pg)))
  let s1 := s.fnResetPage pg
  (kept.filter (fun e => decide (e.2 ≠ 0))).foldl (fun (t : State) e => t.wr e.1 ((s.rd e.1 &&& e.2) ||| (t.rd e.1 &&& ~~~e.2))) s1

/-- FN_RESET of the SEC page drops the nonce, the pending token and the report (R446). -/
def State.secReset (s : State) : State :=
  let s := ((s.putB F.SEC_STATUS_NONCE_VALID false).putB F.SEC_STATUS_TOKEN_PENDING false).resetRegs ((List.range 4).map Reg.SEC_NONCE)
  let s := if s.sec.token.isSome then (s.put F.SEC_TOKEN_RESULT_RESULT 0).put F.SEC_TOKEN_RESULT_TTL 0 else s
  let s := ((s.putB F.SEC_STATUS_REPORT_BUSY false).putB F.SEC_STATUS_REPORT_VALID false).resetRegs (Reg.SEC_REPORT_LEN :: (List.range 256).map Reg.SEC_REPORT)
  { s with sec := { s.sec with token := none, report := none } }

/-- FN_RESET of a continuous page carries out the resets its chapter gives (R476). -/
def State.contReset (s : State) (k : PageKind) : State :=
  match k with
  | .arb => (s.wr Reg.ARB_REFUSED_INFO 0).wr Reg.ARB_REFUSED_ADDR 0
  | .evt => s.resetRegs [Reg.EVT_DROP0, Reg.EVT_DROP1, Reg.EVT_COALESCED, Reg.EVT_PLDM_DROP, Reg.EVT_CANOPY_DROP, Reg.EVT_FWD_SKIP, Hdr.EVT_SUMMARY P.EVT]
  | .glade =>
    let s := s.resetRegs [Reg.GLADE_TIMEOUTS, Reg.GLADE_ISLAND_LOG, Hdr.EVT_SUMMARY P.GLADE]
    { s.putB F.GLADE_TM_CTRL_FORCE false with glade := { s.glade with island := [] } }
  | .therm => s.thermReset
  | .telem => s.telemReset
  | .coolant => s.coolantReset
  | .rlog => { s.resetRegs [Hdr.EVT_SUMMARY P.RLOG] with rlog := { s.rlog with sels := [] } }
  | .module => s.resetRegs [Hdr.EVT_SUMMARY P.MODULE]
  | .dwood => s.resetRegs [Reg.DWOOD_SEL, Reg.DWOOD_ENTRY 0, Reg.DWOOD_ENTRY 1, Reg.DWOOD_ENTRY 2, Reg.DWOOD_ENTRY 3, Hdr.EVT_SUMMARY P.DWOOD]
  | .hwood => s.fuseLoad
  | .sec => s.secReset
  | _ => s

/-- FN_RESET of a page that is not continuous, but for the pace fault of a stand-critical one (R26, R27). -/
def State.fnResetBody (s : State) (k : PageKind) (inst pg : Nat) : State :=
  match k with
  | .clk => s.clkReset
  | .hostdma => s.hostdmaReset
  | .submit => s.submitReset.svcRoles
  | .pump => s.pumpReset
  | .valve => s.valveReset
  | .canopy =>
    let s := if s.canopy.former.map (·.val) = some inst then s.overlapOff else s
    (s.setCore inst { restarts := (s.core inst).restarts }).fnResetKeeping k pg
  | .sideband =>
    let s := { s.fnResetKeeping k pg with side := { lastRx := { base := s.now } } }
    s.sideAlert
  | .serve => (s.setServe { beats := s.serve.beats }).fnResetKeeping k pg
  | .sample => { s with sample := {} }.fnResetKeeping k pg
  | .svc => s.svcLeave inst (fun s => s.fnResetKeeping k pg)
  | .stand => s.disarm.fnResetKeeping k pg
  | .link => ((s.returnUnsent inst).emit (.lanesIdle inst)).fnResetKeeping k pg
  | .lpddr => (s.fnResetKeeping k pg).putB (F.LPDDR_STATUS_SELF_REFRESH inst) true
  | .engine => (s.setEng inst (s.eng inst).abandon).fnResetKeeping k pg
  | .gdma => (s.setGrove inst { s.grove inst with chans := [] }).fnResetKeeping k pg
  | .gsens => (s.gsensReset inst).fnResetKeeping k pg
  | .reduce => (s.setRed inst { prog := (s.red inst).prog }).fnResetKeeping k pg
  | _ => s.fnResetKeeping k pg

/-- FN_RESET (R26 to R28, R476). A further one adds nothing to the reset in progress. A core that resets its own page restarts (R370). -/
def State.fnReset (s : State) (req : Req) (pg : Nat) : State :=
  match pageAt (pg / 4096) with
  | none => s
  | some (k, inst) =>
    if s.absent pg ∨ s.flag (Hdr.RESET_BUSY pg) then s
    else if isContinuous k then (s.contReset k).putB (Hdr.RESET_BUSY pg) true
    else
      let s := (s.fnCritical pg).fnResetBody k inst pg
      if k = .canopy ∧ req = coreReq inst then (s.putB (Hdr.RESET_BUSY pg) false).beginRestart inst false false 0 else s

/-- A reset is over: RESET_BUSY clears, and STATE reads OFF (R26, R27). -/
def State.fnResetEnd (s : State) (pg : Nat) : State :=
  let s := s.putB (Hdr.RESET_BUSY pg) false
  match pageAt (pg / 4096) with
  | some (k, _) => if isContinuous k then s else s.setFn pg fnOff
  | none => s

/-- FN_RESET_DONE. -/
def execFnResetDone (page : BitVec 10) (s : State) : Host.Outcome State Fault Refusal :=
  .next (if s.flag (Hdr.RESET_BUSY (pageBase page.toNat)) then s.fnResetEnd (pageBase page.toNat) else s)

/-! ## CTRL (R24, R29, R374, R476) -/

/-- Test 5 of R475 on a CTRL write: FN_DISABLE of a continuous page is refused, and a Canopy page takes CTRL writes under R374. -/
def State.ctrlOk (s : State) (req : Req) (k : PageKind) (inst : Nat) (data : Word) : Bool :=
  let reset := data.toNat.testBit 2
  let disable := data.toNat.testBit 1 && !reset
  if isContinuous k then !disable
  else if k = .canopy then
    if req = coreReq inst then reset && decide (s.holder ≠ inst + 1)
    else decide (s.holder ≠ inst + 1)
  else true

/-- A CTRL write's action: FN_RESET takes precedence, and FN_DISABLE over FN_ENABLE (R24). -/
def State.ctrlAct (s : State) (req : Req) (k : PageKind) (pg : Nat) (data : Word) : State :=
  if data.toNat.testBit 2 then s.fnReset req pg
  else if isContinuous k ∨ s.flag (Hdr.RESET_BUSY pg) then s
  else if data.toNat.testBit 1 then s.fnDisable pg
  else if data.toNat.testBit 0 then s.fnEnable pg
  else s

/-- A write of a page's CTRL register; no page, no effect (R20). -/
def State.ctrlWrite (s : State) (pg : Nat) (w : WriteReq) : State :=
  match pageAt (pg / 4096) with
  | none => s
  | some (k, inst) => s.gateW (Hdr.CTRL pg) w (s.ctrlOk w.req k inst w.data) (fun s => s.ctrlAct w.req k pg w.data)

def execFnEnable (req : Req) (page : BitVec 10) (s : State) : Host.Outcome State Fault Refusal :=
  .next (s.ctrlWrite (pageBase page.toNat) { req := req, data := 1, be := 15 })
def execFnDisable (req : Req) (page : BitVec 10) (s : State) : Host.Outcome State Fault Refusal :=
  .next (s.ctrlWrite (pageBase page.toNat) { req := req, data := 2, be := 15 })
def execFnReset (req : Req) (page : BitVec 10) (s : State) : Host.Outcome State Fault Refusal :=
  .next (s.ctrlWrite (pageBase page.toNat) { req := req, data := 4, be := 15 })

/-! ## Bring-up's units (R384, R387, R392) -/

/-- The pages of a grove. -/
def grovePages (g : Nat) : List Nat :=
  [P.GROVE g, P.GSRAM g, P.GWIN g, P.GDMA g, P.GSENS g] ++ (List.range 9).map (fun p => P.ENGINE g p)

/-- A grove out of service: its pages absent. -/
def State.groveRetire (s : State) (g : Nat) : State :=
  (grovePages g).foldl (fun (s : State) pg => if s.absent pg then s else s.retire pg) s

/-- A grove controller fails during bring-up: a Deadwood entry, applied in the same step (R387, Table 17.3). -/
def State.groveFail (s : State) (g : Nat) : State :=
  (s.dwAdd dwGrove g 0 (Config.entryEvent dwGrove).toNat 1).groveRetire g

/-- One group of 32 data banks on one die: whether the spare is used, and the group's retired data positions (R134, R392). Positions are of
Table 17.3; check bank 256 + 4j + k serves data banks 32j + 8k to 32j + 8k + 7. -/
def groupSpare (failed : List Nat) (j : Nat) : Bool × List Nat :=
  let checks := (List.range 4).filter (fun k => failed.contains (256 + 4 * j + k))
  let datas := (List.range 32).filter (fun i => failed.contains (32 * j + i))
  let spare := !failed.contains (288 + j)
  let lost := fun (cs : List Nat) (ds : List Nat) =>
    (List.range 32).filter (fun i => ds.contains i || cs.contains (i / 8)) |>.map (fun i => 32 * j + i)
  if !spare then (false, lost checks datas)
  else match checks, datas with
    | _ :: cs, ds => (true, lost cs ds)
    | [], _ :: ds => (true, lost [] ds)
    | [], [] => (false, [])

/-- The banks of a die of a grove that have failed: named in Deadwood, or found now. -/
def State.failedBanks (s : State) (g die : Nat) : List Nat :=
  (List.range 296).filter (fun p => s.dwNamed dwSramBank g (512 * die + p))

/-- SRAM self-test and repair of a grove at a start (R134, R380, R392). -/
def State.gsramRepair (s : State) (g : Nat) (o : StartObs) : State :=
  let force := s.flag F.MODULE_BOOT_CFG_FORCE_COLD || decide (s.mod.bootMode = 2)
  let warm := (s.grove g).repairOk && o.crcOk && !force && o.banks.isEmpty
  let s := o.banks.foldl (fun (s : State) b => s.dwAdd dwSramBank g b.toNat (Config.entryEvent dwSramBank).toNat 1) s
  let plan := (List.range 16).map (fun i => (i, groupSpare (s.failedBanks g (i / 8)) (i % 8)))
  let used := plan.foldl (fun n e => if e.2.1 then n + 2 ^ e.1 else n) 0
  let lost := plan.flatMap (fun e => e.2.2.map (fun p => 256 * (e.1 / 8) + p))
  let s := s.wr (Reg.GSRAM_SPARE_USED g) (BitVec.ofNat 32 used)
  let s := s.wr (Reg.GSRAM_RETIRED_COUNT g) (BitVec.ofNat 32 lost.length)
  let s := (List.range 16).foldl (fun (s : State) j =>
    s.wr (Reg.GSRAM_RETIRED g j) (BitVec.ofNat 32 ((lost.filter (fun b => decide (b / 32 = j))).foldl (fun n b => n + 2 ^ (b % 32)) 0))) s
  let s := s.put (F.GROVE_SHAPE_USABLE_BANKS g) (512 - lost.length)
  let s := if warm then s else { s with boot := { s.boot with cold := g :: s.boot.cold } }
  s.setGrove g { s.grove g with repairOk := true }

/-! ## Start sequences end -/

/-- START_SEQ_DONE on a page that is STARTING. Links and Canopy cores come up by rows of their own; SUBMIT and SERVE check what R268 and R280
give. -/
def State.startDone (s : State) (k : PageKind) (inst pg : Nat) (o : StartObs) : State :=
  match k with
  | .link | .canopy => s
  | .clk => s.clkStarted
  | .lpddr => (s.lpddrStarted inst o.chans).lpGeometry
  | .gsram => (if s.mod.mstate = .bringup then s.gsramRepair inst o else s).setFn pg fnReady
  | .engine =>
    let g := inst / 16
    let p := inst % 16
    if s.mod.mstate = .bringup then s.setFn pg fnReady
    else ((s.putB (F.ENGINE_STATUS_KAT_PASS g p) true).putB (F.ENGINE_STATUS_SPARE g p) (!s.flag (F.ENGINE_MAP_IN_USE g p))).setFn pg fnReady
  | .reduce => s.reduceStarted inst
  | .sample => s.sampleStarted
  | .submit => s.submitStart
  | .serve => s.serveStart
  | .svc =>
    let s := (s.wr (Reg.SVC_FW_VER inst) o.version).wr (Reg.SVC_FW_OWNER inst) (match o.owner with | some k => BitVec.ofNat 32 k.val | none => 0xFF)
    let s := (s.putB (F.SVC_STATUS_CUSTOMER inst) o.owner.isSome).extendM 2 (bytesOf (Config.sm3 o.head))
    let s := s.setServe { s.serve with beats := aset {} s.serve.beats inst { acc := 0, base := s.now } }
    (s.setFn pg fnReady).svcRoles
  | .pump => (s.setFn pg fnReady).pumpsApply
  | .valve => (s.setFn pg fnReady).valvesUpdate
  | _ => s.setFn pg fnReady

def execStartSeqDone (page : BitVec 10) (obs : StartObs) (s : State) : Host.Outcome State Fault Refusal :=
  match pageAt page.toNat with
  | some (k, inst) => .next (if s.fn (pageBase page.toNat) = fnStarting then s.startDone k inst (pageBase page.toNat) obs else s)
  | none => .next s

/-- START_SEQ_FAIL: FAULT, and what the owning chapter adds (R225, R249, R279, R296; Table 17.3). -/
def State.startFail (s : State) (k : PageKind) (inst pg detail : Nat) : State :=
  let boot := decide (s.mod.mstate = .bringup)
  match k with
  | .link | .canopy => s
  | .lpddr => (s.lpddrStartFailed inst detail).lpGeometry
  | .reduce => s.reduceStartFailed inst
  | .sample =>
    let s := s.sampleStartFailed
    if boot then s.retire P.SAMPLE else s
  | .submit => s.submitStart
  | .serve => s.serveStart
  | .svc =>
    let s := if detail = 4 then
        (((s.setFn pg fnOff).wr (Reg.SVC_FAULT_INFO inst) 4).raise pg B.SVC_FW_REJECTED Evn.SERVICE_FW_REJECTED).svcRoles
      else s.svcFault inst detail (Config.entryEvent dwSvc).toNat
    if boot then ((s.dwAdd dwSvc inst 0 (Config.entryEvent dwSvc).toNat 5).retire pg).svcRoles else s
  | .engine =>
    let s := (s.putB (F.ENGINE_STATUS_KAT_PASS (inst / 16) (inst % 16)) false).toFault pg
    if boot then (s.dwAdd dwEngine (inst / 16) (inst % 16) (Config.entryEvent dwEngine).toNat 2).retire pg else s
  | .grove | .gsram =>
    let s := s.toFault pg
    if boot then s.groveFail inst else s
  | _ => s.toFault pg

def execStartSeqFail (page : BitVec 10) (detail : BitVec 8) (s : State) : Host.Outcome State Fault Refusal :=
  match pageAt page.toNat with
  | some (k, inst) => .next (if s.fn (pageBase page.toNat) = fnStarting then s.startFail k inst (pageBase page.toNat) detail.toNat else s)
  | none => .next s

/-- INTERNAL_FAULT of a READY, STARTING or DRAINING function (Table 2.5). The faults of links and Canopy cores have rows of their own, and a
continuous page has none. -/
def execInternalFault (page : BitVec 10) (detail : BitVec 8) (s : State) : Host.Outcome State Fault Refusal :=
  let pg := pageBase page.toNat
  let st := s.fn pg
  match pageAt page.toNat with
  | none => .next s
  | some (k, inst) =>
    if isContinuous k || k == .link || k == .canopy || !(decide (st = fnReady) || decide (st = fnStarting) || decide (st = fnDraining)) then .next s
    else match k with
      | .svc => .next (s.svcFault inst detail.toNat (Config.entryEvent dwSvc).toNat)
      | .serve => .next ((s.toFault P.SERVE).setServe { s.serve with mine := [], commit := none, withheld := false, ending := false, faulted := true })
      | .submit => .next (s.toFault P.SUBMIT).svcRoles
      | _ => .next (s.toFault pg)

end Sys2Proof.Machine
end

