-- ==== Sys2Proof/Machine/Power.lean ====
section
/-! DEFINITION. 48 V power: what the loss of the conversion takes with it and what the standby island, MRAM, NOR and the fuses keep
(R12, R15, R344, R346, R434), and the variant's fusing (R395). -/

namespace Sys2Proof.Machine

/-! ## Fused units (R395) -/

/-- The units that the variant fuses read ABSENT with CAPS.FUSED. -/
def State.applyFusing (s : State) : State :=
  let gs := (List.range 16).filter (fun g => (s.get F.HWOOD_VARIANT_GROVES_FUSED).testBit g)
  let s := gs.foldl (fun (s : State) g => (grovePages g).foldl (fun (s : State) pg => s.fuseOut pg) s) s
  let s := if s.flag F.HWOOD_VARIANT_LINKS_HI then (List.range 32).foldl (fun (s : State) l => s.fuseOut (P.LINK (64 + l))) s else s
  let s := if s.flag F.HWOOD_VARIANT_REDUCE then (List.range 96).foldl (fun (s : State) l => s.fuseOut (P.REDUCE l)) s else s
  let s := if s.flag F.HWOOD_VARIANT_SAMPLE then s.fuseOut P.SAMPLE else s
  if s.flag F.HWOOD_VARIANT_SVC_HI then (List.range 4).foldl (fun (s : State) c => s.fuseOut (P.SVC (4 + c))) s else s

/-! ## What a start finds of its units -/

/-- Engines, groves, links, reduction units and memories with nothing but what MRAM holds of them: residue counts, repair records and
training records (R190, R248, R380, R394). Memory contents are not preserved (R375). -/
def State.unitsCold (s : State) : State :=
  { s with
    engines := (s.engines.map (fun e => (e.1, ({ residues := e.2.residues } : EngineSt)))).filter (fun e => decide (e.2 ≠ {})),
    groves := (s.groves.map (fun e => (e.1, ({ repairOk := e.2.repairOk } : GroveSt)))).filter (fun e => decide (e.2 ≠ {})),
    links := (s.links.map (fun e => (e.1, ({ trained := e.2.trained } : LinkSt)))).filter (fun e => decide (e.2 ≠ {})),
    lpddr := { recs := s.lpddr.recs }, reduce := [], inbox := [], stand := {}, image := none, mem := [], poison := [], bg := [],
    serve := {}, sample := {}, group := {} }

/-! ## The 48 V conversion -/

/-- The registers that outlast the 48 V conversion: the pages of the standby island, the fuses' copies, and what MRAM holds. -/
def outlasts (off : Nat) : Bool :=
  decide (pageOf off = P.GLADE) || decide (pageOf off = P.COOLANT) || decide (pageOf off = P.HWOOD) || keptReg off
    || decide (off = Reg.MODULE_MSTATE)

/-- Every part that 48 V powers loses its state (R344, R419, R434). -/
def State.volatileLost (s : State) : State :=
  let s := match s.sec.blow with
    | some b => s.blowEnd b false
    | none => s
  let s : State := { s.unitsCold with regs := s.regs.filter (fun e => outlasts e.1) }
  let s : State := { s with
    ctx := [], evt := {}, clk := {}, host := {}, canopy := {}, side := {},
    boot := { prevShape := s.boot.prevShape, svcFaults := s.boot.svcFaults },
    rlog := { slots := s.rlog.slots, clear := s.rlog.clear.map (fun c => { c with cut := true }) },
    sec := { s.sec with checking := none, token := none, update := false, report := none } }
  let s := ((s.put F.MODULE_MSTATE_BOOT_STEP 0).putB F.MODULE_MSTATE_WAIT false).putB F.MODULE_MSTATE_WARM false
  (s.putB F.MODULE_MSTATE_HOLD false).applyFusing

/-- The arbiter's entries reach Ringlog, which takes each within 250 ns, while the conversion still runs: it goes off up to 50 µs
after a trip and up to 1 ms after PWR_OK (R356, R419, R470). -/
def State.evtFlush (s : State) : State := s.evAll.foldl (fun (s : State) _ => (s.evSequence 0).rlogTake) s

/-- The 48 V conversion is off: power state Standby (R12, R346, R470). -/
def State.conversionOff (s : State) : State :=
  let s := s.evtFlush
  let s : State := { s with mod := { s.mod with power := .standby, v48 := false, target := none, byCommand := false, fsHold := false, svcHeld := [] } }
  s.fluidOff.volatileLost.inputsOff

/-- The module leaves its state for the loss of power: LEAK and TRIPPED stay (R15). -/
def State.powerLost (s : State) : State :=
  let s := s.conversionOff
  if s.mod.mstate = .leak ∨ s.mod.mstate = .tripped then s else s.setMState .standby

/-- The 48 V conversion is on: power state Hold, and the governor starts at its power-on values (R325, R330). -/
def State.conversionOn (s : State) : State :=
  let s : State := { s with mod := { s.mod with power := .hold, v48 := true } }
  let s : State := { s with side := { s.side with lastRx := { base := s.now } } }
  (s.putB F.GLADE_STATUS_ON_STANDBY false).thermPowerOn

/-! ## PWR_OK and the trip latch -/

/-- SHDN_L asserted, or released. -/
def State.setShdn (s : State) (b : Bool) : State :=
  { s.putB F.GLADE_STATUS_SHDN b with mod := { s.mod with shdnL := b } }

/-- A comparator fires (R356): SHDN_L, TRIP.LATCHED and the groves. -/
def State.tripRecord (s : State) (groves : Nat) : State :=
  let old := if s.flag F.GLADE_TRIP_LATCHED then s.get F.GLADE_TRIP_GROVES else 0
  ((s.setShdn true).putB F.GLADE_TRIP_LATCHED true).put F.GLADE_TRIP_GROVES (old ||| groves)

/-- An analog trip (R356): SHDN_L; the pace fault; the conversion off; TRIPPED. The event goes to the arbiter while it has power. -/
def State.trip (s : State) (groves : Nat) : State :=
  let s := (s.tripRecord groves).raise P.GLADE B.GLADE_TRIP Evn.GLADE_TRIP
  let s := if s.powerAbsent then s else (s.paceFault causeTrip).conversionOff
  { s.setMState .tripped with mod := { (s.setMState .tripped).mod with staggering := false } }

/-- PWR_OK is deasserted, or 48 V has failed (R463, R470). A stagger ends (R376). -/
def State.pwrOkGone (s : State) : State :=
  let s : State := { s with mod := { s.mod with pwrOk := false, offLong := false, staggering := false } }
  if s.mod.v48 then s.powerLost else s

def execPwrOkDeassert (s : State) : Host.Outcome State Fault Refusal := .next (if s.mod.pwrOk then s.pwrOkGone else s)

/-- VIN_UNDERVOLT: 48 V below 36 V for 100 µs with PWR_OK asserted counts as its deassertion (R463). -/
def execVinUndervolt (s : State) : Host.Outcome State Fault Refusal := .next (if s.mod.pwrOk then s.pwrOkGone else s)

/-- SHDN_RELEASE: PWR_OK has been deasserted for 1 s (R356, R378). -/
def execShdnRelease (s : State) : Host.Outcome State Fault Refusal :=
  if s.mod.sbGood && !s.mod.pwrOk then
    let s : State := { s with mod := { s.mod with offLong := true } }
    .next ((s.setShdn false).putB F.GLADE_TRIP_LATCHED false)
  else .next s

/-- ANALOG_TRIP: a grove's diode exceeds the threshold while the standby rail is good (R355, R356). -/
def execAnalogTrip (groves : BitVec 16) (s : State) : Host.Outcome State Fault Refusal :=
  .next (if s.mod.sbGood && decide (groves ≠ 0) then s.trip groves.toNat else s)

/-! ## The standby rail (R344, R355, R467) -/

/-- STANDBY_RAIL_GOOD: TRIP_SEL is latched, the fuses are loaded, and the leak latch is restored from MRAM. -/
def execStandbyRailGood (tripSel : BitVec 2) (s : State) : Host.Outcome State Fault Refusal :=
  if s.mod.sbGood then .next s
  else
    let s : State := { s with mod := { s.mod with sbGood := true, tripSel := tripSel } }
    let s := (s.put F.GLADE_TRIP_STRAP tripSel.toNat).put F.MODULE_STRAPS_TRIP_SEL tripSel.toNat
    let s := s.fuseLoad.applyFusing.inputsOff
    .next (if s.leakLatched then s.setLeakL true else s)

/-- Registers that outlast the standby rail: what MRAM holds, the leak latch and its record among it (R315). -/
def outlastsRail (off : Nat) : Bool :=
  (keptReg off && decide (pageOf off ≠ P.HWOOD) && decide (pageOf off ≠ P.GLADE)) || decide (off = Reg.COOLANT_LEAK_INFO)
    || decide (off = Reg.COOLANT_LEAK_T0_LO) || decide (off = Reg.COOLANT_LEAK_T0_HI) || decide (off = Reg.COOLANT_LEAK_COUNT)

/-- STANDBY_RAIL_LOST: the standby island loses its power; SHDN_L and LEAK_L float, the trip latch and a debug opening end (R356, R441,
R467). The module keeps LEAK; from any other state it is next found in STANDBY. -/
def execStandbyRailLost (s : State) : Host.Outcome State Fault Refusal :=
  if s.mod.sbGood then
    let s : State := if s.mod.v48 then s.powerLost else s
    let s : State := { s with regs := s.regs.filter (fun e => outlastsRail e.1), glade := {}, coolant := {}, fluid := { ran := s.fluid.ran } }
    let s : State := { s.put F.COOLANT_LEAK_INFO_OPEN 0 with mod := { mstate := s.mod.mstate } }
    .next (s.setMState (if s.leakLatched && decide (s.mod.mstate = .leak) then .leak else .standby))
  else .next s

end Sys2Proof.Machine
end

