-- ==== Sys2Proof/Machine/Glade.lean ====
section
/-! DEFINITION. Glade's oscillator check, its table mode and its island log (R273, R345, R346, R352 to R354, R357). -/

namespace Sys2Proof.Machine

/-- OSC_MEASURE: the oscillator's error against FCLK in ppm, signed; OSC_RANGE once per episode beyond ±1.5 % (R345). -/
def execOscMeasure (ppm : BitVec 16) (s : State) : Host.Outcome State Fault Refusal :=
  if s.mod.sbGood && s.clk.pllUp then
    let bad := decide (15000 < ppm.toInt) || decide (ppm.toInt < -15000)
    let was := s.glade.oscBad
    let s : State := { s.put ⟨Reg.GLADE_OSC_PPM, 0, 16⟩ ppm.toNat with glade := { s.glade with oscBad := bad } }
    .next (if bad && !was then s.raise P.GLADE B.GLADE_OSC_RANGE Evn.GLADE_OSC_RANGE else s)
  else .next s

/-! ## Table mode (R352, R353) -/

/-- TM_CAUSE: bit 0 host alive expired, bit 1 no token holder. -/
def State.tmCause (s : State) : Nat :=
  (if s.flag F.HOSTDMA_STATUS_ALIVE_EXPIRED then 1 else 0) + (if s.glade.noHolder then 2 else 0)

/-- Some condition of R352 holds. -/
def State.tmWanted (s : State) : Bool := decide (s.tmCause ≠ 0) || s.flag F.GLADE_TM_CTRL_FORCE

/-- The three places where table mode shows. -/
def State.setTableMode (s : State) (b : Bool) : State :=
  ((s.putB F.GLADE_STATUS_TABLE_MODE b).putB F.PUMP_STATUS_TABLE_MODE b).putB F.VALVE_STATUS_TABLE_MODE b

/-- TM_TIME: seconds in the current or last episode. -/
def State.tmTime (s : State) : Nat :=
  if s.tableMode then min ((s.now - s.glade.tmStart) / (1000 * ticksMs)) 65535 else s.get F.GLADE_TM_STATE_TM_TIME

/-- OFF pumps of a list start together, unless rank 1 or 2 of Table 13.3 holds them off (R303, R305). -/
def State.pumpsStart (s : State) (ns : List Nat) : State :=
  if s.leakLatched || s.powerAbsent then s
  else (ns.foldl (fun (s : State) n => if s.pstate n = psOff then (s.put (F.PUMP_ST_ATTEMPT n) 0).pumpAttempt n else s) s).pumpSuff

/-- Table mode is entered when a condition holds (R352, R353): OFF pages come to READY (R319, R320), OFF pumps start, and pumps and valves
take the entry's values. TABLE_ENTER carries the causes. -/
def State.tmEval (s : State) : State :=
  if s.tmWanted && !s.tableMode && s.mod.sbGood then
    let cause := s.tmCause + (if s.flag F.GLADE_TM_CTRL_FORCE then 4 else 0)
    let s : State := { s.setTableMode true with glade := { s.glade with tmStart := s.now } }
    let s := s.raise P.GLADE B.GLADE_TABLE_ENTER Evn.GLADE_TABLE_ENTER (some (BitVec.ofNat 32 cause))
    let s := [P.PUMP, P.VALVE].foldl (fun (s : State) pg => if s.fn pg = fnOff then s.setFn pg fnReady else s) s
    (s.pumpsStart [0, 1, 2]).tmSelect.fluidApply
  else s

/-- ALIVE_LOST: ALIVE_AGE has reached HOST_TIMEOUT seconds (R273). -/
def execAliveLost (s : State) : Host.Outcome State Fault Refusal :=
  let counting := decide (s.mod.mstate ≠ .standby) && decide (s.mod.mstate ≠ .bringup) && decide (s.mod.mstate ≠ .tripped)
  if counting && !s.flag F.HOSTDMA_STATUS_ALIVE_EXPIRED then
    let n := 1000 * (s.rd Reg.HOSTDMA_HOST_TIMEOUT).toNat
    let s : State := { s with host := { s.host with alive := s.host.alive.atLeast ticksMs s.now n } }
    let s := s.putB F.HOSTDMA_STATUS_ALIVE_EXPIRED true
    .next (s.raise P.HOSTDMA B.HOSTDMA_ALIVE_LOST Evn.HOST_ALIVE_LOST).tmEval
  else .next s

/-- Ticks of step 2's budget (Table 17.1). -/
abbrev ticksStep2 : Nat := 120 * ticksMs

/-- Glade evaluates the no-holder condition: with power, and in BRINGUP once step 2 is over or has reached its budget (R352). -/
def State.holderWatched (s : State) : Bool :=
  !s.powerAbsent && (decide (s.mod.mstate ≠ .bringup) || decide (3 ≤ s.get F.MODULE_MSTATE_BOOT_STEP) || s.boot.retried
    || decide (s.boot.stepT0 + ticksStep2 ≤ s.now))

/-- NO_HOLDER_TIMEOUT: HOLDER has read 0 for 1 ms. -/
def execNoHolderTimeout (s : State) : Host.Outcome State Fault Refusal :=
  .next (if s.holderWatched && decide (s.holder = 0) then { s with glade := { s.glade with noHolder := true } }.tmEval else s)

/-- TABLE_MODE_EXIT: no condition has held for EXIT_DELAY seconds. Every pump and valve takes its stored set-point. -/
def execTableModeExit (s : State) : Host.Outcome State Fault Refusal :=
  if s.tableMode && !s.tmWanted then
    let s := (s.put F.GLADE_TM_STATE_TM_TIME s.tmTime).setTableMode false
    .next (s.raise P.GLADE B.GLADE_TABLE_EXIT Evn.GLADE_TABLE_EXIT).fluidApply
  else .next s

/-- A write of TM_CTRL: a Canopy core's, with EXIT_DELAY 1 to 60 (R352, R357). -/
def State.tmCtrlWrite (s : State) (w : WriteReq) : State :=
  let d := F.GLADE_TM_CTRL_EXIT_DELAY.of w.data
  s.gateW Reg.GLADE_TM_CTRL w (isCanopy w.req && decide (1 ≤ d) && decide (d ≤ 60)) (fun s =>
    (s.wr Reg.GLADE_TM_CTRL (w.data &&& 0x7F)).tmEval)

/-- The table of a verified Glade image, or the built-in one (R354): an image is rejected when a TOUT_MIN is below its predecessor's. -/
def State.tmLoad (s : State) (img : Option GladeImg) : State :=
  let built := (s.resetRegs ((List.range 16).flatMap (fun k => [Reg.GLADE_TM_ENTRY_LO k, Reg.GLADE_TM_ENTRY_HI k]))).putB F.GLADE_STATUS_TABLE_SRC false
  let reject := fun (s : State) => (s.errInc P.SEC).raise P.SEC B.SEC_IMAGE_REJECTED Evn.SEC_IMAGE_REJECTED (some 2)
  match img with
  | none => (reject built).tmReselect
  | some g =>
    let tout := fun k => sint16 (bitsOf (g.table.getD (2 * k) 0) 0 16)
    if (List.range 15).all (fun k => decide (tout k ≤ tout (k + 1))) then
      let s := (List.range 16).foldl (fun (s : State) k =>
        (s.wr (Reg.GLADE_TM_ENTRY_LO k) (g.table.getD (2 * k) 0)).wr (Reg.GLADE_TM_ENTRY_HI k) (g.table.getD (2 * k + 1) 0 &&& 0xFFFF)) s
      ((s.putB F.GLADE_STATUS_TABLE_SRC true).extendM 1 (bytesOf (Config.sm3 g.head))).tmReselect
    else (reject built).tmReselect

/-! ## The island log (R346) -/

/-- ISLAND_LOG_FORWARD: the arbiter accepts events again; it stamps each entry with the fabric time of acceptance, and DATA1 carries
Glade's millisecond count. -/
def execIslandLogForward (s : State) : Host.Outcome State Fault Refusal :=
  if !s.powerAbsent && !s.evt.building && (!s.glade.island.isEmpty || s.flag F.GLADE_ISLAND_LOG_OVERFLOW) then
    let s := s.glade.island.foldl (fun (s : State) e =>
      s.evtEnter { stamp := s.ftime, last := s.ftime.setWidth 32, code := e.code, sev := e.sev, page := e.page, island := true,
                   data0 := Config.eventFill e.code 0 s.ftime, data1 := BitVec.ofNat 32 e.ms }) s
    let full := s.flag F.GLADE_ISLAND_LOG_OVERFLOW
    let s : State := { s.wr Reg.GLADE_ISLAND_LOG 0 with glade := { s.glade with island := [] } }
    .next (if full then s.raise P.GLADE B.GLADE_ISLAND_OVERFLOW Evn.GLADE_ISLAND_OVERFLOW else s)
  else .next s

end Sys2Proof.Machine
end

