-- ==== Sys2Proof/Machine/Boot.lean ====
section
/-! DEFINITION. Starts, the bring-up order, Deadwood and the shape (R370, R371, R375 to R400, R477). -/

namespace Sys2Proof.Machine

/-- MSTATE.BOOT_STEP. -/
def State.bootStep (s : State) : Nat := s.get F.MODULE_MSTATE_BOOT_STEP

/-- The groves that are present. -/
def State.presentGroves (s : State) : List Nat := (List.range 16).filter (fun g => !s.absent (P.GROVE g))

/-- The holding Canopy core, as a requester. -/
def State.holderReq (s : State) : Option Req :=
  if s.holder = 1 then some .canopyA else if s.holder = 2 then some .canopyB else none

/-- Some core holds the token and is in control. -/
def State.inControl (s : State) : Bool := decide (s.holder ≠ 0) && s.flag (F.CANOPY_STATUS_IN_CONTROL (s.holder - 1))

/-! ## Deadwood at a start (R387, R388, R393, R394) -/

/-- A value inserted into an ascending list. -/
def insertAsc (x : Nat) : List Nat → List Nat
  | [] => [x]
  | y :: ys => if x ≤ y then x :: y :: ys else y :: insertAsc x ys

/-- Units withdrawn at an earlier start are tested again unless an entry still names them (R390). -/
def State.unretire (s : State) : State :=
  let pgs := s.regs.filterMap (fun e =>
    let pg := pageOf e.1
    if e.1 = Hdr.CAPS pg ∧ bitsOf e.2 30 1 = 1 ∧ bitsOf e.2 31 1 = 0 then some pg else none)
  pgs.foldl (fun (s : State) pg => (s.putB (Hdr.RETIRED pg) false).setFn pg fnOff) s

/-- The factory defect map enters the general region, unless already present (R388). -/
def State.factoryMap (s : State) : State :=
  (List.range (min (bitsOf (s.rd Reg.HWOOD_DEFECT_COUNT) 0 7) 64)).foldl (fun (s : State) i =>
    let w := aget 0 s.sec.defects i
    let kind := bitsOf w 0 8
    let unit := bitsOf w 8 8
    let index := bitsOf w 16 16
    if s.dwNamed kind unit index then s else s.dwAdd kind unit index 0 0 true) s

/-- Engines with two or more ENGINE_RESIDUE events receive an entry (R394). -/
def State.residueMap (s : State) : State :=
  s.engines.foldl (fun (s : State) e =>
    let g := e.1 / 16
    let p := e.1 % 16
    if 2 ≤ e.2.residues ∧ !s.dwNamed dwEngine g p then s.dwAdd dwEngine g p Evn.COMPUTE_ENGINE_RESIDUE.code 4 else s) s

/-- A page withdrawn, if its unit is there. -/
def State.withdraw (s : State) (ok : Bool) (pg : Nat) : State := if ok && !s.absent pg then s.retire pg else s

/-- One valid entry is applied: its unit's page reads ABSENT (Table 17.3). Banks, pumps, copies and LPDDR5X pages are withheld by their
own blocks. -/
def State.dwApply (s : State) (e : BitVec 128) : State :=
  let k := dwKind e
  let u := dwUnit e
  let i := dwIndex e
  if !dwValid e then s
  else if k = dwEngine then s.withdraw (decide (u < 16) && decide (i < 9)) (P.ENGINE u i)
  else if k = dwGrove then (if u < 16 then s.groveRetire u else s)
  else if k = dwLane then
    s.withdraw (decide (u < 96) && decide (2 ≤ (s.dwood.filter (fun x => dwValid x.2 && decide (dwKind x.2 = dwLane) && decide (dwUnit x.2 = u))).length))
      (P.LINK u)
  else if k = dwReduce then s.withdraw (decide (u < 96)) (P.REDUCE u)
  else if k = dwLpddr then s.withdraw (decide (u < 16)) (P.LPDDR u)
  else if k = dwCanopy then s.withdraw (decide (u < 2)) (P.CANOPY u)
  else if k = dwSample then s.withdraw true P.SAMPLE
  else if k = dwSvc then s.withdraw (decide (u < 8)) (P.SVC u)
  else s

/-- The list applied at step 2 (R387). -/
def State.dwApplyAll (s : State) : State :=
  let s := s.unretire.factoryMap.residueMap
  let s := s.dwood.foldl (fun (s : State) e => s.dwApply e.2) s
  let pages := (s.dwood.filter (fun e => dwValid e.2 && decide (dwKind e.2 = dwPage))).foldl (fun l e => insertAsc (dwIndex e.2) l) []
  let prefer := if s.dwNamed dwFwCopy s.sec.prefer 0 && !s.dwNamed dwFwCopy (1 - s.sec.prefer) 0 then 1 - s.sec.prefer else s.sec.prefer
  ({ s with lpddr := { s.lpddr with retired := pages }, sec := { s.sec with prefer := prefer } }).lpGeometry

/-- Pumps named in Deadwood are withheld; forcing ends (R305, R393). -/
def State.pumpsMark (s : State) : State :=
  [0, 1, 2].foldl (fun (s : State) n =>
    let s := s.putB ⟨Reg.PUMP_STATUS, 6 + n, 1⟩ false
    if s.dwNamed dwPump n 0 then s.pumpSet n psFailed else if s.pstate n = psFailed then s.pumpSet n psOff else s) s

/-! ## Step 1: Glade (R303, R313, R315, R477) -/

/-- The pumps' part of step 1: the pages come to READY and every pump not named in Deadwood is enabled, by Glade. -/
def State.step1Pumps (s : State) : State :=
  let s := [P.PUMP, P.VALVE].foldl (fun (s : State) pg => if s.fn pg = fnOff then s.setFn pg fnReady else s) s
  let s := s.pumpsMark
  let ns := [0, 1, 2].filter (fun n => !s.dwNamed dwPump n 0)
  (ns.foldl (fun (s : State) n => s.accept .glade (Reg.PUMP_CTL n) 1 id) s).pumpsStart ns

/-- The valves' part of step 1: V24, then V25, pulsed open. -/
def State.step1Valves (s : State) : State :=
  (s.isoWrite { req := .glade, data := 1, be := 15 }).isoWrite { req := .glade, data := 4, be := 15 }

/-- What Glade does with the leak latch set when 48 V returns: V24, then V25, closed (R315). -/
def State.leakClose (s : State) : State := (s.leakPumpsOff.leakRelease).isoCommand 1 true

/-! ## Steps 2 to 6 (Table 17.1) -/

/-- The present pages that a step enables, in the table's order. -/
def State.stepPages (s : State) (step : Nat) : List Nat :=
  let gs := List.range 16
  let all :=
    if step = 2 then [P.CANOPY 0, P.CANOPY 1]
    else if step = 3 then [P.CLK, P.FLOOR] ++ gs.map P.GSENS
    else if step = 4 then (List.range 8).map P.SVC ++ gs.map P.GSRAM ++ gs.map P.LPDDR
    else if step = 5 then (List.range 96).map P.LINK
    else if step = 6 then
      gs.map P.GROVE ++ gs.flatMap (fun g => (List.range 9).map (fun p => P.ENGINE g p)) ++ gs.map P.GWIN ++ gs.map P.GDMA
        ++ s.upLinks.map P.REDUCE ++ [P.SAMPLE, P.STAND]
    else []
  all.filter (fun pg => !s.absent pg)

/-- A present core boots from its boot ROM: a cold start, which is no restart (R371). -/
def State.coreBoot (s : State) (k : Nat) : State :=
  if s.absent (P.CANOPY k) then s
  else (s.setCore k { s.core k with inReset := true, wdog := false, diag := false, fails := 0 }).setFn (P.CANOPY k) fnStarting

/-- The known-answer run waits for its first pass; it has begun unless FLOW_LOW holds it (R385, R386). -/
def State.katBegin (s : State) : State :=
  { s with boot := { s.boot with katLeft := s.presentGroves, katOn := !s.flag F.THERM_STATUS_FLOW_LOW, katDone := false } }

/-- A step's FN_ENABLE writes, by the holding core; with no holder the step starts again once one is in control (R379). -/
def State.stepWrites (s : State) (step : Nat) : State :=
  match s.holderReq with
  | none => { s with boot := { s.boot with again := true } }
  | some r =>
    let s := (s.stepPages step).foldl (fun (s : State) pg => s.ctrlWrite pg { req := r, data := 1, be := 15 }) s
    if step = 6 then
      { s with boot := { s.boot with reduced := s.upLinks } }.katBegin
    else s

/-- A step runs from its first write. In host-driven mode steps 3 to 6 wait for GO (R383). -/
def State.stepRun (s : State) (step : Nat) : State :=
  let s : State := { s with boot := { s.boot with again := false, held := false } }
  if step = 2 then
    let s : State := { s with boot := { s.boot with fwDone := false } }
    (s.dwApplyAll.coreBoot 0).coreBoot 1
  else if s.mod.bootMode = 1 then { s.putB F.MODULE_MSTATE_WAIT true with boot := { s.boot with going := false } }
  else s.stepWrites step

/-- A step begins. Clocks, and with them the parts beyond Hold, run from step 3 (Table 1.6). -/
def State.bootStepBegin (s : State) (step : Nat) : State :=
  let s := s.put F.MODULE_MSTATE_BOOT_STEP step
  let s : State := { s with boot := { s.boot with stepT0 := s.now, retried := false } }
  let s := if step = 3 then s.setPower .idle else s
  s.stepRun step

/-- A step starts again from its first write after a switch-over or FLOW_STOP (R379): done by the idle step. -/
def State.stepAgain (s : State) : State :=
  if s.boot.again && decide (s.mod.mstate = .bringup) && s.inControl then
    let s : State := { s with boot := { s.boot with again := false } }
    if s.mod.bootMode = 1 ∨ s.bootStep < 3 then s else s.stepWrites s.bootStep
  else s

/-! ## Entry to BRINGUP (R375, R434, R441, R443, R477) -/

/-- The pages that a start resets: every page but GLADE, HWOOD, SEC, RLOG, DWOOD and MODULE (R375). -/
def startResetPages : List Nat :=
  ((List.range 0x311).filter (fun n => (pageAt n).isSome && !([0x0, 0x4, 0x5, 0x6, 0x7, 0xA].contains n))).map pageBase

/-- FN_RESET of one page, completed at once. -/
def State.resetNow (s : State) (pg : Nat) : State :=
  match pageAt (pg / 4096) with
  | none => s
  | some (k, inst) =>
    if s.absent pg then s
    else if isContinuous k then s.contReset k
    else (s.fnResetBody k inst pg).fnResetEnd pg

/-- The resets of a start that keeps 48 V; the token is vacant. -/
def State.startResets (s : State) : State :=
  let s := startResetPages.foldl (fun (s : State) pg => s.resetNow pg) s
  let s := if s.holder = 0 then s else s.setHolder 0
  { s.unitsCold with canopy := { s.canopy with former := none, vacancy := swVacant, since := [] } }

/-- The fuses are loaded; a changed ceiling is a PDR repository change (R434, R453). -/
def State.bootFuses (s : State) : State :=
  let c := s.ceiling
  let s := s.clearM.fuseLoad.applyFusing
  if s.ceiling = c then s else s.emit .pdrChange

/-- What every entry to BRINGUP does before its steps. -/
def State.bootEnter (s : State) : State :=
  let s := ((s.bump Reg.MODULE_BOOT_COUNT 1).bootFuses.putB F.SEC_STATUS_DEBUG_OPEN false).indexBegin
  let s : State := { s with mod := { s.mod with power := .hold, target := none, byCommand := false, svcHeld := [], fsHold := false, staggering := false } }
  let s := ((s.putB F.MODULE_MSTATE_HOLD false).putB F.MODULE_MSTATE_WARM false).putB F.MODULE_MSTATE_BOOT_FAIL false
  let s := s.resetRegs ((List.range 6).map (fun i => Reg.MODULE_STEP_TIME (i + 1)))
  let s := (s.setMState .bringup).putB F.HOSTDMA_STATUS_ALIVE_EXPIRED false
  let s : State := { s with boot := { t0 := s.now, stepT0 := s.now, prevShape := s.boot.prevShape }, glade := { s.glade with noHolder := false } }
  (s.fnEnable P.HOSTDMA).fnEnable P.SIDEBAND

/-- The module is in LEAK and bring-up is over (R315, R379). -/
def State.bootLeak (s : State) : State :=
  (((s.put F.MODULE_MSTATE_BOOT_STEP 0).putB F.MODULE_MSTATE_WAIT false).bootAbandon).setMState .leak

/-- A start from STANDBY or TRIPPED: 48 V comes on, then steps 1 and 2; a latched leak ends it (R315, R375, R376). -/
def State.bootPower (s : State) : State :=
  let s := s.conversionOn.bootEnter
  if s.leakLatched then s.leakClose.bootLeak
  else (s.step1Pumps.step1Valves).bootStepBegin 2

/-- A start after an authorised clear of the leak latch (R316, R375). -/
def State.bootClear (s : State) : State := ((s.startResets.bootEnter).step1Pumps.step1Valves).bootStepBegin 2

/-- RESTART: no stagger, and it begins at step 2; the pumps that FN_RESET stopped run again (R375, R477). -/
def State.bootRestart (s : State) : State := (s.startResets.bootEnter).step1Pumps.bootStepBegin 2

/-- 48 V returns to a module in LEAK: it stays there (R15, R315). HOSTDMA and SIDEBAND run, so that the clear of R316 can be given. -/
def State.leakPower (s : State) : State := ((s.conversionOn.indexBegin.fnEnable P.HOSTDMA).fnEnable P.SIDEBAND).leakClose

/-- PWR_OK_ASSERT (R316, R356, R376, R378, R448). -/
def execPwrOkAssert (slotId : BitVec 6) (bootMode : BitVec 2) (hot : BitVec 16) (s : State) : Host.Outcome State Fault Refusal :=
  if !s.mod.sbGood || s.mod.pwrOk then .next s
  else
    let long := s.mod.offLong
    let s : State := { s with mod := { s.mod with pwrOk := true, offLong := false, slotId := slotId, bootMode := bootMode } }
    let s := (s.put F.MODULE_STRAPS_SLOT_ID slotId.toNat).put F.MODULE_STRAPS_BOOT_MODE bootMode.toNat
    let s := s.put F.SIDEBAND_ADDR_STATIC (0x60 + slotId.toNat % 4)
    if hot ≠ 0 then .next (s.trip hot.toNat)
    else
      let s := if long && s.leakLatched then s.putB F.COOLANT_LEAK_INFO_CYCLED true else s
      match s.mod.mstate with
      | .leak => .next s.leakPower
      | .tripped => .next (if long && !s.flag F.GLADE_TRIP_LATCHED then s.bootPower else s)
      | .standby => .next (if s.flag F.MODULE_MSTATE_BOOT_FAIL && !long then s else { s with mod := { s.mod with staggering := true } })
      | _ => .next s

/-- STAGGER_DONE: SLOT_ID × 25 ms have passed (R376). -/
def execStaggerDone (s : State) : Host.Outcome State Fault Refusal :=
  .next (if s.mod.staggering && decide (s.mod.mstate = .standby) then s.bootPower else s)

/-! ## Canopy boot and restart (R370, R371) -/

/-- The first core of a cold start has verified the firmware copies: which copy runs, none where neither may. A copy named in Deadwood is
not booted (R371, R372, R393). -/
def State.fwSettle (s : State) (k : Nat) (verified : Bool) (fw : FwObs) : State × Bool :=
  let a := s.sec.prefer
  let ok := fun c v => v && !s.dwNamed dwFwCopy c 0
  let reject := fun (s : State) => (s.errInc P.SEC).raise P.SEC B.SEC_IMAGE_REJECTED Evn.SEC_IMAGE_REJECTED (some 1)
  let found := fun (s : State) (c : Nat) =>
    let s : State := { s with sec := { s.sec with running := c }, boot := { s.boot with fwDone := true } }
    let s := (s.extendM 0 (bytesOf (Config.sm3 fw.head))).tmLoad fw.glade
    match fw.ucode with
    | some h => s.extendM 3 (bytesOf (Config.sm3 h))
    | none => (s.errInc P.SEC).raise P.SEC B.SEC_IMAGE_REJECTED Evn.SEC_IMAGE_REJECTED (some 4)
  if ok a verified then (found s a, true)
  else
    let s := if verified then s else reject s
    if ok (1 - a) fw.other then
      let s := (s.putB (F.CANOPY_FW_FALLBACK k) true).raise (P.CANOPY k) B.CANOPY_FW_FALLBACK Evn.CANOPY_FW_FALLBACK
      (found (s.dwAdd dwFwCopy a 0 Evn.CANOPY_FW_FALLBACK.code 1) (1 - a), true)
    else (if fw.other then s else reject s, false)

/-- Neither copy verifies: no core starts (R371). -/
def State.fwNone (s : State) : State :=
  [0, 1].foldl (fun (s : State) k =>
    if s.absent (P.CANOPY k) then s else (s.setCore k { s.core k with inReset := false }).toFault (P.CANOPY k)) s

/-- CORE_RESTART: a boot or restart, the verification of the copy and a self-diagnosis are over (R370, R371). -/
def execCoreRestart (k : Fin 2) (verified : Bool) (version : Word) (fails : BitVec 4) (fw : FwObs) (s : State) : Host.Outcome State Fault Refusal :=
  let x := s.core k.val
  if x.inReset then
    let first := decide (s.mod.mstate = .bringup) && !s.boot.fwDone
    let (s, good) := if first then s.fwSettle k.val verified fw else (s, verified)
    if first && !good then .next s.fwNone
    else
      let d := fails.toNat + (if x.wdog then 16 else 0) + (if x.diag then 32 else 0) + 64 * x.fails.toNat
      let s : State := (s.wr (Reg.CANOPY_DIAG k.val) (BitVec.ofNat 32 d)).wr (Reg.CANOPY_DIAG_RUNS k.val) 1
      if !good || fails ≠ 0 || s.thirdRestart k.val then
        let s : State := (s.setCore k.val { x with inReset := false }).toFault (P.CANOPY k.val)
        let s : State := s.raise (P.CANOPY k.val) B.CANOPY_CORE_FAILED Evn.CANOPY_CORE_FAILED
        .next (s.dwAdd dwCanopy k.val 0 Evn.CANOPY_CORE_FAILED.code 5)
      else
        let s : State := (s.put (F.CANOPY_FW_FW_COPY k.val) s.sec.running).wr (Reg.CANOPY_FW_VER k.val) version
        let s : State := s.setCore k.val { x with inReset := false, wdServed := s.now, snoop := [], shadow := [] }
        let s : State := (s.put (F.CANOPY_SNOOP_FILL k.val) 0).putB (F.CANOPY_SNOOP_SHADOW_VALID k.val) false
        .next (s.setFn (P.CANOPY k.val) fnReady)
  else .next s

/-! ## Step 6: the known-answer run and the map (R120, R122, R384 to R386) -/

/-- Groves in a pass (R385). -/
def State.katGroves (s : State) : Nat := max 1 (min s.presentGroves.length ((s.get F.THERM_CAP_EFF_CAP - 380) / 110))

/-- One engine's part in a pass: its signature; a mismatch is a Deadwood entry applied at once (R384, R387). -/
def State.katEngine (s : State) (g p : Nat) (o : Option KatObs) : State :=
  let pg := P.ENGINE g p
  if s.fn pg = fnStarting ∨ s.fn pg = fnReady then
    let s := s.wr (Reg.ENGINE_KAT_SIG g p) ((o.map (fun x => x.sig)).getD 0)
    if (o.map (fun x => x.ok)).getD false then (s.putB (F.ENGINE_STATUS_KAT_PASS g p) true).setFn pg fnReady
    else ((s.putB (F.ENGINE_STATUS_KAT_PASS g p) false).dwAdd dwEngine g p (Config.entryEvent dwEngine).toNat 2).retire pg
  else s

/-- Good physical engines of a grove, ascending. -/
def State.goodEngines (s : State) (g : Nat) : List Nat :=
  (List.range 9).filter (fun p => decide (s.fn (P.ENGINE g p) = fnReady) && s.flag (F.ENGINE_STATUS_KAT_PASS g p))

/-- The map of one grove (R120, R122). -/
def State.groveMap (s : State) (g : Nat) : State :=
  let good := s.goodEngines g
  if good.isEmpty then s.groveRetire g
  else
    let s := (s.wr (Reg.GROVE_LMAP g) (BitVec.ofNat 32 (lmapOf good))).put (F.GROVE_SHAPE_LENGINES g) (min good.length 8)
    good.zipIdx.foldl (fun (s : State) e =>
      let used := decide (e.2 < 8)
      let s := (s.put (F.ENGINE_MAP_LOGICAL g e.1) (if used then e.2 else 0)).putB (F.ENGINE_MAP_IN_USE g e.1) used
      s.putB (F.ENGINE_STATUS_SPARE g e.1) (!used)) s

/-- KAT_PASS_DONE: a pass ends; after the last one the groves are mapped. -/
def execKatPassDone (obs : List KatObs) (s : State) : Host.Outcome State Fault Refusal :=
  if s.mod.mstate = .bringup ∧ s.bootStep = 6 ∧ s.boot.katLeft ≠ [] ∧ (s.boot.katOn || !s.flag F.THERM_STATUS_FLOW_LOW) then
    let n := s.katGroves
    let now := s.boot.katLeft.take n
    let left := s.boot.katLeft.drop n
    let s := now.foldl (fun (s : State) g => (List.range 9).foldl (fun (s : State) p =>
      s.katEngine g p (obs.find? (fun o => decide (o.g.val = g) && decide (o.p.val = p)))) s) s
    let s : State := { s with boot := { s.boot with katLeft := left, katOn := !left.isEmpty, katDone := left.isEmpty } }
    .next (if left.isEmpty then s.presentGroves.foldl (fun (s : State) g => s.groveMap g) s else s)
  else .next s

/-! ## The shape (R396) -/

/-- A bit mask of the numbers below `n` that satisfy `p`. -/
def maskOf (n : Nat) (p : Nat → Bool) : Nat := (List.range n).foldl (fun a i => a + (if p i then 2 ^ i else 0)) 0

/-- The words of MODULE.SHAPE to SHAPE_UNITS, 0x100 to 0x14F, from the units present. -/
def State.shapeWords (s : State) : List Word :=
  let w := fun (n : Nat) => BitVec.ofNat 32 n
  let here := fun pg => !s.absent pg
  let eng := fun g => if here (P.GROVE g) then s.get (F.GROVE_SHAPE_LENGINES g) else 0
  let banks := fun g => if here (P.GROVE g) then s.get (F.GROVE_SHAPE_USABLE_BANKS g) else 0
  let groves := maskOf 16 (fun g => here (P.GROVE g))
  let total := (List.range 16).foldl (fun a g => a + eng g) 0
  let engs := fun b => (List.range 8).foldl (fun a i => a + eng (8 * b + i) * 16 ^ i) 0
  [w (groves + 65536 * total), w (engs 0), w (engs 1)]
    ++ (List.range 8).map (fun k => w (banks (2 * k) + 65536 * banks (2 * k + 1)))
    ++ (List.range 3).map (fun j => w (maskOf 32 (fun l => here (P.LINK (32 * j + l)))))
    ++ (List.range 3).map (fun j => w (maskOf 32 (fun l => here (P.REDUCE (32 * j + l)))))
    ++ [w s.lpddr.c, w (s.lpPages - min s.lpddr.retired.length 4096),
        w ((if here P.SAMPLE then 1 else 0) + 256 * maskOf 8 (fun c => here (P.SVC c)) + 65536 * maskOf 2 (fun k => here (P.CANOPY k))
          + 2 ^ 18 * maskOf 3 (fun n => !s.dwNamed dwPump n 0))]

/-- The shape is published, and M5 extended with it (R396, R443). -/
def State.publishShape (s : State) : State :=
  let v := s.shapeWords
  let s := v.zipIdx.foldl (fun (s : State) e => s.wr (Reg.MODULE_SHAPE + 4 * e.2) e.1) s
  let changed := decide (s.boot.prevShape ≠ []) && decide (s.boot.prevShape ≠ v)
  let s : State := { s with boot := { s.boot with prevShape := v } }
  let s := if changed then (s.bumpW Reg.MODULE_SHAPE_SEQ 1).raise P.MODULE B.MODULE_SHAPE_CHANGED Evn.MODULE_SHAPE_CHANGED else s
  s.extendM 5 (bytesOf (Config.sm3 (s.regBytes Reg.MODULE_SHAPE 21)))

/-- Whether every block that completed its step did so warm (R380). -/
def State.startWarm (s : State) : Bool :=
  s.boot.cold.isEmpty && (List.range 16).all (fun m => decide (s.fn (P.LPDDR m) ≠ fnReady) || s.flag (F.LPDDR_STATUS_WARM m))
    && s.upLinks.all (fun l => s.flag (F.LINK_STATUS_WARM l))

/-! ## Steps end (R377, R378, R381 to R383) -/

/-- Milliseconds since a tick. -/
def State.msSince (s : State) (t : Nat) : Nat := (s.now - t) / ticksMs

/-- STEP_TIMEs of a step that ends. -/
def State.stepTime (s : State) (step : Nat) : State := s.put ⟨Reg.MODULE_STEP_TIME step, 0, 16⟩ (min (s.msSince s.boot.stepT0) 65535)

/-- A grove whose SRAM has a usable bank. -/
def State.bankUsable (s : State) (g : Nat) : Bool := decide (s.fn (P.GSRAM g) = fnReady) && decide (s.get (F.GROVE_SHAPE_USABLE_BANKS g) ≠ 0)

/-- The completion condition of a step (Table 17.1). Step 5's second point of R382, the end of its budget, is the command's own time. -/
def State.stepOk (s : State) (step : Nat) : Bool :=
  let settled := fun pg => decide (s.fn pg = fnReady) || decide (s.fn pg = fnFault)
  if step = 2 then s.inControl
  else if step = 3 then (s.stepPages 3).all (fun pg => decide (s.fn pg = fnReady))
  else if step = 4 then
    (s.stepPages 4).all (fun pg => decide (pg < 0x100000) || settled pg) && s.presentGroves.any (fun g => s.bankUsable g) && decide (s.lpddr.c ≠ 0)
  else if step = 5 then true
  else if step = 6 then
    s.boot.katDone && (s.stepPages 6).all (fun pg => decide (s.fn pg ≠ fnStarting)) && s.presentGroves.any (fun g => decide (s.get (F.GROVE_SHAPE_LENGINES g) ≠ 0))
  else false

/-- Time sync in step 5, once its links have settled (R381): the holder's, or in host-driven mode the host's own write. -/
def State.bootSync (s : State) : Option State :=
  let role := s.get F.MODULE_BOOT_CFG_SYNC_ROLE
  match s.holderReq with
  | some r =>
    if (role = 1 ∨ role = 2) ∧ s.mod.bootMode ≠ 1 ∧ !s.boot.going then
      let s := if role = 2 then (s.accept r Reg.CLK_SYNC_BASE_LO 0 (fun s => s.wr Reg.CLK_SYNC_BASE_LO 0)).accept r Reg.CLK_SYNC_BASE_HI 0
        (fun s => s.wr Reg.CLK_SYNC_BASE_HI 0) else s
      let s := s.accept r Reg.CLK_SYNC_CTRL (if role = 2 then 3 else 2) (fun s => (s.putB F.CLK_SYNC_CTRL_ROOT (decide (role = 2))).syncStart)
      some { s with boot := { s.boot with going := true } }
    else none
  | none => none

/-- Bring-up is over: READY, or LEAK with the latch set (R15, R16, R380). -/
def State.bootFinish (s : State) : State :=
  let s := s.publishShape.stepTime 6
  let s := (s.wr Reg.MODULE_BOOT_TIME (BitVec.ofNat 32 (s.msSince s.boot.t0))).putB F.MODULE_MSTATE_WARM s.startWarm
  let s := (s.put F.MODULE_MSTATE_BOOT_STEP 0).putB F.MODULE_MSTATE_WAIT false
  let s : State := { s with boot := { prevShape := s.boot.prevShape, svcFaults := s.boot.svcFaults, reduced := s.boot.reduced } }
  if s.leakLatched then s.enterLeak
  else (s.setMState .ready).raise P.MODULE B.MODULE_BOOT_DONE Evn.MODULE_BOOT_DONE

/-- A step is complete and the next begins. From the end of step 2 configuration requests succeed (R469). -/
def State.stepDone (s : State) (step : Nat) : State :=
  let s : State := { s with boot := { s.boot with going := false } }
  if step = 6 then s.bootFinish
  else
    let s := s.stepTime step
    let s : State := if step = 2 then { s with host := { s.host with cfgOk := true } } else s
    (s.putB F.MODULE_MSTATE_WAIT false).bootStepBegin (step + 1)

/-- A step fails (R378): once more from its first write, or STANDBY. -/
def State.stepFail (s : State) : State :=
  let step := s.bootStep
  let s := (s.errInc P.MODULE).raise P.MODULE B.MODULE_BOOT_STEP_FAIL Evn.MODULE_BOOT_STEP_FAIL
  if s.boot.retried then
    let s := (s.stepTime step).putB (F.MODULE_STEP_TIME_FAILED step) true
    ((s.putB F.MODULE_MSTATE_BOOT_FAIL true).raise P.MODULE B.MODULE_BOOT_FAIL Evn.MODULE_BOOT_FAIL).powerLost
  else
    let s : State := { s with boot := { s.boot with retried := true, katLeft := [], katOn := false, katDone := false, going := false } }
    let s := (s.stepPages step).foldl (fun (s : State) pg => if s.fn pg = fnOff then s else s.resetNow pg) s
    (s.putB (F.MODULE_STEP_TIME_RETRIED step) true).stepRun step

/-- Step 1 is complete: both pulses are done. -/
def State.step1Done (s : State) : State :=
  if s.fluid.iso.isNone ∧ s.fluid.isoQ = [] then s.put ⟨Reg.MODULE_STEP_TIME 1, 0, 16⟩ (min (s.msSince s.boot.t0) 65535) else s

/-- BOOT_STEP_DONE. With a SYNC_ROLE, step 5's links settle first and its time sync follows. A host-driven step ends by DONE. -/
def execBootStepDone (step : BitVec 3) (s : State) : Host.Outcome State Fault Refusal :=
  let n := step.toNat
  if s.mod.mstate ≠ .bringup then .next s
  else if n = 1 then .next s.step1Done
  else if n ≠ s.bootStep ∨ (s.boot.again && decide (n ≠ 2)) ∨ s.boot.held ∨ s.flag F.MODULE_MSTATE_WAIT ∨ !s.stepOk n then .next s
  else if n = 5 then
    match s.bootSync with
    | some s' => .next s'
    | none => .next (s.stepDone 5)
  else .next (s.stepDone n)

/-- BOOT_STEP_FAIL. Step 1 never fails, nor step 5 but by a host's DONE (Table 17.1). -/
def execBootStepFail (s : State) : Host.Outcome State Fault Refusal :=
  let n := s.bootStep
  .next (if s.mod.mstate = .bringup ∧ (n = 2 ∨ n = 3 ∨ n = 4 ∨ n = 6) then s.stepFail else s)

/-- A write of BOOT_CTRL: the host's, in host-driven mode, naming the present step (R383). GO lets the holding core write CTRL of the
step's protected pages; DONE checks the step. -/
def State.bootCtrlWrite (s : State) (w : WriteReq) : State :=
  let step := F.MODULE_BOOT_CTRL_STEP.of w.data
  let ok := w.req == .host && decide (s.mod.bootMode = 1) && decide (s.mod.mstate = .bringup) && decide (3 ≤ step) && decide (step = s.bootStep)
  s.gateW Reg.MODULE_BOOT_CTRL w ok (fun (s : State) =>
    let s := s.put F.MODULE_BOOT_CTRL_STEP step
    let s := if F.MODULE_BOOT_CTRL_GO.of w.data = 1 ∧ !s.boot.going then
        let s : State := { s with boot := { s.boot with going := true } }
        let s := match s.holderReq with
          | some r => if step = 3 then s.ctrlWrite P.CLK { req := r, data := 1, be := 15 } else s
          | none => s
        if step = 6 then s.katBegin else s
      else s
    if F.MODULE_BOOT_CTRL_DONE.of w.data = 1 ∧ s.boot.going then
      let left := (s.stepPages step).all (fun pg => decide (step = 5) || decide (s.fn pg ≠ fnOff))
      if s.stepOk step && left then s.stepDone step else s.stepFail
    else s)

def execBootCtrlGo (req : Req) (step : BitVec 3) (s : State) : Host.Outcome State Fault Refusal :=
  .next (s.bootCtrlWrite { req := req, data := BitVec.ofNat 32 (step.toNat + 8), be := 15 })
def execBootCtrlDone (req : Req) (step : BitVec 3) (s : State) : Host.Outcome State Fault Refusal :=
  .next (s.bootCtrlWrite { req := req, data := BitVec.ofNat 32 (step.toNat + 16), be := 15 })

/-- Canopy enables the reduction unit of a link that first comes UP after step 6 (Table 17.1): done by the idle step. -/
def State.lateReduce (s : State) : State :=
  match s.holderReq with
  | some r =>
    if s.mod.mstate = .bringup ∨ s.powerAbsent then s
    else match s.upLinks.filter (fun l => !s.boot.reduced.contains l) with
      | [] => s
      | l :: _ =>
        let s : State := { s with boot := { s.boot with reduced := l :: s.boot.reduced } }
        s.ctrlWrite (P.REDUCE l) { req := r, data := 1, be := 15 }
  | none => s

/-! ## MODULE.COMMAND (R399, R400, R479) -/

/-- Hold, or on the way there. -/
def State.inHold (s : State) : Bool := decide (s.mod.power = .hold) || decide (s.mod.target = some .hold)

/-- Whether COMMAND is accepted. -/
def State.commandOk (s : State) (v : Word) : Bool :=
  let idle := decide (s.mod.mstate = .ready) || decide (s.mod.mstate = .service)
  let bit := fun (f : Fld) => decide (f.of v = 1)
  (!bit F.MODULE_COMMAND_SERVICE_REQ || (decide (s.mod.mstate = .ready) && s.hasToken 3 0))
    && (!bit F.MODULE_COMMAND_RESTART || decide (s.mod.mstate = .service))
    && (!bit F.MODULE_COMMAND_HOLD || (idle && !s.inHold))
    && (!bit F.MODULE_COMMAND_WAKE || (idle && s.inHold && !(s.mod.fsHold && s.flag F.GLADE_STATUS_FLOW_STOP)))

/-- A write of COMMAND: the host and the Canopy cores. -/
def State.commandWrite (s : State) (w : WriteReq) : State :=
  let bit := fun (f : Fld) => decide (f.of w.data = 1)
  s.gateW Reg.MODULE_COMMAND w (hostOrCanopy w.req && s.commandOk w.data) (fun (s : State) =>
    let s := if bit F.MODULE_COMMAND_SERVICE_REQ then
        (s.consumeToken.setMState .service).raise P.MODULE B.MODULE_SERVICE_ENTER Evn.MODULE_SERVICE_ENTER
      else s
    let s := if bit F.MODULE_COMMAND_HOLD then s.holdBegin true else s
    let s := if bit F.MODULE_COMMAND_WAKE then s.wakeBegin true else s
    if bit F.MODULE_COMMAND_RESTART then s.bootRestart else s)

def execServiceReq (req : Req) (s : State) : Host.Outcome State Fault Refusal := .next (s.commandWrite { req := req, data := 1, be := 15 })
def execRestart (req : Req) (s : State) : Host.Outcome State Fault Refusal := .next (s.commandWrite { req := req, data := 2, be := 15 })
def execHold (req : Req) (s : State) : Host.Outcome State Fault Refusal := .next (s.commandWrite { req := req, data := 4, be := 15 })
def execWake (req : Req) (s : State) : Host.Outcome State Fault Refusal := .next (s.commandWrite { req := req, data := 8, be := 15 })

/-- A write of BOOT_CFG: the host and the Canopy cores; SYNC_ROLE 3 is reserved (R399). -/
def State.bootCfgWrite (s : State) (w : WriteReq) : State :=
  s.gateW Reg.MODULE_BOOT_CFG w (hostOrCanopy w.req && decide (F.MODULE_BOOT_CFG_SYNC_ROLE.of w.data ≠ 3)) (fun s =>
    s.wr Reg.MODULE_BOOT_CFG (w.data &&& 7))

/-! ## The DWOOD page (R390, R398) -/

/-- A write of SEL copies the selected entry. -/
def State.dwoodSelWrite (s : State) (w : WriteReq) : State :=
  s.gateW Reg.DWOOD_SEL w true (fun (s : State) =>
    let i := bitsOf w.data 0 13
    let e := aget 0 s.dwood i
    (List.range 4).foldl (fun (s : State) j => s.wr (Reg.DWOOD_ENTRY j) (e.extractLsb' (32 * j) 32)) (s.wr Reg.DWOOD_SEL (BitVec.ofNat 32 i)))

def execDwoodSel (w : WriteReq) (s : State) : Host.Outcome State Fault Refusal := .next (s.dwoodSelWrite w)

/-- One entry is removed, unless it is a factory entry; a cleared engine's residue count starts anew (R390, R394). -/
def State.dwRemove (s : State) (i : Nat) : State :=
  let e := aget 0 s.dwood i
  if dwValid e && !dwFactory e then
    let s : State := { s with dwood := aset 0 s.dwood i 0 }
    let s := if dwKind e = dwEngine then
        let k := 16 * dwUnit e + dwIndex e
        s.setEng k { s.eng k with residues := 0 }
      else s
    s.bump Reg.DWOOD_CLEARED 1
  else s

/-- The argument of the pending DEADWOOD token. -/
def State.dwoodToken (s : State) : Option Nat :=
  if s.flag F.SEC_STATUS_TOKEN_PENDING then
    match s.sec.token with
    | some t => if t.scope = 2 then some t.arg.toNat else none
    | none => none
  else none

/-- A write of CLEAR: in SERVICE, under a DEADWOOD token (R390, R398). Room made in the general region ends DWOOD_FULL. -/
def State.dwoodClearWrite (s : State) (w : WriteReq) : State :=
  let go := F.DWOOD_CLEAR_CLEAR.of w.data = 1
  s.gateW Reg.DWOOD_CLEAR w (hostOrCanopy w.req && (!decide go || (decide (s.mod.mstate = .service) && s.dwoodToken.isSome))) (fun (s : State) =>
    match (if go then s.dwoodToken else none) with
    | none => s
    | some arg =>
      let is := if arg = 0xFFFF then s.dwood.map (fun e => e.1) else [arg]
      let s := (is.foldl (fun (s : State) i => s.dwRemove i) s.consumeToken).dwCounts
      let s := if s.get F.DWOOD_COUNT_GENERAL < 4096 then s.putB F.MODULE_MSTATE_DWOOD_FULL false else s
      s.raise P.DWOOD B.DWOOD_DWOOD_CLEARED Evn.MODULE_DWOOD_CLEARED)

def execDwoodClear (req : Req) (s : State) : Host.Outcome State Fault Refusal :=
  .next (s.dwoodClearWrite { req := req, data := 1, be := 15 })

end Sys2Proof.Machine
end

