-- ==== Sys2Proof/Machine/Sec.lean ====
section
/-! DEFINITION. Tokens, fuse blows, firmware updates, measurements and attestation reports (R316, R438 to R446). -/

namespace Sys2Proof.Machine

/-- The token registers' writers (R446). -/
def tokenWriter (r : Req) : Bool := hostOrCanopy r || r == .sideband

/-- `n` 32-bit words from a register offset as one value, the first word lowest. -/
def State.rdWide (s : State) (off n : Nat) : Nat := leValue (s.regBytes off n)

/-! ## Nonces and tokens (R439) -/

/-- NEW_NONCE: a new nonce replaces the last one. -/
def State.newNonce (s : State) (random : BitVec 128) : State :=
  (s.setRegBytes (Reg.SEC_NONCE 0) 4 (bytesOf random)).putB F.SEC_STATUS_NONCE_VALID true

/-- VERIFY takes the token as it stands, and the nonce with it: consumed whatever the outcome. -/
def State.verifyBegin (s : State) : State :=
  let t : Token :=
    { scope := s.get F.SEC_TOKEN_REQ_SCOPE, signer := s.get F.SEC_TOKEN_REQ_SIGNER, arg := s.rd Reg.SEC_TOKEN_ARG,
      digest := BitVec.ofNat 256 (s.rdWide (Reg.SEC_TOKEN_DIGEST 0) 8), sig := BitVec.ofNat 512 (s.rdWide (Reg.SEC_TOKEN_SIG 0) 16),
      nonce := if s.flag F.SEC_STATUS_NONCE_VALID then some (BitVec.ofNat 128 (s.rdWide (Reg.SEC_NONCE 0) 4)) else none }
  { (s.putB F.SEC_STATUS_NONCE_VALID false).putB F.SEC_STATUS_VERIFY_BUSY true with sec := { s.sec with checking := some t } }

/-- The pending token goes, with RESULT. -/
def State.dropToken (s : State) (result : Nat) : State :=
  if s.flag F.SEC_STATUS_TOKEN_PENDING then
    { ((s.putB F.SEC_STATUS_TOKEN_PENDING false).put F.SEC_TOKEN_RESULT_RESULT result).put F.SEC_TOKEN_RESULT_TTL 0 with
      sec := { s.sec with token := none } }
  else s

/-- A write of TOKEN_CTL, its bits in order. -/
def State.tokenCtlWrite (s : State) (w : WriteReq) (random : BitVec 128) : State :=
  let bit := fun (f : Fld) => decide (f.of w.data = 1)
  s.gateW Reg.SEC_TOKEN_CTL w (tokenWriter w.req && !(bit F.SEC_TOKEN_CTL_VERIFY && s.flag F.SEC_STATUS_VERIFY_BUSY)) (fun (s : State) =>
    let s := if bit F.SEC_TOKEN_CTL_NEW_NONCE then s.newNonce random else s
    let s := if bit F.SEC_TOKEN_CTL_VERIFY then s.verifyBegin else s
    if bit F.SEC_TOKEN_CTL_DISCARD then s.dropToken 0 else s)

def execNewNonce (req : Req) (random : BitVec 128) (s : State) : Host.Outcome State Fault Refusal :=
  .next (s.tokenCtlWrite { req := req, data := 1, be := 15 } random)
def execVerify (req : Req) (s : State) : Host.Outcome State Fault Refusal :=
  .next (s.tokenCtlWrite { req := req, data := 2, be := 15 } 0)
def execDiscard (req : Req) (s : State) : Host.Outcome State Fault Refusal :=
  .next (s.tokenCtlWrite { req := req, data := 4, be := 15 } 0)

/-- NONCE_EXPIRE: 10 minutes have passed since NEW_NONCE. -/
def execNonceExpire (s : State) : Host.Outcome State Fault Refusal := .next (s.putB F.SEC_STATUS_NONCE_VALID false)

/-- TOKEN_EXPIRE: the pending token was not used within 60 s. -/
def execTokenExpire (s : State) : Host.Outcome State Fault Refusal := .next (s.dropToken 7)

/-- TTL: seconds left of a pending token's 60 s. -/
def State.tokenTtl (s : State) : Nat :=
  if s.flag F.SEC_STATUS_TOKEN_PENDING then 60 - min 60 ((s.now - s.sec.tokenAt) / (1000 * ticksMs)) else 0

/-! ## The checks (R439, Tables 20.2, 20.5, 20.6) -/

/-- The message a token's signature covers. -/
def State.tokenMsg (s : State) (t : Token) : List Byte :=
  bytesOf s.serial ++ bytesOf (t.nonce.getD 0) ++ t.tail ++ bytesOf t.digest

/-- Whether the signer may sign a token of this scope. -/
def State.signerOk (s : State) (t : Token) : Bool :=
  let slot := decide (t.scope = 8) || decide (t.scope = 9)
  if t.signer = 0 then s.keyUsable 0 && (slot || !(s.keyUsable 1 || s.keyUsable 2))
  else s.keyUsable t.signer && !(slot && decide (t.arg.toNat + 1 = t.signer))

/-- The enrolment and revocation of an owner slot. -/
def State.slotEnrolled (s : State) (k : Nat) : Bool :=
  (List.range 8).any (fun j => decide (s.fuse (if k = 0 then Reg.HWOOD_OWNER0_DIGEST j else Reg.HWOOD_OWNER1_DIGEST j) ≠ 0))

/-- The key that an ENROLL token brings: TOKEN_SIG when the check completes. -/
def State.newKey (s : State) : BitVec 512 := BitVec.ofNat 512 (s.rdWide (Reg.SEC_TOKEN_SIG 0) 16)

/-- The scope, the argument and the module state (Table 20.6; R440, R441). -/
def State.scopeOk (s : State) (t : Token) : Bool :=
  let a := t.arg.toNat
  let svc := decide (s.mod.mstate = .service)
  let rdy := decide (s.mod.mstate = .ready)
  let mask := a / 256
  if t.scope = 1 then decide (a = 0) && decide (s.mod.mstate = .leak)
  else if t.scope = 2 then svc && (decide (a ≤ 8191) || decide (a = 0xFFFF))
  else if t.scope = 3 then rdy && decide (a = 0)
  else if t.scope = 4 then (rdy || svc) && decide (a ≤ 3)
  else if t.scope = 5 then rdy || svc
  else if t.scope = 6 then svc && decide (a = 0) && decide (s.get F.HWOOD_PROTECT_DEBUG_LOCK < 2)
  else if t.scope = 7 then svc && decide (mask ≠ 0) && decide (mask < 2 ^ (fuseField (a % 256)).2)
  else if t.scope = 8 then
    svc && decide (a < 2) && !s.slotEnrolled a && !s.revoked a && decide (Config.sm3 (bytesOf s.newKey) = t.digest)
  else if t.scope = 9 then svc && decide (a < 2) && !s.revoked a
  else false

/-- RESULT of the first check that fails; 0 where none does. -/
def State.tokenCheck (s : State) (t : Token) : Nat :=
  if t.nonce.isNone then 3
  else if !s.signerOk t then 4
  else if !Config.sm2Verify (s.keyOf t.signer) (s.tokenMsg t) t.sig then 2
  else if !s.scopeOk t then 5
  else 0

/-! ## What a verified token does -/

/-- The clear of the leak latch (R316): it needs the power cycle and a second of dry channels. -/
def State.leakClear (s : State) : State :=
  if !s.flag F.COOLANT_LEAK_INFO_CYCLED then s
  else if !s.leakDry then s.putB F.COOLANT_LEAK_INFO_CLEAR_REFUSED true
  else
    let s := ((s.putB F.COOLANT_LEAK_INFO_LATCHED false).putB F.COOLANT_LEAK_INFO_CYCLED false).putB F.COOLANT_LEAK_INFO_CLEAR_REFUSED false
    let s := ((s.setLeakL false).putB F.VALVE_STATUS_LEAK_OVERRIDE false).putB F.PUMP_STATUS_LEAK_OFF false
    let s : State := { s with fluid := { s.fluid with released := false } }
    (s.raise P.COOLANT B.COOLANT_LEAK_CLEARED Evn.FLUID_LEAK_CLEARED).bootClear

/-- A blow begins: VERIFY_BUSY reads 1 until it ends (R440). -/
def State.blowBegin (s : State) (b : Blow) : State :=
  { s.putB F.SEC_STATUS_VERIFY_BUSY true with sec := { s.sec with blow := some b } }

/-- A verified token: consumed by VERIFY itself, or pending. -/
def State.tokenTake (s : State) (t : Token) : State :=
  let s := s.dropToken 0
  let s := (s.put F.SEC_TOKEN_RESULT_SCOPE t.scope).raise P.SEC B.SEC_TOKEN_ACCEPTED Evn.SEC_TOKEN_ACCEPTED
  if t.scope = 1 then (s.consumed t).leakClear
  else if t.scope = 6 then
    ((s.consumed t).putB F.SEC_STATUS_DEBUG_OPEN true).raise P.SEC B.SEC_DEBUG_UNLOCKED Evn.SEC_DEBUG_UNLOCKED
  else if t.scope = 7 then (s.consumed t).blowBegin (.field (t.arg.toNat % 256) (t.arg.toNat / 256))
  else if t.scope = 8 then
    let k := s.newKey
    let s := (s.consumed t).blowBegin (.enroll t.arg.toNat t.digest)
    { s with sec := { s.sec with keys := aset 0 s.sec.keys (t.arg.toNat + 1) k } }
  else if t.scope = 9 then (s.consumed t).blowBegin (.revoke t.arg.toNat)
  else
    let s := (s.put F.SEC_TOKEN_RESULT_RESULT 1).putB F.SEC_STATUS_TOKEN_PENDING true
    { s with sec := { s.sec with token := some t, tokenAt := s.now } }

/-- TOKEN_VERIFY_DONE. -/
def execTokenVerifyDone (s : State) : Host.Outcome State Fault Refusal :=
  match s.sec.checking with
  | none => .next s
  | some t =>
    let r := s.tokenCheck t
    let s : State := { s.putB F.SEC_STATUS_VERIFY_BUSY false with sec := { s.sec with checking := none } }
    if r = 0 then .next (s.tokenTake t)
    else
      let s := (s.put F.SEC_TOKEN_RESULT_RESULT r).put F.SEC_TOKEN_RESULT_SCOPE t.scope
      .next ((s.errInc P.SEC).raise P.SEC B.SEC_TOKEN_REJECTED Evn.SEC_TOKEN_REJECTED (some (BitVec.ofNat 32 r)))

/-- FUSE_BLOW_DONE (R440). -/
def execFuseBlowDone (ok : Bool) (s : State) : Host.Outcome State Fault Refusal :=
  match s.sec.blow with
  | none => .next s
  | some b =>
    let s := (s.blowEnd b ok).putB F.SEC_STATUS_VERIFY_BUSY false
    .next (if ok then s else (s.errInc P.HWOOD).put F.SEC_TOKEN_RESULT_RESULT 6)

/-! ## Firmware updates (R437, R438) -/

/-- 30 MiB. -/
abbrev fwMax : Nat := 31457280

/-- A write of FW_CTL: the host and the Canopy cores, in SERVICE and with no update running. -/
def State.fwCtlWrite (s : State) (w : WriteReq) : State :=
  let go := F.SEC_FW_CTL_UPDATE.of w.data = 1
  let ok := hostOrCanopy w.req && (!decide go || (decide (s.mod.mstate = .service) && !s.flag F.SEC_STATUS_FW_BUSY))
  s.gateW Reg.SEC_FW_CTL w ok (fun (s : State) =>
    if go then
      let target := 1 - s.sec.running
      let s := s.put F.SEC_FW_STATUS_TARGET target
      if s.dwNamed dwFwCopy target 0 ∨ fwMax < (s.rd Reg.SEC_FW_LEN).toNat then s.put F.SEC_FW_STATUS_RESULT 5
      else { (s.put F.SEC_FW_STATUS_RESULT 1).putB F.SEC_STATUS_FW_BUSY true with sec := { s.sec with update := true } }
    else s)

def execFwUpdate (w : WriteReq) (s : State) : Host.Outcome State Fault Refusal := .next (s.fwCtlWrite w)

/-- One image verified (Tables 20.2, 20.3): Canopy, Glade and microcode images by the root key, a service-core image by any. -/
def State.imageOk (s : State) (bs : List Byte) : Bool :=
  let at_ := fun o n => leValue ((bs.drop o).take n)
  let kind := at_ 0 4
  let signer := at_ 4 1
  let len := at_ 12 4
  decide (176 + len ≤ bs.length) && decide (1 ≤ len) && decide (len ≤ 8388608) && decide (1 ≤ kind) && decide (kind ≤ 4)
    && (decide (signer = 0) || (decide (kind = 3) && decide (signer ≤ 2)))
    && s.signed signer (bs.take 112) (BitVec.ofNat 512 (at_ 112 64))
    && decide (Config.sm3 ((bs.drop 176).take len) = BitVec.ofNat 256 (at_ 16 32))

/-- The images of a bundle, back to back: the KINDs found, or the KIND of the first image that fails. -/
def State.bundleKinds (s : State) : Nat → List Byte → List Nat → Except Nat (List Nat)
  | 0, bs, ks => if bs.isEmpty then .ok ks else .error (leValue (bs.take 4))
  | n + 1, bs, ks =>
    if bs.isEmpty then .ok ks
    else if s.imageOk bs then s.bundleKinds n (bs.drop (176 + leValue ((bs.drop 12).take 4))) (leValue (bs.take 4) :: ks)
    else .error (leValue (bs.take 4))

/-- FW_UPDATE_DONE: the bundle is verified, written, read back, and its copy preferred (R438). -/
def execFwUpdateDone (flashOk : Bool) (s : State) : Host.Outcome State Fault Refusal :=
  if s.sec.update then
    let bs := memBytes s.mem (s.rd64 Reg.SEC_FW_ADDR_LO).toNat (s.rd Reg.SEC_FW_LEN).toNat
    let s : State := { s.putB F.SEC_STATUS_FW_BUSY false with sec := { s.sec with update := false } }
    match s.bundleKinds 4 bs [] with
    | .error k =>
      let s := (s.put F.SEC_FW_STATUS_RESULT 3).errInc P.SEC
      .next (s.raise P.SEC B.SEC_IMAGE_REJECTED Evn.SEC_IMAGE_REJECTED (some (BitVec.ofNat 32 k)))
    | .ok ks =>
      if !([1, 2, 3, 4].all (fun k => ks.contains k)) then .next (s.put F.SEC_FW_STATUS_RESULT 4)
      else if !flashOk then .next (s.put F.SEC_FW_STATUS_RESULT 6)
      else
        let c := s.get F.SEC_FW_STATUS_TARGET
        .next { s.put F.SEC_FW_STATUS_RESULT 2 with sec := { s.sec with copies := aset [] s.sec.copies c bs, prefer := c } }
  else .next s

/-! ## Measurements and reports (R443, R444) -/

/-- A write of MEAS_CTL: an INDEX below 8 is refused. -/
def State.measCtlWrite (s : State) (w : WriteReq) : State :=
  let i := F.SEC_MEAS_CTL_INDEX.of w.data
  s.gateW Reg.SEC_MEAS_CTL w (hostOrCanopy w.req && decide (8 ≤ i)) (fun (s : State) =>
    let s := s.put F.SEC_MEAS_CTL_INDEX i
    if F.SEC_MEAS_CTL_EXTEND.of w.data = 1 then s.extendM i (s.regBytes (Reg.SEC_EXTEND_DATA 0) 8) else s)

def execExtend (w : WriteReq) (s : State) : Host.Outcome State Fault Refusal := .next (s.measCtlWrite w)

/-- A write of REPORT_CTL: GO takes MASK, the nonce and the fabric time; refused while a report is being built. -/
def State.reportCtlWrite (s : State) (w : WriteReq) : State :=
  let go := F.SEC_REPORT_CTL_GO.of w.data = 1
  s.gateW Reg.SEC_REPORT_CTL w (hostOrCanopy w.req && !(decide go && s.flag F.SEC_STATUS_REPORT_BUSY)) (fun (s : State) =>
    let m := F.SEC_REPORT_CTL_MASK.of w.data
    let s := s.put F.SEC_REPORT_CTL_MASK m
    if go then
      let r := (m, s.regBytes (Reg.SEC_REPORT_NONCE 0) 8, s.ftime)
      { (s.putB F.SEC_STATUS_REPORT_BUSY true).putB F.SEC_STATUS_REPORT_VALID false with sec := { s.sec with report := some r } }
    else s)

def execReportGo (w : WriteReq) (s : State) : Host.Outcome State Fault Refusal := .next (s.reportCtlWrite w)

/-- A report's bytes before its signature (Table 20.8). -/
def State.reportBytes (s : State) (mask : Nat) (nonce : List Byte) (time : Dword) : List Byte :=
  let flags := mstateCode s.mod.mstate + (if s.debugOpen then 8 else 0) + (if s.flag F.CLK_STATUS_TIME_VALID then 16 else 0)
    + 32 * bitsOf (s.rd Reg.HWOOD_KEYSTATE) 0 4
  let stand := if s.armed then s.rd Reg.STAND_STAND_ID else 0
  leBytes 4 1 ++ bytesOf s.serial ++ bytesOf (s.rd Reg.MODULE_BOOT_COUNT) ++ leBytes 4 flags ++ bytesOf time
    ++ bytesOf (s.rd Reg.MODULE_SHAPE_SEQ) ++ bytesOf stand ++ leBytes 2 mask ++ leBytes 2 0 ++ nonce ++ leBytes 24 0
    ++ ((List.range 16).filter (fun i => mask.testBit i)).flatMap (fun i => s.regBytes (Reg.SEC_MEAS (8 * i)) 8)

/-- REPORT_DONE: the report, signed by the identity key (R442, R444). -/
def execReportDone (s : State) : Host.Outcome State Fault Refusal :=
  match s.sec.report with
  | none => .next s
  | some (mask, nonce, time) =>
    let bs := s.reportBytes mask nonce time
    let bs := bs ++ bytesOf (Config.sm2Sign s.sec.secret bs)
    let s := (s.setRegBytes (Reg.SEC_REPORT 0) 168 bs).wr Reg.SEC_REPORT_LEN (BitVec.ofNat 32 bs.length)
    .next { (s.putB F.SEC_STATUS_REPORT_BUSY false).putB F.SEC_STATUS_REPORT_VALID true with sec := { s.sec with report := none } }

end Sys2Proof.Machine
end

