-- ==== Sys2Proof/Machine/RegFile.lean ====
section
/-! DEFINITION. Register access as a whole: what a read of any offset returns and does, and which write rights, states and ranges each
register has (R20, R29, R34 to R39, R475; the write rights of every register page). -/

namespace Sys2Proof.Machine

/-! ## LO/HI pairs (R35) -/

/-- NAME_LO registers of a page kind: offset, count, stride. -/
def pairRows : PageKind → List (Nat × Nat × Nat)
  | .clk => [(0x54, 1, 4), (0x60, 1, 4)]
  | .engine => [(0x54, 1, 4)]
  | .gdma => [(0x48, 1, 4)]
  | .floor => [(0x44, 1, 4)]
  | .stand => [(0x54, 1, 4), (0x5C, 1, 4), (0x64, 1, 4), (0x6C, 1, 4), (0x74, 1, 4), (0x7C, 1, 4), (0x94, 1, 4), (0xA8, 1, 4)]
  | .reduce => [(0x4C, 1, 4)]
  | .lpddr => [(0x6C, 1, 4)]
  | .hostdma => [(0x44, 1, 4), (0x60, 4, 0x20), (0x70, 4, 0x20)]
  | .submit => [(0x44, 1, 4), (0x5C, 1, 4), (0x80, 16, 0x20)]
  | .serve => [(0x48, 1, 4), (0x50, 1, 4), (0x58, 1, 4), (0x60, 1, 4), (0x8C, 1, 4)]
  | .sample => [(0x48, 1, 4)]
  | .coolant => [(0x78, 1, 4)]
  | .telem => [(0x68, 1, 4)]
  | .glade => [(0x100, 16, 8)]
  | .module => [(0x7C, 1, 4), (0x104, 1, 4)]
  | .evt => [(0x108, 1, 4), (0x110, 1, 4)]
  | .rlog => [(0x58, 1, 4), (0x64, 1, 4), (0x74, 1, 4), (0xC0, 1, 4)]
  | .hwood => [(0xB4, 1, 4)]
  | .sec => [(0xE0, 1, 4)]
  | _ => []

/-- Whether a NAME_LO stands at page offset `o`. -/
def isPairLo (k : PageKind) (o : Nat) : Bool :=
  (pairRows k).any (fun r => decide (r.1 ≤ o) && decide (o < r.1 + r.2.1 * r.2.2) && decide ((o - r.1) % r.2.2 = 0))

/-- Whether a NAME_HI stands at page offset `o`. -/
def isPairHi (k : PageKind) (o : Nat) : Bool := decide (4 ≤ o) && isPairLo k (o - 4)

/-! ## Reads -/

/-- CAPS.BLOCK_CAPS of a page. -/
def State.blockCaps (s : State) (k : PageKind) (inst : Nat) : Nat :=
  let bits := fun (n : Nat) (p : Nat → Bool) => (List.range n).foldl (fun a i => a + (if p i then 2 ^ i else 0)) 0
  match k with
  | .engine => inst % 16
  | .grove => bits 9 (fun p => (s.goodEngines inst).contains p)
  | .floor => bits 16 (fun g => !s.absent (P.GROVE g))
  | .link => bits 1 (fun _ => !s.absent (P.REDUCE inst))
  | .lpddr => bits 8 (fun _ => !s.absent (P.LPDDR inst))
  | .pump => bits 3 (fun n => !s.dwNamed dwPump n 0)
  | _ => 0

/-- A block register whose value depends on the time, on the requester or on state kept elsewhere. -/
def State.liveBlock (s : State) (req : Req) (k : PageKind) (inst o off : Nat) : Word :=
  let nat := fun (n : Nat) => BitVec.ofNat 32 (min n 0xFFFFFFFF)
  match k with
  | .arb =>
    if o = 0x40 then (s.reqCtx req).tag.setWidth 32 else if o = 0x48 then reqIdent req else s.rd off
  | .clk =>
    if o = 0x60 then s.ftime.setWidth 32 else if o = 0x64 then (s.ftime >>> 32).setWidth 32
    else if o = 0x5C ∧ s.flag F.CLK_STATUS_HOLDOVER then s.holdoverUs else s.rd off
  | .hostdma => if o = 0x58 then nat s.aliveAge else s.rd off
  | .svc => if o = 0x50 then nat (Config.svcLoad inst s.now % 101) else s.rd off
  | .pump => if 0x80 ≤ o ∧ o < 0xE0 ∧ o % 0x20 = 0x18 then nat (s.pumpHours ((o - 0x80) / 0x20)) else s.rd off
  | .canopy => if o = 0x48 then (if s.holder = inst + 1 then nat (s.hbAge inst) else 0) else s.rd off
  | .glade =>
    if off = Reg.GLADE_STATUS then
      setBits (setBits (s.rd off) 1 2 s.tmCause) 3 1 (if s.flag F.GLADE_TM_CTRL_FORCE then 1 else 0)
    else if off = Reg.GLADE_TM_STATE then setBits (s.rd off) 16 16 s.tmTime
    else s.rd off
  | .evt => if off = Reg.EVT_GROUP_STATUS then s.groupStatus else if off = Reg.EVT_MISSING_MEMBER then s.missingMember else s.rd off
  | .rlog => (s.rlogSelRead req o).getD (s.rd off)
  | .sec =>
    if off = Reg.SEC_TOKEN_RESULT then setBits (s.rd off) 16 8 s.tokenTtl
    else if off = Reg.SEC_CERT_LEN then nat s.sec.cert.length
    else if 0x800 ≤ o ∧ o < 0x840 then BitVec.ofNat 32 ((Config.idPub s.sec.secret).toNat / 2 ^ (8 * (o - 0x800)))
    else if 0x900 ≤ o ∧ o < 0xA00 then
      BitVec.ofNat 32 (leValue ((s.sec.cert.drop (256 * bitsOf (s.rd Reg.SEC_CERT_OFF) 0 6 + (o - 0x900))).take 4))
    else s.rd off
  | .sideband => if off = Reg.SIDEBAND_LAST_RX_AGE then nat (s.side.lastRx.value ticksMs s.now) else s.rd off
  | _ => s.rd off

/-- What a read of the register at `off` returns now: 0 where there is none, and 0 from the block registers of an absent unit's page (R7,
R20). -/
def State.live (s : State) (req : Req) (off : Nat) : Word :=
  match pageAt (off / 4096), rowAt off with
  | some (k, inst), some _ =>
    let o := off % 4096
    if o = 8 then setBits (s.rd off) 0 30 (s.blockCaps k inst)
    else if o = 0x1C ∧ k = .arb then (s.reqCtx req).tag.setWidth 32
    else if o < 0x40 then s.rd off
    else if s.absent (pageOf off) then 0
    else s.liveBlock req k inst o off
  | _, _ => 0

/-- A read served by the register arbiter: an rc register clears, NAME_LO captures NAME_HI, and the requester's next read of NAME_HI
returns what was captured (R6, R35). A debug read while debug is closed is refused and returns 0 (R30, R441). -/
def State.readReg (s : State) (req : Req) (off : Nat) : State × Word :=
  if req == .debug && !s.debugOpen then (s.refuse req off causeDebug true, 0)
  else
    match pageAt (off / 4096), rowAt off with
    | some (k, _), some r =>
      let x := s.reqCtx req
      let v := s.live req off
      if isPairLo k (off % 4096) then (s.setReqCtx req { x with snap := aset none x.snap (off + 4) (some (s.live req (off + 4))) }, v)
      else if isPairHi k (off % 4096) then
        match aget none x.snap off with
        | some h => (s.setReqCtx req { x with snap := aset none x.snap off none }, h)
        | none => (s, v)
      else if r.rc then (if off % 4096 < 0x40 ∨ !s.absent (pageOf off) then s.wr off 0 else s, v)
      else (s, v)
    | _, _ => (s, 0)

/-- A read whose value goes back to its requester. -/
def State.readTo (s : State) (req : Req) (off : Nat) : State :=
  let r := s.readReg req off
  r.1.emit (.readData req off r.2)

/-! ## Writes without a handler of their own -/

/-- Write rights, states and ranges of the rw registers that take no action: `v` is the value the write puts in force, a pair's 64 bits
at NAME_HI and none at NAME_LO, where nothing takes effect yet. -/
def State.plainOk (s : State) (req : Req) (k : PageKind) (o : Nat) (v : Option Nat) : Bool :=
  let hc := hostOrCanopy req
  let hcs := hostCanopySvc req
  let inRange := fun (lo w a b : Nat) => v.all (fun n => decide (a ≤ n / 2 ^ lo % 2 ^ w) && decide (n / 2 ^ lo % 2 ^ w ≤ b))
  let mult := fun (m : Nat) => v.all (fun n => decide (n % m = 0))
  let pow2 := fun (w a b : Nat) => v.all (fun n => (List.range w).any (fun i => decide (n % 2 ^ w = 2 ^ i)) && decide (a ≤ n % 2 ^ w) && decide (n % 2 ^ w ≤ b))
  match k with
  | .clk => hc || req == .glade
  | .engine => true
  | .gsram => isCanopy req
  | .stand => if o = 0x8C then hc && inRange 0 14 0 12288 else standWriter req
  | .link => if o = 0x68 then hc && inRange 8 8 1 255 else if o = 0x6C then hc else hcs
  | .lpddr => if o = 0x44 then hc && inRange 8 8 1 255 else isCanopy req
  | .hostdma =>
    hc && (if o = 0x48 then mult (2 ^ 30) && v.all (fun n => decide (n < 0x20000000000)) else if o = 0x4C then inRange 0 8 1 255
      else if o = 0x54 then inRange 0 6 1 60 else true)
  | .submit =>
    hcs && decide (s.fn P.SUBMIT = fnOff) &&
      (if o = 0x48 then mult 4096 else if o = 0x4C then pow2 17 64 65536 else if o = 0x58 then inRange 0 9 1 256 && inRange 16 8 1 255
       else if o = 0x60 then mult 4
       else if 0x80 ≤ o ∧ o % 0x20 = 4 then mult 64
       else if 0x80 ≤ o ∧ o % 0x20 = 8 then v.all (fun n => decide (n % 2 ^ 17 = 0)) || pow2 17 64 65536
       else if 0x80 ≤ o ∧ o % 0x20 = 0xC then inRange 0 6 16 63
       else true)
  | .serve =>
    hc && decide (s.fn P.SERVE = fnOff) &&
      (if o = 0x44 then inRange 0 9 1 256 && inRange 16 12 1 4095 else if o = 0x4C ∨ o = 0x54 then mult 64 else if o = 0x5C then mult 4
       else if o = 0x64 then mult 4096 else if o = 0x6C then inRange 16 12 1 4095 else if o = 0x70 then pow2 13 16 4096
       else if o = 0x74 then inRange 0 24 1 16777215 else if o = 0x7C then inRange 0 11 0 1024 else true)
  | .sample =>
    hc && !s.armed && v.all (fun n => decide (n % 2 ^ 19 % 32 = 0)) && inRange 0 19 32 262144 && inRange 19 4 0 1 && inRange 24 7 0 64
  | .svc => hc
  | .evt =>
    if o = 0x48 then hc
    else hcs && (if o = 0x104 then inRange 0 10 1 600
      else if o = 0x114 then
        mult 0x200000 && v.all (fun n => decide (n = 0) || (decide (0x10000000000 ≤ n) && decide ((n - 0x10000000000) / 0x200000 < s.lpUsable)))
      else true)
  | .rlog => if o = 0xCC then hc else true
  | .hwood => true
  | .sec => if o ≤ 0xDC then tokenWriter req else hc
  | .sideband => hc && inRange 0 8 1 255
  | _ => false

/-- A write of a plain rw register. A write of HWOOD.DEFECT_SEL also copies the selected entry (Table 20.9). -/
def State.plainWrite (s : State) (k : PageKind) (off : Nat) (r : RegRow) (w : WriteReq) : State :=
  let o := off % 4096
  let mask : Word := BitVec.ofNat 32 r.rw
  if isPairLo k o then
    s.gateW off w (s.plainOk w.req k o none)
      (fun s => s.setReqCtx w.req { s.reqCtx w.req with heldLo := aset none (s.reqCtx w.req).heldLo off (some w.data) })
  else if isPairHi k o then
    let v := s.pairValue w.req off w.data
    s.gateW off w (s.plainOk w.req k o (some v.toNat)) (fun s =>
      let old := s.rd (off - 4)
      ((s.dropLo w.req (off - 4)).wr64 (off - 4) v).trackWrite w.req (off - 4) old)
  else
    s.gateW off w (s.plainOk w.req k o (some w.data.toNat)) (fun s =>
      let s := s.wr off (((s.rd off) &&& ~~~mask) ||| (w.data &&& mask))
      if off = Reg.HWOOD_DEFECT_SEL then s.wr Reg.HWOOD_DEFECT_ENTRY (aget 0 s.sec.defects (bitsOf w.data 0 6)) else s)

/-! ## Header registers (R29, R31, R39) -/

/-- A write of ARB.FENCE_TAG: the requester's fence context (R39). -/
def State.fenceTagWrite (s : State) (w : WriteReq) : State :=
  s.gateW (Hdr.FENCE_TAG P.ARB) w true (fun s =>
    s.setReqCtx w.req { s.reqCtx w.req with tag := w.data.setWidth 31, mark := s.bgNext })

/-- A write of a header register: no chapter limits EVT_SUMMARY, EVT_MASK and FENCE_TAG (R29). -/
def State.headerWrite (s : State) (k : PageKind) (off : Nat) (w : WriteReq) : State :=
  let o := off % 4096
  if o = 0x10 then s.ctrlWrite (pageOf off) w
  else if o = 0x14 then s.gateW off w true (fun s => s.wr off (s.rd off &&& ~~~w.data))
  else if o = 0x1C ∧ k = .arb then s.fenceTagWrite w
  else s.gateW off w true (fun s => s.wr off w.data)

/-! ## Time sync and remote requests at their registers (R53, R61, R207) -/

/-- A write of SYNC_CTRL (R50, R53, R61). -/
def State.syncCtrlWrite (s : State) (w : WriteReq) : State :=
  let start := F.CLK_SYNC_CTRL_START.of w.data = 1
  s.gateW Reg.CLK_SYNC_CTRL w ((hostOrCanopy w.req || w.req == .glade) && !(decide start && s.syncStartRefused)) (fun s =>
    let s := s.put F.CLK_SYNC_CTRL_ROOT (F.CLK_SYNC_CTRL_ROOT.of w.data)
    if start then s.syncStart else s)

/-- The link numbers of a page's hop list after the first hop, which is the page's own link. -/
def State.hopBytes (s : State) (l : Nat) : List Nat :=
  (List.range (s.get (F.LINK_RREQ_CTRL_HOPS l))).map (fun i => bitsOf (s.rd (Reg.LINK_ROUTE l ((i + 1) / 4))) (8 * ((i + 1) % 4)) 8)

/-- A remote request completes: RESULT, and RREQ_DONE (R207, Table 8.12). -/
def State.rreqEnd (s : State) (l result : Nat) : State :=
  ((s.putB (F.LINK_RREQ_CTRL_BUSY l) false).put (F.LINK_RREQ_CTRL_RESULT l) result).raise (P.LINK l) B.LINK_RREQ_DONE Evn.LINK_RREQ_DONE

/-- GO: the request leaves on the page's link. A hop that is no link number reaches nobody. -/
def State.rreqSend (s : State) (l : Nat) : State :=
  if s.flag (F.LINK_RREQ_CTRL_BUSY l) then s
  else if !s.armed then s.rreqEnd l 2
  else
    let s := (s.putB (F.LINK_RREQ_CTRL_BUSY l) true).put (F.LINK_RREQ_CTRL_RESULT l) 1
    let hops := s.hopBytes l
    if hops.any (fun h => decide (96 ≤ h)) then s
    else s.sendMsg l (.regReq { standId := s.rd Reg.STAND_STAND_ID, member := BitVec.ofNat 13 (s.get F.STAND_MEMBERSHIP_MEMBER),
                                hops := hops.map (fun h => Fin.ofNat 96 h), back := [], write := s.flag (F.LINK_RREQ_CTRL_WRITE l),
                                addr := (s.rd (Reg.LINK_RREQ_ADDR l)).setWidth 22, data := s.rd (Reg.LINK_RREQ_DATA l) })

/-- A write of RREQ_CTRL: hops beyond 32 are outside the stated range. -/
def State.rreqCtrlWrite (s : State) (l : Nat) (w : WriteReq) : State :=
  s.gateW (Reg.LINK_RREQ_CTRL l) w (hostCanopySvc w.req && decide ((F.LINK_RREQ_CTRL_HOPS l).of w.data ≤ 31)) (fun s =>
    let s := s.put ⟨Reg.LINK_RREQ_CTRL l, 1, 7⟩ (bitsOf w.data 1 7)
    if (F.LINK_RREQ_CTRL_GO l).of w.data = 1 then s.rreqSend l else s)

/-! ## Every write (R475) -/

/-- A write of a block register with writable fields: its own handler, or `plainWrite`. -/
def State.blockWrite (s : State) (k : PageKind) (inst off : Nat) (r : RegRow) (w : WriteReq) : State :=
  let o := off % 4096
  match k with
  | .clk => if o = 0x44 then s.syncCtrlWrite w else s.plainWrite k off r w
  | .engine => s.gateW off w (s.plainOk w.req k o (some w.data.toNat)) (fun s => s.wr off (s.rd off &&& ~~~w.data))
  | .stand => if o = 0x44 then s.standCommandWrite w else s.plainWrite k off r w
  | .link => if o = 0xC0 then s.rreqCtrlWrite inst w else s.plainWrite k off r w
  | .hostdma =>
    if o = 0x50 then s.hostAliveWrite w
    else if 0x60 ≤ o ∧ o % 0x20 = 4 then s.dmaStartWrite ((o - 0x60) / 0x20) w
    else if 0x60 ≤ o ∧ o % 0x20 = 8 then s.dmaCtrlWrite ((o - 0x60) / 0x20) w
    else s.plainWrite k off r w
  | .submit => if 0x80 ≤ o ∧ o % 0x20 = 0x10 then s.cqHeadSet ((o - 0x80) / 0x20) w else s.plainWrite k off r w
  | .pump =>
    if o = 0x44 then s.pumpLimitsWrite w
    else if o % 0x20 = 0 then s.pumpSetWrite ((o - 0x80) / 0x20) w else s.pumpCtlWrite ((o - 0x80) / 0x20) w
  | .valve => if o = 0x44 then s.isoWrite w else s.valveSetWrite ((o - 0x100) / 8) w
  | .coolant => s.leakThreshWrite w
  | .therm => if o = 0x48 then s.rackCapWrite w else if o = 0x4C then s.hostCapWrite w else s.thermCfgWrite off w
  | .telem => if o = 0x40 then s.telemModeWrite w else s.telemWindowWrite w
  | .glade => s.tmCtrlWrite w
  | .canopy => if o = 0x44 then s.tokenWrite inst w else s.mboxWrite inst w
  | .dwood => if o = 0x44 then s.dwoodSelWrite w else s.dwoodClearWrite w
  | .module => if o = 0x44 then s.commandWrite w else if o = 0x48 then s.bootCtrlWrite w else s.bootCfgWrite w
  | .evt =>
    if o = 0x68 then s.injectWrite w else if o = 0x100 then s.loadCtrlWrite w else if o = 0x138 then s.groupCtrlWrite w
    else s.plainWrite k off r w
  | .rlog =>
    if o = 0x70 then s.rlogSelWrite w else if o = 0x78 then s.rlogSeekWrite w else if o = 0xC8 then s.rlogClearWrite w
    else s.plainWrite k off r w
  | .sec =>
    if o = 0x44 then
      -- the nonce is the security engine's own: a free value
      { s with freeCtr := s.freeCtr + 4 }.tokenCtlWrite w
        (Config.freeWord s.freeCtr ++ Config.freeWord (s.freeCtr + 1) ++ Config.freeWord (s.freeCtr + 2) ++ Config.freeWord (s.freeCtr + 3))
    else if o = 0xEC then s.fwCtlWrite w else if o = 0xF4 then s.measCtlWrite w else if o = 0x140 then s.reportCtlWrite w
    else s.plainWrite k off r w
  | _ => s.plainWrite k off r w

/-- Whether the register at `off` has writable fields (R475 test 3). -/
def writableAt (off : Nat) : Bool :=
  match rowAt off with
  | some r => decide (r.rw ≠ 0) || decide (r.w1c ≠ 0) || decide (r.wp ≠ 0)
  | none => false

/-- One write at the register arbiter, the tests of R475 in order: debug, byte enables, nothing writable there, and the rest in the
register's gate. -/
def State.regWrite (s : State) (off : Nat) (w : WriteReq) : State :=
  if w.req == .debug && !s.debugOpen then s.refuse w.req off causeDebug
  else if w.be ≠ 15 then s.refuse w.req off causePartial
  else if !writableAt off then s
  else match pageAt (off / 4096), rowAt off with
    | some (k, inst), some r => if off % 4096 < 0x40 then s.headerWrite k off w else s.blockWrite k inst off r w
    | _, _ => s

/-- Whether a write was accepted: every accepted write takes the next snoop sequence number (R362). -/
def wasAccepted (before after : State) : Bool := decide (after.canopy.seq ≠ before.canopy.seq)

/-- Whether a write of `off` was refused, by the states before and after it. -/
def wasRefused (off : Nat) (before after : State) : Bool := writableAt off && !wasAccepted before after

end Sys2Proof.Machine
end

