-- ==== Sys2Proof/Machine/Arb.lean ====
section
/-! DEFINITION. Register access commands (R34 to R41, R475), the end of a switch-over's overlap (R366, R367), the start of a time sync
(R50) and remote register requests (R207). -/

namespace Sys2Proof.Machine

/-! ## Writes -/

/-- Rank of a requester among requests of one cycle (Table 2.7), service cores in order before remote modules. -/
def State.rank (s : State) : Req → Nat
  | .glade => 0
  | .canopyA => if s.holder = 2 then 2 else 1
  | .canopyB => if s.holder = 2 then 1 else 2
  | .host => 3
  | .svc c => 4 + c.val
  | .remote _ => 12
  | .sideband => 13
  | .debug => 14

/-- Writes in the order of Table 2.7; equal ranks (remote requests) in order of arrival. -/
def State.byRank (s : State) (ws : List WriteReq) : List WriteReq :=
  ws.foldl (fun acc w => acc.filter (fun x => decide (s.rank x.req ≤ s.rank w.req)) ++ [w] ++ acc.filter (fun x => decide (s.rank w.req < s.rank x.req))) []

/-- Writes of one register in one cycle, one after another; with how many of them were accepted. -/
def State.writeAll (s : State) (off : Nat) : List WriteReq → Nat → State × Nat
  | [], n => (s, n)
  | w :: ws, n =>
    let s' := s.regWrite off w
    s'.writeAll off ws (if wasAccepted s s' then n + 1 else n)

/-- REGISTER_WRITE: every write that reaches the register in the cycle, in rank order; two or more are a conflict (R36, R37). -/
def execRegisterWrite (off : BitVec 22) (w : WriteReq) (same : List WriteReq) (s : State) : Host.Outcome State Fault Refusal :=
  let r := s.writeAll off.toNat (s.byRank (w :: same)) 0
  .next (if 2 ≤ r.2 then r.1.bump Reg.ARB_CONFLICT_COUNT 1 else r.1)

/-- PAIR_LO_WRITE and PAIR_HI_WRITE: a half of a pair (R35). -/
def execPairLoWrite (off : BitVec 22) (w : WriteReq) (s : State) : Host.Outcome State Fault Refusal := .next (s.regWrite off.toNat w)
def execPairHiWrite (off : BitVec 22) (w : WriteReq) (s : State) : Host.Outcome State Fault Refusal := .next (s.regWrite off.toNat w)

/-! ## Fences (R39) -/

def execFenceTagWrite (w : WriteReq) (s : State) : Host.Outcome State Fault Refusal := .next (s.regWrite (Hdr.FENCE_TAG P.ARB) w)

/-- A FENCE_DONE read completes at once when no earlier write waits, else it waits for them or for 20 µs. -/
def State.fenceRead (s : State) (req : Req) : State :=
  let x := s.reqCtx req
  if req == .debug && !s.debugOpen then s.readTo req Reg.ARB_FENCE_DONE
  else if s.fenceOpen req x.mark then s.setReqCtx req { x with waiting := true }
  else s.readTo req Reg.ARB_FENCE_DONE

def execFenceDoneRead (req : Req) (s : State) : Host.Outcome State Fault Refusal := .next (s.fenceRead req)

/-- FENCE_DONE_TIMEOUT: 20 µs have passed: the read completes with PENDING = 1. -/
def execFenceDoneTimeout (req : Req) (s : State) : Host.Outcome State Fault Refusal :=
  let x := s.reqCtx req
  .next (if x.waiting then
    (s.setReqCtx req { x with waiting := false }).emit (.readData req Reg.ARB_FENCE_DONE (x.tag.setWidth 32 ||| 0x80000000))
  else s)

/-! ## Reads -/

/-- A read of any register; FENCE_DONE answers as R39 gives. -/
def State.busRead (s : State) (req : Req) (off : Nat) : State := if off = Reg.ARB_FENCE_DONE then s.fenceRead req else s.readTo req off

def execReadClear (req : Req) (off : BitVec 22) (s : State) : Host.Outcome State Fault Refusal := .next (s.busRead req off.toNat)
def execPairLoRead (req : Req) (off : BitVec 22) (s : State) : Host.Outcome State Fault Refusal := .next (s.busRead req off.toNat)
def execDebugRead (off : BitVec 22) (s : State) : Host.Outcome State Fault Refusal := .next (s.busRead .debug off.toNat)

/-! ## Time sync (R50, R53) -/

/-- SYNC_START: START, with ROOT as it stands. -/
def execSyncStart (req : Req) (s : State) : Host.Outcome State Fault Refusal :=
  let root := s.get F.CLK_SYNC_CTRL_ROOT
  .next (s.regWrite Reg.CLK_SYNC_CTRL { req := req, data := BitVec.ofNat 32 (2 + root), be := 15 })

/-! ## The end of the overlap (R366, R367) -/

/-- The value that R367 asks of a register: its rw bits as required, its other bits as they are. -/
def fixValue (r : RegRow) (now want : Word) : Word :=
  let m : Word := BitVec.ofNat 32 r.rw
  (now &&& ~~~m) ||| (want &&& m)

/-- Registers whose present value differs from the one required, with what the new holder writes, ascending. -/
def State.fixes (s : State) : List (Nat × Word) :=
  s.canopy.since.filterMap (fun e =>
    match e.2, rowAt e.1 with
    | some want, some r => let v := fixValue r (s.rd e.1) want; if v = s.rd e.1 then none else some (e.1, BitVec.ofNat 32 r.rw &&& v)
    | _, _ => none)

/-- The new holder's rewrite of one register. A NAME_LO takes effect with its NAME_HI, which is written with it. -/
def State.fixOne (s : State) (req : Req) (e : Nat × Word) (hiToo : Bool) : State :=
  let write := fun (s : State) (off : Nat) (v : Word) => s.regWrite off { req := req, data := v, be := 15 }
  let s := write s e.1 e.2
  match pageAt (e.1 / 4096) with
  | some (k, _) => if isPairLo k (e.1 % 4096) && !hiToo then write s (e.1 + 4) (s.rd (e.1 + 4)) else s
  | none => s

/-- OVERLAP_END: the new holder rewrites what R367 requires, and the former holder is held in reset. -/
def execOverlapEnd (s : State) : Host.Outcome State Fault Refusal :=
  match s.canopy.former with
  | none => .next s
  | some f =>
    let k := 1 - f.val
    let list := s.fixes
    let s := list.foldl (fun (s : State) e => s.fixOne (coreReq k) e (list.any (fun x => decide (x.1 = e.1 + 4)))) s
    let s := s.bump (Reg.CANOPY_OVERLAP_FIXES k) list.length
    .next ((s.overlapOff).beginRestart f.val false false 0)

/-! ## Remote register requests (R207) -/

/-- RREQ_GO. -/
def execRreqGo (link : Fin 96) (w : WriteReq) (s : State) : Host.Outcome State Fault Refusal := .next (s.regWrite (Reg.LINK_RREQ_CTRL link.val) w)

/-- The destination's access as requester class 0x7, with its RESULT: 0, or 4 where its arbiter refuses. -/
def State.remoteAccess (s : State) (r : RegReqMsg) : State × RegRspMsg :=
  let req : Req := .remote r.member
  let off := r.addr.toNat
  if r.write then
    let s' := s.regWrite off { req := req, data := r.data, be := 15 }
    (s', { back := r.back, result := if wasRefused off s s' then 4 else 0, data := 0 })
  else
    let x := s.readReg req off
    (x.1, { back := r.back, result := 0, data := x.2 })

/-- REG_REQ_RX: a relay sends it on; the destination performs it, if it has the initiator's stand armed. -/
def execRegReqRx (link : Fin 96) (r : RegReqMsg) (s : State) : Host.Outcome State Fault Refusal :=
  let s := s.takeInbox link.val (.regReq r)
  match r.hops with
  | h :: hs => .next (s.sendMsg h.val (.regReq { r with hops := hs, back := link :: r.back }))
  | [] =>
    if s.armed && decide (s.rd Reg.STAND_STAND_ID = r.standId) then
      let x := s.remoteAccess r
      .next (x.1.sendMsg link.val (.regRsp x.2))
    else .next (s.sendMsg link.val (.regRsp { back := r.back, result := 2, data := 0 }))

/-- REG_RSP_RX: a relay sends it back along the list; the initiator's page takes it. -/
def execRegRspRx (link : Fin 96) (r : RegRspMsg) (s : State) : Host.Outcome State Fault Refusal :=
  let l := link.val
  let s := s.takeInbox l (.regRsp r)
  match r.back with
  | h :: hs => .next (s.sendMsg h.val (.regRsp { r with back := hs }))
  | [] =>
    if s.flag (F.LINK_RREQ_CTRL_BUSY l) then
      let s := if !s.flag (F.LINK_RREQ_CTRL_WRITE l) && decide (r.result = 0) then s.wr (Reg.LINK_RREQ_DATA l) r.data else s
      .next (s.rreqEnd l r.result.toNat)
    else .next s

/-- RREQ_TIMEOUT: 1 ms without a response. -/
def execRreqTimeout (link : Fin 96) (s : State) : Host.Outcome State Fault Refusal :=
  .next (if s.flag (F.LINK_RREQ_CTRL_BUSY link.val) then s.rreqEnd link.val 3 else s)

end Sys2Proof.Machine
end

