-- ==== Sys2Proof/Machine/EngineCtl.lean ====
section
/-! DEFINITION. The CTL slot (Table 5.4) and the ends of stalls. A CTL command ends the bundle that the engine is issuing. -/

namespace Sys2Proof.Machine

/-- The next sequential bundle address. -/
def EngineSt.next (x : EngineSt) : EngineSt := { x with pc := x.pc + 1 }

/-- NOP: next bundle at t + 1. -/
def execNop (a : Eng) (s : State) : Host.Outcome State Fault Refusal := s.slot a true (fun i x => s.endBundle i x.next)

/-- WAIT: next bundle at t + 1 + n. -/
def execWait (a : Eng) (nM1 : BitVec 16) (s : State) : Host.Outcome State Fault Refusal :=
  s.slot a true (fun i x => s.endBundle i { x.next with stall := .wait (x.tick + 2 + nM1.toNat) })

/-- The tick a WAIT counts to arrives (R97). -/
def execWaitExpire (a : Eng) (s : State) : Host.Outcome State Fault Refusal :=
  match s.engIdx a with
  | none => .next s
  | some i =>
    match (s.eng i).stall with
    | .wait t => .next (s.engResume i t)
    | _ => .next s

/-- LOOP: pushes COUNT; the body begins at the next bundle (R98). -/
def execLoop (a : Eng) (countM1 : BitVec 16) (s : State) : Host.Outcome State Fault Refusal :=
  s.slot a true (fun i x =>
    if x.loops.length < 4 then s.endBundle i { x.next with loops := { count := countM1.toNat + 1, body := x.pc + 1 } :: x.loops } else s)

/-- ENDLOOP: ends a pass; steps X when XEN (R98). -/
def execEndloop (a : Eng) (x : BitVec 3) (xen : Bool) (xstep : BitVec 16) (s : State) : Host.Outcome State Fault Refusal :=
  s.slot a (Ctl.ok (.endloop x xen xstep)) (fun i e =>
    match e.loops with
    | [] => s
    | l :: ls =>
      let e := if xen then { e with xregs := aset 0 e.xregs x.toNat (aget 0 e.xregs x.toNat + xstep) } else e
      if l.count ≤ 1 then s.endBundle i { e.next with loops := ls }
      else s.endBundle i { e with pc := l.body, loops := { l with count := l.count - 1 } :: ls })

/-- EPOCH_WAIT: next bundle at the first schedule tick of step-relative epoch E. -/
def execEpochWait (a : Eng) (epoch : BitVec 16) (s : State) : Host.Outcome State Fault Refusal :=
  s.slot a true (fun i x => s.endBundle i { x.next with stall := .epoch (4096 * epoch.toNat) })

/-- Step-relative epoch of the executing step (R164). -/
def State.stepEpoch (s : State) : Nat :=
  match s.stand.current with
  | some c => (s.rd64 Reg.STAND_GEPOCH_LO).toNat - c.start
  | none => 0

/-- The first schedule tick of the awaited epoch arrives (R99). -/
def execEpochWaitRelease (a : Eng) (s : State) : Host.Outcome State Fault Refusal :=
  match s.engIdx a with
  | none => .next s
  | some i =>
    match (s.eng i).stall with
    | .epoch t => if t ≤ 4096 * s.stepEpoch then .next (s.engResume i t) else .next s
    | _ => .next s

/-- FENCE: next bundle once the selected operations have completed; at t + 1 when none is outstanding (R99). -/
def execFence (a : Eng) (mask : BitVec 6) (s : State) : Host.Outcome State Fault Refusal :=
  s.slot a true (fun i x =>
    if x.ops.any (fun o => mask.getLsbD o.cls) || (mask.getLsbD 3 && s.dmaOutstanding i) then
      s.endBundle i { x.next with stall := .fence mask }
    else s.endBundle i x.next)

/-- The selected operations have completed (R99); grove DMA completes by its own command. -/
def execFenceResume (a : Eng) (s : State) : Host.Outcome State Fault Refusal :=
  match s.engIdx a with
  | none => .next s
  | some i =>
    match (s.eng i).stall with
    | .fence m => if m.getLsbD 3 && s.dmaOutstanding i then .next s else .next (s.engResume i ((s.eng i).fenceTick m))
    | _ => .next s

/-- SEG: next bundle at the target address, at t + 1. -/
def execSeg (a : Eng) (target : BitVec 13) (s : State) : Host.Outcome State Fault Refusal :=
  s.slot a true (fun i x => s.endBundle i { x with pc := target })

/-- EVT: raises COMPUTE.STAND_EVT (R101). -/
def execEvt (a : Eng) (code : BitVec 8) (s : State) : Host.Outcome State Fault Refusal :=
  s.slot a true (fun i x =>
    let st := s.rd Reg.STAND_CUR_STEP_LO
    let d := fun k => Config.standEvt k code.toNat (s.leiOf i) st x.count
    (s.raise (P.ENGINE (i / 16) (i % 16)) B.ENGINE_STAND_EVT Evn.COMPUTE_STAND_EVT (some (d 0)) (some (d 1))).endBundle i x.next)

/-- HALT: no further bundle in this step; STATUS.HALT_REACHED (R102). -/
def execHalt (a : Eng) (s : State) : Host.Outcome State Fault Refusal :=
  s.slot a true (fun i x =>
    let s := (s.putB (F.ENGINE_STATUS_ISSUING (i / 16) (i % 16)) false).putB (F.ENGINE_STATUS_HALT_REACHED (i / 16) (i % 16)) true
    s.endBundle i { x with stall := .halted })

/-- XSET: sets X for the next bundle. -/
def execXset (a : Eng) (x : BitVec 3) (value : BitVec 16) (s : State) : Host.Outcome State Fault Refusal :=
  s.slot a (Ctl.ok (.xset x value)) (fun i e => s.endBundle i { e.next with xregs := aset 0 e.xregs x.toNat value })

/-- An operation's result becomes visible while issue is stalled or has halted (R95, R99, R102): the engine's next due reads
and writes take place, never past the tick at which issue resumes. -/
def execOpResultVisible (a : Eng) (s : State) : Host.Outcome State Fault Refusal :=
  match s.engIdx a with
  | none => .next s
  | some i =>
    let x := s.eng i
    let lim : Option Nat := match x.stall with
      | .none => none
      | .wait t => some (t - 1)
      | .epoch t => some (t - 1)
      | .fence m => some (x.fenceTick m)
      | .halted => x.nextDue (x.reads.foldl (fun m r => max m r.1) (x.writes.foldl (fun m w => max m w.1) 0))
    match lim with
    | none => .next s
    | some t =>
      match x.nextDue t with
      | some tau => .next (s.engTick i tau)
      | none => .next s

end Sys2Proof.Machine
end

