-- ==== Sys2Proof/Machine/EngineTen.lean ====
section
/-! DEFINITION. The TEN slot (Table 5.5): MMA, LOADW, DRAIN and ACCADD, with the reads of Table 5.3. -/

namespace Sys2Proof.Machine

/-- The class of TEN operations in a FENCE mask (R99). -/
abbrev clsTen : Nat := 4

/-- NOP of the slot. -/
def execTenNop (a : Eng) (s : State) : Host.Outcome State Fault Refusal := s.slot a true (fun _ _ => s)

/-- MMA (R105, R106): activation row r is read at t + r; `residue` is the first row at which the residue check mismatches (R87). -/
def execMma (a : Eng) (afmt : BitVec 4) (kbM1 : BitVec 3) (rowsM1 rbase : BitVec 7) (buf clr wsel : Bool) (we : BitVec 16)
    (xsel : BitVec 3) (osa : BitVec 15) (residue : ResidueObs) (s : State) : Host.Outcome State Fault Refusal :=
  s.slot a (Ten.ok (.mma afmt kbM1 rowsM1 rbase buf clr wsel we xsel osa)) (fun i x =>
    let rows := rowsM1.toNat + 1
    let o := x.osa xsel osa
    let reads := (List.range rows).map (fun r =>
      (x.tick + r, ReadOp.mmaRow (rbase.toNat + r) r (kbM1.toNat + 1) afmt.toNat rows o wsel buf clr we
        (decide (residue.map (·.val) = some r))))
    s.setEng i (x.start reads [] clsTen (x.tick + rowsM1.toNat + (if afmt.toNat ≤ 2 then 24 else 20))))

/-- LOADW (R104): 16 lines per tick, the tile visible from t + 20. -/
def execLoadw (a : Eng) (wfmt : BitVec 4) (kbM1 : BitVec 3) (wsel : Bool) (xsel : BitVec 3) (osa : BitVec 15) (s : State) :
    Host.Outcome State Fault Refusal :=
  s.slot a (Ten.ok (.loadw wfmt kbM1 wsel xsel osa)) (fun i x =>
    let o := x.osa xsel osa
    let reads := (List.range 17).map (fun j => (x.tick + j, ReadOp.loadw wfmt.toNat (kbM1.toNat + 1) wsel o j))
    s.setEng i (x.start reads [] clsTen (x.tick + 20)))

/-- DRAIN (R107): buffer row r is read at t + r, or t + 2r when RAW. -/
def execDrain (a : Eng) (fmt : BitVec 4) (rm : BitVec 2) (raw : Bool) (smode : BitVec 2) (buf : Bool) (rowsM1 rbase : BitVec 7)
    (os : BitVec 8) (xsel : BitVec 3) (osa : BitVec 15) (s : State) : Host.Outcome State Fault Refusal :=
  s.slot a (Ten.ok (.drain fmt rm raw smode buf rowsM1 rbase os xsel osa)) (fun i x =>
    let rows := rowsM1.toNat + 1
    let o := x.osa xsel osa
    let c := if raw then 2 else 1
    let reads := (List.range rows).map (fun r =>
      (x.tick + c * r, ReadOp.drainRow buf (rbase.toNat + r) r rows fmt.toNat rm.toNat raw smode.toNat os o (s.bidx x.count)))
    s.setEng i (x.start reads [] clsTen (x.tick + c * rowsM1.toNat + (if raw then 15 else 14))))

/-- ACCADD (R108): operand-store row r is read at t + 2r and t + 2r + 1. -/
def execAccadd (a : Eng) (buf : Bool) (rowsM1 rbase : BitVec 7) (clr : Bool) (we : BitVec 16) (xsel : BitVec 3) (osa : BitVec 15)
    (s : State) : Host.Outcome State Fault Refusal :=
  s.slot a (Ten.ok (.accadd buf rowsM1 rbase clr we xsel osa)) (fun i x =>
    let rows := rowsM1.toNat + 1
    let o := x.osa xsel osa
    let reads := (List.range rows).flatMap (fun r =>
      [(x.tick + 2 * r, ReadOp.accRow buf (rbase.toNat + r) r 0 clr we o), (x.tick + 2 * r + 1, ReadOp.accRow buf (rbase.toNat + r) r 1 clr we o)])
    s.setEng i (x.start reads [] clsTen (x.tick + 2 * rowsM1.toNat + 10)))

end Sys2Proof.Machine
end

