-- ==== Sys2Proof/Machine/EngineVec.lean ====
section
/-! DEFINITION. The VEC slot (Table 5.9): one meaning per opcode over shared lane-wise forms. -/

namespace Sys2Proof.Machine

/-- The class of VEC operations in a FENCE mask (R99). -/
abbrev clsVec : Nat := 5

/-- A vector operation: operands are read at t, VD is visible `lat` ticks later (Table 5.3). -/
def State.vecOp (s : State) (a : Eng) (ok : Bool) (vd : BitVec 6) (lat : Nat) (f : Nat → EngineSt → List Word) : Host.Outcome State Fault Refusal :=
  s.slot a ok (fun i x => s.setEng i (x.start [] [(x.tick + lat, .vreg vd.toNat (f i x))] clsVec (x.tick + lat)))

/-- Lane-wise forms of one, two and three register operands. -/
def State.vec1 (s : State) (a : Eng) (vd va : BitVec 6) (lat : Nat) (f : Word → Word) : Host.Outcome State Fault Refusal :=
  s.vecOp a true vd lat (fun _ x => (x.v va.toNat).map f)

def State.vec2 (s : State) (a : Eng) (vd va vb : BitVec 6) (lat : Nat) (f : Word → Word → Word) : Host.Outcome State Fault Refusal :=
  s.vecOp a true vd lat (fun _ x => List.zipWith f (x.v va.toNat) (x.v vb.toNat))

def State.vec3 (s : State) (a : Eng) (vd va vb vc : BitVec 6) (lat : Nat) (f : Word → Word → Word → Word) : Host.Outcome State Fault Refusal :=
  s.vecOp a true vd lat (fun _ x => List.zipWith (fun p c => f p.1 p.2 c) ((x.v va.toNat).zip (x.v vb.toNat)) (x.v vc.toNat))

/-- VNOP. -/
def execVnop (a : Eng) (s : State) : Host.Outcome State Fault Refusal := s.slot a true (fun _ _ => s)

/-- VADD: a + b. -/
def execVadd (a : Eng) (vd va vb : BitVec 6) (s : State) : Host.Outcome State Fault Refusal :=
  s.vec2 a vd va vb 4 addF32

/-- VSUB: a − b. -/
def execVsub (a : Eng) (vd va vb : BitVec 6) (s : State) : Host.Outcome State Fault Refusal :=
  s.vec2 a vd va vb 4 subF32

/-- VMUL: a × b. -/
def execVmul (a : Eng) (vd va vb : BitVec 6) (s : State) : Host.Outcome State Fault Refusal :=
  s.vec2 a vd va vb 4 mulF32

/-- VFMA: a × b + c, rounded once. -/
def execVfma (a : Eng) (vd va vb vc : BitVec 6) (s : State) : Host.Outcome State Fault Refusal :=
  s.vec3 a vd va vb vc 6 fmaF32

/-- VMAX: the larger. -/
def execVmax (a : Eng) (vd va vb : BitVec 6) (s : State) : Host.Outcome State Fault Refusal :=
  s.vec2 a vd va vb 2 maxF32

/-- VMIN: the smaller. -/
def execVmin (a : Eng) (vd va vb : BitVec 6) (s : State) : Host.Outcome State Fault Refusal :=
  s.vec2 a vd va vb 2 minF32

/-- VABS: sign cleared. -/
def execVabs (a : Eng) (vd va : BitVec 6) (s : State) : Host.Outcome State Fault Refusal :=
  s.vec1 a vd va 2 (fun x => x &&& 0x7FFFFFFF)

/-- VNEG: sign inverted. -/
def execVneg (a : Eng) (vd va : BitVec 6) (s : State) : Host.Outcome State Fault Refusal :=
  s.vec1 a vd va 2 (fun x => x ^^^ 0x80000000)

/-- VADDI: a + imm. -/
def execVaddi (a : Eng) (vd va : BitVec 6) (imm : Word) (s : State) : Host.Outcome State Fault Refusal :=
  s.vec1 a vd va 4 (fun x => addF32 x imm)

/-- VMULI: a × imm. -/
def execVmuli (a : Eng) (vd va : BitVec 6) (imm : Word) (s : State) : Host.Outcome State Fault Refusal :=
  s.vec1 a vd va 4 (fun x => mulF32 x imm)

/-- VMOVI: imm in every lane. -/
def execVmovi (a : Eng) (vd : BitVec 6) (imm : Word) (s : State) : Host.Outcome State Fault Refusal :=
  s.vecOp a true vd 2 (fun _ _ => List.replicate 256 imm)

/-- VMOV: a. -/
def execVmov (a : Eng) (vd va : BitVec 6) (s : State) : Host.Outcome State Fault Refusal :=
  s.vec1 a vd va 2 (fun x => x)

/-- VCMP: all ones where COND holds, else 0; COND 5 to 7 are reserved (Table 5.6). -/
def execVcmp (a : Eng) (vd va vb : BitVec 6) (cond : BitVec 3) (s : State) : Host.Outcome State Fault Refusal :=
  s.vecOp a (decide (cond.toNat ≤ 4)) vd 2 (fun _ x =>
    List.zipWith (fun p q => if condF32 cond.toNat p q then 0xFFFFFFFF else 0) (x.v va.toNat) (x.v vb.toNat))

/-- VSEL: a where lane c ≠ 0, else b. -/
def execVsel (a : Eng) (vd va vb vc : BitVec 6) (s : State) : Host.Outcome State Fault Refusal :=
  s.vec3 a vd va vb vc 2 (fun x y c => if c = 0 then y else x)

/-- VIADD: 32-bit integer sum, wrapping. -/
def execViadd (a : Eng) (vd va vb : BitVec 6) (s : State) : Host.Outcome State Fault Refusal :=
  s.vec2 a vd va vb 2 (fun x y => x + y)

/-- VISUB: 32-bit integer difference, wrapping. -/
def execVisub (a : Eng) (vd va vb : BitVec 6) (s : State) : Host.Outcome State Fault Refusal :=
  s.vec2 a vd va vb 2 (fun x y => x - y)

/-- VAND: bitwise and. -/
def execVand (a : Eng) (vd va vb : BitVec 6) (s : State) : Host.Outcome State Fault Refusal :=
  s.vec2 a vd va vb 2 (fun x y => x &&& y)

/-- VOR: bitwise or. -/
def execVor (a : Eng) (vd va vb : BitVec 6) (s : State) : Host.Outcome State Fault Refusal :=
  s.vec2 a vd va vb 2 (fun x y => x ||| y)

/-- VXOR: bitwise exclusive or. -/
def execVxor (a : Eng) (vd va vb : BitVec 6) (s : State) : Host.Outcome State Fault Refusal :=
  s.vec2 a vd va vb 2 (fun x y => x ^^^ y)

/-- VSHL: shift left. -/
def execVshl (a : Eng) (vd va : BitVec 6) (count : BitVec 5) (s : State) : Host.Outcome State Fault Refusal :=
  s.vec1 a vd va 2 (fun x => x <<< count.toNat)

/-- VSHR: logical shift right. -/
def execVshr (a : Eng) (vd va : BitVec 6) (count : BitVec 5) (s : State) : Host.Outcome State Fault Refusal :=
  s.vec1 a vd va 2 (fun x => x >>> count.toNat)

/-- VSHRA: arithmetic shift right. -/
def execVshra (a : Eng) (vd va : BitVec 6) (count : BitVec 5) (s : State) : Host.Outcome State Fault Refusal :=
  s.vec1 a vd va 2 (fun x => x.sshiftRight count.toNat)

/-- VEXP2: R86, Table 4.6. -/
def execVexp2 (a : Eng) (vd va : BitVec 6) (s : State) : Host.Outcome State Fault Refusal :=
  s.vec1 a vd va 12 exp2F32

/-- VLOG2: R86, Table 4.6. -/
def execVlog2 (a : Eng) (vd va : BitVec 6) (s : State) : Host.Outcome State Fault Refusal :=
  s.vec1 a vd va 12 log2F32

/-- VRCP: R86, Table 4.6. -/
def execVrcp (a : Eng) (vd va : BitVec 6) (s : State) : Host.Outcome State Fault Refusal :=
  s.vec1 a vd va 12 rcpF32

/-- VRSQRT: R86, Table 4.6. -/
def execVrsqrt (a : Eng) (vd va : BitVec 6) (s : State) : Host.Outcome State Fault Refusal :=
  s.vec1 a vd va 12 rsqrtF32

/-- Whether a C-form operation's fields are defined (R94, R111). -/
def cvtOk (op : Nat) (fmt : BitVec 4) (rm : BitVec 2) : Bool := decide (rm.toNat ≤ 2) && cvtFmtOk op fmt.toNat

/-- sr_rand by lane for the bundle that engine i is issuing. -/
def State.laneRand (s : State) (i : Nat) (x : EngineSt) (k : Nat) : Nat := s.rand i (s.bidx x.count) k

/-- VCVTF: packed elements of a, scaled by the lanes of b, to FP32 (R111). -/
def execVcvtf (a : Eng) (vd va vb : BitVec 6) (fmt : BitVec 4) (rm : BitVec 2) (s : State) : Host.Outcome State Fault Refusal :=
  s.vecOp a (cvtOk 0x30 fmt rm) vd 6 (fun i x => vcvtf fmt.toNat rm.toNat (s.laneRand i x) (x.v va.toNat) (x.v vb.toNat))

/-- VCVTN: FP32 lanes of a, scaled by the lanes of b, to packed elements (R111). -/
def execVcvtn (a : Eng) (vd va vb : BitVec 6) (fmt : BitVec 4) (rm : BitVec 2) (s : State) : Host.Outcome State Fault Refusal :=
  s.vecOp a (cvtOk 0x31 fmt rm) vd 6 (fun i x => vcvtn fmt.toNat rm.toNat (s.laneRand i x) (x.v va.toNat) (x.v vb.toNat))

/-- VBMAX: the block scale codes of a for FMT (R111). -/
def execVbmax (a : Eng) (vd va : BitVec 6) (fmt : BitVec 4) (rm : BitVec 2) (s : State) : Host.Outcome State Fault Refusal :=
  s.vecOp a (cvtOk 0x32 fmt rm) vd 8 (fun _ x => vbmax fmt.toNat (x.v va.toNat))

/-- VFTOI: FP32 to a 32-bit integer. -/
def execVftoi (a : Eng) (vd va : BitVec 6) (rm : BitVec 2) (s : State) : Host.Outcome State Fault Refusal :=
  s.vecOp a (cvtOk 0x33 0 rm) vd 6 (fun i x => (x.v va.toNat).zipIdx.map (fun p => ftoi rm.toNat (s.laneRand i x p.2) p.1))

/-- VITOF: a 32-bit integer to FP32. -/
def execVitof (a : Eng) (vd va : BitVec 6) (rm : BitVec 2) (s : State) : Host.Outcome State Fault Refusal :=
  s.vecOp a (cvtOk 0x34 0 rm) vd 6 (fun i x => (x.v va.toNat).zipIdx.map (fun p => itof rm.toNat (s.laneRand i x p.2) p.1))

/-- Lane 0 a value, the other lanes 0. -/
def laneZero (v : Word) : List Word := v :: List.replicate 255 0

/-- VRSUM: the FP32 sum of the lanes in the fixed pairwise tree, over 8 levels. -/
def execVrsum (a : Eng) (vd va : BitVec 6) (s : State) : Host.Outcome State Fault Refusal :=
  s.vecOp a true vd 10 (fun _ x => laneZero ((treeF32 addF32 8 (x.v va.toNat)).headD 0))

/-- VRMAX: VMAX over the lanes. -/
def execVrmax (a : Eng) (vd va : BitVec 6) (s : State) : Host.Outcome State Fault Refusal :=
  s.vecOp a true vd 10 (fun _ x => laneZero ((treeF32 maxF32 8 (x.v va.toNat)).headD 0))

/-- VLD: VD from the 16 lines at OSA'. -/
def execVld (a : Eng) (vd : BitVec 6) (xsel : BitVec 3) (osa : BitVec 15) (s : State) : Host.Outcome State Fault Refusal :=
  s.vecOp a true vd 4 (fun _ x => (List.range 256).map (fun k =>
    ((x.ln (x.osa xsel osa + k / 16)) >>> (32 * (k % 16))).setWidth 32))

/-- Line j of a vector register (VST). -/
def vregLine (v : List Word) (j : Nat) : Line :=
  BitVec.ofNat 512 ((List.range 16).foldl (fun n k => n + (v.getD (16 * j + k) 0).toNat * 2 ^ (32 * k)) 0)

/-- VST: the 16 lines at OSA' from VA. -/
def execVst (a : Eng) (va : BitVec 6) (xsel : BitVec 3) (osa : BitVec 15) (s : State) : Host.Outcome State Fault Refusal :=
  s.slot a true (fun i x =>
    let o := x.osa xsel osa
    let v := x.v va.toNat
    s.setEng i (x.start [] ((List.range 16).map (fun j => (x.tick + 2, .store ((o + j) % 32768) (vregLine v j)))) clsVec (x.tick + 2)))

end Sys2Proof.Machine
end

