-- ==== Sys2Proof/Machine/Side.lean ====
section
/-! DEFINITION. The tray side-band: bus modes, MCTP and PLDM requests, sense points, effecters, vendor commands and event messages (R447 to
R459). -/

namespace Sys2Proof.Machine

/-! ## I3C (R447, R448) -/

/-- An I3C command that the interface takes: it is addressed to the module (R457). -/
def State.i3c (s : State) (f : State → State) : State := if s.sideAnswers false then f s.sideTouch else s

/-- ENTDAA and SETDASA: I3C mode at the dynamic address, from dual mode. -/
def State.toI3c (s : State) (addr : BitVec 7) : State := (s.put F.SIDEBAND_STATUS_MODE smI3c).put F.SIDEBAND_ADDR_DYNAMIC addr.toNat

/-- The interface is in dual mode. -/
def State.dual (s : State) : Bool := s.sideOn && decide (s.get F.SIDEBAND_STATUS_MODE = smDual)

def execEntdaa (addr : BitVec 7) (s : State) : Host.Outcome State Fault Refusal := .next (if s.dual then s.sideTouch.toI3c addr else s)

def execSetdasa (static addr : BitVec 7) (s : State) : Host.Outcome State Fault Refusal :=
  .next (if s.dual && decide (s.get F.SIDEBAND_ADDR_STATIC = static.toNat) then s.sideTouch.toI3c addr else s)

/-- RSTDAA: dual mode and no dynamic address; an event message sent and not acknowledged is sent again (R457). -/
def execRstdaa (s : State) : Host.Outcome State Fault Refusal :=
  .next (if s.sideOn then
    let s := (s.sideTouch.put F.SIDEBAND_STATUS_MODE smDual).put F.SIDEBAND_ADDR_DYNAMIC 0
    { s with side := { s.side with sent := false } }
  else s)

def execSetnewda (addr : BitVec 7) (s : State) : Host.Outcome State Fault Refusal :=
  .next (if s.sideOn && decide (s.get F.SIDEBAND_STATUS_MODE = smI3c) then s.sideTouch.put F.SIDEBAND_ADDR_DYNAMIC addr.toNat else s)

def execGetpid (s : State) : Host.Outcome State Fault Refusal := .next (s.i3c (fun s => s.emit (.cccReply (Config.i3cData 0))))
def execGetbcr (s : State) : Host.Outcome State Fault Refusal := .next (s.i3c (fun s => s.emit (.cccReply (Config.i3cData 1))))
def execGetdcr (s : State) : Host.Outcome State Fault Refusal := .next (s.i3c (fun s => s.emit (.cccReply (Config.i3cData 2))))

/-- GETSTATUS: an event message to announce is a pending interrupt. -/
def execGetstatus (s : State) : Host.Outcome State Fault Refusal :=
  .next (s.i3c (fun s => s.emit (.cccReply (Config.i3cStatus (!s.evt.pldm.isEmpty)))))

/-- ENEC and DISEC: in-band interrupts enabled and disabled. -/
def execEnec (s : State) : Host.Outcome State Fault Refusal := .next (s.i3c (fun s => { s with side := { s.side with ibi := true } }))
def execDisec (s : State) : Host.Outcome State Fault Refusal := .next (s.i3c (fun s => { s with side := { s.side with ibi := false } }))

/-! ## Requests the block serves (R449, R450) -/

/-- A request served by the block, with its answer. -/
def State.sideServe (s : State) (smbus : Bool) (f : State → State × SideReply) : State :=
  s.sideRx smbus (fun s => let r := f s; r.1.sideReply smbus r.2)

/-- An answer without data. -/
abbrev ccOk : SideReply := .msg .success []
abbrev ccInvalid : SideReply := .msg .invalidData []

def execSetEndpointId (smbus : Bool) (eid : BitVec 8) (s : State) : Host.Outcome State Fault Refusal :=
  .next (s.sideServe smbus (fun s => ((s.put F.SIDEBAND_ADDR_EID eid.toNat).putB F.SIDEBAND_STATUS_EID_VALID true, .ident (some eid))))

def execGetEndpointId (smbus : Bool) (s : State) : Host.Outcome State Fault Refusal :=
  .next (s.sideServe smbus (fun s =>
    (s, .ident (if s.flag F.SIDEBAND_STATUS_EID_VALID then some (BitVec.ofNat 8 (s.get F.SIDEBAND_ADDR_EID)) else none))))

/-- MCTP message types: control 0x00, PLDM 0x01 and vendor defined 0x7F; 0xFF asks for the base version. -/
def mctpTypes : List Nat := [0x00, 0x01, 0x7F, 0xFF]

def execGetMctpVersionSupport (smbus : Bool) (type : BitVec 8) (s : State) : Host.Outcome State Fault Refusal :=
  .next (s.sideServe smbus (fun s => (s, if mctpTypes.contains type.toNat then .msg .success (Config.mctpVersions type.toNat) else ccInvalid)))

def execGetMessageTypeSupport (smbus : Bool) (s : State) : Host.Outcome State Fault Refusal :=
  .next (s.sideServe smbus (fun s => (s, .names ["PLDM", "vendor defined"])))

/-- The one vendor ID set: Aedant's IANA enterprise number (R455). -/
def execGetVendorDefinedMessageSupport (smbus : Bool) (selector : BitVec 8) (s : State) : Host.Outcome State Fault Refusal :=
  .next (s.sideServe smbus (fun s => (s, if selector = 0 then .msg .success (bytesOf Config.enterprise) else ccInvalid)))

/-- MCTP_MSG_TIMEOUT: the partial message of a tag is discarded after 100 ms (R449). -/
def execMctpMsgTimeout (tag : BitVec 3) (s : State) : Host.Outcome State Fault Refusal :=
  .next { s with side := { s.side with partials := s.side.partials.filter (fun t => decide (t ≠ tag)) } }

/-! ## Requests the token holder serves (R450) -/

/-- The sensor and effecter numbers, in PDR order: record handles from 1 (R451, R453). -/
def pdrIds : List Nat := (List.range 72).map (fun n => 0x0100 + n) ++ [0x0200, 0x0201]

/-- Range of a sense point in its unit (Table 21.2). -/
def pointRange (n : Nat) : Int × Int :=
  if n ≤ 15 then (-2000, 15200) else if n ≤ 23 then (-2000, 15000) else if n ≤ 27 then (-2000, 12500) else if n ≤ 31 then (-2000, 15000)
  else if n = 32 then (0, 10000) else if n ≤ 34 then (-1000, 10000) else if n ≤ 36 then (-500, 6000) else if n = 37 then (-6500, 6500)
  else if n ≤ 41 then (0, 65535) else if n ≤ 44 then (0, 10000) else if n ≤ 47 then (0, 1500) else if n ≤ 54 then (0, 4095)
  else if n = 55 then (0, 7000) else if n = 56 then (0, 8000) else if n ≤ 59 then (0, 5600) else if n ≤ 63 then (500, 2600)
  else if n ≤ 65 then (0, 12288) else if n = 66 then (0, 3) else if n = 67 then (0, 7) else if n = 68 then (0, 4294967200)
  else if n = 69 then (-2000, 15200) else if n = 70 then (0, 3) else (0, 1)

/-- A PDR by record handle; handle 0 is the first. The rack cap's carries the fused ceiling as its maximum. -/
def State.pdrAt (s : State) (handle : Nat) : SideReply :=
  match pdrIds[handle - 1]? with
  | none => ccInvalid
  | some id =>
    if id = 0x0200 then .pdr id 500 s.ceiling else if id = 0x0201 then .pdr id 0 2
    else .pdr id (pointRange (id - 0x0100)).1 (pointRange (id - 0x0100)).2

/-- Commands of a supported PLDM type (Table 21.1). -/
def pldmCommands (type : Nat) : Option (List String) :=
  if type = 0 then some ["SetTID", "GetTID", "GetPLDMVersion", "GetPLDMTypes", "GetPLDMCommands"]
  else if type = 2 then
    some ["SetEventReceiver", "PlatformEventMessage", "PollForPlatformEventMessage", "EventMessageSupported", "EventMessageBufferSize",
          "GetSensorReading", "SetNumericEffecterValue", "GetNumericEffecterValue", "GetPDRRepositoryInfo", "GetPDR"]
  else none

/-- The token holder serves one request. -/
def State.canServe (s : State) (smbus : Bool) (q : CanReq) : State :=
  match q with
  | .uuid => s.sideReply smbus (.msg .success (Config.endpointUuid s.serial))
  | .setTid tid => (s.put F.SIDEBAND_ADDR_TID tid.toNat).sideReply smbus ccOk
  | .getTid => s.sideReply smbus (.ident (some (BitVec.ofNat 8 (s.get F.SIDEBAND_ADDR_TID))))
  | .version t => s.sideReply smbus (if (pldmCommands t.toNat).isSome then .msg .success (Config.pldmVersions t.toNat) else ccInvalid)
  | .types => s.sideReply smbus (.names ["0", "2"])
  | .commands t => s.sideReply smbus (match pldmCommands t.toNat with | some l => .names l | none => ccInvalid)
  | .pdrInfo => s.sideReply smbus (.pdrCount pdrIds.length)
  | .pdr h => s.sideReply smbus (s.pdrAt h.toNat)

/-- With a token holder the waiting requests are served in the order in which they came. -/
def State.sideDrain (s : State) : State :=
  if s.holder = 0 then s
  else s.side.waiting.foldl (fun (s : State) e => s.canServe e.1 e.2) { s with side := { s.side with waiting := [] } }

/-- A request for the token holder. -/
def State.sideAsk (s : State) (smbus : Bool) (q : CanReq) : State :=
  s.sideRx smbus (fun s => { s with side := { s.side with waiting := s.side.waiting ++ [(smbus, q)] } }.sideDrain)

def execGetEndpointUuid (smbus : Bool) (s : State) : Host.Outcome State Fault Refusal := .next (s.sideAsk smbus .uuid)
def execSetTid (smbus : Bool) (tid : BitVec 8) (s : State) : Host.Outcome State Fault Refusal := .next (s.sideAsk smbus (.setTid tid))
def execGetTid (smbus : Bool) (s : State) : Host.Outcome State Fault Refusal := .next (s.sideAsk smbus .getTid)
def execGetPldmVersion (smbus : Bool) (type : BitVec 8) (s : State) : Host.Outcome State Fault Refusal := .next (s.sideAsk smbus (.version type))
def execGetPldmTypes (smbus : Bool) (s : State) : Host.Outcome State Fault Refusal := .next (s.sideAsk smbus .types)
def execGetPldmCommands (smbus : Bool) (type : BitVec 8) (s : State) : Host.Outcome State Fault Refusal := .next (s.sideAsk smbus (.commands type))
def execGetPdrRepositoryInfo (smbus : Bool) (s : State) : Host.Outcome State Fault Refusal := .next (s.sideAsk smbus .pdrInfo)
def execGetPdr (smbus : Bool) (handle : Word) (s : State) : Host.Outcome State Fault Refusal := .next (s.sideAsk smbus (.pdr handle))

/-! ## Sense points (R451, R452, Table 21.2) -/

/-- A value where its inputs are valid. -/
def readIf (ok : Bool) (v : Int) : Option Int := if ok then some v else none

/-- The hottest valid package of quadrant `q`. -/
def State.quadrant (s : State) (q : Nat) : Option Int :=
  ((List.range 8).filterMap (fun i =>
    let p := 8 * q + i
    if s.absent (P.LPDDR (p / 2)) then none else (aget {} s.therm.memT p).valid)).foldl (fun a v =>
      match a with
      | some x => some (max x v)
      | none => some v) none

/-- The reading of sense point Snn; none is "unavailable". -/
def State.sensePoint (s : State) (n : Nat) : Option Int :=
  let low := fun (off : Nat) => bitsOf (s.rd off) 0 16
  let valid := fun (i : Nat) => s.flag ⟨Reg.GLADE_INPUT_VALID, i, 1⟩
  if n ≤ 15 then readIf (!s.absent (P.GSENS n) && !s.bothInvalid n) ((s.tctl n).getD (sint16 (low (Reg.GSENS_TCTL n))))
  else if n ≤ 23 then (aget {} s.therm.floorT (n - 16)).valid
  else if n ≤ 27 then s.quadrant (n - 24)
  else if n ≤ 31 then (aget {} s.therm.areaT (n - 28)).valid
  else if n = 32 then readIf (s.flag F.COOLANT_STATUS_FLOW_VALID) (low Reg.COOLANT_FLOW)
  else if n = 33 then readIf (s.flag F.COOLANT_STATUS_TIN_VALID) (sint16 (low Reg.COOLANT_TIN))
  else if n = 34 then readIf (s.flag F.COOLANT_STATUS_TOUT_VALID) (sint16 (low Reg.COOLANT_TOUT))
  else if n = 35 then readIf (s.flag F.COOLANT_STATUS_PIN_VALID) (sint16 (low Reg.COOLANT_PIN))
  else if n = 36 then readIf (s.flag F.COOLANT_STATUS_POUT_VALID) (sint16 (low Reg.COOLANT_POUT))
  else if n = 37 then
    readIf (s.flag F.COOLANT_STATUS_PIN_VALID && s.flag F.COOLANT_STATUS_POUT_VALID) (sint16 (low Reg.COOLANT_PIN) - sint16 (low Reg.COOLANT_POUT))
  else if n ≤ 41 then readIf (valid (12 + (n - 38))) (low (Reg.COOLANT_LEAK_Z (n - 38)))
  else if n ≤ 44 then readIf (valid (9 + (n - 42))) (low (Reg.PUMP_TACH (n - 42)))
  else if n ≤ 47 then readIf (valid (9 + (n - 45))) (bitsOf (s.rd (Reg.PUMP_MEAS (n - 45))) 16 16)
  else if n ≤ 54 then some (bitsOf (s.rd (Reg.VALVE_BANK_I (n - 48))) 0 12)
  else if n = 55 then readIf (valid 7) (low Reg.GLADE_VIN_IIN)
  else if n = 56 then readIf (valid 8) (bitsOf (s.rd Reg.GLADE_VIN_IIN) 16 16)
  else if n = 57 then readIf (valid 7 && valid 8) (low Reg.TELEM_INST_POWER)
  else if n = 58 then some (low Reg.TELEM_AVG_POWER)
  else if n = 59 then some (low Reg.TELEM_PEAK_POWER)
  else if n = 60 then some (s.get F.THERM_CAP_EFF_CAP)
  else if n = 61 then some (low Reg.THERM_THERMAL_CAP)
  else if n = 62 then some (low Reg.THERM_RACK_CAP)
  else if n = 63 then some (low Reg.THERM_HOST_CAP_APPLIED)
  else if n = 64 then some (s.get F.STAND_PACE_P_APPLIED)
  else if n = 65 then some (bitsOf (s.rd Reg.THERM_LOOP_OUT) 0 14)
  else if n = 66 then some (s.get F.THERM_DEGRADED_LEVEL)
  else if n = 67 then some (s.get F.MODULE_MSTATE_STATE)
  else if n = 68 then some ((s.rd64 Reg.TELEM_ENERGY_LO).toNat / 36000 : Nat)
  else if n = 69 then some (sint16 (low Reg.THERM_TCTL_MAX))
  else if n = 70 then some ((List.range 3).filter (fun i => (s.get F.PUMP_STATUS_RUNNING).testBit i)).length
  else some (s.get F.COOLANT_LEAK_INFO_LATCHED)

/-- GET_SENSOR_READING: the value at the moment of the request. -/
def execGetSensorReading (smbus : Bool) (sensor : BitVec 16) (s : State) : Host.Outcome State Fault Refusal :=
  .next (s.sideServe smbus (fun s =>
    if 0x0100 ≤ sensor.toNat ∧ sensor.toNat < 0x0148 then (s, .sensor (s.sensePoint (sensor.toNat - 0x0100))) else (s, ccInvalid)))

/-! ## Effecters (R453, R454) -/

/-- SetNumericEffecterValue: a write of the register as requester class 0x5, whose acceptance R330 and R340 decide. -/
def State.effecterSet (s : State) (effecter : Nat) (value : Word) : State × SideReply :=
  let w : WriteReq := { req := .sideband, data := value, be := 15 }
  if effecter = 0x0200 then
    if value.toNat < 65536 then
      let s' := s.rackCapWrite w
      (s', if !s.capOk value then ccInvalid else if wasAccepted s s' then ccOk else .msg .notReady [])
    else (s, ccInvalid)
  else if effecter = 0x0201 then
    if value.toNat ≤ 3 then
      let s' := s.telemModeWrite w
      (s', if wasAccepted s s' then ccOk else ccInvalid)
    else (s, ccInvalid)
  else (s, ccInvalid)

def execSetNumericEffecterValue (smbus : Bool) (effecter : BitVec 16) (value : Word) (s : State) : Host.Outcome State Fault Refusal :=
  .next (s.sideServe smbus (fun s => s.effecterSet effecter.toNat value))

def execGetNumericEffecterValue (smbus : Bool) (effecter : BitVec 16) (s : State) : Host.Outcome State Fault Refusal :=
  .next (s.sideServe smbus (fun s =>
    (s, if effecter = 0x0200 then .effecter (bitsOf (s.rd Reg.THERM_RACK_CAP) 0 16)
        else if effecter = 0x0201 then .effecter (bitsOf (s.rd Reg.TELEM_MODE) 0 2) else ccInvalid)))

/-! ## Vendor commands (R455, Table 21.3) -/

/-- Reads of `n` registers from `off` up, in ascending order. -/
def State.sideRegs (s : State) (off : Nat) : Nat → State × List Byte
  | 0 => (s, [])
  | n + 1 =>
    let r := s.readReg .sideband off
    let t := r.1.sideRegs (off + 4) n
    (t.1, bytesOf r.2 ++ t.2)

/-- Size of BAR0 (R40). -/
abbrev bar0Size : Nat := 0x400000

def execRegRead (smbus : Bool) (off : Word) (n : BitVec 8) (s : State) : Host.Outcome State Fault Refusal :=
  .next (s.sideServe smbus (fun s =>
    if n.toNat = 0 ∨ 16 < n.toNat ∨ off.toNat % 4 ≠ 0 ∨ bar0Size < off.toNat + 4 * n.toNat then (s, ccInvalid)
    else let r := s.sideRegs off.toNat n.toNat; (r.1, .msg .success r.2)))

/-- REG_WRITE: completion code 0x80 where the arbiter refuses. -/
def execRegWrite (smbus : Bool) (off : Word) (value : Word) (s : State) : Host.Outcome State Fault Refusal :=
  .next (s.sideServe smbus (fun s =>
    if off.toNat % 4 ≠ 0 ∨ bar0Size ≤ off.toNat then (s, ccInvalid)
    else
      let s' := s.regWrite off.toNat { req := .sideband, data := value, be := 15 }
      (s', if wasRefused off.toNat s s' then .msg .refused [] else ccOk)))

/-! ## Event messages (R456, Table 21.4) -/

/-- The 32 bytes of an entry. -/
def eventBytes (e : EvEntry) : List Byte :=
  leBytes 4 (e.seq.getD 0).toNat ++ leBytes 8 e.stamp.toNat ++ leBytes 2 e.code ++ leBytes 1 e.sev ++ leBytes 1 (if e.remote then 1 else 0)
    ++ leBytes 2 (e.page / 4096) ++ leBytes 2 e.origin ++ leBytes 2 e.count ++ leBytes 2 0 ++ leBytes 4 e.data0.toNat ++ leBytes 4 e.data1.toNat

/-- The head of the PLDM buffer has been taken and acknowledged: it is removed. -/
def State.pldmAck (s : State) : State :=
  ({ s with evt := { s.evt with pldm := s.evt.pldm.drop 1 }, side := { s.side with sent := false } }).sideAlert

/-- SET_EVENT_RECEIVER; none disables event messages. -/
def execSetEventReceiver (smbus : Bool) (eid : Option (BitVec 8)) (s : State) : Host.Outcome State Fault Refusal :=
  .next (s.sideServe smbus (fun s => ({ s.putB F.SIDEBAND_STATUS_RECEIVER eid.isSome with side := { s.side with receiver := eid } }, ccOk)))

/-- PLATFORM_EVENT_MESSAGE: in I3C mode, with a receiver set, the module announces and sends the oldest buffered entry. -/
def execPlatformEventMessage (s : State) : Host.Outcome State Fault Refusal :=
  match s.evt.pldm with
  | [] => .next s
  | e :: _ =>
    if s.sideOn && decide (s.get F.SIDEBAND_STATUS_MODE = smI3c) && s.flag F.SIDEBAND_STATUS_RECEIVER && s.side.ibi && !s.side.sent then
      let s := ((s.emit (.ibi 0xAE)).emit (.platformEvent (eventBytes e))).bumpW Reg.SIDEBAND_TX_MSGS 1
      .next { s with side := { s.side with sent := true } }
    else .next s

/-- PLATFORM_EVENT_ACK: the receiver acknowledges what was sent. -/
def execPlatformEventAck (s : State) : Host.Outcome State Fault Refusal :=
  .next (if s.sideAnswers false && s.side.sent then (s.sideTouch.bumpW Reg.SIDEBAND_RX_MSGS 1).pldmAck else s)

/-- POLL_FOR_PLATFORM_EVENT_MESSAGE: takes the oldest entry, or acknowledges the one it took. -/
def execPollForPlatformEventMessage (smbus : Bool) (ack : Bool) (s : State) : Host.Outcome State Fault Refusal :=
  .next (s.sideServe smbus (fun s =>
    if ack then (if s.side.sent then (s.pldmAck, ccOk) else (s, ccInvalid))
    else match s.evt.pldm with
      | [] => (s, ccOk)
      | e :: _ => ({ s with side := { s.side with sent := true } }, .msg .success (eventBytes e))))

/-- EVENT_MESSAGE_SUPPORTED and EVENT_MESSAGE_BUFFER_SIZE: class 0xFA, and messages of up to 1,024 bytes (Table 21.1). -/
def execEventMessageSupported (smbus : Bool) (s : State) : Host.Outcome State Fault Refusal :=
  .next (s.sideServe smbus (fun s => (s, .names ["0xFA"])))
def execEventMessageBufferSize (smbus : Bool) (s : State) : Host.Outcome State Fault Refusal :=
  .next (s.sideServe smbus (fun s => (s, .size 1024)))

/-! ## Silence (R457) -/

/-- TRAY_SILENT: SILENT_TIMEOUT seconds without a transaction addressed to the module. -/
def execTraySilent (s : State) : Host.Outcome State Fault Refusal :=
  if s.sideOn && !s.flag F.SIDEBAND_STATUS_SILENT then
    let n := 1000 * s.get F.SIDEBAND_CONFIG_SILENT_TIMEOUT
    let s : State := { s with side := { s.side with lastRx := s.side.lastRx.atLeast ticksMs s.now n } }
    .next ((s.putB F.SIDEBAND_STATUS_SILENT true).raise P.SIDEBAND B.SIDEBAND_TRAY_SILENT Evn.SIDEBAND_TRAY_SILENT)
  else .next s

end Sys2Proof.Machine
end

