-- ==== Sys2Proof/Machine/Dispatch.lean ====
section
/-! DEFINITION. The dispatch of a command to its meaning: one arm per constructor. -/

namespace Sys2Proof.Machine

def exec (i : Instr) (s : State) : Host.Outcome State Fault Refusal :=
  match i with
  | .registerWrite off w same => Sys2Proof.Machine.execRegisterWrite off w same s
  | .readClear req off => Sys2Proof.Machine.execReadClear req off s
  | .pairLoRead req off => Sys2Proof.Machine.execPairLoRead req off s
  | .pairLoWrite off w => Sys2Proof.Machine.execPairLoWrite off w s
  | .pairHiWrite off w => Sys2Proof.Machine.execPairHiWrite off w s
  | .debugRead off => Sys2Proof.Machine.execDebugRead off s
  | .fnEnable req page => Sys2Proof.Machine.execFnEnable req page s
  | .fnDisable req page => Sys2Proof.Machine.execFnDisable req page s
  | .fnReset req page => Sys2Proof.Machine.execFnReset req page s
  | .fnResetDone page => Sys2Proof.Machine.execFnResetDone page s
  | .startSeqDone page obs => Sys2Proof.Machine.execStartSeqDone page obs s
  | .startSeqFail page detail => Sys2Proof.Machine.execStartSeqFail page detail s
  | .internalFault page detail => Sys2Proof.Machine.execInternalFault page detail s
  | .shutdownDone page => Sys2Proof.Machine.execShutdownDone page s
  | .fenceTagWrite w => Sys2Proof.Machine.execFenceTagWrite w s
  | .fenceDoneRead req => Sys2Proof.Machine.execFenceDoneRead req s
  | .fenceDoneTimeout req => Sys2Proof.Machine.execFenceDoneTimeout req s
  | .refLost => Sys2Proof.Machine.execRefLost s
  | .holdoverExpired => Sys2Proof.Machine.execHoldoverExpired s
  | .refAccepted => Sys2Proof.Machine.execRefAccepted s
  | .refRestored => Sys2Proof.Machine.execRefRestored s
  | .pllUnlock => Sys2Proof.Machine.execPllUnlock s
  | .pllRelock => Sys2Proof.Machine.execPllRelock s
  | .refclkWaitTimeout => Sys2Proof.Machine.execRefclkWaitTimeout s
  | .syncStart req => Sys2Proof.Machine.execSyncStart req s
  | .syncRx first rest => Sys2Proof.Machine.execSyncRx first rest s
  | .checkSend => Sys2Proof.Machine.execCheckSend s
  | .checkRx link rootId time => Sys2Proof.Machine.execCheckRx link rootId time s
  | .syncTimeout => Sys2Proof.Machine.execSyncTimeout s
  | .marginLow link => Sys2Proof.Machine.execMarginLow link s
  | .skipFlitRx link drop => Sys2Proof.Machine.execSkipFlitRx link drop s
  | .elasticOverrun link => Sys2Proof.Machine.execElasticOverrun link s
  | .laneLockLoss link lane => Sys2Proof.Machine.execLaneLockLoss link lane s
  | .nop a => Sys2Proof.Machine.execNop a s
  | .wait a nM1 => Sys2Proof.Machine.execWait a nM1 s
  | .waitExpire a => Sys2Proof.Machine.execWaitExpire a s
  | .loop a countM1 => Sys2Proof.Machine.execLoop a countM1 s
  | .endloop a x xen xstep => Sys2Proof.Machine.execEndloop a x xen xstep s
  | .epochWait a epoch => Sys2Proof.Machine.execEpochWait a epoch s
  | .epochWaitRelease a => Sys2Proof.Machine.execEpochWaitRelease a s
  | .fence a mask => Sys2Proof.Machine.execFence a mask s
  | .fenceResume a => Sys2Proof.Machine.execFenceResume a s
  | .seg a target => Sys2Proof.Machine.execSeg a target s
  | .evt a code => Sys2Proof.Machine.execEvt a code s
  | .halt a => Sys2Proof.Machine.execHalt a s
  | .xset a x value => Sys2Proof.Machine.execXset a x value s
  | .tenNop a => Sys2Proof.Machine.execTenNop a s
  | .mma a afmt kbM1 rowsM1 rbase buf clr wsel we xsel osa residue => Sys2Proof.Machine.execMma a afmt kbM1 rowsM1 rbase buf clr wsel we xsel osa residue s
  | .loadw a wfmt kbM1 wsel xsel osa => Sys2Proof.Machine.execLoadw a wfmt kbM1 wsel xsel osa s
  | .drain a fmt rm raw smode buf rowsM1 rbase os xsel osa => Sys2Proof.Machine.execDrain a fmt rm raw smode buf rowsM1 rbase os xsel osa s
  | .accadd a buf rowsM1 rbase clr we xsel osa => Sys2Proof.Machine.execAccadd a buf rowsM1 rbase clr we xsel osa s
  | .vnop a => Sys2Proof.Machine.execVnop a s
  | .vadd a vd va vb => Sys2Proof.Machine.execVadd a vd va vb s
  | .vsub a vd va vb => Sys2Proof.Machine.execVsub a vd va vb s
  | .vmul a vd va vb => Sys2Proof.Machine.execVmul a vd va vb s
  | .vfma a vd va vb vc => Sys2Proof.Machine.execVfma a vd va vb vc s
  | .vmax a vd va vb => Sys2Proof.Machine.execVmax a vd va vb s
  | .vmin a vd va vb => Sys2Proof.Machine.execVmin a vd va vb s
  | .vabs a vd va => Sys2Proof.Machine.execVabs a vd va s
  | .vneg a vd va => Sys2Proof.Machine.execVneg a vd va s
  | .vaddi a vd va imm => Sys2Proof.Machine.execVaddi a vd va imm s
  | .vmuli a vd va imm => Sys2Proof.Machine.execVmuli a vd va imm s
  | .vmovi a vd imm => Sys2Proof.Machine.execVmovi a vd imm s
  | .vmov a vd va => Sys2Proof.Machine.execVmov a vd va s
  | .vcmp a vd va vb cond => Sys2Proof.Machine.execVcmp a vd va vb cond s
  | .vsel a vd va vb vc => Sys2Proof.Machine.execVsel a vd va vb vc s
  | .viadd a vd va vb => Sys2Proof.Machine.execViadd a vd va vb s
  | .visub a vd va vb => Sys2Proof.Machine.execVisub a vd va vb s
  | .vand a vd va vb => Sys2Proof.Machine.execVand a vd va vb s
  | .vor a vd va vb => Sys2Proof.Machine.execVor a vd va vb s
  | .vxor a vd va vb => Sys2Proof.Machine.execVxor a vd va vb s
  | .vshl a vd va count => Sys2Proof.Machine.execVshl a vd va count s
  | .vshr a vd va count => Sys2Proof.Machine.execVshr a vd va count s
  | .vshra a vd va count => Sys2Proof.Machine.execVshra a vd va count s
  | .vexp2 a vd va => Sys2Proof.Machine.execVexp2 a vd va s
  | .vlog2 a vd va => Sys2Proof.Machine.execVlog2 a vd va s
  | .vrcp a vd va => Sys2Proof.Machine.execVrcp a vd va s
  | .vrsqrt a vd va => Sys2Proof.Machine.execVrsqrt a vd va s
  | .vcvtf a vd va vb fmt rm => Sys2Proof.Machine.execVcvtf a vd va vb fmt rm s
  | .vcvtn a vd va vb fmt rm => Sys2Proof.Machine.execVcvtn a vd va vb fmt rm s
  | .vbmax a vd va fmt rm => Sys2Proof.Machine.execVbmax a vd va fmt rm s
  | .vftoi a vd va rm => Sys2Proof.Machine.execVftoi a vd va rm s
  | .vitof a vd va rm => Sys2Proof.Machine.execVitof a vd va rm s
  | .vrsum a vd va => Sys2Proof.Machine.execVrsum a vd va s
  | .vrmax a vd va => Sys2Proof.Machine.execVrmax a vd va s
  | .vld a vd xsel osa => Sys2Proof.Machine.execVld a vd xsel osa s
  | .vst a va xsel osa => Sys2Proof.Machine.execVst a va xsel osa s
  | .mnop a slot => Sys2Proof.Machine.execMnop a slot s
  | .ld a slot rate lenM1 areg ainc off xsel osa obs => Sys2Proof.Machine.execLd a slot rate lenM1 areg ainc off xsel osa obs s
  | .st a slot rate lenM1 areg ainc off xsel osa => Sys2Proof.Machine.execSt a slot rate lenM1 areg ainc off xsel osa s
  | .seta a slot areg value => Sys2Proof.Machine.execSeta a slot areg value s
  | .adda a slot areg addend => Sys2Proof.Machine.execAdda a slot areg addend s
  | .send a slot q lenM1 xsel osa => Sys2Proof.Machine.execSend a slot q lenM1 xsel osa s
  | .recv a slot q lenM1 xsel osa => Sys2Proof.Machine.execRecv a slot q lenM1 xsel osa s
  | .gather a slot vs dreg countM1 xsel osa obs => Sys2Proof.Machine.execGather a slot vs dreg countM1 xsel osa obs s
  | .scatter a slot vs dreg countM1 xsel osa => Sys2Proof.Machine.execScatter a slot vs dreg countM1 xsel osa s
  | .dmat a slot ch desc => Sys2Proof.Machine.execDmat a slot ch desc s
  | .opResultVisible a => Sys2Proof.Machine.execOpResultVisible a s
  | .scrubTick g obs0 obs1 => Sys2Proof.Machine.execScrubTick g obs0 obs1 s
  | .bgAccess b obs => Sys2Proof.Machine.execBgAccess b obs s
  | .bgHeldServe obs => Sys2Proof.Machine.execBgHeldServe obs s
  | .xbarLineRx src dst copies obs => Sys2Proof.Machine.execXbarLineRx src dst copies obs s
  | .dmaSchedStart g ch desc => Sys2Proof.Machine.execDmaSchedStart g ch desc s
  | .dmaComplete g ch obs => Sys2Proof.Machine.execDmaComplete g ch obs s
  | .foldDone g => Sys2Proof.Machine.execFoldDone g s
  | .issue req => Sys2Proof.Machine.execIssue req s
  | .unload req => Sys2Proof.Machine.execUnload req s
  | .abortVote req => Sys2Proof.Machine.execAbortVote req s
  | .endReq req => Sys2Proof.Machine.execEndReq req s
  | .groupEpochStart => Sys2Proof.Machine.execGroupEpochStart s
  | .gcmRx link m => Sys2Proof.Machine.execGcmRx link m s
  | .stepStart => Sys2Proof.Machine.execStepStart s
  | .voteSample => Sys2Proof.Machine.execVoteSample s
  | .commitTick => Sys2Proof.Machine.execCommitTick s
  | .paceFaultLinkDown => Sys2Proof.Machine.execPaceFaultLinkDown s
  | .holdReached => Sys2Proof.Machine.execHoldReached s
  | .idleReached => Sys2Proof.Machine.execIdleReached s
  | .abortRx link a => Sys2Proof.Machine.execAbortRx link a s
  | .standDisarm => Sys2Proof.Machine.execStandDisarm s
  | .trainPhaseDone link obs => Sys2Proof.Machine.execTrainPhaseDone link obs s
  | .trainPhaseTimeout link obs => Sys2Proof.Machine.execTrainPhaseTimeout link obs s
  | .detectTimeout link => Sys2Proof.Machine.execDetectTimeout link s
  | .markRx link carried phase => Sys2Proof.Machine.execMarkRx link carried phase s
  | .echoRx link a0 a1 rhoPartner => Sys2Proof.Machine.execEchoRx link a0 a1 rhoPartner s
  | .flitRx link flit pos => Sys2Proof.Machine.execFlitRx link flit pos s
  | .serviceMsgRx link msgno body => Sys2Proof.Machine.execServiceMsgRx link msgno body s
  | .serviceAckRx link cls msgno => Sys2Proof.Machine.execServiceAckRx link cls msgno s
  | .serviceResendTimeout link cls msgno => Sys2Proof.Machine.execServiceResendTimeout link cls msgno s
  | .rreqGo link w => Sys2Proof.Machine.execRreqGo link w s
  | .regReqRx link r => Sys2Proof.Machine.execRegReqRx link r s
  | .regRspRx link r => Sys2Proof.Machine.execRegRspRx link r s
  | .rreqTimeout link => Sys2Proof.Machine.execRreqTimeout link s
  | .takedownNoticeRx link => Sys2Proof.Machine.execTakedownNoticeRx link s
  | .takedownComplete link => Sys2Proof.Machine.execTakedownComplete link s
  | .reduceAdd link incoming poisoned => Sys2Proof.Machine.execReduceAdd link incoming poisoned s
  | .reduceSink link incoming poisoned => Sys2Proof.Machine.execReduceSink link incoming poisoned s
  | .lpddrFrame m frame obs => Sys2Proof.Machine.execLpddrFrame m frame obs s
  | .lpddrRefresh m ch bank => Sys2Proof.Machine.execLpddrRefresh m ch bank s
  | .refreshRateChange m ch mult => Sys2Proof.Machine.execRefreshRateChange m ch mult s
  | .lpddrScrub m obs => Sys2Proof.Machine.execLpddrScrub m obs s
  | .lpddrFoldDone m => Sys2Proof.Machine.execLpddrFoldDone m s
  | .pcieLinkUp width speed => Sys2Proof.Machine.execPcieLinkUp width speed s
  | .pcieLinkDown => Sys2Proof.Machine.execPcieLinkDown s
  | .aerError k => Sys2Proof.Machine.execAerError k s
  | .flr => Sys2Proof.Machine.execFlr s
  | .hotReset => Sys2Proof.Machine.execHotReset s
  | .perstAssert => Sys2Proof.Machine.execPerstAssert s
  | .perstDeassert => Sys2Proof.Machine.execPerstDeassert s
  | .configRequest tag => Sys2Proof.Machine.execConfigRequest tag s
  | .bar2Read off len tag obs => Sys2Proof.Machine.execBar2Read off len tag obs s
  | .bar2Write off bytes ep tag obs => Sys2Proof.Machine.execBar2Write off bytes ep tag obs s
  | .bar2ReadAbort tag => Sys2Proof.Machine.execBar2ReadAbort tag s
  | .msixSend v => Sys2Proof.Machine.execMsixSend v s
  | .msixUnmask v addr data => Sys2Proof.Machine.execMsixUnmask v addr data s
  | .dmaStart c w => Sys2Proof.Machine.execDmaStart c w s
  | .dmaCompletionRx c cpl obs => Sys2Proof.Machine.execDmaCompletionRx c cpl obs s
  | .dmaDescComplete c => Sys2Proof.Machine.execDmaDescComplete c s
  | .dmaStop c req => Sys2Proof.Machine.execDmaStop c req s
  | .dmaStopDone c => Sys2Proof.Machine.execDmaStopDone c s
  | .completionTimeout c => Sys2Proof.Machine.execCompletionTimeout c s
  | .submitScan => Sys2Proof.Machine.execSubmitScan s
  | .cqRecordWrite r => Sys2Proof.Machine.execCqRecordWrite r s
  | .cqHeadWrite r w => Sys2Proof.Machine.execCqHeadWrite r w s
  | .hostAlive w => Sys2Proof.Machine.execHostAlive w s
  | .aliveLost => Sys2Proof.Machine.execAliveLost s
  | .coreHang c => Sys2Proof.Machine.execCoreHang c s
  | .generate => Sys2Proof.Machine.execGenerate s
  | .cancel => Sys2Proof.Machine.execCancel s
  | .admissionPoint => Sys2Proof.Machine.execAdmissionPoint s
  | .tokenHarvest obs => Sys2Proof.Machine.execTokenHarvest obs s
  | .seqStandEnd => Sys2Proof.Machine.execSeqStandEnd s
  | .seqFault => Sys2Proof.Machine.execSeqFault s
  | .sampleStream => Sys2Proof.Machine.execSampleStream s
  | .sampleResult => Sys2Proof.Machine.execSampleResult s
  | .pumpEn n req => Sys2Proof.Machine.execPumpEn n req s
  | .pumpStartOk n rpm ma => Sys2Proof.Machine.execPumpStartOk n rpm ma s
  | .pumpStartTimeout n rpm ma => Sys2Proof.Machine.execPumpStartTimeout n rpm ma s
  | .pumpRetry n => Sys2Proof.Machine.execPumpRetry n s
  | .pumpCheck n rpm ma => Sys2Proof.Machine.execPumpCheck n rpm ma s
  | .pumpDis n req => Sys2Proof.Machine.execPumpDis n req s
  | .pumpStopDone n rpm ma => Sys2Proof.Machine.execPumpStopDone n rpm ma s
  | .valveSet v w => Sys2Proof.Machine.execValveSet v w s
  | .valvePeakStart v => Sys2Proof.Machine.execValvePeakStart v s
  | .valveStartLate v => Sys2Proof.Machine.execValveStartLate v s
  | .valvePeakEnd v => Sys2Proof.Machine.execValvePeakEnd v s
  | .valveDecayEnd v => Sys2Proof.Machine.execValveDecayEnd v s
  | .bankFault b ma => Sys2Proof.Machine.execBankFault b ma s
  | .bankReclose b => Sys2Proof.Machine.execBankReclose b s
  | .coilFault v ma => Sys2Proof.Machine.execCoilFault v ma s
  | .openIn req => Sys2Proof.Machine.execOpenIn req s
  | .closeIn req => Sys2Proof.Machine.execCloseIn req s
  | .openOut req => Sys2Proof.Machine.execOpenOut req s
  | .closeOut req => Sys2Proof.Machine.execCloseOut req s
  | .isoMoved => Sys2Proof.Machine.execIsoMoved s
  | .leakSample l0 l1 l2 l3 => Sys2Proof.Machine.execLeakSample l0 l1 l2 l3 s
  | .leakPumpsOff => Sys2Proof.Machine.execLeakPumpsOff s
  | .leakCloseV24 => Sys2Proof.Machine.execLeakCloseV24 s
  | .leakCloseV25 => Sys2Proof.Machine.execLeakCloseV25 s
  | .coolantSample o => Sys2Proof.Machine.execCoolantSample o s
  | .inputTimeout i0 => Sys2Proof.Machine.execInputTimeout i0 s
  | .flowStopClear => Sys2Proof.Machine.execFlowStopClear s
  | .powerSample v i0 => Sys2Proof.Machine.execPowerSample v i0 s
  | .tempSample o => Sys2Proof.Machine.execTempSample o s
  | .governorRun => Sys2Proof.Machine.execGovernorRun s
  | .coolingLevelFall => Sys2Proof.Machine.execCoolingLevelFall s
  | .flowEnd => Sys2Proof.Machine.execFlowEnd s
  | .runOkSet => Sys2Proof.Machine.execRunOkSet s
  | .rackCapWrite w => Sys2Proof.Machine.execRackCapWrite w s
  | .hostCapWrite w => Sys2Proof.Machine.execHostCapWrite w s
  | .telemModeWrite w => Sys2Proof.Machine.execTelemModeWrite w s
  | .telemWindowClose => Sys2Proof.Machine.execTelemWindowClose s
  | .oscMeasure ppm => Sys2Proof.Machine.execOscMeasure ppm s
  | .noHolderTimeout => Sys2Proof.Machine.execNoHolderTimeout s
  | .tableModeExit => Sys2Proof.Machine.execTableModeExit s
  | .analogTrip groves => Sys2Proof.Machine.execAnalogTrip groves s
  | .shdnRelease => Sys2Proof.Machine.execShdnRelease s
  | .islandLogForward => Sys2Proof.Machine.execIslandLogForward s
  | .claim k req other => Sys2Proof.Machine.execClaim k req other s
  | .release k req => Sys2Proof.Machine.execRelease k req s
  | .heartbeat k req => Sys2Proof.Machine.execHeartbeat k req s
  | .resumed k req => Sys2Proof.Machine.execResumed k req s
  | .watchdogExpire k => Sys2Proof.Machine.execWatchdogExpire k s
  | .selfDiag k fails corrected => Sys2Proof.Machine.execSelfDiag k fails corrected s
  | .seizeOk => Sys2Proof.Machine.execSeizeOk s
  | .overlapEnd => Sys2Proof.Machine.execOverlapEnd s
  | .tokenRevoke => Sys2Proof.Machine.execTokenRevoke s
  | .shadowRebuildDone k => Sys2Proof.Machine.execShadowRebuildDone k s
  | .coreRestart k verified version fails fw => Sys2Proof.Machine.execCoreRestart k verified version fails fw s
  | .standbyRailGood tripSel => Sys2Proof.Machine.execStandbyRailGood tripSel s
  | .standbyRailLost => Sys2Proof.Machine.execStandbyRailLost s
  | .pwrOkAssert slotId bootMode hot => Sys2Proof.Machine.execPwrOkAssert slotId bootMode hot s
  | .staggerDone => Sys2Proof.Machine.execStaggerDone s
  | .pwrOkDeassert => Sys2Proof.Machine.execPwrOkDeassert s
  | .vinUndervolt => Sys2Proof.Machine.execVinUndervolt s
  | .bootStepDone step => Sys2Proof.Machine.execBootStepDone step s
  | .bootStepFail => Sys2Proof.Machine.execBootStepFail s
  | .katPassDone obs => Sys2Proof.Machine.execKatPassDone obs s
  | .bootCtrlGo req step => Sys2Proof.Machine.execBootCtrlGo req step s
  | .bootCtrlDone req step => Sys2Proof.Machine.execBootCtrlDone req step s
  | .serviceReq req => Sys2Proof.Machine.execServiceReq req s
  | .restart req => Sys2Proof.Machine.execRestart req s
  | .hold req => Sys2Proof.Machine.execHold req s
  | .wake req => Sys2Proof.Machine.execWake req s
  | .dwoodSel w => Sys2Proof.Machine.execDwoodSel w s
  | .dwoodClear req => Sys2Proof.Machine.execDwoodClear req s
  | .rejoin req => Sys2Proof.Machine.execRejoin req s
  | .resume req => Sys2Proof.Machine.execResume req s
  | .resumeReqRx link => Sys2Proof.Machine.execResumeReqRx link s
  | .resumeAnswerRx link a => Sys2Proof.Machine.execResumeAnswerRx link a s
  | .resumeTimeout => Sys2Proof.Machine.execResumeTimeout s
  | .releaseRx link r => Sys2Proof.Machine.execReleaseRx link r s
  | .releaseTick => Sys2Proof.Machine.execReleaseTick s
  | .unloadMsgRx link => Sys2Proof.Machine.execUnloadMsgRx link s
  | .loadStart req => Sys2Proof.Machine.execLoadStart req s
  | .manifestRx link raw => Sys2Proof.Machine.execManifestRx link raw s
  | .chunkRx link digest data => Sys2Proof.Machine.execChunkRx link digest data s
  | .imageEndRx link => Sys2Proof.Machine.execImageEndRx link s
  | .repairReqRx link digests => Sys2Proof.Machine.execRepairReqRx link digests s
  | .repairReplyRx link digest data => Sys2Proof.Machine.execRepairReplyRx link digest data s
  | .repairRetry => Sys2Proof.Machine.execRepairRetry s
  | .armReadyRx link member q => Sys2Proof.Machine.execArmReadyRx link member q s
  | .armRefusedRx link member reason => Sys2Proof.Machine.execArmRefusedRx link member reason s
  | .loadCancel req => Sys2Proof.Machine.execLoadCancel req s
  | .cancelRx link => Sys2Proof.Machine.execCancelRx link s
  | .loadTimeout => Sys2Proof.Machine.execLoadTimeout s
  | .armTick => Sys2Proof.Machine.execArmTick s
  | .eventRaise page code sev d0 d1 => Sys2Proof.Machine.execEventRaise page code sev d0 d1 s
  | .eventSequence => Sys2Proof.Machine.execEventSequence s
  | .eventFwdRx link e => Sys2Proof.Machine.execEventFwdRx link e s
  | .inject w => Sys2Proof.Machine.execInject w s
  | .rlogWrite => Sys2Proof.Machine.execRlogWrite s
  | .rlogIndexDone => Sys2Proof.Machine.execRlogIndexDone s
  | .rlogSel w => Sys2Proof.Machine.execRlogSel w s
  | .rlogSeek w => Sys2Proof.Machine.execRlogSeek w s
  | .rlogClear w => Sys2Proof.Machine.execRlogClear w s
  | .rlogClearDone => Sys2Proof.Machine.execRlogClearDone s
  | .rlogStatus smbus => Sys2Proof.Machine.execRlogStatus smbus s
  | .rlogRead smbus start max sevMin => Sys2Proof.Machine.execRlogRead smbus start max sevMin s
  | .newNonce req random => Sys2Proof.Machine.execNewNonce req random s
  | .nonceExpire => Sys2Proof.Machine.execNonceExpire s
  | .verify req => Sys2Proof.Machine.execVerify req s
  | .tokenVerifyDone => Sys2Proof.Machine.execTokenVerifyDone s
  | .discard req => Sys2Proof.Machine.execDiscard req s
  | .tokenExpire => Sys2Proof.Machine.execTokenExpire s
  | .fuseBlowDone ok => Sys2Proof.Machine.execFuseBlowDone ok s
  | .fwUpdate w => Sys2Proof.Machine.execFwUpdate w s
  | .fwUpdateDone flashOk => Sys2Proof.Machine.execFwUpdateDone flashOk s
  | .extend w => Sys2Proof.Machine.execExtend w s
  | .reportGo w => Sys2Proof.Machine.execReportGo w s
  | .reportDone => Sys2Proof.Machine.execReportDone s
  | .entdaa addr => Sys2Proof.Machine.execEntdaa addr s
  | .setdasa static addr => Sys2Proof.Machine.execSetdasa static addr s
  | .rstdaa => Sys2Proof.Machine.execRstdaa s
  | .setnewda addr => Sys2Proof.Machine.execSetnewda addr s
  | .getpid => Sys2Proof.Machine.execGetpid s
  | .getbcr => Sys2Proof.Machine.execGetbcr s
  | .getdcr => Sys2Proof.Machine.execGetdcr s
  | .getstatus => Sys2Proof.Machine.execGetstatus s
  | .enec => Sys2Proof.Machine.execEnec s
  | .disec => Sys2Proof.Machine.execDisec s
  | .setEndpointId smbus eid => Sys2Proof.Machine.execSetEndpointId smbus eid s
  | .getEndpointId smbus => Sys2Proof.Machine.execGetEndpointId smbus s
  | .getEndpointUuid smbus => Sys2Proof.Machine.execGetEndpointUuid smbus s
  | .getMctpVersionSupport smbus type => Sys2Proof.Machine.execGetMctpVersionSupport smbus type s
  | .getMessageTypeSupport smbus => Sys2Proof.Machine.execGetMessageTypeSupport smbus s
  | .getVendorDefinedMessageSupport smbus selector => Sys2Proof.Machine.execGetVendorDefinedMessageSupport smbus selector s
  | .mctpMsgTimeout tag => Sys2Proof.Machine.execMctpMsgTimeout tag s
  | .setTid smbus tid => Sys2Proof.Machine.execSetTid smbus tid s
  | .getTid smbus => Sys2Proof.Machine.execGetTid smbus s
  | .getPldmVersion smbus type => Sys2Proof.Machine.execGetPldmVersion smbus type s
  | .getPldmTypes smbus => Sys2Proof.Machine.execGetPldmTypes smbus s
  | .getPldmCommands smbus type => Sys2Proof.Machine.execGetPldmCommands smbus type s
  | .setEventReceiver smbus eid => Sys2Proof.Machine.execSetEventReceiver smbus eid s
  | .platformEventMessage => Sys2Proof.Machine.execPlatformEventMessage s
  | .pollForPlatformEventMessage smbus ack => Sys2Proof.Machine.execPollForPlatformEventMessage smbus ack s
  | .eventMessageSupported smbus => Sys2Proof.Machine.execEventMessageSupported smbus s
  | .eventMessageBufferSize smbus => Sys2Proof.Machine.execEventMessageBufferSize smbus s
  | .getSensorReading smbus sensor => Sys2Proof.Machine.execGetSensorReading smbus sensor s
  | .setNumericEffecterValue smbus effecter value => Sys2Proof.Machine.execSetNumericEffecterValue smbus effecter value s
  | .getNumericEffecterValue smbus effecter => Sys2Proof.Machine.execGetNumericEffecterValue smbus effecter s
  | .getPdrRepositoryInfo smbus => Sys2Proof.Machine.execGetPdrRepositoryInfo smbus s
  | .getPdr smbus handle => Sys2Proof.Machine.execGetPdr smbus handle s
  | .regRead smbus off n => Sys2Proof.Machine.execRegRead smbus off n s
  | .regWrite smbus off value => Sys2Proof.Machine.execRegWrite smbus off value s
  | .traySilent => Sys2Proof.Machine.execTraySilent s
  | .svcHeartbeatAdvance c => Sys2Proof.Machine.execSvcHeartbeatAdvance c s
  | .watchdogService k => Sys2Proof.Machine.execWatchdogService k s
  | .platformEventAck => Sys2Proof.Machine.execPlatformEventAck s

end Sys2Proof.Machine
end

