-- ==== Sys2Proof/Machine/Tick.lean ====
section
/-! DEFINITION. One FCLK tick in which no command is waiting: time, what every link direction sends in the tick, and what the module does by
itself as soon as it can (R37, R47, R158, R177, R201 to R206, R362, R365, R419, R450). -/

namespace Sys2Proof.Machine

/-! ## What a link sends in a tick (R201 to R206) -/

/-- What a tick carries in the sending direction of a link (Table 8.6). -/
inductive TickUse where
  | abort (a : AbortMsg)
  | sched (slot : TxSlot)
  | service
  | idle
  deriving DecidableEq, Repr

/-- The scheduled flit a link sends in schedule tick `tau` of the present group epoch. -/
def State.txSlot (s : State) (l tau : Nat) : Option TxSlot :=
  if s.stepActive then
    (s.image.bind (fun im => im.plans.find? (fun p => p.l.val == l))).bind (fun p => p.tx.find? (fun r => r.tick == s.stepTick tau))
  else none

/-- Table 8.6 with no ABORT pending, and R202's links on which every tick is a service tick. -/
def State.plainUse (s : State) (l : Nat) : TickUse :=
  if !s.armed || s.suspended || !s.inStand l then .service
  else
    let tau := s.stand.phase
    if 4096 ≤ tau then .idle
    else match s.txSlot l tau with
      | some slot => .sched slot
      | none => if tau % 64 = 63 ∧ 3 ≤ tau / 64 then .service else .idle

/-- Table 8.6: an ABORT pending takes every tick of a group or scheduled link (R177). -/
def State.tickUse (s : State) (l : Nat) : TickUse :=
  match s.stand.abortMsg with
  | some a => if 0 < s.stand.abortTicks ∧ s.inStand l then .abort a else s.plainUse l
  | none => s.plainUse l

/-- NFLITS of a message: 130 for a chunk (R412); other bodies have no format in the specification. -/
def msgLen (m : SvcTx) : Nat :=
  match m.body with
  | .chunk _ _ => 130
  | _ => max 1 (Config.msgFlits (svcClassCode m.cls) m.msgno.toNat % 256)

/-- The message of a class that would send its next flit: the first queued, given a credit and, to begin, fewer than 512 unacknowledged
(R204, R205). -/
def State.nextOf (s : State) (l : Nat) (c : SvcClass) : Option SvcTx :=
  let x := s.link l
  match x.txq.find? (fun m => m.cls == c), svcPool c with
  | some m, some p =>
    let room := decide (0 < m.sent) || decide ((x.unacked.filter (fun u => u.cls == c)).length < 512)
    if room && decide (0 < s.get (creditFld l p)) then some m else none
  | _, _ => none

/-- The classes in their fixed order (R206). -/
def svcOrder : List SvcClass := [.linkmgt, .regRsp, .regReq, .event, .arm, .repair, .image]

/-- A class has a flit ready and the credit it needs. -/
def State.svcReadyClass (s : State) (l : Nat) (c : SvcClass) : Bool :=
  match c with
  | .linkmgt => !(s.link l).mgt.isEmpty
  | _ => (s.nextOf l c).isSome

/-- The class a service tick is given to: one that has waited 64 service ticks, else the first in order. -/
def State.svcPick (s : State) (l : Nat) : Option SvcClass :=
  let ready := svcOrder.filter (fun c => s.svcReadyClass l c)
  match ready.find? (fun c => decide (64 ≤ aget 0 (s.link l).waited (svcClassCode c))) with
  | some c => some c
  | none => ready.head?

/-- The next flit of a message leaves: one credit and one FSEQ; a message wholly sent waits for its acknowledgement. -/
def State.svcSendFlit (s : State) (l : Nat) (m : SvcTx) : State :=
  let s := s.emit (.svcFlit l m.cls m.msgno m.sent)
  let s := match svcPool m.cls with
    | some p =>
      let s := s.put (creditFld l p) (s.get (creditFld l p) - 1)
      let x := s.link l
      let q : Pool := aget {} x.pools p
      s.setLink l { x with pools := aset {} x.pools p { q with txSeq := q.txSeq + 1 } }
    | none => s
  let x := s.link l
  let m' := { m with sent := m.sent + 1 }
  if msgLen m ≤ m.sent + 1 then s.setLink l { x with txq := x.txq.erase m, unacked := x.unacked ++ [m'] }
  else s.setLink l { x with txq := x.txq.map (fun y => if y = m then m' else y) }

/-- A service tick: the class chosen sends; the others that could have are counted as waiting. -/
def State.svcTick (s : State) (l : Nat) : State :=
  match s.svcPick l with
  | none => s.setLink l { s.link l with waited := [] }
  | some c =>
    let ready := svcOrder.filter (fun d => s.svcReadyClass l d)
    let x := s.link l
    let waited := ready.foldl (fun (m : AMap Nat) d =>
      if d = c then m else aset 0 m (svcClassCode d) (min 64 (aget 0 x.waited (svcClassCode d) + 1))) []
    let s := s.setLink l { x with waited := waited }
    match c with
    | .linkmgt => (s.setLink l { s.link l with mgt := (s.link l).mgt.drop 1 }).emit (.svcFlit l .linkmgt 0 0)
    | _ => match s.nextOf l c with
      | some m => s.svcSendFlit l m
      | none => s

/-- Credits owed are returned in a service or IDLE flit, up to 15 of one pool, the lowest first (R204). -/
def State.creditTick (s : State) (l : Nat) : State :=
  let x := s.link l
  match [0, 1, 2, 3].find? (fun p => decide (0 < (aget ({} : Pool) x.pools p).owed)) with
  | none => s
  | some p =>
    let q : Pool := aget {} x.pools p
    let n := min 15 q.owed
    (s.setLink l { x with pools := aset {} x.pools p { q with owed := q.owed - n } }).emit (.credits l p n)

/-- One tick of one link's sending direction. -/
def State.linkTick (s : State) (l : Nat) : State :=
  if s.lstate l = lsUp ∨ s.lstate l = lsTakedown then
    match s.tickUse l with
    | .abort a => s.emit (.abort l a)
    | .sched slot =>
      if slot.src = .xbar then
        match takeHalf slot.half (s.link l).txBuf with
        | some (e, rest) => (s.setLink l { s.link l with txBuf := rest }).emit (.flit l slot.tick slot.half e.2 e.1)
        | none => s
      else s
    | .service => (s.svcTick l).creditTick l
    | .idle => s.creditTick l
  else s

/-- Every link's tick. An ABORT is repeated on every group and scheduled link; other links have something to send only where they hold
state. -/
def State.linksTick (s : State) : State :=
  let ls := (List.range 96).filter (fun l => s.links.any (fun e => e.1 == l) || (decide (0 < s.stand.abortTicks) && s.inStand l))
  let s := ls.foldl (fun (s : State) l => s.linkTick l) s
  { s with stand := { s.stand with abortTicks := s.stand.abortTicks - 1 } }

/-! ## The standby's shadow (R362) -/

/-- A standby core applies the oldest entry of its snoop queue to its shadow. -/
def State.snoopApply (s : State) (k : Nat) : State :=
  let x := s.core k
  match x.snoop with
  | [] => s
  | e :: rest =>
    if (x.inReset || decide (s.fn (P.CANOPY k) ≠ fnReady)) then s
    else
      let s := s.setCore k { x with snoop := rest, shadow := aset none x.shadow e.off (some e.data) }
      (s.put (F.CANOPY_SNOOP_FILL k) rest.length).wr (Reg.CANOPY_SNOOP_SEQ k) e.seq

/-! ## The tick -/

/-- Time passes: fabric time counts while 48 V powers the module (R47), and the group epoch's tick where epochs run (R158). -/
def State.timeTick (s : State) : State :=
  { s with
    now := s.now + 1
    ftime := if s.mod.power = .standby then s.ftime else s.ftime + 1
    stand := { s.stand with phase := if s.stand.epochs then s.stand.phase + 1 else s.stand.phase } }

/-- What a step does when no command waits. -/
def State.tick (s : State) : State :=
  if s.mod.power = .standby then s.timeTick
  else
    let s := s.linksTick
    let s := (s.snoopApply 0).snoopApply 1
    let s := ((s.canopyDrain).fwdDrain).sideDrain
    (s.stepAgain.lateReduce).timeTick

end Sys2Proof.Machine
end

