-- ==== Sys2Proof/Safety.lean ====
section
/-! DEFINITION. The terms claims are made in: canonical forms, what a claim says stays as it was, and runs that go on. -/

namespace Sys2Proof.Machine

/-! ## Canonical forms -/

/-- The register map is canonical: offsets rising, and no register listed that holds its reset value. -/
def regsWf (m : AMap Word) : Bool := keysRising m && m.all (fun e => decide (e.2 ≠ resetOf e.1))

/-- Registers, module memory, its held error marks and the Deadwood list are in canonical form. -/
def State.canonical (s : State) : Bool := regsWf s.regs && memWf s.mem && amapWf false s.poison && amapWf 0 s.dwood

/-- The maps of unit state are canonical and every unit they list exists: 256 engines, 16 groves of 16 DMA channels and at most 64 windows
(in the image of a load in progress too), 96 links and reduction units. -/
def State.unitsInRange (s : State) : Bool :=
  amapWf {} s.engines && amapWf {} s.groves && amapWf {} s.reduce && amapWf {} s.links
    && s.engines.all (fun e => decide (e.1 < 256)) && s.groves.all (fun e => decide (e.1 < 16) && e.2.chans.all (fun c => decide (c.1 < 16))
    && decide (e.2.wins.length ≤ 64))
    && s.reduce.all (fun e => decide (e.1 < 96)) && s.links.all (fun e => decide (e.1 < 96))
    && s.group.load.image.all (fun im => im.gmem.all (fun m => decide (m.wins.length ≤ 64)))

/-! ## What stays as it was -/

/-- The registers that taking an event in may change (R416 to R419, R346): EVT_SUMMARY, ERR_COUNT, STATUS, DROP0, DROP1 and COALESCED of the
EVT page, and GLADE.ISLAND_LOG. -/
def evtOffs : List Nat := [0x2014, 0x2020, 0x2040, 0x204C, 0x2050, 0x2054, 0xA05C]

/-- Every register but those listed holds what it held. -/
def onlyRegs (l : List Nat) (s t : State) : Prop := ∀ o, o ∉ l → t.rd o = s.rd o

/-- Every register but those listed and those an event may change holds what it held. -/
def onlyRegsEvt (l : List Nat) (s t : State) : Prop := ∀ o, o ∉ l → o ∉ evtOffs → t.rd o = s.rd o

/-- Every register but those listed, those an event may change and those of the management pair (whose snoop queues see every accepted
write, R362) holds what it held. -/
def onlyRegsWrite (l : List Nat) (s t : State) : Prop := ∀ o, o ∉ l → o ∉ evtOffs → ¬ (0x8000 ≤ o ∧ o < 0xA000) → t.rd o = s.rd o

/-- The summary bit of an event of page `pg` (R31). -/
def State.summary (s : State) (pg bit : Nat) : Bool := s.flag ⟨Hdr.EVT_SUMMARY pg, bit, 1⟩

/-! ## Safe runs -/

/-- A run of n steps that meets neither a fault nor a refusal. -/
def runsOn (n : Nat) (s : State) : Prop := ∃ t, Sys2Proof.core.run n s = .next t

/-- A safe state: every run from it goes on. -/
def safe (s : State) : Prop := ∀ n, runsOn n s

end Sys2Proof.Machine
end

