-- ==== Sys2Proof/Certificates/Slice0/Obligations.lean ====
section
/-! DEFINITION. The statements for the provers. -/

open Sys2Proof
open Sys2Proof.Machine

/-- The block's step; the tick on an empty queue is the model's choice (assumption 3). -/
def Obligations.AStepRunsTheCommandInFront : Prop :=
  (∀ (s : State) (c : Instr) (rest : List Instr), step { s with pending := c :: rest } = exec c { s with pending := rest }) ∧
  (∀ s : State, s.pending = [] → s.powerAbsent = true → ∃ t, step s = .next t ∧ t = { s with now := s.now + 1, stand := t.stand } ∧
    t.stand = { s.stand with phase := if s.stand.epochs then s.stand.phase + 1 else s.stand.phase }) ∧
  (∀ s : State, s.pending = [] → ∃ t, step s = .next t ∧ t.now = s.now + 1 ∧ t.pending = [])

/-- Reset values of the tables; the others are those of assumption 6. -/
def Obligations.ResetStateIsAsTheTablesGive : Prop :=
  let s := State.reset
  s.mod.mstate = .standby ∧ s.mod.power = .standby ∧ s.mod.v48 = false ∧ s.mod.pwrOk = false ∧ s.pending = [] ∧ s.ftime = 0 ∧
  (∀ o, s.rd o = resetOf o) ∧ s.armed = false ∧ s.holder = 0 ∧ (∀ l < 96, s.lstate l = lsOff) ∧ s.records = [] ∧ s.dwood = [] ∧ s.mem = [] ∧
  s.canonical = true ∧ s.unitsInRange = true ∧ s.rd (Hdr.EVT_MASK P.STAND) = 0 ∧ s.rd Reg.STAND_STATUS = 0

/-- No row of the table stops; its faults are states of the module. -/
def Obligations.NoCommandStopsTheModule : Prop :=
  (∀ (c : Instr) (s : State), ∃ t, exec c s = .next t) ∧ ∀ s : State, safe s

/-- The form of the data, and the ranges of Table 0.3. -/
def Obligations.EveryStepKeepsTheStateCanonicalAndInRange : Prop :=
  ∀ s t : State, step s = .next t → (s.canonical = true → t.canonical = true) ∧ (s.unitsInRange = true → t.unitsInRange = true)

/-- R53. -/
def Obligations.NoTimeSyncWhileAStandIsArmed : Prop :=
  ∀ (s : State) (r : Req) (data : Word) (m : SyncMsg) (ms : List SyncMsg), s.armed = true →
    ((r = .debug → s.debugOpen = true) →
      (F.CLK_SYNC_CTRL_START.of data = 1 →
        exec (.registerWrite (BitVec.ofNat 22 Reg.CLK_SYNC_CTRL) { req := r, data := data, be := 15 } []) s = .next (s.refuse r Reg.CLK_SYNC_CTRL 3)) ∧
      exec (.syncStart r) s = .next (s.refuse r Reg.CLK_SYNC_CTRL 3)) ∧
    exec (.syncRx m ms) s = .next s

/-- R49. -/
def Obligations.NoLoadOrArmingWithoutValidTime : Prop :=
  ∀ (s : State) (l : Fin 96) (raw : List Byte), s.flag F.CLK_STATUS_TIME_VALID = false →
    let ld := s.group.load
    let refused := fun (t : State) => t.get F.STAND_LOAD_STATUS_RESULT = 3 ∧ t.summary P.STAND B.STAND_LOAD_REFUSED = true ∧ t.armed = s.armed ∧ t.image = s.image
    (ld.raw = [] → ∃ t, exec (.manifestRx l raw) s = .next t ∧ refused t ∧ t.group.load.image = none) ∧
    (s.loadStartOk = true → s.absent P.EVT = false → ∃ t, exec (.loadStart .host) s = .next t ∧ refused t ∧ t.rd Reg.EVT_LOAD_STATE = 5 ∧ t.group.load = {}) ∧
    (ld.man ≠ none → ld.lead = false → ld.parent = some l.val → ld.endParent = false → ld.checked = false → missingChunks ld = [] →
      ∃ t, exec (.imageEndRx l) s = .next t ∧ refused t ∧ t.group.load.image = ld.image ∧ t.group.load.checked = true) ∧
    (∀ im r, ld.image = some im → ld.release = some r → r.tRel = s.ftime →
      ∃ t, exec .armTick s = .next t ∧ refused t ∧ t.rd Reg.EVT_LOAD_STATE = 5 ∧ t.group.load = {})

/-- R30, R475: what a refused write leaves, and that a write where nothing is writable is no refusal. -/
def Obligations.RefusedRegisterWriteLeavesOnlyTheRecord : Prop :=
  ∀ (s : State) (off : BitVec 22) (w : WriteReq),
    (w.be ≠ 15 → (w.req ≠ .debug ∨ s.debugOpen = true) →
      ∃ t, exec (.registerWrite off w []) s = .next t ∧
        t.rd Reg.ARB_REFUSED_INFO = BitVec.ofNat 32 ((reqIdent w.req).toNat % 65536 + 65536 * 2) ∧
        t.rd Reg.ARB_REFUSED_ADDR = off.setWidth 32 ∧
        (t.rd (Hdr.ERR_COUNT P.ARB)).toNat = min ((s.rd (Hdr.ERR_COUNT P.ARB)).toNat + 1) 0xFFFFFFFF ∧
        onlyRegs [Reg.ARB_REFUSED_INFO, Reg.ARB_REFUSED_ADDR, Hdr.ERR_COUNT P.ARB, Hdr.EVT_SUMMARY P.ARB] s t ∧
        t = { s with regs := t.regs }) ∧
    (w.req = .debug → s.debugOpen = false →
      ∃ t, exec (.registerWrite off w []) s = .next t ∧
        t.rd Reg.ARB_REFUSED_INFO = BitVec.ofNat 32 (6 + 65536 * 4) ∧ t.rd Reg.ARB_REFUSED_ADDR = off.setWidth 32 ∧
        onlyRegs [Reg.ARB_REFUSED_INFO, Reg.ARB_REFUSED_ADDR, Hdr.ERR_COUNT P.ARB, Hdr.EVT_SUMMARY P.ARB] s t ∧
        t = { s with regs := t.regs }) ∧
    (writableAt off.toNat = false → w.be = 15 → (w.req ≠ .debug ∨ s.debugOpen = true) → exec (.registerWrite off w []) s = .next s)

/-- R29, R31, R36, R37, R39: header registers, fences and read-clear registers. -/
def Obligations.HeaderRegisterWritesAndReads : Prop :=
  (∀ (s : State) (page : BitVec 10) (w : WriteReq) (off : BitVec 22), (pageAt page.toNat).isSome = true → w.be = 15 → w.req ≠ .debug →
    coreOf w.req = none → s.absent (4096 * page.toNat) = false → page.toNat ≠ 2 → page.toNat ≠ 8 → page.toNat ≠ 9 →
    (off.toNat = 4096 * page.toNat + 0x14 →
      ∃ t, exec (.registerWrite off w []) s = .next t ∧ t.rd off.toNat = s.rd off.toNat &&& ~~~w.data ∧
        t.rd (Hdr.OWNER (4096 * page.toNat)) = reqIdent w.req) ∧
    (off.toNat = 4096 * page.toNat + 0x18 →
      ∃ t, exec (.registerWrite off w []) s = .next t ∧ t.rd off.toNat = w.data ∧
        t.rd (Hdr.OWNER (4096 * page.toNat)) = reqIdent w.req)) ∧
  (∀ (s : State) (c : Fin 8) (a b : Word), s.absent P.CLK = false →
    ∃ t, exec (.registerWrite 0x3018 ⟨.host, a, 15⟩ [⟨.svc c, b, 15⟩]) s = .next t ∧ t.rd (Hdr.EVT_MASK P.CLK) = b ∧
      (t.rd Reg.ARB_CONFLICT_COUNT).toNat = min ((s.rd Reg.ARB_CONFLICT_COUNT).toNat + 1) 0xFFFFFFFF) ∧
  (∀ (s : State) (r : Req) (data : Word), r ≠ .debug → coreOf r = none → s.absent P.ARB = false →
    (∃ t, exec (.fenceTagWrite ⟨r, data, 15⟩) s = .next t ∧ (t.reqCtx r).tag = data.setWidth 31 ∧ (t.reqCtx r).mark = s.bgNext) ∧
    (s.fenceOpen r (s.reqCtx r).mark = true →
      exec (.fenceDoneRead r) s = .next (s.setReqCtx r { s.reqCtx r with waiting := true })) ∧
    (s.fenceOpen r (s.reqCtx r).mark = false →
      exec (.fenceDoneRead r) s = .next (s.emit (.readData r Reg.ARB_FENCE_DONE ((s.reqCtx r).tag.setWidth 32)))) ∧
    ((s.reqCtx r).waiting = true →
      exec (.fenceDoneTimeout r) s = .next ((s.setReqCtx r { s.reqCtx r with waiting := false }).emit
        (.readData r Reg.ARB_FENCE_DONE ((s.reqCtx r).tag.setWidth 32 ||| 0x80000000)))) ∧
    ((s.reqCtx r).waiting = false → exec (.fenceDoneTimeout r) s = .next s)) ∧
  (∀ (s : State) (r : Req), r ≠ .debug → s.absent P.HOSTDMA = false →
    exec (.readClear r 0x1005C) s = .next ((s.wr Reg.HOSTDMA_AER_UNCORR 0).emit (.readData r Reg.HOSTDMA_AER_UNCORR (s.rd Reg.HOSTDMA_AER_UNCORR)))) ∧
  (∀ (s : State) (off : BitVec 22), s.debugOpen = false →
    exec (.debugRead off) s = .next ((s.refuse .debug off.toNat 4 true).emit (.readData .debug off.toNat 0)))

/-- R35 on the SYNC_BASE pair (0x3054, 0x3058). -/
def Obligations.RegisterPairsAreOneValue : Prop :=
  ∀ (s : State), s.absent P.CLK = false →
    (∀ r, r ≠ .debug → ∃ t, exec (.pairLoRead r 0x3054) s = .next t ∧ t.out = .readData r 0x3054 (s.rd 0x3054) :: s.out ∧ t.regs = s.regs ∧
      ∀ u : State, u.ctx = t.ctx → ∃ v, exec (.readClear r 0x3058) u = .next v ∧ v.out = .readData r 0x3058 (s.rd 0x3058) :: u.out) ∧
    (∀ a, ∃ t, exec (.pairLoWrite 0x3054 ⟨.host, a, 15⟩) s = .next t ∧ t.rd 0x3054 = s.rd 0x3054 ∧ t.rd 0x3058 = s.rd 0x3058 ∧
      ∀ b, ∃ u, exec (.pairHiWrite 0x3058 ⟨.host, b, 15⟩) t = .next u ∧ u.rd 0x3054 = a ∧ u.rd 0x3058 = b)

/-- Table 2.5: function states. The pages named are those whose sequences add nothing of their own. -/
def Obligations.FunctionControlOfAPage : Prop :=
  (∀ (s : State) (page : BitVec 10) (k : PageKind) (inst : Nat) (r : Req), pageAt page.toNat = some (k, inst) → isContinuous k = false →
    k ≠ .link → k ≠ .canopy → coreOf r = none → r ≠ .debug → mayCtrl r k = true → s.absent (pageBase page.toNat) = false →
    s.fn (pageBase page.toNat) = fnOff →
    ∃ t, exec (.fnEnable r page) s = .next t ∧ t.fn (pageBase page.toNat) = fnStarting ∧ t.summary (pageBase page.toNat) B.STATE_CHG = true) ∧
  (∀ (s : State) (page : BitVec 10) (k : PageKind) (inst : Nat) (o : StartObs), pageAt page.toNat = some (k, inst) →
    k ∈ [.grove, .gwin, .gdma, .gsens, .floor, .stand, .hostdma, .sideband] → s.fn (pageBase page.toNat) = fnStarting →
    ∃ t, exec (.startSeqDone page o) s = .next t ∧ t.fn (pageBase page.toNat) = fnReady ∧ t.summary (pageBase page.toNat) B.STATE_CHG = true ∧
      t = { s with regs := t.regs }) ∧
  (∀ (s : State) (page : BitVec 10) (k : PageKind) (inst : Nat) (d : BitVec 8), pageAt page.toNat = some (k, inst) →
    k ∈ [.gwin, .gdma, .gsens, .floor, .stand, .hostdma, .sideband, .clk] → s.fn (pageBase page.toNat) = fnStarting →
    ∃ t, exec (.startSeqFail page d) s = .next t ∧ t.fn (pageBase page.toNat) = fnFault ∧
      (t.rd (Hdr.ERR_COUNT (pageBase page.toNat))).toNat = min ((s.rd (Hdr.ERR_COUNT (pageBase page.toNat))).toNat + 1) 0xFFFFFFFF ∧
      t = { s with regs := t.regs }) ∧
  (∀ (s : State) (page : BitVec 10) (inst : Nat) (r : Req), pageAt page.toNat = some (.engine, inst) → coreOf r = none → r ≠ .debug →
    s.absent (pageBase page.toNat) = false → s.standPages.contains (pageBase page.toNat) = false →
    (s.fn (pageBase page.toNat) = fnReady →
      ∃ t, exec (.fnDisable r page) s = .next t ∧ t.fn (pageBase page.toNat) = fnDraining ∧ t.summary (pageBase page.toNat) B.STATE_CHG = true) ∧
    (s.fn (pageBase page.toNat) = fnReady → ∀ d,
      ∃ t, exec (.internalFault page d) s = .next t ∧ t.fn (pageBase page.toNat) = fnFault ∧ t = { s with regs := t.regs }) ∧
    (s.fn (pageBase page.toNat) = fnDraining →
      ∃ t, exec (.shutdownDone page) s = .next t ∧
        t.fn (pageBase page.toNat) = (if s.flag (Hdr.PENDING_ENABLE (pageBase page.toNat)) then fnStarting else fnOff) ∧
        t.summary (pageBase page.toNat) B.STATE_CHG = true ∧ t = { s with regs := t.regs }) ∧
    (s.flag (Hdr.RESET_BUSY (pageBase page.toNat)) = false →
      ∃ t, exec (.fnReset r page) s = .next t ∧ t.flag (Hdr.RESET_BUSY (pageBase page.toNat)) = true ∧
        t.flag (Hdr.PENDING_ENABLE (pageBase page.toNat)) = false ∧
        ∀ o, pageBase page.toNat + 0x40 ≤ o → o < pageBase page.toNat + 0x1000 → keptReg o = false → t.rd o = resetOf o) ∧
    (s.flag (Hdr.RESET_BUSY (pageBase page.toNat)) = true →
      ∃ t, exec (.fnResetDone page) s = .next t ∧ t.fn (pageBase page.toNat) = fnOff ∧ t = { s with regs := t.regs }))

/-- R54 to R61: the reference and the root PLL. -/
def Obligations.ReferenceClockAndPllCommands : Prop :=
  ∀ s : State,
    (s.clk.pllUp = true → s.flag F.CLK_STATUS_HOLDOVER = false → (s.armed = false ∨ s.stepActive = true) →
      ∃ t, exec .refLost s = .next t ∧ t.flag F.CLK_STATUS_HOLDOVER = true ∧ t.flag F.CLK_STATUS_PLL_LOCK = false ∧
        t.flag F.CLK_STATUS_REF_PRESENT = false ∧ t.flag F.CLK_STATUS_SYNC_BUSY = false ∧ t.flag F.CLK_STATUS_TIME_VALID = false ∧
        t.rd Reg.CLK_HOLDOVER_TIME = 0 ∧ t.summary P.CLK B.CLK_REF_LOST = true ∧ t.clk.holdStart = s.now ∧ t.clk.syncId = none ∧
        t.stand = (if s.armed && s.stand.epochs then { s.stand with eoe := s.stand.eoe ++ [⟨0x0F, 0⟩] } else s.stand) ∧
        onlyRegsEvt [Reg.CLK_STATUS, Reg.CLK_HOLDOVER_TIME, Reg.CLK_REF_LOSS_COUNT, Hdr.EVT_SUMMARY P.CLK] s t ∧
        t = { s with regs := t.regs, evt := t.evt, glade := t.glade, clk := t.clk, stand := t.stand }) ∧
    ((s.clk.pllUp = false ∨ s.flag F.CLK_STATUS_HOLDOVER = true) → exec .refLost s = .next s) ∧
    (s.flag F.CLK_STATUS_HOLDOVER = true → s.flag F.CLK_STATUS_HOLDOVER_EXPIRED = false →
      ∃ t, exec .holdoverExpired s = .next t ∧ t.flag F.CLK_STATUS_HOLDOVER_EXPIRED = true ∧ t.summary P.CLK B.CLK_HOLDOVER_EXPIRED = true ∧
        ∀ l, l < 96 → (s.lstate l = lsUp ∨ s.lstate l = lsTakedown) →
          t.lstate l = lsOff ∧ t.get (F.LINK_STATUS_FAIL_CAUSE l) = 9 ∧ t.fnReg (P.LINK l) = fnOff) ∧
    (s.flag F.CLK_STATUS_HOLDOVER = false → exec .holdoverExpired s = .next s ∧ exec .refAccepted s = .next s ∧ exec .refRestored s = .next s) ∧
    (s.flag F.CLK_STATUS_HOLDOVER = true →
      exec .refAccepted s = .next { s.putB F.CLK_STATUS_REF_PRESENT true with clk := { s.clk with slewing := true } }) ∧
    (s.flag F.CLK_STATUS_HOLDOVER = true → s.clk.slewing = true →
      ∃ t, exec .refRestored s = .next t ∧ t.flag F.CLK_STATUS_HOLDOVER = false ∧ t.flag F.CLK_STATUS_PLL_LOCK = true ∧
        t.rd Reg.CLK_HOLDOVER_TIME = s.holdoverUs ∧ t.clk = { s.clk with slewing := false } ∧ t.summary P.CLK B.CLK_REF_RESTORED = true ∧
        onlyRegsEvt [Reg.CLK_STATUS, Reg.CLK_HOLDOVER_TIME, Hdr.EVT_SUMMARY P.CLK] s t ∧
        t = { s with regs := t.regs, evt := t.evt, glade := t.glade, clk := t.clk }) ∧
    (s.clk.pllUp = true → (s.flag F.CLK_STATUS_HOLDOVER = false ∨ s.clk.slewing = true) → s.armed = false →
      ∃ t, exec .pllUnlock s = .next t ∧ t.flag F.CLK_STATUS_PLL_LOCK = false ∧ t.flag F.CLK_STATUS_HOLDOVER = false ∧
        t.flag F.CLK_STATUS_TIME_VALID = false ∧ t.flag F.CLK_STATUS_SYNC_BUSY = false ∧ t.summary P.CLK B.CLK_PLL_UNLOCK = true ∧
        (t.rd (Hdr.ERR_COUNT P.CLK)).toNat = min ((s.rd (Hdr.ERR_COUNT P.CLK)).toNat + 1) 0xFFFFFFFF ∧
        t = { s with regs := t.regs, evt := t.evt, glade := t.glade, clk := t.clk }) ∧
    (s.clk.pllUp = true → s.flag F.CLK_STATUS_HOLDOVER = false → exec .pllRelock s = .next (s.putB F.CLK_STATUS_PLL_LOCK true)) ∧
    (s.fn P.CLK = fnStarting → s.flag F.CLK_STATUS_REF_PRESENT = false →
      ∃ t, exec .refclkWaitTimeout s = .next t ∧ t.fn P.CLK = fnFault ∧ t = { s with regs := t.regs }) ∧
    (s.fn P.CLK ≠ fnStarting → exec .refclkWaitTimeout s = .next s)

/-- R50 to R53: time sync. -/
def Obligations.TimeSyncCommands : Prop :=
  ∀ s : State,
    (s.absent P.CLK = false → s.armed = false → s.fn P.CLK ≠ fnOff → s.flag F.CLK_STATUS_SYNC_BUSY = false →
      (s.flag F.CLK_SYNC_CTRL_ROOT = true →
        ∃ t, exec (.syncStart .host) s = .next t ∧ t.flag F.CLK_STATUS_SYNC_BUSY = true ∧ t.flag F.CLK_STATUS_IS_ROOT = true ∧
          t.flag F.CLK_STATUS_TIME_VALID = false ∧ t.ftime = s.rd64 Reg.CLK_SYNC_BASE_LO ∧ t.clk.syncId = some (s.rd Reg.CLK_SYNC_ROOT_ID) ∧
          t.get F.CLK_SYNC_INFO_HOPS = 0 ∧
          t.out = (s.upLinks.map (fun l => Out.sync l (s.rd Reg.CLK_SYNC_ROOT_ID) 0 (s.rd64 Reg.CLK_SYNC_BASE_LO))).reverse ++ s.out) ∧
      (s.flag F.CLK_SYNC_CTRL_ROOT = false →
        ∃ t, exec (.syncStart .host) s = .next t ∧ t.flag F.CLK_STATUS_SYNC_BUSY = true ∧ t.flag F.CLK_STATUS_IS_ROOT = false ∧
          t.flag F.CLK_STATUS_TIME_VALID = false ∧ t.get F.CLK_SYNC_INFO_PARENT_LINK = 0xFF ∧ t.clk.syncId = none ∧ t.ftime = s.ftime ∧ t.out = s.out)) ∧
    (s.armed = true → ∃ t, exec (.syncStart .host) s = .next t ∧ t.rd Reg.ARB_REFUSED_INFO = BitVec.ofNat 32 (3 + 65536 * 3) ∧ t = { s with regs := t.regs }) ∧
    (∀ m : SyncMsg, s.flag F.CLK_STATUS_SYNC_BUSY = true → s.clk.syncId = none → s.armed = false → s.linkUp m.link.val = true → m.hops.toNat < 63 →
      ∃ t, exec (.syncRx m []) s = .next t ∧ t.ftime = m.time + BitVec.ofNat 64 (s.get (F.LINK_LAT_LAMBDA_RX m.link.val)) ∧
        t.clk = { s.clk with syncId := some m.rootId, counterSet := true } ∧
        t.get F.CLK_SYNC_INFO_HOPS = m.hops.toNat + 1 ∧ t.get F.CLK_SYNC_INFO_PARENT_LINK = m.link.val ∧
        t.out = ((s.upLinks.filter (fun k => k ≠ m.link.val)).map (fun l => Out.sync l m.rootId (m.hops.toNat + 1) t.ftime)).reverse ++ s.out ∧
        onlyRegs [Reg.CLK_SYNC_INFO] s t ∧ t = { s with regs := t.regs, ftime := t.ftime, clk := t.clk, out := t.out }) ∧
    (∀ m, s.armed = true → exec (.syncRx m []) s = .next s) ∧
    (∀ id, s.flag F.CLK_STATUS_SYNC_BUSY = true → s.clk.counterSet = true → s.clk.checkSent = false → s.clk.syncId = some id →
      s.upLinks.all (fun l => s.clk.compared.contains l) = false →
      exec .checkSend s = .next { s with out := (s.upLinks.map (fun l => Out.check l id s.ftime)).reverse ++ s.out, clk := { s.clk with checkSent := true } }) ∧
    (∀ (l : Fin 96) (id : Word) (time : Dword), s.flag F.CLK_STATUS_SYNC_BUSY = true → s.linkUp l.val = true → s.clk.syncId = some id →
      s.clk.compared.contains l.val = false →
      (time + BitVec.ofNat 64 (s.get (F.LINK_LAT_LAMBDA_RX l.val)) = s.ftime → s.clk.checkSent = false →
        exec (.checkRx l id time) s = .next { s with clk := { s.clk with compared := l.val :: s.clk.compared } }) ∧
      (time + BitVec.ofNat 64 (s.get (F.LINK_LAT_LAMBDA_RX l.val)) ≠ s.ftime → s.clk.checkSent = false → s.get F.CLK_SYNC_INFO_MISMATCH_COUNT < 127 →
        ∃ t, exec (.checkRx l id time) s = .next t ∧ t.flag (mismFld l.val) = true ∧
          t.get F.CLK_SYNC_INFO_MISMATCH_COUNT = s.get F.CLK_SYNC_INFO_MISMATCH_COUNT + 1 ∧ t = { s with regs := t.regs, clk := t.clk }) ∧
      (time + BitVec.ofNat 64 (s.get (F.LINK_LAT_LAMBDA_RX l.val)) = s.ftime → s.clk.checkSent = true → s.get F.CLK_SYNC_INFO_MISMATCH_COUNT = 0 →
        s.upLinks.all (fun k => (l.val :: s.clk.compared).contains k) = true →
        ∃ t, exec (.checkRx l id time) s = .next t ∧ t.flag F.CLK_STATUS_TIME_VALID = true ∧ t.flag F.CLK_STATUS_SYNC_BUSY = false ∧
          t.rd Reg.CLK_SYNC_RESULT = id ∧ t.clk.syncId = none ∧ t.summary P.CLK B.CLK_SYNC_DONE = true ∧
          t = { s with regs := t.regs, evt := t.evt, glade := t.glade, clk := t.clk })) ∧
    (s.flag F.CLK_STATUS_SYNC_BUSY = true →
      ∃ t, exec .syncTimeout s = .next t ∧ t.flag F.CLK_STATUS_SYNC_BUSY = false ∧ t.flag F.CLK_STATUS_TIME_VALID = false ∧
        t.get F.CLK_SYNC_INFO_PARENT_LINK = 0xFF ∧ t.clk.syncId = none ∧ t.summary P.CLK B.CLK_SYNC_MISMATCH = true ∧
        t = { s with regs := t.regs, evt := t.evt, glade := t.glade, clk := t.clk }) ∧
    (s.flag F.CLK_STATUS_SYNC_BUSY = false → exec .syncTimeout s = .next s ∧ exec .checkSend s = .next s)

/-- R92, R94: the bundle's encoding and its decoder are inverse to each other. -/
def Obligations.BundleDecodingInvertsEncoding : Prop :=
  (∀ b : Bundle, b.ok = true → decodeBundle (encodeBundle b) = some b) ∧
  (∀ (w : BitVec 256) (b : Bundle), decodeBundle w = some b → b.ok = true ∧ encodeBundle b = w)

/-- Table 5.9, the lane-wise operations. -/
def Obligations.VectorOperationsQueueTheirResult : Prop :=
  ∀ (s : State) (a : Eng) (i : Nat) (vd va vb vc : BitVec 6) (imm : Word) (n : BitVec 5) (cond : BitVec 3), s.issuing a = some i →
    let x := s.eng i
    let queued := fun (c : Instr) (lat : Nat) (f : Nat → Word) => ∃ v : List Word, v.length = 256 ∧ (∀ k, k < 256 → v.getD k 0 = f k) ∧
      exec c s = .next (s.setEng i { x with writes := x.writes ++ [(x.tick + lat, .vreg vd.toNat v)], ops := x.ops ++ [⟨5, x.tick + lat⟩] })
    (∀ p ∈ ([(.vadd a vd va vb, 4, addF32), (.vsub a vd va vb, 4, subF32), (.vmul a vd va vb, 4, mulF32), (.vmax a vd va vb, 2, maxF32),
        (.vmin a vd va vb, 2, minF32), (.viadd a vd va vb, 2, fun p q => p + q), (.visub a vd va vb, 2, fun p q => p - q),
        (.vand a vd va vb, 2, fun p q => p &&& q), (.vor a vd va vb, 2, fun p q => p ||| q), (.vxor a vd va vb, 2, fun p q => p ^^^ q)] :
        List (Instr × Nat × (Word → Word → Word))),
      queued p.1 p.2.1 (fun k => p.2.2 (x.lane va.toNat k) (x.lane vb.toNat k))) ∧
    (∀ p ∈ ([(.vabs a vd va, 2, fun p => p &&& 0x7FFFFFFF), (.vneg a vd va, 2, fun p => p ^^^ 0x80000000), (.vaddi a vd va imm, 4, fun p => addF32 p imm),
        (.vmuli a vd va imm, 4, fun p => mulF32 p imm), (.vmov a vd va, 2, fun p => p), (.vshl a vd va n, 2, fun p => p <<< n.toNat),
        (.vshr a vd va n, 2, fun p => p >>> n.toNat), (.vshra a vd va n, 2, fun p => p.sshiftRight n.toNat), (.vexp2 a vd va, 12, exp2F32),
        (.vlog2 a vd va, 12, log2F32), (.vrcp a vd va, 12, rcpF32), (.vrsqrt a vd va, 12, rsqrtF32)] : List (Instr × Nat × (Word → Word))),
      queued p.1 p.2.1 (fun k => p.2.2 (x.lane va.toNat k))) ∧
    queued (.vfma a vd va vb vc) 6 (fun k => fmaF32 (x.lane va.toNat k) (x.lane vb.toNat k) (x.lane vc.toNat k)) ∧
    queued (.vsel a vd va vb vc) 2 (fun k => if x.lane vc.toNat k = 0 then x.lane vb.toNat k else x.lane va.toNat k) ∧
    queued (.vmovi a vd imm) 2 (fun _ => imm) ∧
    (cond.toNat ≤ 4 → queued (.vcmp a vd va vb cond) 2
      (fun k => if condF32 cond.toNat (x.lane va.toNat k) (x.lane vb.toNat k) then 0xFFFFFFFF else 0))

/-- Table 5.9, the remaining operations, and R94's reserved values. -/
def Obligations.VectorConversionsReductionsAndMoves : Prop :=
  ∀ (s : State) (a : Eng) (vd va vb : BitVec 6) (fmt : BitVec 4) (rm : BitVec 2) (xsel : BitVec 3) (osa : BitVec 15) (cond : BitVec 3),
    (∀ i, s.issuing a = some i →
      let x := s.eng i
      let rnd := fun k => srRand (s.rd64 Reg.STAND_SEED_LO) (s.leiOf i) (s.rd Reg.STAND_CUR_STEP_LO ++ x.count) k
      let queued := fun (c : Instr) (lat : Nat) (v : List Word) =>
        exec c s = .next (s.setEng i { x with writes := x.writes ++ [(x.tick + lat, .vreg vd.toNat v)], ops := x.ops ++ [⟨5, x.tick + lat⟩] })
      (cvtOk 0x30 fmt rm = true → queued (.vcvtf a vd va vb fmt rm) 6 (vcvtf fmt.toNat rm.toNat rnd (x.v va.toNat) (x.v vb.toNat))) ∧
      (cvtOk 0x31 fmt rm = true → queued (.vcvtn a vd va vb fmt rm) 6 (vcvtn fmt.toNat rm.toNat rnd (x.v va.toNat) (x.v vb.toNat))) ∧
      (cvtOk 0x32 fmt rm = true → queued (.vbmax a vd va fmt rm) 8 (vbmax fmt.toNat (x.v va.toNat))) ∧
      (rm.toNat ≤ 2 → (∃ v, queued (.vftoi a vd va rm) 6 v ∧ ∀ k, k < 256 → v.getD k 0 = ftoi rm.toNat (rnd k) (x.lane va.toNat k)) ∧
        (∃ v, queued (.vitof a vd va rm) 6 v ∧ ∀ k, k < 256 → v.getD k 0 = itof rm.toNat (rnd k) (x.lane va.toNat k))) ∧
      queued (.vrsum a vd va) 10 (((treeF32 addF32 8 (x.v va.toNat)).headD 0) :: List.replicate 255 0) ∧
      queued (.vrmax a vd va) 10 (((treeF32 maxF32 8 (x.v va.toNat)).headD 0) :: List.replicate 255 0) ∧
      (∃ v, queued (.vld a vd xsel osa) 4 v ∧
        ∀ k, k < 256 → v.getD k 0 = ((x.ln (x.osa xsel osa + k / 16)) >>> (32 * (k % 16))).setWidth 32) ∧
      (∃ ls : List (Nat × WriteOp), ls.length = 16 ∧
        exec (.vst a va xsel osa) s = .next (s.setEng i { x with writes := x.writes ++ ls, ops := x.ops ++ [⟨5, x.tick + 2⟩] }) ∧
        ∀ j, j < 16 → ls[j]? = some (x.tick + 2, .store ((x.osa xsel osa + j) % 32768) (vregLine (x.v va.toNat) j))) ∧
      exec (.vnop a) s = .next s ∧
      (4 < cond.toNat → exec (.vcmp a vd va vb cond) s = .next s) ∧
      (cvtOk 0x30 fmt rm = false → exec (.vcvtf a vd va vb fmt rm) s = .next s) ∧
      (cvtOk 0x31 fmt rm = false → exec (.vcvtn a vd va vb fmt rm) s = .next s) ∧
      (cvtOk 0x32 fmt rm = false → exec (.vbmax a vd va fmt rm) s = .next s)) ∧
    (s.issuing a = none → ∀ c ∈ [Instr.vadd a vd va vb, .vcvtf a vd va vb fmt rm, .vrsum a vd va, .vld a vd xsel osa, .vst a va xsel osa, .vnop a],
      exec c s = .next s)

/-- Table 5.4. -/
def Obligations.ControlSlotsEndTheBundle : Prop :=
  ∀ (s : State) (a : Eng) (i : Nat),
    (s.issuing a = some i →
      let x := s.eng i
      let counted := fun (t : State) => t.rd64 (Reg.ENGINE_ISSUE_LO (i / 16) (i % 16)) = s.rd64 (Reg.ENGINE_ISSUE_LO (i / 16) (i % 16)) + 1 ∧
        t.rd (Reg.ENGINE_LAST_PC (i / 16) (i % 16)) = BitVec.ofNat 32 (x.pc.toNat + 8192 * x.loops.length)
      let ends := fun (c : Instr) (y : EngineSt) => x.reads = [] → x.writes = [] → ∃ t, exec c s = .next t ∧ counted t ∧
        t.eng i = { y with count := x.count + 1, tick := x.tick + 1, ops := x.ops.filter (fun o => x.tick + 1 < o.done) } ∧
        (∀ j, j ≠ i → t.eng j = s.eng j) ∧ t = { s with regs := t.regs, engines := t.engines, evt := t.evt, glade := t.glade }
      let stalls := fun (c : Instr) (y : EngineSt) => ∃ t, exec c s = .next t ∧ counted t ∧ t.eng i = { y with count := x.count + 1 } ∧
        (∀ j, j ≠ i → t.eng j = s.eng j) ∧ t = { s with regs := t.regs, engines := t.engines }
      ends (.nop a) { x with pc := x.pc + 1 } ∧
      (∀ n, x.loops.length < 4 → ends (.loop a n) { x with pc := x.pc + 1, loops := ⟨n.toNat + 1, x.pc + 1⟩ :: x.loops }) ∧
      (∀ n, 4 ≤ x.loops.length → exec (.loop a n) s = .next s) ∧
      (∀ r st, x.loops = [] → exec (.endloop a r false st) s = .next s) ∧
      (∀ r st l ls, r ≠ 0 → x.loops = l :: ls → l.count ≤ 1 →
        ends (.endloop a r true st) { x with pc := x.pc + 1, loops := ls, xregs := aset 0 x.xregs r.toNat (aget 0 x.xregs r.toNat + st) }) ∧
      (∀ r st l ls, r ≠ 0 → x.loops = l :: ls → 1 < l.count →
        ends (.endloop a r false st) { x with pc := l.body, loops := { l with count := l.count - 1 } :: ls }) ∧
      (∀ target, ends (.seg a target) { x with pc := target }) ∧
      (∀ r v, r ≠ 0 → ends (.xset a r v) { x with pc := x.pc + 1, xregs := aset 0 x.xregs r.toNat v }) ∧
      (∀ m, x.ops = [] → m.getLsbD 3 = false → ends (.fence a m) { x with pc := x.pc + 1 }) ∧
      (∀ code, x.reads = [] → x.writes = [] → ∃ t, exec (.evt a code) s = .next t ∧ t.summary (P.ENGINE (i / 16) (i % 16)) B.ENGINE_STAND_EVT = true ∧
        (t.eng i).pc = x.pc + 1 ∧ (t.eng i).count = x.count + 1 ∧ (t.eng i).tick = x.tick + 1) ∧
      (∀ n, stalls (.wait a n) { x with pc := x.pc + 1, stall := .wait (x.tick + 2 + n.toNat) }) ∧
      (∀ e, stalls (.epochWait a e) { x with pc := x.pc + 1, stall := .epoch (4096 * e.toNat) }) ∧
      (∀ m, x.ops.any (fun o => m.getLsbD o.cls) = true → stalls (.fence a m) { x with pc := x.pc + 1, stall := .fence m }) ∧
      stalls (.halt a) { x with stall := .halted } ∧
      (∃ t, exec (.halt a) s = .next t ∧ t.flag (F.ENGINE_STATUS_ISSUING (i / 16) (i % 16)) = false ∧
        t.flag (F.ENGINE_STATUS_HALT_REACHED (i / 16) (i % 16)) = true)) ∧
    (s.issuing a = none → ∀ c ∈ [Instr.nop a, .wait a 0, .loop a 0, .seg a 0, .halt a], exec c s = .next s) ∧
    (s.engIdx a = some i → (s.eng i).reads = [] → (s.eng i).writes = [] →
      let x := s.eng i
      let resumes := fun (c : Instr) (T : Nat) => exec c s = .next ((s.setEng i { x with stall := .none }).setEng i
        { x with stall := .none, tick := max x.tick T, ops := x.ops.filter (fun o => T < o.done) })
      (∀ T, x.stall = .wait T → resumes (.waitExpire a) T) ∧
      (∀ T, x.stall = .epoch T → T ≤ 4096 * s.stepEpoch → resumes (.epochWaitRelease a) T) ∧
      (∀ T, x.stall = .epoch T → 4096 * s.stepEpoch < T → exec (.epochWaitRelease a) s = .next s) ∧
      (∀ m, x.stall = .fence m → m.getLsbD 3 = false → resumes (.fenceResume a) (x.fenceTick m)))

/-- Tables 5.3, 5.5 and 5.7. -/
def Obligations.TensorAndMemorySlotsScheduleTheirAccesses : Prop :=
  ∀ (s : State) (a : Eng) (i : Nat) (slot : Bool) (xsel : BitVec 3) (osa : BitVec 15), s.issuing a = some i →
    let x := s.eng i
    let t := x.tick
    let starts := fun (c : Instr) (rs : List (Nat × ReadOp)) (ws : List (Nat × WriteOp)) (cls done : Nat) =>
      exec c s = .next (s.setEng i { x with reads := x.reads ++ rs, writes := x.writes ++ ws, ops := x.ops ++ [⟨cls, done⟩] })
    (exec (.tenNop a) s = .next s ∧ exec (.mnop a slot) s = .next s) ∧
    (∀ afmt kb rows rbase buf clr wsel we res,
      (Ten.ok (.mma afmt kb rows rbase buf clr wsel we xsel osa) = true →
        starts (.mma a afmt kb rows rbase buf clr wsel we xsel osa res)
          ((List.range (rows.toNat + 1)).map (fun r => (t + r, .mmaRow (rbase.toNat + r) r (kb.toNat + 1) afmt.toNat (rows.toNat + 1) (x.osa xsel osa)
            wsel buf clr we (decide (res.map (·.val) = some r))))) [] 4 (t + rows.toNat + (if afmt.toNat ≤ 2 then 24 else 20))) ∧
      (Ten.ok (.mma afmt kb rows rbase buf clr wsel we xsel osa) = false → exec (.mma a afmt kb rows rbase buf clr wsel we xsel osa res) s = .next s)) ∧
    (∀ wfmt kb wsel, Ten.ok (.loadw wfmt kb wsel xsel osa) = true →
      starts (.loadw a wfmt kb wsel xsel osa) ((List.range 17).map (fun j => (t + j, .loadw wfmt.toNat (kb.toNat + 1) wsel (x.osa xsel osa) j))) [] 4 (t + 20)) ∧
    (∀ fmt rm raw smode buf rows rbase os, Ten.ok (.drain fmt rm raw smode buf rows rbase os xsel osa) = true →
      starts (.drain a fmt rm raw smode buf rows rbase os xsel osa)
        ((List.range (rows.toNat + 1)).map (fun r => (t + (if raw then 2 else 1) * r, .drainRow buf (rbase.toNat + r) r (rows.toNat + 1) fmt.toNat rm.toNat
          raw smode.toNat os (x.osa xsel osa) (s.rd Reg.STAND_CUR_STEP_LO ++ x.count)))) []
        4 (t + (if raw then 2 else 1) * rows.toNat + (if raw then 15 else 14))) ∧
    (∀ buf rows rbase clr we, Ten.ok (.accadd buf rows rbase clr we xsel osa) = true →
      starts (.accadd a buf rows rbase clr we xsel osa)
        ((List.range (rows.toNat + 1)).flatMap (fun r => [(t + 2 * r, .accRow buf (rbase.toNat + r) r 0 clr we (x.osa xsel osa)),
          (t + 2 * r + 1, .accRow buf (rbase.toNat + r) r 1 clr we (x.osa xsel osa))])) [] 4 (t + 2 * rows.toNat + 10)) ∧
    (∀ rate len areg ainc off obs,
      let line := (x.a areg.toNat).toNat % 2 ^ 24 + off.toNat
      let inc := if ainc then [(t + 1, WriteOp.areg areg.toNat (x.a areg.toNat + BitVec.ofNat 32 (len.toNat + 1)))] else []
      (1 ≤ rate.toNat → rate.toNat ≤ 5 →
        starts (.ld a slot rate len areg ainc off xsel osa obs)
          ((List.range (len.toNat + 1)).map (fun k => (t + 8 + k / rate.toNat, .ld (line + k) ((x.osa xsel osa + k) % 32768) (obsAt obs k))))
          inc 0 (t + 18 + len.toNat / rate.toNat) ∧
        starts (.st a slot rate len areg ainc off xsel osa)
          ((List.range (len.toNat + 1)).map (fun k => (t + k / rate.toNat, .st ((x.osa xsel osa + k) % 32768) (line + k))))
          inc 0 (t + 10 + len.toNat / rate.toNat)) ∧
      ((rate.toNat = 0 ∨ 5 < rate.toNat) → exec (.ld a slot rate len areg ainc off xsel osa obs) s = .next s ∧
        exec (.st a slot rate len areg ainc off xsel osa) s = .next s)) ∧
    (∀ areg v, exec (.seta a slot areg v) s = .next (s.setEng i { x with writes := x.writes ++ [(t + 1, .areg areg.toNat v)] }) ∧
      exec (.adda a slot areg v) s = .next (s.setEng i { x with writes := x.writes ++ [(t + 1, .areg areg.toNat (x.a areg.toNat + v))] })) ∧
    (∀ q len,
      starts (.send a slot q len xsel osa) ((List.range (len.toNat + 1)).map (fun k => (t + k / 2, .send ((x.osa xsel osa + k) % 32768) q.toNat))) [] 1
        (t + 1 + len.toNat / 2) ∧
      starts (.recv a slot q len xsel osa) ((List.range (len.toNat + 1)).map (fun k => (t + 1 + k / 2, .recv q.toNat ((x.osa xsel osa + k) % 32768)))) [] 1
        (t + 2 + len.toNat / 2)) ∧
    (∀ vs dreg n, (∀ k, k ≤ n.toNat → (dynLine (s.dynRegion (i / 16) dreg.toNat) (x.lane vs.toNat k).toNat).isSome = true) →
      (∃ rs, rs.map (·.1) = (List.range (n.toNat + 1)).map (fun k => t + k / 2) ∧
        starts (.scatter a slot vs dreg n xsel osa) rs [] 2 (t + 32 + 2 * (n.toNat + 1))) ∧
      (∀ obs, ∃ u ls, exec (.gather a slot vs dreg n xsel osa obs) s = .next u ∧ ls.map (·.1) = (List.range (n.toNat + 1)).map (fun k => (x.osa xsel osa + k) % 32768) ∧
        u.eng i = { x with writes := x.writes ++ [(t + 32 + 2 * (n.toNat + 1), .gather ls)], ops := x.ops ++ [⟨2, t + 32 + 2 * (n.toNat + 1)⟩] } ∧
        u.mem = s.mem)) ∧
    (∀ ch desc, ∃ done, starts (.dmat a slot ch desc) [] [(t + 1, .dmaStart ch desc)] 3 done)

/-- R95: when a result is visible. -/
def Obligations.QueuedWritesBecomeVisible : Prop :=
  ∀ (s : State) (a : Eng) (i : Nat) (T tau : Nat), s.engIdx a = some i → (s.eng i).stall = .wait T → (s.eng i).reads = [] → tau < T →
    (∀ r v, (s.eng i).writes = [(tau, .areg r v)] →
      ∃ t, exec (.opResultVisible a) s = .next t ∧ (t.eng i).a r = v ∧ (∀ q, q ≠ r → (t.eng i).a q = (s.eng i).a q) ∧ (t.eng i).tick = tau ∧
        (t.eng i).writes = [] ∧ (t.eng i).vregs = (s.eng i).vregs ∧ (t.eng i).store = (s.eng i).store ∧ (∀ j, j ≠ i → t.eng j = s.eng j) ∧
        t = { s with engines := t.engines }) ∧
    (∀ r v, (s.eng i).writes = [(tau, .vreg r v)] →
      ∃ t, exec (.opResultVisible a) s = .next t ∧ aget [] (t.eng i).vregs r = v ∧ (∀ q, q ≠ r → (t.eng i).v q = (s.eng i).v q) ∧
        (t.eng i).aregs = (s.eng i).aregs ∧ (t.eng i).store = (s.eng i).store ∧ t = { s with engines := t.engines }) ∧
    (∀ n v, n < 32768 → (s.eng i).writes = [(tau, .store n v)] →
      ∃ t, exec (.opResultVisible a) s = .next t ∧ (t.eng i).ln n = v ∧ (∀ m, m < 32768 → m ≠ n → (t.eng i).ln m = (s.eng i).ln m) ∧
        (t.eng i).aregs = (s.eng i).aregs ∧ (t.eng i).vregs = (s.eng i).vregs ∧ t = { s with engines := t.engines }) ∧
    ((s.eng i).writes = [] → exec (.opResultVisible a) s = .next s)

/-- R126, R133: the scrub tick. -/
def Obligations.ScrubTickReadsItsOwnedBanks : Prop :=
  ∀ (s : State) (g : Fin 16),
    let x := s.grove g.val
    let b := x.scrubTau % 256
    let row := x.scrubTau / 256 % 32768
    (s.fn (P.GROVE g.val) ≠ fnReady → ∀ o o', exec (.scrubTick g o o') s = .next s) ∧
    (s.fn (P.GROVE g.val) = fnReady → aget none x.wb (b + 256) = none →
      aget false s.poison (groveLine g.val (row * 512 + b)) = false → aget false s.poison (groveLine g.val (row * 512 + (b + 256))) = false →
      (aget none x.wb b = none → ∃ t, exec (.scrubTick g none none) s = .next t ∧ t.grove g.val = { x with scrubTau := x.scrubTau + 1 } ∧
        t.rd (Reg.GSRAM_SCRUB_PASS g.val) =
          (if (x.scrubTau + 1) % 8388608 = 0 then s.rd (Reg.GSRAM_SCRUB_PASS g.val) + 1 else s.rd (Reg.GSRAM_SCRUB_PASS g.val)) ∧
        onlyRegs [Reg.GSRAM_SCRUB_PASS g.val] s t ∧ t = { s with regs := t.regs, groves := t.groves }) ∧
      (∀ o : LineObs, aget none x.wb b = none → o.erased.toNat + 2 * o.errors.toNat ≤ 8 → 0 < o.inner.toNat → s.rd (Reg.GSRAM_WEAR_THRESH g.val) = 0 →
        ∃ t, exec (.scrubTick g (some o) none) s = .next t ∧
          aget none (t.grove g.val).wb b = some { line := row * 512 + b, v := s.line (groveLine g.val (row * 512 + b)) } ∧
          (t.rd (Reg.GSRAM_CORR_INNER g.val)).toNat = min ((s.rd (Reg.GSRAM_CORR_INNER g.val)).toNat + o.inner.toNat) 0xFFFFFFFF ∧
          t = { s with regs := t.regs, evt := t.evt, glade := t.glade, groves := t.groves }) ∧
      (∀ w, aget none x.wb b = some w → ∃ t, exec (.scrubTick g none none) s = .next t ∧ aget none (t.grove g.val).wb b = none ∧
        t.line (groveLine g.val w.line) = w.v ∧
        (∀ n, n ≠ groveLine g.val w.line → t.line n = s.line n) ∧
        onlyRegs [Reg.GSRAM_SCRUB_PASS g.val] s t ∧ t = { s with regs := t.regs, groves := t.groves, mem := t.mem, poison := t.poison }))

/-- R143, R145, R146. -/
def Obligations.GroveDmaAndFoldCommands : Prop :=
  ∀ (s : State) (g ch : Fin 16) (desc : BitVec 8),
    let x := s.grove g.val
    let c := s.chan g.val ch.val
    let d := aget 0 x.descs (256 * ch.val + desc.toNat)
    let kind := descField d 0 0 4
    let len := descField d 0 16 16 + 1
    let src := descField d 1 0 24
    let from_ := fun i => stepReadLine 1 x.wins x.sel x.dirty (src + i)
    ((s.stepActive = false ∨ c.run.isSome = true) → exec (.dmaSchedStart g ch desc) s = .next s) ∧
    (s.stepActive = true → c.run = none → kind ≠ 2 → (∀ i, i < len → aget false s.poison (groveLine g.val (from_ i)) = false) →
      ∃ t r, exec (.dmaSchedStart g ch desc) s = .next t ∧ (t.chan g.val ch.val).run = some r ∧ r.kind = kind ∧ r.len = len ∧
        r.dst = descField d 2 0 24 ∧ r.moved = 0 ∧ r.lines = (List.range len).map (fun i => s.line (groveLine g.val (from_ i))) ∧
        (t.chan g.val ch.val).outbuf = (if kind = 1 then c.outbuf ++ r.lines else c.outbuf) ∧
        t.rd (Reg.GDMA_STARTS g.val) = s.rd (Reg.GDMA_STARTS g.val) + 1 ∧ t.flag ⟨Reg.GDMA_BUSY g.val, ch.val, 1⟩ = true ∧
        t.flag (F.GDMA_CH_STATE_BUSY g.val ch.val) = true ∧ t.get (chRemaining g.val ch.val) = min len 0xFFFF ∧
        onlyRegs [Reg.GDMA_STARTS g.val, Reg.GDMA_BUSY g.val, Reg.GDMA_CH_STATE g.val ch.val, Reg.GSRAM_CORR_INNER g.val] s t ∧
        t = { s with regs := t.regs, groves := t.groves }) ∧
    (c.run = none → exec (.dmaComplete g ch []) s = .next s) ∧
    (∀ r, c.run = some r → r.kind = 1 → c.outbuf ≠ [] → exec (.dmaComplete g ch []) s = .next s) ∧
    (∀ r, c.run = some r → r.kind = 0 → x.wins = [] →
      ∃ t, exec (.dmaComplete g ch []) s = .next t ∧ (t.chan g.val ch.val).run = none ∧
        (∀ i (h : i < r.lines.length), t.line (groveLine g.val (r.dst + i)) = r.lines[i]) ∧
        (∀ n, (∀ i, i < r.lines.length → n ≠ groveLine g.val (r.dst + i)) → t.line n = s.line n) ∧
        t.flag ⟨Reg.GDMA_BUSY g.val, ch.val, 1⟩ = false ∧ t.flag (F.GDMA_CH_STATE_BUSY g.val ch.val) = false ∧ t.get (chRemaining g.val ch.val) = 0 ∧
        t.rd64 (Reg.GDMA_LINES_LO g.val) = s.rd64 (Reg.GDMA_LINES_LO g.val) + BitVec.ofNat 64 r.len ∧
        onlyRegs [Reg.GDMA_BUSY g.val, Reg.GDMA_CH_STATE g.val ch.val, Reg.GDMA_LINES_LO g.val, Reg.GDMA_LINES_HI g.val] s t ∧
        t = { s with regs := t.regs, groves := t.groves, mem := t.mem, poison := t.poison }) ∧
    (s.flag (F.GWIN_STATUS_FOLD_BUSY g.val) = false → exec (.foldDone g) s = .next s) ∧
    (s.flag (F.GWIN_STATUS_FOLD_BUSY g.val) = true → x.wins.length ≤ 64 →
      let moves := foldList 1 x.wins x.sel
      ∃ t, exec (.foldDone g) s = .next t ∧ t.grove g.val = { x with wins := [], sel := [], dirty := [] } ∧
        ((moves.map (·.1)).Nodup → (∀ p ∈ moves, ∀ q ∈ moves, p.1 ≠ q.2) →
          ∀ p ∈ moves, t.line (groveLine g.val p.1) = s.line (groveLine g.val p.2)) ∧
        (∀ n, (∀ p ∈ moves, n ≠ groveLine g.val p.1) → t.line n = s.line n) ∧
        t.flag (F.GWIN_STATUS_FOLD_BUSY g.val) = false ∧ t.get (F.GWIN_STATUS_WIN_COUNT g.val) = 0 ∧
        t.summary (P.GWIN g.val) B.GWIN_FOLD_DONE = true ∧
        (∀ o, ¬ (P.GWIN g.val ≤ o ∧ o < P.GWIN g.val + 0x1000) → o ≠ Reg.STAND_LOAD_STATUS → o ∉ evtOffs → t.rd o = s.rd o) ∧
        t = { s with regs := t.regs, evt := t.evt, glade := t.glade, groves := t.groves, mem := t.mem, poison := t.poison })

/-- R136, R141, R142, R236, R262. The word for Hold's completion follows the model's reading (Table 11.3). -/
def Obligations.BackgroundAccessesAreServedHeldOrRefused : Prop :=
  ∀ (s : State) (b : BgAccess), b.via = .core →
    let n := b.addr.toNat / 64
    (s.mod.power = .run ∨ s.mod.power = .idle → s.bg = [] → b.addr.toNat % 64 = 0 → b.len = 64 →
      (∀ t0 bs, s.target n = some t0 → s.holds t0 true = false → s.isAlt t0 = false → b.write = some bs → bs.length = 64 →
        ∃ t, exec (.bgAccess b []) s = .next t ∧ t.line (s.bgLineOf t0) = lineOf bs ∧ (∀ m, m ≠ s.bgLineOf t0 → t.line m = s.line m) ∧
          t.out = .bgDone b.tag .ok [] :: s.out ∧
          (t.rd Reg.FLOOR_BG_LINES).toNat = min ((s.rd Reg.FLOOR_BG_LINES).toNat + 1) 0xFFFFFFFF ∧
          t = { s with regs := t.regs, groves := t.groves, mem := t.mem, poison := t.poison, out := t.out }) ∧
      (∀ t0, s.target n = some t0 → s.holds t0 false = false → s.isAlt t0 = false → b.write = none → aget false s.poison (s.bgLineOf t0) = false →
        ∃ t, exec (.bgAccess b []) s = .next t ∧ t.out = .bgDone b.tag .ok (lineBytes (s.line (s.bgLineOf t0))) :: s.out ∧
          t = { s with regs := t.regs, out := t.out }) ∧
      (∀ g a, s.target n = some (.grove g a) → s.stepOutstanding = true → b.write = none →
        ∃ t, exec (.bgAccess b []) s = .next t ∧ t.bg = [{ num := s.bgNext, acc := b, at_ := s.now }] ∧
          t = { s with regs := t.regs, bg := t.bg, bgNext := s.bgNext + 1 }) ∧
      (s.target n = none → b.write = none →
        ∃ t, exec (.bgAccess b []) s = .next t ∧ t.summary P.FLOOR B.FLOOR_ADDR_INVALID = true ∧ t.out = .bgDone b.tag .aborted [] :: s.out ∧
          onlyRegsEvt [Hdr.EVT_SUMMARY P.FLOOR] s t ∧ t = { s with regs := t.regs, evt := t.evt, glade := t.glade, out := t.out })) ∧
    (s.mod.power = .hold → ∃ t, exec (.bgAccess b []) s = .next t ∧ t.summary P.HOSTDMA B.HOSTDMA_MEM_UNAVAILABLE = true ∧
      t.out = .bgDone b.tag (if b.write.isSome then .dropped else .aborted) [] :: s.out ∧
      t = { s with regs := t.regs, evt := t.evt, glade := t.glade, out := t.out }) ∧
    (s.mod.power = .standby → exec (.bgAccess b []) s = .next s) ∧
    (s.mod.power = .hold ∨ s.mod.power = .standby → exec (.bgHeldServe []) s = .next s) ∧
    (s.mod.power = .run ∨ s.mod.power = .idle →
      (∀ h t0 bs, s.bg = [h] → h.acc = b → b.addr.toNat % 64 = 0 → b.len = 64 → b.write = some bs → bs.length = 64 → s.target n = some t0 →
        s.holds t0 true = false → s.isAlt t0 = false →
        ∃ t, exec (.bgHeldServe []) s = .next t ∧ t.bg = [] ∧ t.line (s.bgLineOf t0) = lineOf bs ∧ (∀ m, m ≠ s.bgLineOf t0 → t.line m = s.line m) ∧
          .bgDone b.tag .ok [] ∈ t.out) ∧
      ((∀ h ∈ s.bg, s.stillHeld h.acc = true) →
        ∃ t, exec (.bgHeldServe []) s = .next t ∧ t.bg = s.bg ∧ t = { s with regs := t.regs, ctx := t.ctx, out := t.out }))

/-- R132, R144, R226. -/
def Obligations.FloorCrossbarDeliversLines : Prop :=
  ∀ (s : State),
    (∀ src dst copies obs, (s.stepActive = false ∨ s.xbarTake src dst = none) → exec (.xbarLineRx src dst copies obs) s = .next s) ∧
    (∀ (g g' : Fin 16) (e e' q q' q2 : Fin 8) (i j : Nat) (v : Line) (vs : List Line), s.stepActive = true →
      s.engIdx { g := g, e := e } = some i → s.engIdx { g := g', e := e' } = some j → i ≠ j → aget [] (s.eng i).sendq q.val = v :: vs →
      (∃ t, exec (.xbarLineRx (.queue g e q) (.queue g' e' q') [] none) s = .next t ∧
        t.eng i = { s.eng i with sendq := aset [] (s.eng i).sendq q.val vs } ∧
        t.eng j = { s.eng j with recvq := aset [] (s.eng j).recvq q'.val (aget [] (s.eng j).recvq q'.val ++ [v]) } ∧
        (∀ k, k ≠ i → k ≠ j → t.eng k = s.eng k) ∧ t.rd64 Reg.FLOOR_LINES_LO = s.rd64 Reg.FLOOR_LINES_LO + 1 ∧
        onlyRegs [Reg.FLOOR_LINES_LO, Reg.FLOOR_LINES_HI] s t ∧ t = { s with regs := t.regs, engines := t.engines }) ∧
      (q' ≠ q2 → ∃ t, exec (.xbarLineRx (.queue g e q) (.queue g' e' q') [.queue g' e' q2] none) s = .next t ∧
        aget [] (t.eng j).recvq q'.val = aget [] (s.eng j).recvq q'.val ++ [v] ∧ aget [] (t.eng j).recvq q2.val = aget [] (s.eng j).recvq q2.val ++ [v])) ∧
    (∀ (l : Fin 96) (lo hi : BitVec 256), s.stepActive = true → (s.link l.val).rxBuf = [(lo, false, true), (hi, true, false)] →
      ∃ t, exec (.xbarLineRx (.link l) .sample [] none) s = .next t ∧ (t.link l.val).rxBuf = [] ∧
        t.sample.inbuf = s.sample.inbuf ++ [halvesLine lo hi] ∧ t.summary P.FLOOR B.FLOOR_XBAR_UNCORR = true ∧
        (t.rd (Hdr.ERR_COUNT P.FLOOR)).toNat = min ((s.rd (Hdr.ERR_COUNT P.FLOOR)).toNat + 1) 0xFFFFFFFF)

/-- R162, R165, R180, R181. -/
def Obligations.StandCommandWritesByTheHost : Prop :=
  ∀ s : State,
    let keeps := fun (t : State) => t.rd (Hdr.OWNER P.STAND) = reqIdent .host ∧
      onlyRegsWrite [Reg.STAND_STATUS, Hdr.OWNER P.STAND, Hdr.EVT_SUMMARY P.STAND] s t ∧
      t = { s with regs := t.regs, evt := t.evt, glade := t.glade, canopy := t.canopy, stand := t.stand }
    (s.armed = true → s.isLead = false → exec (.issue .host) s = .next (s.refuse .host Reg.STAND_COMMAND causeRight) ∧
      exec (.unload .host) s = .next (s.refuse .host Reg.STAND_COMMAND causeRight)) ∧
    (s.absent P.STAND = false →
      (s.isLead = true → s.issueOk (s.rd64 Reg.STAND_NEXT_STEP_LO) = true → ∃ t, exec (.issue .host) s = .next t ∧ keeps t ∧
        t.flag F.STAND_STATUS_ISSUE_PENDING = true ∧ t.stand = { s.stand with issueStep := s.rd64 Reg.STAND_NEXT_STEP_LO }) ∧
      ((s.armed = false ∨ s.isLead = true) → s.issueOk (s.rd64 Reg.STAND_NEXT_STEP_LO) = false → ∃ t, exec (.issue .host) s = .next t ∧ keeps t ∧
        t.summary P.STAND B.STAND_ISSUE_REFUSED = true ∧ t.rd Reg.STAND_STATUS = s.rd Reg.STAND_STATUS ∧ t.stand = s.stand) ∧
      (s.armed = true → s.isLead = true → s.suspended = false → s.stand.ending = false → s.flag F.STAND_STATUS_ISSUE_PENDING = false →
        s.stand.announce = none → s.stand.announceRx = none → s.stand.current = none → s.stand.unloadRx = none →
        ∃ t, exec (.unload .host) s = .next t ∧ keeps t ∧ t.flag F.STAND_STATUS_END_PENDING = true ∧
          t.stand = { s.stand with ending := true, unloadRx := some s.gepoch }) ∧
      (∃ t, exec (.abortVote .host) s = .next t ∧ keeps t ∧ t.stand = s.stand ∧
        t.flag F.STAND_STATUS_ABORT_VOTE = (s.flag F.STAND_STATUS_ABORT_VOTE || s.stepActive)) ∧
      (s.armed = true → s.isLead = false → ∃ t, exec (.endReq .host) s = .next t ∧ keeps t ∧
        t.flag F.STAND_STATUS_END_PENDING = true ∧ t.stand = { s.stand with endReq := true }))

/-- R158 to R163, R173, R174. -/
def Obligations.GroupEpochsAndTheirMessages : Prop :=
  ∀ (s : State) (l : Fin 96) (m : Gcm),
    let k := s.gepoch + 1
    let d := s.dMax
    let merged := { s.stand with
      vote := s.stand.vote.map (fun v => { v with orNext := v.orNext || (m.voteV && m.abortOr), verdict := if v.verdict = .none then m.verdict else v.verdict }),
      waveRx := waveMax s.stand.waveRx (m.wave.take d) }
    (s.stand.epochs = false → exec .groupEpochStart s = .next s) ∧
    (s.stand.epochs = true → s.stand.eoe = [] → k < 2 ^ 64 → ∃ t g, exec .groupEpochStart s = .next t ∧ t.gepoch = k ∧ t.stand.phase = 0 ∧
      t.rd64 Reg.STAND_IDLE_LO = s.rd64 Reg.STAND_IDLE_LO + BitVec.ofNat 64 (s.get F.STAND_PACE_P_APPLIED) ∧
      t.out = (s.groupLinks.map (fun i => Out.gcm i g)).reverse ++ s.out ∧ g.gepoch = BitVec.ofNat 32 k ∧
      g.pApplied = BitVec.ofNat 14 (t.get F.STAND_PACE_P_APPLIED) ∧ g.wave = t.stand.wave.take d ∧
      t.stand.wave = nextWave d s.ownPace s.stand.wave s.stand.waveRx ∧ t.stand.waveRx = [] ∧
      (∀ q, s.stand.waveBase + (2 * d + 2) ≤ k → s.stand.settled.find? (fun x => x.epoch == k - (2 * d + 2)) = some q →
        t.get F.STAND_PACE_P_APPLIED = q.pace % 2 ^ 14) ∧
      (s.isLead = true → s.flag F.STAND_STATUS_ISSUE_PENDING = true → s.stand.announce = none → s.stand.announceRx = none → s.stand.current = none →
        t.stand.announce = some { step := s.stand.issueStep, start := k + d + 2 } ∧ t.flag F.STAND_STATUS_ISSUE_PENDING = false) ∧
      onlyRegsEvt [Reg.STAND_GEPOCH_LO, Reg.STAND_GEPOCH_LO + 4, Reg.STAND_IDLE_LO, Reg.STAND_IDLE_LO + 4, Reg.STAND_PACE, Reg.STAND_PACE_SETTLED,
        Reg.STAND_PACE_MAX, Reg.STAND_STATUS, Reg.STAND_START_EPOCH_LO, Reg.STAND_START_EPOCH_LO + 4, Hdr.EVT_SUMMARY P.STAND] s t ∧
      t = { s with regs := t.regs, evt := t.evt, glade := t.glade, stand := t.stand, out := t.out }) ∧
    ((s.stand.epochs = false ∨ s.flag (F.LINK_STATUS_GROUP l.val) = false ∨ s.linkUp l.val = false) → exec (.gcmRx l m) s = .next s) ∧
    (s.stand.epochs = true → s.armed = true → s.flag (F.LINK_STATUS_GROUP l.val) = true → s.linkUp l.val = true → m.endReq = false →
      (s.gcmDiffers m = false → m.startV = false → m.unload = false → exec (.gcmRx l m) s = .next { s with stand := merged }) ∧
      (s.gcmDiffers m = true → m.startV = false → m.unload = false →
        exec (.gcmRx l m) s = .next { s with stand := { merged with eoe := s.stand.eoe ++ [⟨0x12, l.val⟩] } }) ∧
      (s.gcmDiffers m = false → m.startV = true → m.unload = false → s.gepoch < nearest64 s.gepoch m.startEpoch → s.stand.announce = none →
        s.stand.announceRx = none → s.stand.unloadRx = none → s.stand.ending = false →
        ∃ t, exec (.gcmRx l m) s = .next t ∧
          t.stand = { merged with announceRx := some { step := m.startStep, start := nearest64 s.gepoch m.startEpoch } } ∧
          t.rd64 Reg.STAND_START_EPOCH_LO = BitVec.ofNat 64 (nearest64 s.gepoch m.startEpoch) ∧
          onlyRegs [Reg.STAND_START_EPOCH_LO, Reg.STAND_START_EPOCH_LO + 4] s t ∧ t = { s with regs := t.regs, stand := t.stand }) ∧
      (s.gcmDiffers m = false → m.startV = false → m.unload = true → s.stand.unloadRx = none →
        ∃ t, exec (.gcmRx l m) s = .next t ∧ t.flag F.STAND_STATUS_END_PENDING = true ∧
          t.stand = { merged with unloadRx := some s.gepoch, announce := none, announceRx := none } ∧
          onlyRegs [Reg.STAND_STATUS] s t ∧ t = { s with regs := t.regs, stand := t.stand }))

/-- R163 to R167, R180. -/
def Obligations.StepsStartAndAreVotedOn : Prop :=
  ∀ s : State, s.handling = false → s.unitsInRange = true →
    ((s.stand.epochs = false ∨ s.stand.announce = none ∨ s.stand.current.isSome = true) → exec .stepStart s = .next s) ∧
    (∀ a, s.stand.epochs = true → s.stand.announce = some a → a.start = s.gepoch → s.stand.current = none →
      ∃ t, exec .stepStart s = .next t ∧ t.stand = { s.stand with current := some a, announce := none, vote := none } ∧
        t.rd64 Reg.STAND_CUR_STEP_LO = a.step ∧ t.stepActive = true ∧ t.flag F.STAND_STATUS_ABORT_VOTE = false ∧ t.sample = {} ∧
        (∀ l, t.red l = { prog := (s.red l).prog }) ∧ t.mod = { s.mod with power := (if s.mod.power = .idle then .run else s.mod.power) } ∧
        t = { s with regs := t.regs, stand := t.stand, links := t.links, reduce := t.reduce, sample := t.sample, lpddr := t.lpddr,
                     engines := t.engines, mod := t.mod }) ∧
    (s.stand.current = none → exec .voteSample s = .next s ∧ exec .commitTick s = .next s) ∧
    (∀ c, s.stand.current = some c → s.stand.epochs = true →
      (s.stepActive = false ∨ s.gepoch ≠ s.lastEpochOf c → exec .voteSample s = .next s) ∧
      (s.stepActive = true → s.gepoch = s.lastEpochOf c → s.stand.eoe = [] → ∃ t, exec .voteSample s = .next t ∧
        t.stand = { s.stand with vote := some { lastEpoch := s.lastEpochOf c, step := c.step, own := s.flag F.STAND_STATUS_ABORT_VOTE } } ∧
        t.stepActive = false ∧ t.flag F.STAND_STATUS_ABORT_VOTE = false ∧ t.mod = { s.mod with power := (if s.mod.power = .run then .idle else s.mod.power) } ∧
        t = { s with regs := t.regs, stand := t.stand, mod := t.mod }) ∧
      (s.gepoch ≠ s.commitEpochOf c → s.suspended = false → exec .commitTick s = .next s) ∧
      (∀ v, s.gepoch = s.commitEpochOf c → s.stand.vote = some v → s.stand.suspendAtC = false → s.stand.ending = false →
        (v.verdict = .commit → ∃ t, exec .commitTick s = .next t ∧ t.rd64 Reg.STAND_LAST_COMMIT_LO = c.step ∧
          t.stand = { s.stand with current := none, vote := none, lastFate := .commit, anyCommit := true } ∧
          t.rd Reg.STAND_COMMITS = s.rd Reg.STAND_COMMITS + 1 ∧ t.summary P.STAND B.STAND_STEP_COMMIT = true ∧
          (∀ g, (s.grove g).wins ≠ [] → t.grove g = { s.grove g with sel := flipSel (s.grove g).sel (s.grove g).dirty, dirty := [] }) ∧
          t.lpddr = { s.lpddr with sel := flipSel s.lpddr.sel s.lpddr.dirty, dirty := [] } ∧
          t = { s with regs := t.regs, evt := t.evt, glade := t.glade, stand := t.stand, groves := t.groves, lpddr := t.lpddr }) ∧
        (v.verdict = .abort → s.stand.announce = none → s.stand.announceRx = none → s.flag F.STAND_STATUS_ISSUE_PENDING = false →
          s.serve.ending = false → ∃ t, exec .commitTick s = .next t ∧ t.rd Reg.STAND_ABORTS = s.rd Reg.STAND_ABORTS + 1 ∧
            t.stand = { s.stand with current := none, vote := none, lastFate := .abort } ∧ t.summary P.STAND B.STAND_STEP_ABORT = true ∧
            (∀ g, t.grove g = { s.grove g with dirty := [] }) ∧ t.lpddr = { s.lpddr with dirty := [] } ∧
            t = { s with regs := t.regs, evt := t.evt, glade := t.glade, stand := t.stand, groves := t.groves, lpddr := t.lpddr }) ∧
        (v.verdict = .none → ∃ t, exec .commitTick s = .next t ∧ t.flag F.STAND_STATUS_UNCOMMITTED = true ∧
          t = { s with regs := t.regs, stand := { s.stand with lastFate := .uncommitted } }))) ∧
    (s.stand.unloadRx = none → exec .standDisarm s = .next s) ∧
    (∀ r, s.stand.unloadRx = some r →
      (s.gepoch < r + 2 → exec .standDisarm s = .next s) ∧
      (s.armed = true → s.stand.epochs = true → r + 2 ≤ s.gepoch → s.mod.mstate = .running →
        ∃ t, exec .standDisarm s = .next t ∧ t.armed = false ∧ t.image = none ∧ t.stand = {} ∧ t.mod.mstate = .ready ∧
          t.rd Reg.STAND_STAND_ID = 0 ∧ t.rd Reg.STAND_MEMBERSHIP = 0 ∧ t.reduce = [] ∧ t.mem = s.mem ∧ t.poison = s.poison ∧ t.dwood = s.dwood))

/-- R175 to R179, R400, R479. -/
def Obligations.PaceFaultsHoldAndIdle : Prop :=
  ∀ s : State,
    (∀ e, s.stand.epochs = true → s.armed = true → s.suspended = false → s.mod.mstate = .running → s.stepActive = false → s.stand.eoe = [e] → s.resuming = false →
      ∃ t a, exec .groupEpochStart s = .next t ∧ t.mod = { s.mod with mstate := .halted, target := some .hold, byCommand := false, power := (if s.mod.power = .run then .idle else s.mod.power) } ∧
        t.suspended = true ∧ t.gepoch = s.gepoch ∧ t.get F.STAND_FAULT_INFO_CAUSE = e.cause % 256 ∧ t.get F.STAND_FAULT_INFO_DETAIL = e.detail % 256 ∧ t.flag F.STAND_FAULT_INFO_LOCAL = true ∧
        t.rd64 Reg.STAND_FAULT_TICK_LO = s.ftime ∧ t.summary P.STAND B.STAND_PACE_FAULT = true ∧ t.summary P.STAND B.STAND_SUSPENDED = true ∧
        t.out = (s.standLinks.map (fun l => Out.abort l a)).reverse ++ s.out ∧ a.cause = BitVec.ofNat 8 e.cause ∧ a.standId = s.rd Reg.STAND_STAND_ID ∧
        t.stand = { s.stand with epochs := false, announce := none, announceRx := none, eoe := [], abortTicks := 4095, abortMsg := some a } ∧
        t = { s with regs := t.regs, evt := t.evt, glade := t.glade, stand := t.stand, mod := t.mod, group := t.group, out := t.out }) ∧
    ((s.mod.mstate ≠ .halted ∨ s.stand.abortMsg = none) → exec .paceFaultLinkDown s = .next s) ∧
    (s.mod.mstate = .halted → s.stand.abortMsg.isSome = true →
      ∃ t, exec .paceFaultLinkDown s = .next t ∧ t.stand = { s.stand with abortTicks := 0, abortMsg := none } ∧
        (∀ l, l ∈ s.standLinks → lsDetect ≤ s.lstate l → s.lstate l ≤ lsUp → t.lstate l = lsTakedown ∧ t.fnReg (P.LINK l) = fnDraining) ∧
        (∀ l, l < 96 → l ∉ s.standLinks → t.lstate l = s.lstate l) ∧
        t = { s with regs := t.regs, links := t.links, stand := t.stand, out := t.out }) ∧
    (s.mod.target ≠ some .hold → exec .holdReached s = .next s) ∧
    (s.mod.target = some .hold → s.mod.power ≠ .standby → ∃ t, exec .holdReached s = .next t ∧ t.mod.power = .hold ∧ t.mod.target = none ∧
      (∀ l, l < 96 → lsDetect ≤ s.lstate l → s.lstate l ≤ lsTakedown → t.lstate l = lsOff) ∧
      (∀ c, c < 8 → s.fn (P.SVC c) = fnDraining → t.fn (P.SVC c) = fnOff) ∧
      (∀ m, m < 16 → s.fn (P.LPDDR m) = fnReady → t.flag (F.LPDDR_STATUS_SELF_REFRESH m) = true) ∧
      (s.mod.byCommand = true → t.flag F.MODULE_MSTATE_HOLD = true)) ∧
    ((s.mod.target ≠ some .idle ∨ s.mod.power ≠ .hold) → exec .idleReached s = .next s) ∧
    (s.mod.target = some .idle → s.mod.power = .hold → ∃ t, exec .idleReached s = .next t ∧
      t.mod = { s.mod with power := .idle, target := none, svcHeld := [] } ∧ t.flag F.MODULE_MSTATE_HOLD = false ∧
      (∀ m, m < 16 → s.fn (P.LPDDR m) = fnReady → t.flag (F.LPDDR_STATUS_SELF_REFRESH m) = false) ∧ t = { s with regs := t.regs, mod := t.mod })

/-- R186 to R191, Table 8.10: training. -/
def Obligations.LinkTrainingCommands : Prop :=
  ∀ (s : State) (l : Fin 96) (obs : PhaseObs),
    (s.lstate l.val = lsDetect →
      (∃ t, exec (.trainPhaseDone l obs) s = .next t ∧ t.lstate l.val = lsLock ∧ t.fnReg (P.LINK l.val) = fnStarting ∧
        t.get (F.LINK_LANES_RX_POLARITY l.val) = obs.polarity.toNat ∧ t = { s with regs := t.regs, links := t.links }) ∧
      (∀ c ∈ [Instr.trainPhaseTimeout l obs, .detectTimeout l],
        ∃ t, exec c s = .next t ∧ t.lstate l.val = lsFailed ∧ t.get (F.LINK_STATUS_FAIL_CAUSE l.val) = 1 ∧
          t.fnReg (P.LINK l.val) = fnFault ∧ t.summary (P.LINK l.val) B.LINK_TRAIN_FAIL = true ∧
          (∀ o, ¬ (P.LINK l.val ≤ o ∧ o < P.LINK l.val + 0x1000) → o ∉ evtOffs → t.rd o = s.rd o) ∧
          t = { s with regs := t.regs, evt := t.evt, glade := t.glade })) ∧
    (s.lstate l.val = lsLock → s.failedLanes l.val obs = [] →
      ∃ t, exec (.trainPhaseDone l obs) s = .next t ∧ t.lstate l.val = lsEqualise ∧ t.fnReg (P.LINK l.val) = fnStarting ∧ t = { s with regs := t.regs }) ∧
    (s.lstate l.val = lsMeasure →
      (∀ carried phase : BitVec 4, ∃ t, exec (.markRx l carried phase) s = .next t ∧ (t.link l.val).rhoRx = some (phase - carried) ∧
        t.out = .markEcho l.val (phase - carried) :: s.out ∧ t = { s with links := t.links, out := t.out }) ∧
      (∀ (a0 a1 : BitVec 32) (r : BitVec 4), ∃ t, exec (.echoRx l a0 a1 r) s = .next t ∧ (t.link l.val).rt = some (a1 - a0 - 64).toNat ∧
        (t.link l.val).rhoTx = some r ∧ (t.link l.val).exchanges = (s.link l.val).exchanges + 1 ∧ t = { s with links := t.links }) ∧
      (∀ (rt lam : Nat) (rr rx : BitVec 4), (s.link l.val).measBad = false → 1024 ≤ (s.link l.val).exchanges → (s.link l.val).rt = some rt →
        (s.link l.val).rhoRx = some rr → (s.link l.val).rhoTx = some rx → (rr + rx).toNat = rt % 16 → latencyOf rt rx.toNat = some lam →
        s.armed = false → lam ≤ rt → rt < 2048 →
        ∃ t, exec (.trainPhaseDone l obs) s = .next t ∧ t.lstate l.val = lsUp ∧ t.fnReg (P.LINK l.val) = fnReady ∧
          t.get (F.LINK_LAT_LAMBDA_TX l.val) = lam ∧ t.get (F.LINK_LAT_LAMBDA_RX l.val) = rt - lam ∧
          t.get (F.LINK_STATUS_MARGIN l.val) = 8 ∧ t.summary (P.LINK l.val) B.LINK_UP = true)) ∧
    (s.lstate l.val = lsOff → exec (.trainPhaseDone l obs) s = .next s ∧ exec (.trainPhaseTimeout l obs) s = .next s ∧ exec (.detectTimeout l) s = .next s)

/-- R56, R193, R212: margin and loss. -/
def Obligations.LinkMarginSlipAndLoss : Prop :=
  ∀ (s : State) (l : Fin 96) (lane : Fin 9),
    (s.linkUp l.val = true →
      (s.stepActive = false →
        ∃ t, exec (.marginLow l) s = .next t ∧ t.get (F.LINK_STATUS_MARGIN l.val) = 2 ∧ t.summary (P.LINK l.val) B.LINK_MARGIN_LOW = true ∧
          (s.flag F.CLK_STATUS_TIME_VALID = false → (t.link l.val).slipReq = true ∧ t.out = .skipReq l.val :: s.out) ∧
          (s.flag F.CLK_STATUS_TIME_VALID = true → t.links = s.links ∧ t.out = s.out)) ∧
      ((s.link l.val).slipReq = true → s.armed = false → 0 < s.get (F.LINK_LAT_LAMBDA_RX l.val) → s.get (F.LINK_STATUS_MARGIN l.val) < 15 →
        ∃ t, exec (.skipFlitRx l true) s = .next t ∧ t.get (F.LINK_LAT_LAMBDA_RX l.val) = s.get (F.LINK_LAT_LAMBDA_RX l.val) - 1 ∧
          t.get (F.LINK_STATUS_MARGIN l.val) = s.get (F.LINK_STATUS_MARGIN l.val) + 1 ∧ (t.link l.val).slipReq = false ∧
          t.summary (P.LINK l.val) B.LINK_SLIP = true ∧ t = { s with regs := t.regs, evt := t.evt, glade := t.glade, links := t.links }) ∧
      (s.armed = false →
        ∀ p ∈ [(Instr.elasticOverrun l, 6), (.laneLockLoss l lane, 4)], (p.2 = 4 → s.laneInUse l.val lane.val = true) →
          ∃ t, exec p.1 s = .next t ∧ t.lstate l.val = lsFailed ∧ t.get (F.LINK_STATUS_FAIL_CAUSE l.val) = p.2 ∧ t.fnReg (P.LINK l.val) = fnFault ∧
            t.summary (P.LINK l.val) B.LINK_LOST = true ∧ (t.link l.val).unacked = [] ∧ (t.link l.val).txq = [] ∧
            t.out = (((s.link l.val).unacked ++ (s.link l.val).txq).map (fun m => Out.undelivered l.val m.body)).reverse ++ s.out ∧
            t = { s with regs := t.regs, evt := t.evt, glade := t.glade, links := t.links, out := t.out })) ∧
    (s.linkUp l.val = false →
      exec (.marginLow l) s = .next s ∧ exec (.skipFlitRx l true) s = .next s ∧ exec (.elasticOverrun l) s = .next s ∧ exec (.laneLockLoss l lane) s = .next s)

/-- R177, R200, R204, R212. -/
def Obligations.FlitsAndAbortsReceived : Prop :=
  ∀ (s : State) (l : Fin 96) (flit : BitVec 320) (a : AbortMsg),
    (s.linkUp l.val = false → ∀ pos, exec (.flitRx l flit pos) s = .next s) ∧
    (s.linkUp l.val = true → correctFlit flit = none → (s.link l.val).uncorrRun < 7 →
      ∃ t, exec (.flitRx l flit .free) s = .next t ∧ (t.link l.val).uncorrRun = (s.link l.val).uncorrRun + 1 ∧
        (t.rd (Reg.LINK_UNCORR l.val)).toNat = min ((s.rd (Reg.LINK_UNCORR l.val)).toNat + 1) 0xFFFFFFFF ∧
        (t.rd (Hdr.ERR_COUNT (P.LINK l.val))).toNat = min ((s.rd (Hdr.ERR_COUNT (P.LINK l.val))).toNat + 1) 0xFFFFFFFF ∧
        onlyRegs [Reg.LINK_UNCORR l.val, Hdr.ERR_COUNT (P.LINK l.val), Hdr.EVT_SUMMARY (P.LINK l.val)] s t ∧
        t = { s with regs := t.regs, links := t.links }) ∧
    (∀ f, s.linkUp l.val = true → correctFlit flit = some (f, []) → hdrKind (flitHeader f) = 2 →
      exec (.flitRx l flit .free) s = .next ((s.setLink l.val { s.link l.val with uncorrRun := 0 }).put (creditFld l.val (hdrCpool (flitHeader f)))
        (min (s.get (creditFld l.val (hdrCpool (flitHeader f))) + hdrCcount (flitHeader f)) (poolSize (hdrCpool (flitHeader f)))))) ∧
    ((s.armed = false ∨ a.standId ≠ s.rd Reg.STAND_STAND_ID) →
      exec (.abortRx l a) s = .next (s.raise (P.LINK l.val) B.LINK_ABORT_FOREIGN Evn.LINK_ABORT_FOREIGN)) ∧
    (s.armed = true → a.standId = s.rd Reg.STAND_STAND_ID → s.suspended = false → s.stand.suspendAtC = false → s.stepActive = false →
      s.stand.current = none →
      ∃ t, exec (.abortRx l a) s = .next t ∧ t.suspended = true ∧ t.flag F.STAND_FAULT_INFO_LOCAL = false ∧
        t.get F.STAND_FAULT_INFO_CAUSE = a.cause.toNat ∧ t.get F.STAND_FAULT_INFO_ORIGIN = a.origin.toNat ∧
        t.stand.epochs = false ∧ t.stand.abortMsg = some a ∧ t.out = (s.standLinks.map (fun k => Out.abort k a)).reverse ++ s.out ∧
        t.summary P.STAND B.STAND_SUSPENDED = true ∧
        t = { s with regs := t.regs, evt := t.evt, glade := t.glade, stand := t.stand, out := t.out })

/-- R205, R212 to R215. -/
def Obligations.ServiceMessagesAndTakedown : Prop :=
  ∀ (s : State) (l : Fin 96) (n : BitVec 16) (b : SvcBody) (c : SvcClass),
    (s.linkUp l.val = true →
      ((s.link l.val).seenMsg.contains (bodyClass b, n) = false →
        ∃ t, exec (.serviceMsgRx l n b) s = .next t ∧ t.inbox = s.inbox ++ [(l.val, b)] ∧ t.out = .svcAck l.val (bodyClass b) n :: s.out ∧
          t = { s with links := t.links, out := t.out, inbox := t.inbox }) ∧
      ((s.link l.val).seenMsg.contains (bodyClass b, n) = true →
        ∃ t, exec (.serviceMsgRx l n b) s = .next t ∧ t.inbox = s.inbox ∧ t.out = .svcAck l.val (bodyClass b) n :: s.out ∧
          t = { s with links := t.links, out := t.out })) ∧
    (∃ t, exec (.serviceAckRx l c n) s = .next t ∧ (t.link l.val).unacked = (s.link l.val).unacked.filter (fun m => !(m.cls == c && m.msgno == n)) ∧
      t = { s with links := t.links }) ∧
    (∀ m, (s.link l.val).unacked.find? (fun m => m.cls == c && m.msgno == n) = some m →
      ∃ t, exec (.serviceResendTimeout l c n) s = .next t ∧ (t.link l.val).txq = (s.link l.val).txq ++ [{ m with sent := 0 }] ∧
        t.out = .svcSend l.val n m.body :: s.out ∧ onlyRegs [Reg.LINK_SVC_RESENT l.val] s t ∧
        t = { s with regs := t.regs, links := t.links, out := t.out }) ∧
    (s.lstate l.val = lsUp → s.armed = false →
      ∃ t, exec (.takedownNoticeRx l) s = .next t ∧ t.lstate l.val = lsDetect ∧ t.fnReg (P.LINK l.val) = fnStarting ∧
        t.get (F.LINK_STATUS_FAIL_CAUSE l.val) = 8 ∧ t.summary (P.LINK l.val) B.LINK_PARTNER_DOWN = true ∧ (t.link l.val).unacked = [] ∧
        t.out.head? = some (.takedownAck l.val)) ∧
    (s.lstate l.val = lsTakedown →
      (s.flag (Hdr.PENDING_ENABLE (P.LINK l.val)) = false →
        ∃ t, exec (.takedownComplete l) s = .next t ∧ t.lstate l.val = lsOff ∧ t.fnReg (P.LINK l.val) = fnOff ∧ (t.link l.val).unacked = [] ∧
          t.out.head? = some (.lanesIdle l.val) ∧ t = { s with regs := t.regs, links := t.links, out := t.out }) ∧
      (s.flag (Hdr.PENDING_ENABLE (P.LINK l.val)) = true →
        ∃ t, exec (.takedownComplete l) s = .next t ∧ t.lstate l.val = lsDetect ∧ t.fnReg (P.LINK l.val) = fnStarting ∧
          t.flag (Hdr.PENDING_ENABLE (P.LINK l.val)) = false)) ∧
    (s.lstate l.val = lsOff → exec (.takedownComplete l) s = .next s ∧ exec (.takedownNoticeRx l) s = .next s)

/-- R207. -/
def Obligations.RemoteRegisterRequests : Prop :=
  ∀ (s : State) (l : Fin 96) (r : RegReqMsg) (p : RegRspMsg),
    (s.absent (P.LINK l.val) = false → s.armed = false → s.flag (F.LINK_RREQ_CTRL_BUSY l.val) = false →
      ∃ t, exec (.rreqGo l ⟨.host, 1, 15⟩) s = .next t ∧ t.get (F.LINK_RREQ_CTRL_RESULT l.val) = 2 ∧
        t.flag (F.LINK_RREQ_CTRL_BUSY l.val) = false ∧ t.summary (P.LINK l.val) B.LINK_RREQ_DONE = true) ∧
    (∀ h hs, r.hops = h :: hs → s.linkUp h.val = true →
      ∃ t n, exec (.regReqRx l r) s = .next t ∧ t.out = .svcSend h.val n (.regReq { r with hops := hs, back := l :: r.back }) :: s.out ∧ t.regs = s.regs) ∧
    (r.hops = [] → s.linkUp l.val = true →
      (∀ v, s.armed = true → s.rd Reg.STAND_STAND_ID = r.standId → r.write = false →
        (s.takeInbox l.val (.regReq r)).readReg (.remote r.member) r.addr.toNat = (s.takeInbox l.val (.regReq r), v) →
        ∃ t n, exec (.regReqRx l r) s = .next t ∧ t.out = .svcSend l.val n (.regRsp { back := r.back, result := 0, data := v }) :: s.out ∧ t.regs = s.regs) ∧
      (s.armed = false →
        ∃ t n, exec (.regReqRx l r) s = .next t ∧ t.out = .svcSend l.val n (.regRsp { back := r.back, result := 2, data := 0 }) :: s.out ∧ t.regs = s.regs)) ∧
    (∀ h hs, p.back = h :: hs → s.linkUp h.val = true →
      ∃ t n, exec (.regRspRx l p) s = .next t ∧ t.out = .svcSend h.val n (.regRsp { p with back := hs }) :: s.out ∧ t.regs = s.regs) ∧
    (p.back = [] → s.flag (F.LINK_RREQ_CTRL_BUSY l.val) = true → s.flag (F.LINK_RREQ_CTRL_WRITE l.val) = false → p.result = 0 →
      ∃ t, exec (.regRspRx l p) s = .next t ∧ t.rd (Reg.LINK_RREQ_DATA l.val) = p.data ∧ t.get (F.LINK_RREQ_CTRL_RESULT l.val) = 0 ∧
        t.flag (F.LINK_RREQ_CTRL_BUSY l.val) = false ∧ t.summary (P.LINK l.val) B.LINK_RREQ_DONE = true) ∧
    (s.flag (F.LINK_RREQ_CTRL_BUSY l.val) = true →
      ∃ t, exec (.rreqTimeout l) s = .next t ∧ t.get (F.LINK_RREQ_CTRL_RESULT l.val) = 3 ∧ t.flag (F.LINK_RREQ_CTRL_BUSY l.val) = false ∧
        t = { s with regs := t.regs, evt := t.evt, glade := t.glade }) ∧
    (s.flag (F.LINK_RREQ_CTRL_BUSY l.val) = false → exec (.rreqTimeout l) s = .next s)

/-- R219 to R223. -/
def Obligations.ReductionLanesAddAndDeliver : Prop :=
  ∀ (s : State) (l : Fin 96) (a : BitVec 256) (p : Bool),
    let x := s.red l.val
    let taken := fun (r : Run) (rest : List (BitVec 256 × Bool)) => if r.lq then { x with lq1 := rest } else { x with lq0 := rest }
    let regs := [Reg.REDUCE_STATUS l.val, Reg.REDUCE_CUR_RUN l.val, Reg.REDUCE_ADDS_LO l.val, Reg.REDUCE_ADDS_HI l.val, Reg.REDUCE_SPEC_COUNT l.val]
    ((s.stepActive = false ∨ s.fn (P.REDUCE l.val) ≠ fnReady ∨ x.cur false = none) → exec (.reduceAdd l a p) s = .next s) ∧
    ((s.stepActive = false ∨ s.fn (P.REDUCE l.val) ≠ fnReady ∨ x.cur true = none) → exec (.reduceSink l a p) s = .next s) ∧
    (∀ (sink : Bool) i r, x.cur sink = some (i, r) → (if r.lq then x.lq1 else x.lq0) = [] →
      exec (if sink then Instr.reduceSink l a p else .reduceAdd l a p) s = .next s) ∧
    (s.stepActive = true → s.fn (P.REDUCE l.val) = fnReady →
      (∀ i r op bad rest, x.cur false = some (i, r) → (if r.lq then x.lq1 else x.lq0) = (op, bad) :: rest →
        ((operandSum a op).2 = (false, false) → ∃ t, exec (.reduceAdd l a p) s = .next t ∧
          t.out = .flit l.val (r.tick x.fwdDone) false (p || bad) (operandSum a op).1 :: s.out ∧
          t.red l.val = (taken r rest).advance false r.count ∧ t.rd64 (Reg.REDUCE_ADDS_LO l.val) = s.rd64 (Reg.REDUCE_ADDS_LO l.val) + 2 ∧
          t.get (F.REDUCE_CUR_RUN_RUN l.val) = i % 4096 ∧
          ((p || bad) = false → onlyRegs regs s t ∧ t = { s with regs := t.regs, reduce := t.reduce, out := t.out }) ∧
          ((p || bad) = true → t.summary (P.REDUCE l.val) B.REDUCE_REDUCE_POISON = true ∧
            (t.rd (Reg.REDUCE_POISON_OUT l.val)).toNat = min ((s.rd (Reg.REDUCE_POISON_OUT l.val)).toNat + 1) 0xFFFFFFFF ∧
            onlyRegsEvt (Reg.REDUCE_POISON_OUT l.val :: Hdr.EVT_SUMMARY (P.REDUCE l.val) :: regs) s t ∧
            t = { s with regs := t.regs, evt := t.evt, glade := t.glade, reduce := t.reduce, out := t.out })) ∧
        ((operandSum a op).2 = (true, false) → s.armed = true → s.mod.mstate = .running → s.unitsInRange = true →
          ∃ t, exec (.reduceAdd l a p) s = .next t ∧ t.mod.mstate = .halted ∧ t.get (F.REDUCE_OVF_INFO_RUN l.val) = i % 4096 ∧
            t.flag (F.REDUCE_OVF_INFO_LANE l.val) = false ∧ t.get (F.REDUCE_OVF_INFO_VALUE l.val) = 0 ∧
            t.summary (P.REDUCE l.val) B.REDUCE_LONG_OVF = true ∧ .flit l.val (r.tick x.fwdDone) false (p || bad) (operandSum a op).1 ∈ t.out)) ∧
      (∀ i r op rest (g : Fin 16) (e q : Fin 8) (j : Nat), x.cur true = some (i, r) → (if r.lq then x.lq1 else x.lq0) = (op, false) :: rest →
        (operandSum a op).2 = (false, false) → p = false → r.dest = some (.queue g e q) → s.engIdx { g := g, e := e } = some j →
        let line := fun (t : State) (v : Line) => t.red l.val = { (taken r rest).advance true r.count with half := none } ∧
          t.eng j = { s.eng j with recvq := aset [] (s.eng j).recvq q.val (aget [] (s.eng j).recvq q.val ++ [v]) } ∧
          t.rd (Reg.REDUCE_SINK_LINES l.val) = s.rd (Reg.REDUCE_SINK_LINES l.val) + 1 ∧
          t.rd64 Reg.FLOOR_LINES_LO = s.rd64 Reg.FLOOR_LINES_LO + 1 ∧
          onlyRegs (Reg.REDUCE_SINK_LINES l.val :: Reg.FLOOR_LINES_LO :: Reg.FLOOR_LINES_HI :: regs) s t ∧
          t = { s with regs := t.regs, reduce := t.reduce, engines := t.engines }
        (x.half = none → x.snkDone + 1 ≠ r.count → ∃ t, exec (.reduceSink l a p) s = .next t ∧
          t.red l.val = { (taken r rest).advance true r.count with half := some ((operandSum a op).1, false) } ∧ onlyRegs regs s t ∧
          t = { s with regs := t.regs, reduce := t.reduce }) ∧
        (x.half = none → x.snkDone + 1 = r.count → ∃ t, exec (.reduceSink l a p) s = .next t ∧ line t (halvesLine (operandSum a op).1 0)) ∧
        (∀ h, x.half = some (h, false) → ∃ t, exec (.reduceSink l a p) s = .next t ∧ line t (halvesLine h (operandSum a op).1))))

/-- R239, R240, R245. -/
def Obligations.LpddrFramesMoveTheirBlocks : Prop :=
  ∀ (s : State) (m : Fin 16) (frame : Nat),
    ((s.stepActive = false ∨ s.fn (P.LPDDR m.val) ≠ fnReady) → ∀ obs, exec (.lpddrFrame m frame obs) s = .next s) ∧
    (s.stepActive = true → s.fn (P.LPDDR m.val) = fnReady → ∀ im p b port, s.image = some im →
      im.frames.filter (fun q => decide (q.m = m) && decide (q.frame = frame)) = [p] → maskBlocks p.entry = [b] → p.ports = [port] →
      let k := 16 * entryRun p.entry + b
      let w := lpddrLine (stepWriteLine lpUnit s.lpddr.wins s.lpddr.sel k)
      let r := lpddrLine (stepReadLine lpUnit s.lpddr.wins s.lpddr.sel s.lpddr.dirty k)
      (entryDir p.entry = 0 → exec (.lpddrFrame m frame []) s = .next s) ∧
      (entryDir p.entry = 1 → aget false s.poison r = false → ∃ t, exec (.lpddrFrame m frame []) s = .next t ∧
        t.lpddr = { s.lpddr with outq := aset [] s.lpddr.outq m.val (aget [] s.lpddr.outq m.val ++ [(port, s.line r, false)]) } ∧
        t.rd64 (Reg.LPDDR_SCHED_LO m.val) = s.rd64 (Reg.LPDDR_SCHED_LO m.val) + 1 ∧
        onlyRegs [Reg.LPDDR_SCHED_LO m.val, Reg.LPDDR_SCHED_HI m.val] s t ∧ t = { s with regs := t.regs, lpddr := t.lpddr }) ∧
      (∀ v, entryDir p.entry = 2 → aget [] s.lpddr.inq m.val = [(port, v, false)] → ∃ t, exec (.lpddrFrame m frame []) s = .next t ∧
        t.line w = v ∧ (∀ n, n ≠ w → t.line n = s.line n) ∧ aget [] t.lpddr.inq m.val = [] ∧
        t.rd64 (Reg.LPDDR_SCHED_LO m.val) = s.rd64 (Reg.LPDDR_SCHED_LO m.val) + 1 ∧
        t = { s with regs := t.regs, lpddr := t.lpddr, mem := t.mem, poison := t.poison }) ∧
      (entryDir p.entry = 2 → aget [] s.lpddr.inq m.val = [] → ∃ t, exec (.lpddrFrame m frame []) s = .next t ∧
        t.lpddr = { s.lpddr with waitq := aset [] s.lpddr.waitq m.val (aget [] s.lpddr.waitq m.val ++ [(k, port)]) } ∧
        t = { s with regs := t.regs, lpddr := t.lpddr }))

/-- R246, R247, R250. -/
def Obligations.LpddrRefreshScrubAndFold : Prop :=
  ∀ (s : State) (m : Fin 16) (ch : Fin 8) (bank : Fin 16) (mult : BitVec 2),
    (s.absent (P.LPDDR m.val) = true → exec (.lpddrRefresh m ch bank) s = .next s ∧ exec (.refreshRateChange m ch mult) s = .next s) ∧
    (s.absent (P.LPDDR m.val) = false →
      (∃ t, exec (.lpddrRefresh m ch bank) s = .next t ∧
        aget 0 t.lpddr.refreshed (128 * m.val + 16 * ch.val + bank.val) = aget 0 s.lpddr.refreshed (128 * m.val + 16 * ch.val + bank.val) + 1 ∧
        (∀ k, k ≠ 128 * m.val + 16 * ch.val + bank.val → aget 0 t.lpddr.refreshed k = aget 0 s.lpddr.refreshed k) ∧
        t = { s with lpddr := { s.lpddr with refreshed := t.lpddr.refreshed } }) ∧
      (mult ≠ 3 → exec (.refreshRateChange m ch mult) s = .next (s.put (F.LPDDR_CH_STATUS_REFRESH_MULT m.val ch.val) mult.toNat)) ∧
      (mult = 3 → s.stepActive = false → ∃ t, exec (.refreshRateChange m ch mult) s = .next t ∧
        t.get (F.LPDDR_CH_STATUS_REFRESH_MULT m.val ch.val) = 3 ∧ t.summary (P.LPDDR m.val) B.LPDDR_LPDDR_HOT = true ∧
        onlyRegsEvt [(F.LPDDR_CH_STATUS_REFRESH_MULT m.val ch.val).off, Hdr.EVT_SUMMARY (P.LPDDR m.val)] s t ∧
        t = { s with regs := t.regs, evt := t.evt, glade := t.glade })) ∧
    ((s.fn (P.LPDDR m.val) ≠ fnReady ∨ s.lpddr.c = 0) → ∀ obs, exec (.lpddrScrub m obs) s = .next s) ∧
    (s.fn (P.LPDDR m.val) = fnReady → s.lpddr.c ≠ 0 → s.poison = [] →
      let k := aget 0 s.lpddr.scrubBlk m.val
      let c := aget 0 s.lpddr.scrubCh m.val
      ∃ t, exec (.lpddrScrub m []) s = .next t ∧ aget 0 t.lpddr.scrubCh m.val = (c + 1) % 8 ∧
        aget 0 t.lpddr.scrubBlk m.val = (if s.lpRuns ≤ (if c = 7 then k + 1 else k) then 0 else if c = 7 then k + 1 else k) ∧
        t.rd (Reg.LPDDR_SCRUB_POS m.val) = BitVec.ofNat 32 (aget 0 t.lpddr.scrubBlk m.val) ∧
        t.rd (Reg.LPDDR_SCRUB_PASS m.val) =
          (if s.lpRuns ≤ (if c = 7 then k + 1 else k) then s.rd (Reg.LPDDR_SCRUB_PASS m.val) + 1 else s.rd (Reg.LPDDR_SCRUB_PASS m.val)) ∧
        onlyRegs [Reg.LPDDR_SCRUB_POS m.val, Reg.LPDDR_SCRUB_PASS m.val] s t ∧ t = { s with regs := t.regs, lpddr := t.lpddr }) ∧
    (s.lpddr.folding.contains m.val = false → exec (.lpddrFoldDone m) s = .next s) ∧
    (s.lpddr.folding.contains m.val = true → s.lpddr.wins.length ≤ 64 →
      let mine := fun n => (match s.lpPlace n with | some pl => decide (pl.m = m.val) | none => false)
      let moves := (foldList lpUnit s.lpddr.wins s.lpddr.sel).filter (fun p => mine p.1)
      ∃ t, exec (.lpddrFoldDone m) s = .next t ∧ t.flag (F.LPDDR_WIN_STATUS_FOLD_BUSY m.val) = false ∧
        t.summary (P.LPDDR m.val) B.LPDDR_LPDDR_FOLD_DONE = true ∧ t.lpddr.folding = s.lpddr.folding.filter (fun i => i ≠ m.val) ∧
        ((moves.map (·.1)).Nodup → (∀ p ∈ moves, ∀ q ∈ moves, p.1 ≠ q.2) → ∀ p ∈ moves, t.line (lpddrLine p.1) = s.line (lpddrLine p.2)) ∧
        (∀ n, (∀ p ∈ moves, n ≠ lpddrLine p.1) → t.line n = s.line n) ∧
        (∀ o, ¬ (P.LPDDR m.val ≤ o ∧ o < P.LPDDR m.val + 0x1000) → o ≠ Reg.STAND_LOAD_STATUS → o ∉ evtOffs → t.rd o = s.rd o) ∧
        (t.lpddr.folding = [] → t.lpddr.wins = [] ∧ t.lpddr.sel = [] ∧ t.lpddr.dirty = []) ∧
        t = { s with regs := t.regs, evt := t.evt, glade := t.glade, lpddr := t.lpddr, mem := t.mem, poison := t.poison })

/-- R257 to R259, R469. -/
def Obligations.PcieEndpointCommands : Prop :=
  ∀ (s : State) (width : BitVec 4) (speed : BitVec 3) (k : AerKind) (tag : BitVec 32),
    ((s.mod.power = .standby ∨ s.mod.perst = true) → exec (.pcieLinkUp width speed) s = .next s ∧ exec (.configRequest tag) s = .next s) ∧
    (s.mod.power ≠ .standby → s.mod.perst = false →
      (∃ t, exec (.pcieLinkUp width speed) s = .next t ∧ t.flag F.HOSTDMA_STATUS_LINK_UP = true ∧ t.get F.HOSTDMA_STATUS_WIDTH = width.toNat ∧
        t.get F.HOSTDMA_STATUS_SPEED = speed.toNat ∧
        (width = 8 ∧ speed = 5 → onlyRegs [Reg.HOSTDMA_STATUS] s t ∧ t = { s with regs := t.regs }) ∧
        (¬ (width = 8 ∧ speed = 5) → t.summary P.HOSTDMA B.HOSTDMA_LINK_DEGRADED = true ∧
          onlyRegsEvt [Reg.HOSTDMA_STATUS, Hdr.EVT_SUMMARY P.HOSTDMA] s t ∧ t = { s with regs := t.regs, evt := t.evt, glade := t.glade })) ∧
      exec (.configRequest tag) s = .next { s with out := .cfgReply tag (!s.host.cfgOk) :: s.out }) ∧
    (s.flag F.HOSTDMA_STATUS_LINK_UP = false → exec .pcieLinkDown s = .next s) ∧
    (s.flag F.HOSTDMA_STATUS_LINK_UP = true → ∃ t, exec .pcieLinkDown s = .next t ∧ t.flag F.HOSTDMA_STATUS_LINK_UP = false ∧
      t.get F.HOSTDMA_STATUS_WIDTH = 0 ∧ t.get F.HOSTDMA_STATUS_SPEED = 0 ∧ t.summary P.HOSTDMA B.HOSTDMA_LINK_DOWN = true ∧
      (∀ c, c < 4 → s.hdBusy c = true → t.hdBusy c = false ∧ t.get (F.HOSTDMA_CH_STATE_LAST_STATUS c) = 5 ∧
        t.flag (F.HOSTDMA_CH_STATE_ERR c) = true) ∧
      t = { s with regs := t.regs, evt := t.evt, glade := t.glade, host := t.host }) ∧
    (aerIsUncorr k = false → exec (.aerError k) s = .next s) ∧
    (aerIsUncorr k = true → ∃ t, exec (.aerError k) s = .next t ∧ t.summary P.HOSTDMA B.HOSTDMA_AER = true ∧
      (t.rd Reg.HOSTDMA_AER_UNCORR).toNat = min ((s.rd Reg.HOSTDMA_AER_UNCORR).toNat + 1) 0xFFFFFFFF ∧
      (t.rd (Hdr.ERR_COUNT P.HOSTDMA)).toNat = min ((s.rd (Hdr.ERR_COUNT P.HOSTDMA)).toNat + 1) 0xFFFFFFFF ∧
      onlyRegsEvt [Reg.HOSTDMA_AER_UNCORR, Hdr.ERR_COUNT P.HOSTDMA, Hdr.EVT_SUMMARY P.HOSTDMA] s t ∧
      t = { s with regs := t.regs, evt := t.evt, glade := t.glade }) ∧
    (∀ c ∈ [Instr.flr, .hotReset], (s.mod.power = .standby → exec c s = .next s) ∧
      (s.mod.power ≠ .standby → ∃ t, exec c s = .next t ∧ t.host.msix = {} ∧ t.host.chans = [] ∧ t.host.cq = [] ∧
        t.flag (Hdr.RESET_BUSY P.HOSTDMA) = true ∧ t.flag (Hdr.RESET_BUSY P.SUBMIT) = true ∧
        t.flag F.HOSTDMA_STATUS_LINK_UP = s.flag F.HOSTDMA_STATUS_LINK_UP ∧
        (∀ o, ¬ (P.HOSTDMA ≤ o ∧ o < P.HOSTDMA + 0x2000) → t.rd o = s.rd o) ∧ t = { s with regs := t.regs, ctx := t.ctx, host := t.host })) ∧
    (s.mod.power = .standby → exec .perstAssert s = .next { s with mod := { s.mod with perst := true } } ∧
      exec .perstDeassert s = .next { s with mod := { s.mod with perst := false } }) ∧
    (s.mod.power ≠ .standby →
      (∃ t, exec .perstAssert s = .next t ∧ t.mod = { s.mod with perst := true } ∧ t.host.msix = {} ∧ t.host.chans = [] ∧
        t.flag F.HOSTDMA_STATUS_LINK_UP = false ∧ t.get F.HOSTDMA_STATUS_WIDTH = 0 ∧
        t = { s with regs := t.regs, ctx := t.ctx, host := t.host, mod := t.mod }) ∧
      exec .perstDeassert s = .next { s with mod := { s.mod with perst := false }, out := .pcieTrain :: s.out })

/-- R263 to R267, R274. -/
def Obligations.MsixAndHostDmaCommands : Prop :=
  ∀ (s : State) (v : Fin 64) (addr : Dword) (data : Word) (c : Fin 4) (hi : Word),
    let m := s.host.msix
    let x := s.hd c.val
    let at_ := hi ++ s.rd (Reg.HOSTDMA_CH_START_LO c.val)
    let status := fun (code : Nat) => Out.hostWrite (s.rd64 (Reg.HOSTDMA_CH_CUR_LO c.val) + 23) [BitVec.ofNat 8 code] false false
    let stops := fun (t : State) (code : Nat) => t.hdBusy c.val = false ∧ t.flag (F.HOSTDMA_CH_STATE_ERR c.val) = true ∧
      t.get (F.HOSTDMA_CH_STATE_LAST_STATUS c.val) = code % 256 ∧ t.summary P.HOSTDMA B.HOSTDMA_DMA_ERROR = true ∧ t.out = status code :: s.out ∧
      t = { s with regs := t.regs, evt := t.evt, glade := t.glade, host := t.host, out := t.out }
    (aget false m.due v.val = false → exec (.msixSend v) s = .next s) ∧
    (aget none m.entries v.val = some (addr, data) → aget false m.due v.val = true → m.funcMask = false → aget none m.last v.val = none →
      s.flag F.HOSTDMA_STATUS_LINK_UP = true → exec (.msixSend v) s = .next { s with
        out := .msi v.val addr data :: s.out
        host := { s.host with msix := { m with due := aset false m.due v.val false, last := aset none m.last v.val (some s.now) } } }) ∧
    (aget false m.pba v.val = false → exec (.msixUnmask (some v) addr data) s =
      .next { s with host := { s.host with msix := { m with entries := aset none m.entries v.val (some (addr, data)) } } }) ∧
    (aget false m.pba v.val = true → m.funcMask = false → aget none m.last v.val = none → s.flag F.HOSTDMA_STATUS_LINK_UP = true →
      ∃ t, exec (.msixUnmask (some v) addr data) s = .next t ∧ t.out = .msi v.val addr data :: s.out ∧ aget false t.host.msix.pba v.val = false ∧
        t = { s with host := { s.host with msix := t.host.msix }, out := t.out }) ∧
    (m.pba = [] → exec (.msixUnmask none addr data) s = .next { s with host := { s.host with msix := { m with funcMask := false } } }) ∧
    (aget none (s.reqCtx .host).heldLo (Reg.HOSTDMA_CH_START_HI c.val - 4) = none →
      ((s.hdBusy c.val = true ∨ at_.toNat % 32 ≠ 0) → exec (.dmaStart c ⟨.host, hi, 15⟩) s =
        .next (s.refuse .host (Reg.HOSTDMA_CH_START_HI c.val) causeRight)) ∧
      (s.hdBusy c.val = false → at_.toNat % 32 = 0 → s.absent P.HOSTDMA = false → s.fn P.HOSTDMA = fnReady → s.flag F.HOSTDMA_STATUS_LINK_UP = true →
        ∃ t, exec (.dmaStart c ⟨.host, hi, 15⟩) s = .next t ∧ t.hdBusy c.val = true ∧ t.rd64 (Reg.HOSTDMA_CH_CUR_LO c.val) = at_ ∧ t.hd c.val = {} ∧
          t.flag (F.HOSTDMA_CH_STATE_ERR c.val) = false ∧ t.out = .hostRead c.val at_ 32 :: s.out ∧
          t = { s with regs := t.regs, evt := t.evt, glade := t.glade, canopy := t.canopy, ctx := t.ctx, host := t.host, out := t.out })) ∧
    (s.hdBusy c.val = false → (∀ q, exec (.dmaCompletionRx c q []) s = .next s) ∧ exec (.dmaDescComplete c) s = .next s ∧
      exec (.dmaStopDone c) s = .next s) ∧
    (s.hdBusy c.val = true → x.stopping = false →
      (∀ d, x.desc = none → hdValid d = true → hdToHost d = false → s.flag F.HOSTDMA_STATUS_LINK_UP = true →
        exec (.dmaCompletionRx c (.desc d) []) s =
          .next { s.setHd c.val { x with desc := some d } with out := .hostRead c.val (hdHost d) (hdLen d) :: s.out }) ∧
      (∀ d, x.desc = none → x.bad = 0 → hdValid d = false → ∃ t, exec (.dmaCompletionRx c (.desc d) []) s = .next t ∧
        t.hd c.val = { x with desc := some d, bad := 2 } ∧ t = { s with host := { s.host with chans := t.host.chans } }) ∧
      (∀ d off bs, x.desc = some d → x.bad = 0 → ∃ t, exec (.dmaCompletionRx c (.data off bs true) []) s = .next t ∧
        t.hd c.val = { x with got := x.got + bs.length, bad := 4 } ∧ t = { s with host := { s.host with chans := t.host.chans } }) ∧
      (x.bad = 0 → exec (.dmaCompletionRx c .failed []) s = .next (s.setHd c.val { x with bad := 5 })) ∧
      (x.bad ≠ 0 → s.flag F.HOSTDMA_STATUS_LINK_UP = true → ∃ t, exec (.dmaDescComplete c) s = .next t ∧ stops t x.bad) ∧
      (∀ d, x.bad = 0 → x.desc = some d → hdToHost d = true → x.sent = true → hdNext d = 0 → hdIrq d = false → s.flag F.HOSTDMA_STATUS_LINK_UP = true →
        ∃ t, exec (.dmaDescComplete c) s = .next t ∧ t.hdBusy c.val = false ∧ t.get (F.HOSTDMA_CH_STATE_LAST_STATUS c.val) = 1 ∧
          t.rd (Reg.HOSTDMA_CH_DONE c.val) = s.rd (Reg.HOSTDMA_CH_DONE c.val) + 1 ∧ t.out = status 1 :: s.out ∧
          t = { s with regs := t.regs, host := t.host, out := t.out }) ∧
      (s.absent P.HOSTDMA = false → ∃ t, exec (.dmaStop c .host) s = .next t ∧ t.hd c.val = { x with stopping := true } ∧
        t.rd (Hdr.OWNER P.HOSTDMA) = reqIdent .host ∧ onlyRegsWrite [Hdr.OWNER P.HOSTDMA] s t)) ∧
    (s.hdBusy c.val = true → x.stopping = true → s.flag F.HOSTDMA_STATUS_LINK_UP = true → ∃ t, exec (.dmaStopDone c) s = .next t ∧ stops t 6) ∧
    (∃ t, exec (.completionTimeout none) s = .next t ∧ t.summary P.HOSTDMA B.HOSTDMA_AER = true ∧
      t = { s with regs := t.regs, evt := t.evt, glade := t.glade }) ∧
    (s.hdBusy c.val = true → x.bad = 0 → ∃ t, exec (.completionTimeout (some c)) s = .next t ∧ t.hd c.val = { x with bad := 5 } ∧
      t.summary P.HOSTDMA B.HOSTDMA_AER = true)

/-- R261, R262, R270, R272, R273. -/
def Obligations.Bar2WindowRingsAndHeartbeat : Prop :=
  ∀ (s : State) (off : BitVec 34) (len : Nat) (bs : List Byte) (tag : BitVec 32) (obs : List (Nat × LineObs)) (r : Fin 16) (data : Word),
    exec (.bar2Read off len tag obs) s = exec (.bgAccess ⟨.host, .bar2, s.rd64 Reg.HOSTDMA_BAR2_BASE_LO + off.setWidth 64, len, none, tag⟩ obs) s ∧
    exec (.bar2Write off bs false tag obs) s =
      exec (.bgAccess ⟨.host, .bar2, s.rd64 Reg.HOSTDMA_BAR2_BASE_LO + off.setWidth 64, bs.length, some bs, tag⟩ obs) s ∧
    (∀ t0, (s.mod.power = .run ∨ s.mod.power = .idle) → s.bg = [] → (s.bar2Addr off).toNat % 64 = 0 → s.target ((s.bar2Addr off).toNat / 64) = some t0 →
      s.isAlt t0 = false →
      (s.holds t0 false = false → aget false s.poison (s.bgLineOf t0) = false → ∃ t, exec (.bar2Read off 64 tag []) s = .next t ∧
        t.out = .bgDone tag .ok (lineBytes (s.line (s.bgLineOf t0))) :: s.out ∧ t = { s with regs := t.regs, out := t.out }) ∧
      (s.holds t0 true = false → bs.length = 64 → ∃ t, exec (.bar2Write off bs false tag []) s = .next t ∧ t.line (s.bgLineOf t0) = lineOf bs ∧
        (∀ n, n ≠ s.bgLineOf t0 → t.line n = s.line n) ∧ t.out = .bgDone tag .ok [] :: s.out)) ∧
    (s.mod.power ≠ .standby → ∃ t, exec (.bar2Write off bs true tag obs) s = .next t ∧ t.summary P.HOSTDMA B.HOSTDMA_POISON_RX = true ∧
      t.summary P.HOSTDMA B.HOSTDMA_AER = true ∧ t = { s with regs := t.regs, evt := t.evt, glade := t.glade }) ∧
    (s.bg = [] → exec (.bar2ReadAbort tag) s = .next s) ∧
    (∀ h, s.bg = [h] → h.acc.tag = tag → h.acc.via = .bar2 → h.acc.write = none → ∃ t, exec (.bar2ReadAbort tag) s = .next t ∧ t.bg = [] ∧
      t.out = .bgDone tag .aborted [] :: s.out ∧ t.summary P.HOSTDMA B.HOSTDMA_BAR2_READ_ABORT = true ∧
      t = { s with regs := t.regs, evt := t.evt, glade := t.glade, bg := t.bg, out := t.out }) ∧
    ((s.fn P.SUBMIT ≠ fnReady ∨ s.svcReady = [] ∨ s.mod.power = .hold ∨ s.mod.power = .standby) → exec .submitScan s = .next s) ∧
    (∀ t0, s.fn P.SUBMIT = fnReady → s.svcReady ≠ [] → (s.mod.power = .run ∨ s.mod.power = .idle) → s.get F.SUBMIT_SCAN_CFG_SCAN_MAX = 1 →
      s.target ((s.rd64 Reg.SUBMIT_WIN_BASE_LO).toNat / 64 + (s.rd Reg.SUBMIT_CONSUMED_SEQ).toNat % (s.rd Reg.SUBMIT_WIN_SLOTS).toNat) = some t0 →
      let v := s.line (s.bgLineOf t0)
      aget false s.poison (s.bgLineOf t0) = false → recSeq v = s.rd Reg.SUBMIT_CONSUMED_SEQ → recType v ≠ 0 → recChecked v = true →
      s.rd64 Reg.SUBMIT_SHADOW_LO = 0 →
      ∃ t, exec .submitScan s = .next t ∧ t.rd Reg.SUBMIT_CONSUMED_SEQ = s.rd Reg.SUBMIT_CONSUMED_SEQ + 1 ∧
        t.rd Reg.SUBMIT_SCANS = s.rd Reg.SUBMIT_SCANS + 1 ∧ t.host = { s.host with torn := 0, submitted := s.host.submitted ++ [v] } ∧
        t = { s with regs := t.regs, host := t.host }) ∧
    (aget [] s.host.cq r.val = [] → exec (.cqRecordWrite r) s = .next s) ∧
    (∀ b rest, s.fn P.SUBMIT = fnReady → aget [] s.host.cq r.val = b :: rest → s.cqIsFull r.val = false → s.flag F.HOSTDMA_STATUS_LINK_UP = true →
      s.flag (F.SUBMIT_CQ_VEC_MSI_EN r.val) = false →
      let q := s.rd (Reg.SUBMIT_CQ_CSEQ r.val)
      let a := s.rd64 (Reg.SUBMIT_CQ_BASE_LO r.val) +
        BitVec.ofNat 64 (64 * ((q.toNat + 2 ^ 32 - 1) % 2 ^ 32 % (s.rd (Reg.SUBMIT_CQ_SIZE r.val)).toNat))
      ∃ t, exec (.cqRecordWrite r) s = .next t ∧ t.rd (Reg.SUBMIT_CQ_TAIL r.val) = s.rd (Reg.SUBMIT_CQ_TAIL r.val) + 1 ∧
        t.rd (Reg.SUBMIT_CQ_CSEQ r.val) = (if q = 0xFFFFFFFF then 1 else q + 1) ∧ aget [] t.host.cq r.val = rest ∧
        t.out = .hostWrite (a + 60) (bvBytes 4 q) false false :: .hostWrite a (bvBytes 60 b) false false :: s.out ∧
        t = { s with regs := t.regs, evt := t.evt, glade := t.glade, host := t.host, out := t.out }) ∧
    ((s.rd (Reg.SUBMIT_CQ_SIZE r.val)).toNat < (s.rd (Reg.SUBMIT_CQ_TAIL r.val) - data).toNat →
      exec (.cqHeadWrite r ⟨.host, data, 15⟩) s = .next (s.refuse .host (Reg.SUBMIT_CQ_HEAD r.val) causeRight)) ∧
    ((s.rd (Reg.SUBMIT_CQ_TAIL r.val) - data).toNat ≤ (s.rd (Reg.SUBMIT_CQ_SIZE r.val)).toNat → s.absent P.SUBMIT = false →
      aget [] s.host.cq r.val = [] → ∃ t, exec (.cqHeadWrite r ⟨.host, data, 15⟩) s = .next t ∧ t.rd (Reg.SUBMIT_CQ_HEAD r.val) = data ∧
        t.rd (Hdr.OWNER P.SUBMIT) = reqIdent .host ∧
        onlyRegsWrite [Reg.SUBMIT_CQ_HEAD r.val, Hdr.OWNER P.SUBMIT, Hdr.EVT_SUMMARY P.SUBMIT] s t) ∧
    (s.absent P.HOSTDMA = false → ∃ t, exec (.hostAlive ⟨.host, 1, 15⟩) s = .next t ∧ t.host = { s.host with alive := { acc := 0, base := s.now } } ∧
      t.flag F.HOSTDMA_STATUS_ALIVE_EXPIRED = false ∧ onlyRegsWrite [Reg.HOSTDMA_STATUS, Hdr.OWNER P.HOSTDMA] s t) ∧
    (∀ q, q ≠ .host → q ≠ .debug → exec (.hostAlive ⟨q, 1, 15⟩) s = .next (s.refuse q Reg.HOSTDMA_HOST_ALIVE causeRight)) ∧
    ((s.mod.mstate = .standby ∨ s.mod.mstate = .bringup ∨ s.mod.mstate = .tripped ∨ s.flag F.HOSTDMA_STATUS_ALIVE_EXPIRED = true) →
      exec .aliveLost s = .next s) ∧
    ((s.mod.mstate = .ready ∨ s.mod.mstate = .running) → s.flag F.HOSTDMA_STATUS_ALIVE_EXPIRED = false →
      ∃ t, exec .aliveLost s = .next t ∧ t.flag F.HOSTDMA_STATUS_ALIVE_EXPIRED = true ∧ t.summary P.HOSTDMA B.HOSTDMA_ALIVE_LOST = true)

/-- R281 to R289. -/
def Obligations.SequencerRecordsAndAdmission : Prop :=
  ∀ s : State,
    (s.host.submitted = [] → exec .generate s = .next s ∧ exec .cancel s = .next s) ∧
    (∀ v rest, s.host.submitted = v :: rest →
      let rec_ := fun (why : Nat) => cqBody 4 why 0 (recSeq v) (recTag v) 0 0 0 s.ftime 0xFFFF
      let posted := fun (ring why : Nat) => if s.rd (Reg.SUBMIT_CQ_SIZE ring) = 0 then { s.host with submitted := rest }
        else { s.host with submitted := rest, cq := aset [] s.host.cq ring (aget [] s.host.cq ring ++ [rec_ why]) }
      (recType v = 2 → exec .generate s = .next s) ∧ (recType v ≠ 2 → exec .cancel s = .next s) ∧
      (recType v ≠ 2 → s.generateReason v = none → ∃ t, exec .generate s = .next t ∧
        t.serve = { s.serve with queue := s.serve.queue ++ [requestOf v] } ∧ onlyRegs [Reg.SERVE_STATUS, Reg.SERVE_KV_FREE] s t ∧
        t = { s with regs := t.regs, host := { s.host with submitted := rest }, serve := t.serve }) ∧
      (∀ why, recType v ≠ 2 → s.generateReason v = some why → ∃ t, exec .generate s = .next t ∧ t.host = posted (s.rejectRing v) why ∧
        (why ≠ 0x14 → t = { s with host := t.host }) ∧ (why = 0x14 → t.summary P.SERVE B.SERVE_QUEUE_FULL = true ∧
          t = { s with regs := t.regs, evt := t.evt, glade := t.glade, host := t.host })) ∧
      (recType v = 2 → s.serving = false → exec .cancel s = .next { s with host := posted 0 0x16 }) ∧
      (recType v = 2 → s.serving = true → recField v 5 24 = 0 → recField v 16 352 = 0 →
        (∀ r, s.serve.queue.find? (fun r => r.tag == recTag v) = some r → ∃ t, exec .cancel s = .next t ∧
          t.serve = { s.serve with queue := s.serve.queue.filter (fun q => q.tag != recTag v) } ∧
          t.rd Reg.SERVE_FINISHED = s.rd Reg.SERVE_FINISHED + 1 ∧ t = { s with regs := t.regs, freeCtr := t.freeCtr, host := t.host, serve := t.serve }) ∧
        (∀ i x, s.serve.queue.find? (fun r => r.tag == recTag v) = none →
          s.slots.find? (fun e => e.2.req.tag == recTag v && !e.2.finished) = some (i, x) → x.cancel = none →
          exec .cancel s = .next { s with
            host := { s.host with submitted := rest }
            serve := { s.serve with slots := aset none s.serve.slots i (some { x with cancel := some (s.rd64 Reg.STAND_LAST_COMMIT_LO) }) } }) ∧
        (s.serve.queue.find? (fun r => r.tag == recTag v) = none → s.slots.find? (fun e => e.2.req.tag == recTag v && !e.2.finished) = none →
          exec .cancel s = .next { s with host := posted 0 0x15 }))) ∧
    ((s.serving = false ∨ s.serve.ending = true ∨ s.serve.mine ≠ [] ∨ s.serve.commit.isSome = true) → exec .admissionPoint s = .next s) ∧
    (s.serving = true → s.serve.ending = false → s.serve.mine = [] → s.serve.commit = none →
      (s.serve.withheld = true → s.serve.slots = [] → s.serve.queue = [] → ∃ t, exec .admissionPoint s = .next t ∧
        t.serve = { s.serve with withheld := false } ∧ t = { s with regs := t.regs, serve := t.serve }) ∧
      (∀ r i, s.serve.slots = [] → s.serve.queue = [r] → s.freeSlot = some i → s.headFits = true → ∃ t, exec .admissionPoint s = .next t ∧
        t.serve.queue = [] ∧ t.serve.slots = [(i, some ⟨r, 0, 0, none, List.range (s.pagesFor r), false, none⟩)] ∧ t.rd Reg.SERVE_ADMITTED = s.rd Reg.SERVE_ADMITTED + 1) ∧
      (∀ i x c, s.serve.withheld = true → s.serve.slots = [(i, some x)] → x.finished = false → x.cancel = none → s.serve.queue = [] → s.bg = [] →
        s.suspended = false → s.seqCore = some c → s.absent P.STAND = false → s.issueOk (s.rd64 Reg.STAND_LAST_COMMIT_LO + 1) = true →
        ∃ t, exec .admissionPoint s = .next t ∧ t.serve = { s.serve with mine := [s.rd64 Reg.STAND_LAST_COMMIT_LO + 1], withheld := false } ∧
          t.stand = { s.stand with issueStep := s.rd64 Reg.STAND_LAST_COMMIT_LO + 1 } ∧ t.flag F.STAND_STATUS_ISSUE_PENDING = true ∧
          t.rd64 Reg.STAND_NEXT_STEP_LO = s.rd64 Reg.STAND_LAST_COMMIT_LO + 1 ∧ t.mem = s.mem))

/-- R278, R282, R287, R290 to R296. -/
def Obligations.TokensEndsAndTheSamplingUnit : Prop :=
  ∀ (s : State) (c : Fin 8),
    (s.serve.commit = none → exec (.tokenHarvest []) s = .next s) ∧
    (∀ step time, s.serve.commit = some (step, time) → s.handling = true → s.tokensHeld = false →
      (s.serve.slots = [] → ∃ t, exec (.tokenHarvest []) s = .next t ∧ t.serve = { s.serve with commit := none, handled := step } ∧
        onlyRegs [Reg.SERVE_STATUS, Reg.SERVE_KV_FREE] s t ∧ t = { s with regs := t.regs, serve := t.serve }) ∧
      (∀ i x, s.serve.slots = [(i, some x)] → x.finished = false → x.cancel = none → s.flag F.HOSTDMA_STATUS_LINK_UP = true →
        let ws := wordsOf (s.bgReadParts [] (512 * i) (accParts (BitVec.ofNat 64 (s.tokOut + s.tokStride * i)) (4 + 4 * s.tokStep))).2.1
        (∀ w, ws = [1, w] → s.stopReason x.req (x.total + 1) w = none → x.req.streamRec = false → 1 ≤ s.tokStep → ∃ t, exec (.tokenHarvest []) s = .next t ∧
          t.serve.slots = [(i, some { x with total := x.total + 1, last := some (step, time) })] ∧ t.serve.commit = none ∧
          t.out = .hostWrite (x.req.out + BitVec.ofNat 64 (4 * x.total)) (leBytes 4 w.toNat) false false :: s.out ∧
          t.rd64 Reg.SERVE_TOKENS_LO = s.rd64 Reg.SERVE_TOKENS_LO + 1 ∧ t.mem = s.mem) ∧
        (s.tokStep < (ws.headD 0).toNat → ∃ t, exec (.tokenHarvest []) s = .next t ∧ t.fnReg P.SERVE = fnFault ∧
          t.get F.SERVE_LAST_FAULT_CAUSE = 7 ∧ t.summary P.SERVE B.SERVE_BAD_OUTPUT = true ∧ t.serve.faulted = true ∧ t.out = s.out))) ∧
    ((s.serve.ending = false ∨ s.handling = false ∨ s.serve.commit.isSome = true) → exec .seqStandEnd s = .next s) ∧
    (s.serve.ending = true → s.handling = true → s.serve.commit = none → (s.serve.mine = [] ∨ s.armed = false ∨ s.suspended = true) →
      ∃ t, exec .seqStandEnd s = .next t ∧ t.serve = { beats := s.serve.beats } ∧ t.summary P.SERVE B.SERVE_STAND_ENDED = true ∧
        (s.flag (Hdr.PENDING_ENABLE P.SERVE) = false → t.fnReg P.SERVE = fnOff) ∧
        t = { s with regs := t.regs, evt := t.evt, glade := t.glade, freeCtr := t.freeCtr, host := t.host, serve := t.serve }) ∧
    ((s.serve.faulted = false ∨ s.fn P.SERVE ≠ fnFault ∨ s.svcReady = []) → exec .seqFault s = .next s) ∧
    (s.serve.faulted = true → s.fn P.SERVE = fnFault → s.svcReady ≠ [] → ∃ t, exec .seqFault s = .next t ∧ t.serve = { beats := s.serve.beats } ∧
      t = { s with regs := t.regs, freeCtr := t.freeCtr, host := t.host, serve := t.serve }) ∧
    ((s.fn P.SAMPLE ≠ fnReady ∨ s.stepActive = false ∨ s.sample.stream.isSome = true ∨ s.sample.inbuf.length < s.sampleLines) → exec .sampleStream s = .next s) ∧
    (s.fn P.SAMPLE = fnReady → s.stepActive = true → s.sample.stream = none → s.sampleLines ≤ s.sample.inbuf.length →
      ∃ t, exec .sampleStream s = .next t ∧ t.flag F.SAMPLE_STATUS_BUSY = true ∧
        t.sample = { s.sample with stream := some (s.sample.inbuf.take s.sampleLines), inbuf := s.sample.inbuf.drop s.sampleLines } ∧
        onlyRegs [F.SAMPLE_STATUS_BUSY.off] s t ∧ t = { s with regs := t.regs, sample := t.sample }) ∧
    (s.sample.stream = none → exec .sampleResult s = .next s) ∧
    (∀ header rest, s.sample.stream = some (header :: rest) →
      let hl := s.get F.SAMPLE_CFG_HLINES
      let o := sampleStreamOut (s.get F.SAMPLE_CFG_VOCAB) (s.get F.SAMPLE_CFG_LFMT) hl header (rest.take hl) (rest.drop hl)
      ∃ t, exec .sampleResult s = .next t ∧ t.sample = { s.sample with stream := none, outbuf := s.sample.outbuf ++ [sampleLine o header] } ∧
        t.flag F.SAMPLE_STATUS_BUSY = false ∧ t.rd64 Reg.SAMPLE_STREAMS_LO = s.rd64 Reg.SAMPLE_STREAMS_LO + 1 ∧
        (t.rd Reg.SAMPLE_NAN_COUNT).toNat = min ((s.rd Reg.SAMPLE_NAN_COUNT).toNat + (if o.nanSeen then 1 else 0)) 0xFFFFFFFF ∧
        (t.rd Reg.SAMPLE_CLAMP_COUNT).toNat = min ((s.rd Reg.SAMPLE_CLAMP_COUNT).toNat + (if o.clamped then 1 else 0)) 0xFFFFFFFF ∧
        (o.nanSeen = true → t.summary P.SAMPLE B.SAMPLE_SAMPLE_NAN = true) ∧ (o.clamped = true → t.summary P.SAMPLE B.SAMPLE_SAMPLE_CLAMP = true) ∧
        t = { s with regs := t.regs, evt := t.evt, glade := t.glade, sample := t.sample }) ∧
    (s.fn (P.SVC c.val) ≠ fnReady → exec (.svcHeartbeatAdvance c) s = .next s ∧ exec (.coreHang c) s = .next s) ∧
    (s.fn (P.SVC c.val) = fnReady →
      (∃ t, exec (.svcHeartbeatAdvance c) s = .next t ∧ t.rd (Reg.SVC_HEARTBEAT c.val) = s.rd (Reg.SVC_HEARTBEAT c.val) + 1 ∧
        t.serve = { s.serve with beats := aset {} s.serve.beats c.val { acc := 0, base := s.now } } ∧
        onlyRegs [Reg.SVC_HEARTBEAT c.val] s t ∧ t = { s with regs := t.regs, serve := t.serve }) ∧
      (∃ t, exec (.coreHang c) s = .next t ∧ t.fn (P.SVC c.val) = fnFault ∧ t.rd (Reg.SVC_FAULT_INFO c.val) = 1 ∧
        t.summary (P.SVC c.val) B.SVC_CORE_HANG = true ∧
        aget 0 t.boot.svcFaults c.val = aget 0 s.boot.svcFaults c.val + 1 ∧ t.mem = s.mem))

/-- R302 to R306, R319. -/
def Obligations.PumpsStartRunFailAndStop : Prop :=
  ∀ (s : State) (p : Fin 3) (rpm ma : BitVec 16), let n := p.val
    let moved := fun (t : State) => t = { s with regs := t.regs, evt := t.evt, glade := t.glade, fluid := t.fluid, dwood := t.dwood }
    (s.leakLatched = true → exec (.pumpEn p .host) s = .next (s.refuse .host (Reg.PUMP_CTL n) causeRight)) ∧
    (s.absent P.PUMP = false →
      (s.fn P.PUMP = fnReady → s.pstate n = psOff → s.leakLatched = false → s.powerAbsent = false →
        ∃ t, exec (.pumpEn p .host) s = .next t ∧ t.pstate n = psStarting ∧ t.get (F.PUMP_ST_APPLIED n) = 0x55 ∧ t.get (F.PUMP_ST_ATTEMPT n) = 0 ∧
          t.rd (Reg.PUMP_STARTS n) = s.rd (Reg.PUMP_STARTS n) + 1 ∧ t.rd (Hdr.OWNER P.PUMP) = reqIdent .host ∧
          onlyRegsWrite [Reg.PUMP_ST n, Reg.PUMP_STARTS n, Reg.PUMP_STATUS, Reg.PUMP_MEAS n, Reg.PUMP_HOURS n, Hdr.OWNER P.PUMP, Hdr.EVT_SUMMARY P.PUMP] s t) ∧
      (s.pstate n = psRunning → ∃ t, exec (.pumpDis p .host) s = .next t ∧ t.pstate n = psStopping ∧ t.get (F.PUMP_ST_APPLIED n) = 0 ∧
        (∀ m, m < 3 → m ≠ n → t.pstate m = s.pstate m) ∧ t.rd (Hdr.OWNER P.PUMP) = reqIdent .host)) ∧
    ((s.powerAbsent = true ∨ 10000 < rpm.toNat ∨ 1500 < ma.toNat) → exec (.pumpStartOk p rpm ma) s = .next s ∧ exec (.pumpCheck p rpm ma) s = .next s) ∧
    (s.powerAbsent = false → rpm.toNat ≤ 10000 → ma.toNat ≤ 1500 →
      (s.pstate n = psStarting → 750 ≤ rpm.toNat → s.pumpForced n = false → s.tableMode = false →
        ∃ t, exec (.pumpStartOk p rpm ma) s = .next t ∧ t.pstate n = psRunning ∧ t.get (F.PUMP_ST_APPLIED n) = s.get (F.PUMP_SET_CODE n) ∧
          t.get ⟨Reg.PUMP_TACH n, 0, 16⟩ = rpm.toNat ∧ t.flag ⟨Reg.PUMP_STATUS, n, 1⟩ = true ∧
          onlyRegs [Reg.PUMP_ST n, Reg.PUMP_TACH n, Reg.PUMP_MEAS n, Reg.PUMP_STATUS, Reg.PUMP_HOURS n, Reg.GLADE_INPUT_VALID] s t ∧
          t = { s with regs := t.regs, fluid := t.fluid }) ∧
      (s.pstate n = psStarting → rpm.toNat < 750 → ∃ t, exec (.pumpStartTimeout p rpm ma) s = .next t ∧ moved t ∧
        (s.get (F.PUMP_ST_ATTEMPT n) < 3 → t.pstate n = psRetry ∧ t.get (F.PUMP_ST_ATTEMPT n) = s.get (F.PUMP_ST_ATTEMPT n) + 1 ∧
          t.summary P.PUMP B.PUMP_PUMP_START_RETRY = true) ∧
        (s.get (F.PUMP_ST_ATTEMPT n) = 3 → t.pstate n = psFailed ∧ t.summary P.PUMP B.PUMP_PUMP_START_FAIL = true ∧
          (t.rd (Hdr.ERR_COUNT P.PUMP)).toNat = min ((s.rd (Hdr.ERR_COUNT P.PUMP)).toNat + 1) 0xFFFFFFFF)) ∧
      (s.pstate n = psRunning → s.pumpLow n rpm.toNat = true →
        (s.get F.PUMP_LIMITS_I_MIN * 10 ≤ ma.toNat → ma.toNat ≤ s.get F.PUMP_LIMITS_I_MAX * 10 → s.flag (F.PUMP_ST_TACH_LOST n) = false →
          ∃ t, exec (.pumpCheck p rpm ma) s = .next t ∧ t.pstate n = psRunning ∧ t.flag (F.PUMP_ST_TACH_LOST n) = true ∧
            t.summary P.PUMP B.PUMP_TACH_LOST = true ∧ t = { s with regs := t.regs, evt := t.evt, glade := t.glade }) ∧
        (s.get F.PUMP_LIMITS_I_MAX * 10 < ma.toNat → ∃ t, exec (.pumpCheck p rpm ma) s = .next t ∧ t.pstate n = psFailed ∧
          t.summary P.PUMP B.PUMP_PUMP_FAILED = true ∧ (∀ m, m < 3 → m ≠ n → s.pstate m = psRunning → t.get (F.PUMP_ST_APPLIED m) = 0xFF) ∧ moved t)) ∧
      (s.pstate n = psStopping → s.flag (F.PUMP_ST_PENDING_EN n) = false → ∃ t, exec (.pumpStopDone p rpm ma) s = .next t ∧ t.pstate n = psOff ∧
        t.get (F.PUMP_ST_APPLIED n) = 0 ∧ t = { s with regs := t.regs }) ∧
      (s.pstate n = psStopping → s.flag (F.PUMP_ST_PENDING_EN n) = true → s.leakLatched = false → ∃ t, exec (.pumpStopDone p rpm ma) s = .next t ∧
        t.pstate n = psStarting ∧ t.flag (F.PUMP_ST_PENDING_EN n) = false)) ∧
    (s.pstate n = psRetry → ∃ t, exec (.pumpRetry p) s = .next t ∧ t.pstate n = psStarting ∧ t.rd (Reg.PUMP_STARTS n) = s.rd (Reg.PUMP_STARTS n) + 1 ∧
      t = { s with regs := t.regs }) ∧
    (s.pstate n ≠ psRetry → exec (.pumpRetry p) s = .next s)

/-- R308 to R312, R320. -/
def Obligations.ZoneValvesAndBanks : Prop :=
  ∀ (s : State) (f : Fin 24) (b : Fin 7) (data : Word) (ma : BitVec 12), let v := f.val
    let h := bitsOf data 0 8
    let moved := fun (t : State) => t = { s with regs := t.regs, evt := t.evt, glade := t.glade, fluid := t.fluid }
    (240 < h → exec (.valveSet f ⟨.host, data, 15⟩) s = .next (s.refuse .host (Reg.VALVE_SET v) causeRight)) ∧
    (h ≤ 240 → h ≠ 0 → s.leakLatched = false → s.absent P.VALVE = false → s.fn P.VALVE = fnReady → s.tableMode = false → s.fluid.released = false →
      s.powerAbsent = false → s.bankOpen (v / 4) = false → s.vstate v = vsOff → ∃ t, exec (.valveSet f ⟨.host, data, 15⟩) s = .next t ∧
        t.get (F.VALVE_SET_HOLD v) = h ∧ t.vstate v = vsWait ∧ t.fluid.waiting = s.fluid.waiting.filter (· ≠ v) ++ [v] ∧
        (∀ u, u < 24 → u ≠ v → t.vstate u = s.vstate u) ∧ t.rd (Hdr.OWNER P.VALVE) = reqIdent .host) ∧
    ((s.valveNext v = false ∨ 1200 < s.otherHolds v) → exec (.valvePeakStart f) s = .next s) ∧
    ((s.valveNext v = false ∨ s.otherHolds v ≤ 1200) → exec (.valveStartLate f) s = .next s) ∧
    (s.valveNext v = true → s.otherHolds v ≤ 1200 → ∃ t, exec (.valvePeakStart f) s = .next t ∧ t.vstate v = vsPeak ∧ t.valve v = { ma := 2000 } ∧
      t.flag (F.VALVE_ST_LATE v) = false ∧ t.fluid.waiting = s.fluid.waiting.filter (· ≠ v) ∧ moved t) ∧
    (s.valveNext v = true → 1200 < s.otherHolds v → ∃ t, exec (.valveStartLate f) s = .next t ∧ t.vstate v = vsPeak ∧
      t.valve v = { ma := 3200 - s.otherHolds v } ∧ t.flag (F.VALVE_ST_LATE v) = true ∧ t.summary P.VALVE B.VALVE_VALVE_START_LATE = true ∧
      (t.rd Reg.VALVE_LATE_COUNT).toNat = min ((s.rd Reg.VALVE_LATE_COUNT).toNat + 1) 0xFFFFFFFF ∧ moved t) ∧
    (s.vstate v ≠ vsPeak → exec (.valvePeakEnd f) s = .next s) ∧ (s.vstate v ≠ vsDecay → exec (.valveDecayEnd f) s = .next s) ∧
    (s.vstate v = vsPeak → ∃ t, exec (.valvePeakEnd f) s = .next t ∧ t.vstate v = vsHold ∧ t.valve v = { hold := s.valveTarget v } ∧
      ((∀ u ∈ bankValves (v / 4), u ≠ v → s.vstate u ≠ vsHold ∧ s.vstate u ≠ vsDecay) → t.get (F.VALVE_ST_APPLIED v) = s.valveTarget v) ∧ moved t) ∧
    (s.vstate v = vsDecay → ∃ t, exec (.valveDecayEnd f) s = .next t ∧ t.valve v = {} ∧ t.flag (F.VALVE_ST_PENDING v) = false ∧
      t.vstate v = (if s.flag (F.VALVE_ST_PENDING v) then vsWait else vsOff) ∧ moved t) ∧
    ((ma.toNat ≤ 3500 ∨ s.bankOpen b.val = true ∨ s.powerAbsent = true) → exec (.bankFault b ma) s = .next s) ∧
    (3500 < ma.toNat → s.bankOpen b.val = false → s.powerAbsent = false → ∃ t, exec (.bankFault b ma) s = .next t ∧ t.bankOpen b.val = true ∧
      (∀ u ∈ bankValves b.val, t.vstate u = vsOff) ∧ t.summary P.VALVE B.VALVE_BANK_FAULT = true ∧ aget none t.fluid.tripAt b.val = some s.now ∧
      (aget none s.fluid.tripAt b.val = none → t.fluid.reclosing = b.val :: s.fluid.reclosing) ∧ moved t) ∧
    (s.fluid.reclosing.contains b.val = false → exec (.bankReclose b) s = .next s) ∧
    (s.fluid.reclosing.contains b.val = true → ∃ t, exec (.bankReclose b) s = .next t ∧ t.bankOpen b.val = false ∧
      t.fluid.reclosing = s.fluid.reclosing.filter (· ≠ b.val) ∧
      (∀ u ∈ bankValves b.val, s.vstate u = vsOff → s.valveTarget u ≠ 0 → t.vstate u = vsWait) ∧ moved t) ∧
    (let d := if ma.toNat < s.coilMa v then s.coilMa v - ma.toNat else ma.toNat - s.coilMa v;
      ((s.vstate v ≠ vsHold ∨ 5 * d ≤ s.coilMa v) → exec (.coilFault f ma) s = .next s) ∧
      (s.vstate v = vsHold → s.coilMa v < 5 * d → ∃ t, exec (.coilFault f ma) s = .next t ∧ t.get (F.VALVE_ST_I_MEAS v) = ma.toNat ∧
        t.flag (F.VALVE_ST_COIL_FAULT v) = true ∧ (s.flag (F.VALVE_ST_COIL_FAULT v) = false → t.summary P.VALVE B.VALVE_COIL_FAULT = true) ∧
        onlyRegsEvt [Reg.VALVE_ST v, Hdr.EVT_SUMMARY P.VALVE] s t ∧ t = { s with regs := t.regs, evt := t.evt, glade := t.glade }))

/-- R313 to R316, Table 13.6. -/
def Obligations.IsolationValvesAndTheLeakSequence : Prop :=
  ∀ s : State,
    (∀ e ∈ ([(.openIn, 0, false), (.closeIn, 0, true), (.openOut, 1, false), (.closeOut, 1, true)] : List ((Req → Instr) × Nat × Bool)),
      exec (e.1 .host) s = .next (s.refuse .host Reg.VALVE_ISO_CMD causeRight) ∧
      (s.leakLatched = false → s.absent P.VALVE = false → s.bankOpen 6 = false → s.powerAbsent = false → s.fluid.iso = none → s.fluid.isoQ = [] →
        ∃ t, exec (e.1 .glade) s = .next t ∧ t.fluid = { s.fluid with iso := some e.2 } ∧ t.get (isoPos e.2.1) = 3 ∧
          t.rd (Hdr.OWNER P.VALVE) = reqIdent .glade ∧ onlyRegsWrite [Reg.VALVE_ISO_STATE, Reg.VALVE_BANK_I 6, Hdr.OWNER P.VALVE] s t)) ∧
    (s.fluid.iso = none → exec .isoMoved s = .next s) ∧
    (∀ i close, s.fluid.iso = some (i, close) → s.fluid.isoQ = [] → ∃ t, exec .isoMoved s = .next t ∧ t.fluid = { s.fluid with iso := none } ∧
      t.get (isoPos i) = (if close then 2 else 1) ∧ t.summary P.VALVE B.VALVE_ISO_MOVED = true ∧
      t = { s with regs := t.regs, evt := t.evt, glade := t.glade, fluid := t.fluid }) ∧
    (s.mod.sbGood = false → ∀ a b c d, exec (.leakSample a b c d) s = .next s) ∧
    (∀ r : Int, s.mod.sbGood = true → s.leakLatched = false → (aget {} s.coolant.leaks 0).wet = 2 → (∀ k, 1 ≤ k → k ≤ 3 → (aget {} s.coolant.leaks k).wet = 0) →
      s.flag ⟨Reg.COOLANT_LEAK_INFO, 4, 1⟩ = false → 0 ≤ r → r < (bitsOf (s.rd Reg.COOLANT_LEAK_THRESH) 0 16 : Nat) → r ≤ 8000 → s.armed = false →
      ∃ t, exec (.leakSample (some r) none none none) s = .next t ∧ t.leakLatched = true ∧ t.get F.COOLANT_LEAK_INFO_WET = 1 ∧
        t.flag F.COOLANT_LEAK_INFO_CYCLED = false ∧ t.rd64 Reg.COOLANT_LEAK_T0_LO = s.ftime ∧
        (t.rd Reg.COOLANT_LEAK_COUNT).toNat = min ((s.rd Reg.COOLANT_LEAK_COUNT).toNat + 1) 0xFFFFFFFF ∧ t.summary P.COOLANT B.COOLANT_LEAK = true ∧
        (s.powerAbsent = false → t.mod.mstate = .leak) ∧ (s.powerAbsent = true → t.mod = { s.mod with leakL := true })) ∧
    ((s.leakLatched = false ∨ s.powerAbsent = true) → ∀ c ∈ [Instr.leakPumpsOff, .leakCloseV24, .leakCloseV25], exec c s = .next s) ∧
    (s.leakLatched = true → s.powerAbsent = false →
      (∃ t, exec .leakPumpsOff s = .next t ∧ (∀ n, n < 3 → s.pstate n ≠ psFailed → t.pstate n = psOff) ∧ t.flag F.PUMP_STATUS_LEAK_OFF = true ∧
        t.fluid.iso = none ∧ t.fluid.isoQ = [] ∧ t.mod = { s.mod with leakL := true } ∧
        t = { s with regs := t.regs, evt := t.evt, glade := t.glade, fluid := t.fluid, mod := t.mod }) ∧
      (s.bankOpen 6 = false → s.fluid.iso = none → s.fluid.isoQ = [] →
        (∃ t, exec .leakCloseV24 s = .next t ∧ t.fluid.released = true ∧ t.fluid.iso = some (0, true) ∧ t.get (isoPos 0) = 3 ∧
          (∀ v, v < 24 → t.vstate v ≠ vsPeak ∧ t.vstate v ≠ vsHold) ∧ t = { s with regs := t.regs, evt := t.evt, glade := t.glade, fluid := t.fluid }) ∧
        (∃ t, exec .leakCloseV25 s = .next t ∧ t.fluid = { s.fluid with iso := some (1, true) } ∧ t.get (isoPos 1) = 3 ∧
          onlyRegs [Reg.VALVE_ISO_STATE, Reg.VALVE_BANK_I 6] s t ∧ t = { s with regs := t.regs, fluid := t.fluid })))

/-- R299, R347, R350, R351, R479. -/
def Obligations.CoolantInputsAndLossOfFlow : Prop :=
  ∀ s : State,
    (s.powerAbsent = true → ∀ o, exec (.coolantSample o) s = .next s) ∧
    (∀ r : Int, s.powerAbsent = false → s.rd Reg.GLADE_INPUT_VALID = 0 → s.armed = false → 0 ≤ r → r ≤ 10000 →
      ∃ t, exec (.coolantSample ⟨some r, none, none, none, none, none, none⟩) s = .next t ∧ t.inputValid 0 = true ∧
        t.get ⟨Reg.COOLANT_FLOW, 0, 16⟩ = r.toNat ∧ t.flag F.COOLANT_STATUS_FLOW_VALID = true ∧ (t.input 0).hist = [r, r, r] ∧ t.mem = s.mem) ∧
    (∀ n, s.powerAbsent = false → s.armed = false → s.mod.mstate ≠ .bringup → s.flag F.GLADE_STATUS_FLOW_STOP = false → s.inputValid 0 = true →
      s.medFlow * 10 < s.nomFlow → s.coolant.sinceFlow = some n → n < 1000 →
      ∃ t, exec (.coolantSample ⟨none, none, none, none, none, none, none⟩) s = .next t ∧ t.flag F.GLADE_STATUS_FLOW_STOP = true ∧
        t.get F.GLADE_FLOW_STOP_INFO_RULE = 0 ∧ t.flag F.THERM_STATUS_RUN_OK = false ∧ t.summary P.GLADE B.GLADE_FLOW_STOP = true ∧
        t.mod.fsHold = true ∧ t.mem = s.mem) ∧
    (∀ i : GladeInput, (s.mod.sbGood = false ∨ s.flag ⟨Reg.GLADE_INPUT_VALID, gladeInputBit i, 1⟩ = false) → exec (.inputTimeout i) s = .next s) ∧
    (∀ i : GladeInput, s.mod.sbGood = true → s.flag ⟨Reg.GLADE_INPUT_VALID, gladeInputBit i, 1⟩ = true → s.tableMode = false →
      ∃ t, exec (.inputTimeout i) s = .next t ∧ t.flag ⟨Reg.GLADE_INPUT_VALID, gladeInputBit i, 1⟩ = false ∧
        (t.rd Reg.GLADE_TIMEOUTS).toNat = min ((s.rd Reg.GLADE_TIMEOUTS).toNat + 1) 0xFFFFFFFF ∧
        (t.rd (Hdr.ERR_COUNT P.GLADE)).toNat = min ((s.rd (Hdr.ERR_COUNT P.GLADE)).toNat + 1) 0xFFFFFFFF ∧
        t.summary P.GLADE B.GLADE_INPUT_TIMEOUT = true ∧
        (i = .flow → t.flag F.COOLANT_STATUS_FLOW_VALID = false ∧ t.summary P.COOLANT B.COOLANT_COOLANT_SENSOR_INVALID = true) ∧
        t = { s with regs := t.regs, evt := t.evt, glade := t.glade, coolant := t.coolant }) ∧
    (s.flag F.GLADE_STATUS_FLOW_STOP = false → exec .flowStopClear s = .next s) ∧
    (s.inputValid 0 = false → exec .flowStopClear s = .next s) ∧
    (s.flag F.GLADE_STATUS_FLOW_STOP = true → s.powerAbsent = false → s.inputValid 0 = true → s.nomFlow * 4 ≤ s.medFlow * 10 →
      s.get F.GLADE_FLOW_STOP_INFO_RULE ≠ 2 →
      (s.mod.fsHold = false → ∃ t, exec .flowStopClear s = .next t ∧ t.flag F.GLADE_STATUS_FLOW_STOP = false ∧
        onlyRegs [Reg.GLADE_STATUS] s t ∧ t = { s with regs := t.regs, boot := t.boot }) ∧
      (s.mod.fsHold = true → s.flag F.MODULE_MSTATE_HOLD = false → s.mod.byCommand = false → ∃ t, exec .flowStopClear s = .next t ∧
        t.flag F.GLADE_STATUS_FLOW_STOP = false ∧ t.mod.target = some .idle ∧ t.mod.fsHold = false ∧ t.mem = s.mem))

/-- R325 to R332, R340, R348. -/
def Obligations.PowerSamplesAndTheGovernorRun : Prop :=
  ∀ s : State,
    (s.powerAbsent = true → exec .governorRun s = .next s ∧ (∀ v i, exec (.powerSample v i) s = .next s)) ∧
    (∀ v i : Nat, s.powerAbsent = false → s.rd Reg.GLADE_INPUT_VALID = 0 → s.therm.overX = 0 → v ≤ 7000 → i ≤ 8000 →
      ∃ t, exec (.powerSample (some v) (some i)) s = .next t ∧ t.therm.samples = (v * i :: s.therm.samples).take 10 ∧
        t.therm.energy = s.therm.energy + v * i ∧ t.rd64 Reg.TELEM_ENERGY_LO = BitVec.ofNat 64 ((s.therm.energy + v * i) / 100000000) ∧
        t.get ⟨Reg.THERM_POWER, 0, 16⟩ = (v * i + 5000) / 10000 ∧ t.inputValid 7 = true ∧ t.inputValid 8 = true ∧
        t.get ⟨Reg.GLADE_VIN_IIN, 0, 16⟩ = v ∧ t.get ⟨Reg.GLADE_VIN_IIN, 16, 16⟩ = i ∧
        onlyRegsEvt [Reg.GLADE_INPUT_VALID, Reg.GLADE_VIN_IIN, Reg.THERM_POWER, Reg.TELEM_INST_POWER, Reg.TELEM_ENERGY_LO, Reg.TELEM_ENERGY_LO + 4,
          Hdr.EVT_SUMMARY P.GLADE] s t ∧
        t = { s with regs := t.regs, evt := t.evt, glade := t.glade, therm := t.therm }) ∧
    (s.powerAbsent = false → s.rd Reg.GLADE_INPUT_VALID = 0 → s.therm.overX = 0 → ∃ t, exec (.powerSample none none) s = .next t ∧
      t.therm.samples = (10000 * s.ceiling :: s.therm.samples).take 10 ∧ t.get ⟨Reg.THERM_POWER, 0, 16⟩ = s.ceiling ∧
      t = { s with regs := t.regs, evt := t.evt, glade := t.glade, therm := t.therm }) ∧
    (s.powerAbsent = false → s.armed = false → 500 ≤ s.ceiling →
      ∃ t, exec .governorRun s = .next t ∧ 50000 ≤ t.therm.j ∧ t.therm.j ≤ 100 * s.ceiling ∧
        t.get ⟨Reg.THERM_THERMAL_CAP, 0, 16⟩ ≤ t.therm.j / 100 ∧ 500 ≤ t.get F.THERM_CAP_EFF_CAP ∧ t.get F.THERM_CAP_EFF_CAP ≤ s.ceiling ∧
        0 ≤ t.therm.acc ∧ t.therm.acc ≤ 12288 * 256 ∧ t.rd Reg.THERM_LOOP_OUT = BitVec.ofNat 32 t.therm.pace ∧
        t = { s with regs := t.regs, evt := t.evt, glade := t.glade, therm := t.therm })

/-- R322 to R342. -/
def Obligations.TemperaturesCapsFlowAndTelemetry : Prop :=
  ∀ (s : State) (data : Word),
    let c := bitsOf data 0 16
    let m := bitsOf data 0 2
    let capped := s.absent P.THERM = false ∧ 500 ≤ c ∧ c ≤ s.ceiling
    (s.powerAbsent = true → (∀ o, exec (.tempSample o) s = .next s) ∧ exec .coolingLevelFall s = .next s ∧ exec .runOkSet s = .next s ∧
      exec .telemWindowClose s = .next s) ∧
    (∀ (k : Fin 8) (v : Int), s.powerAbsent = false →
      (-2000 ≤ v → v ≤ 15000 → exec (.tempSample (.floor k (some v))) s =
        .next { s with therm := { s.therm with floorT := aset {} s.therm.floorT k.val { val := some v } } }) ∧
      (15000 < v → ∃ t, exec (.tempSample (.floor k (some v))) s = .next t ∧ (aget {} t.therm.floorT k.val).bad = true ∧
        ((aget {} s.therm.floorT k.val).bad = false → t.summary P.THERM B.THERM_SENSOR_INVALID = true) ∧
        t = { s with regs := t.regs, evt := t.evt, glade := t.glade, therm := t.therm })) ∧
    ((s.capOk data = false ∨ bitsOf (s.rd Reg.TELEM_MODE) 0 2 = 1) →
      exec (.rackCapWrite ⟨.sideband, data, 15⟩) s = .next (s.refuse .sideband Reg.THERM_RACK_CAP causeRight)) ∧
    exec (.rackCapWrite ⟨.host, data, 15⟩) s = .next (s.refuse .host Reg.THERM_RACK_CAP causeRight) ∧
    (s.capOk data = false → exec (.hostCapWrite ⟨.host, data, 15⟩) s = .next (s.refuse .host Reg.THERM_HOST_CAP causeRight)) ∧
    exec (.telemModeWrite ⟨.host, data, 15⟩) s = .next (s.refuse .host Reg.TELEM_MODE causeRight) ∧
    (capped → bitsOf (s.rd Reg.TELEM_MODE) 0 2 ≠ 1 → ∃ t, exec (.rackCapWrite ⟨.sideband, data, 15⟩) s = .next t ∧ t.therm.rack = c ∧
      t.get ⟨Reg.THERM_RACK_CAP, 0, 16⟩ = c ∧ t.get ⟨Reg.THERM_HOST_CAP_APPLIED, 0, 16⟩ = min (s.get ⟨Reg.THERM_HOST_CAP, 0, 16⟩) c ∧
      t.flag F.THERM_STATUS_RACK_DEFAULT = false ∧ t.summary P.SIDEBAND B.SIDEBAND_RACK_CAP_SET = true ∧ t.rd (Hdr.OWNER P.THERM) = reqIdent .sideband) ∧
    (capped → ∃ t, exec (.hostCapWrite ⟨.host, data, 15⟩) s = .next t ∧ t.get ⟨Reg.THERM_HOST_CAP, 0, 16⟩ = c ∧
      t.get ⟨Reg.THERM_HOST_CAP_APPLIED, 0, 16⟩ = min c s.rackInForce % 65536 ∧ t.rd (Hdr.OWNER P.THERM) = reqIdent .host ∧ t.therm.rack = s.therm.rack) ∧
    (m ≠ 3 → s.absent P.TELEM = false → s.flag F.HWOOD_PROTECT_RACK_CAP_REQUIRED = false → ∃ t, exec (.telemModeWrite ⟨.sideband, data, 15⟩) s = .next t ∧
      t.get ⟨Reg.TELEM_MODE, 0, 2⟩ = m ∧ t.get ⟨Reg.THERM_RACK_CAP, 0, 16⟩ = (if m = 1 then s.ceiling else s.therm.rack) % 65536) ∧
    (s.armed = false → exec .flowEnd s = .next s) ∧
    (s.armed = true → s.inputValid 0 = true → s.flag F.THERM_STATUS_FLOW_LOW = true → s.flag F.THERM_STATUS_END_REQUESTED = false →
      ∃ t, exec .flowEnd s = .next t ∧ t.flag F.THERM_STATUS_END_REQUESTED = true ∧ t.stand.endReq = true ∧
        t.flag F.STAND_STATUS_END_PENDING = true ∧ t.summary P.THERM B.THERM_FLOW_END = true ∧
        t = { s with regs := t.regs, evt := t.evt, glade := t.glade, stand := t.stand }) ∧
    (s.inputValid 0 = true → 11 * (bitsOf (s.rd Reg.THERM_RUN_MIN) 0 16 : Int) ≤ 10 * s.inputY 0 → s.flag F.GLADE_STATUS_FLOW_STOP = false →
      s.powerAbsent = false → exec .runOkSet s = .next (s.putB F.THERM_STATUS_RUN_OK true)) ∧
    (s.get F.THERM_DEGRADED_LEVEL = 0 → exec .coolingLevelFall s = .next s) ∧
    (s.coolLevel < s.get F.THERM_DEGRADED_LEVEL → s.powerAbsent = false → ∃ t, exec .coolingLevelFall s = .next t ∧
      t.get F.THERM_DEGRADED_LEVEL = s.get F.THERM_DEGRADED_LEVEL - 1 ∧ t.summary P.THERM B.THERM_COOLING_DEGRADED = true ∧
      onlyRegsEvt [F.THERM_DEGRADED_LEVEL.off, Hdr.EVT_SUMMARY P.THERM] s t ∧ t = { s with regs := t.regs, evt := t.evt, glade := t.glade }) ∧
    (s.powerAbsent = false → ∃ t, exec .telemWindowClose s = .next t ∧ t.rd Reg.TELEM_WIN_SEQ = s.rd Reg.TELEM_WIN_SEQ + 1 ∧
      t.rd Reg.TELEM_AVG_POWER = BitVec.ofNat 32 (int16 (meanOf s.therm.win.pSum (s.therm.win.pN * 10000))) ∧
      t.therm = { s.therm with win := { cap := s.get F.THERM_CAP_EFF_CAP } } ∧
      onlyRegs [Reg.TELEM_WIN_SEQ, Reg.TELEM_AVG_POWER, Reg.TELEM_PEAK_POWER, Reg.TELEM_TEMP_WIN, Reg.TELEM_FLOW_WIN, Reg.TELEM_CAP_WIN] s t ∧
      t = { s with regs := t.regs, therm := t.therm })

/-- R345, R346, R352, R353, R356. -/
def Obligations.GladeOscillatorTableModeTripAndIslandLog : Prop :=
  ∀ (s : State) (ppm groves : BitVec 16),
    ((s.mod.sbGood = false ∨ s.clk.pllUp = false) → exec (.oscMeasure ppm) s = .next s) ∧
    (s.mod.sbGood = true → s.clk.pllUp = true → ∃ t, exec (.oscMeasure ppm) s = .next t ∧ t.get ⟨Reg.GLADE_OSC_PPM, 0, 16⟩ = ppm.toNat ∧
      t.glade.oscBad = (decide (15000 < ppm.toInt) || decide (ppm.toInt < -15000)) ∧
      (t.glade.oscBad = true → s.glade.oscBad = false → t.summary P.GLADE B.GLADE_OSC_RANGE = true) ∧
      onlyRegsEvt [Reg.GLADE_OSC_PPM, Hdr.EVT_SUMMARY P.GLADE] s t ∧ t = { s with regs := t.regs, evt := t.evt, glade := t.glade }) ∧
    ((s.holderWatched = false ∨ s.holder ≠ 0) → exec .noHolderTimeout s = .next s) ∧
    (s.holderWatched = true → s.holder = 0 → s.tableMode = false → s.mod.sbGood = true → ∃ t, exec .noHolderTimeout s = .next t ∧ t.tableMode = true ∧
      t.flag F.PUMP_STATUS_TABLE_MODE = true ∧ t.flag F.VALVE_STATUS_TABLE_MODE = true ∧ t.glade.noHolder = true ∧ t.glade.tmStart = s.now ∧
      t.summary P.GLADE B.GLADE_TABLE_ENTER = true ∧
      t = { s with regs := t.regs, evt := t.evt, glade := t.glade, fluid := t.fluid }) ∧
    ((s.tableMode = false ∨ s.tmWanted = true) → exec .tableModeExit s = .next s) ∧
    (s.tableMode = true → s.tmWanted = false → ∃ t, exec .tableModeExit s = .next t ∧ t.tableMode = false ∧
      t.flag F.PUMP_STATUS_TABLE_MODE = false ∧ t.flag F.VALVE_STATUS_TABLE_MODE = false ∧ t.summary P.GLADE B.GLADE_TABLE_EXIT = true ∧
      t = { s with regs := t.regs, evt := t.evt, glade := t.glade, fluid := t.fluid }) ∧
    ((s.mod.sbGood = false ∨ groves = 0) → exec (.analogTrip groves) s = .next s) ∧
    (s.mod.sbGood = true → groves ≠ 0 → ∃ t, exec (.analogTrip groves) s = .next t ∧ t.mod.mstate = .tripped ∧ t.mod.power = .standby ∧
      t.mod.shdnL = true ∧ t.flag F.GLADE_STATUS_SHDN = true ∧ t.flag F.GLADE_TRIP_LATCHED = true ∧
      (s.flag F.GLADE_TRIP_LATCHED = false → t.get F.GLADE_TRIP_GROVES = groves.toNat) ∧
      (s.mod.power ≠ .standby → t.mem = [] ∧ t.stand = {} ∧ t.image = none ∧ t.mod.v48 = false)) ∧
    ((s.mod.sbGood = false ∨ s.mod.pwrOk = true) → exec .shdnRelease s = .next s) ∧
    (s.mod.sbGood = true → s.mod.pwrOk = false → ∃ t, exec .shdnRelease s = .next t ∧ t.mod = { s.mod with offLong := true, shdnL := false } ∧
      t.flag F.GLADE_STATUS_SHDN = false ∧ t.flag F.GLADE_TRIP_LATCHED = false ∧ onlyRegs [Reg.GLADE_STATUS, F.GLADE_TRIP_LATCHED.off] s t ∧
      t = { s with regs := t.regs, mod := t.mod }) ∧
    ((s.powerAbsent = true ∨ s.evt.building = true) → exec .islandLogForward s = .next s) ∧
    (∀ e, s.powerAbsent = false → s.evt.building = false → s.glade.island = [e] → s.evt.queue = [] → s.flag F.GLADE_ISLAND_LOG_OVERFLOW = false →
      ∃ t q, exec .islandLogForward s = .next t ∧ t.evt.queue = [q] ∧ q.stamp = s.ftime ∧ q.code = e.code ∧ q.sev = e.sev ∧ q.page = e.page ∧
        q.data1 = BitVec.ofNat 32 e.ms ∧ q.island = true ∧ t.glade.island = [] ∧ t.rd Reg.GLADE_ISLAND_LOG = 0 ∧
        t = { s with regs := t.regs, evt := t.evt, glade := t.glade })

/-- R359 to R366. -/
def Obligations.TheControlTokenIsClaimedReleasedAndKeptAlive : Prop :=
  ∀ (s : State) (c : Fin 2), let k := c.val
    let other := 1 - k
    let me := coreReq k
    ((s.core k).inReset = true → exec (.claim c me false) s = .next s ∧ exec (.release c me) s = .next s ∧
      exec (.heartbeat c me) s = .next s ∧ exec (.resumed c me) s = .next s) ∧
    (exec (.claim c .host false) s = .next (s.refuse .host (Reg.CANOPY_TOKEN_CTL k) causeRight)) ∧
    ((s.core k).inReset = false → s.holder = other + 1 → s.hbAge other < 5000 →
      exec (.claim c me false) s = .next (s.refuse me (Reg.CANOPY_TOKEN_CTL k) causeRight)) ∧
    ((s.core k).inReset = false → s.holder ≠ k + 1 → exec (.release c me) s = .next (s.refuse me (Reg.CANOPY_TOKEN_CTL k) causeRight)) ∧
    ((s.core k).inReset = false → s.absent (P.CANOPY k) = false →
      (s.holder = 0 → ∃ t, exec (.claim c me false) s = .next t ∧ t.holder = k + 1 ∧ t.get (F.CANOPY_SWITCH_INFO_CAUSE k) = s.canopy.vacancy % 8 ∧
        t.canopy.vacancy = swVacant ∧ (t.core k).hb = { base := s.now } ∧ t.get F.ARB_TOKEN_TRANSFERS = (s.get F.ARB_TOKEN_TRANSFERS + 1) % 65536 ∧
        t.flag (F.CANOPY_STATUS_HOLDER k) = true ∧ t.flag (F.CANOPY_STATUS_IN_CONTROL k) = false ∧ t.glade.noHolder = false ∧
        onlyRegsWrite [Reg.ARB_TOKEN] s t ∧ t = { s with regs := t.regs, evt := t.evt, glade := t.glade, canopy := t.canopy }) ∧
      (s.holder = other + 1 → 5000 ≤ s.hbAge other → ∃ t, exec (.claim c me false) s = .next t ∧ t.holder = k + 1 ∧
        t.get (F.CANOPY_SWITCH_INFO_CAUSE k) = swSeizure ∧ t.canopy.former.map (·.val) = some other ∧
        t.flag (F.CANOPY_STATUS_OVERLAP 0) = true ∧ t.flag (F.CANOPY_STATUS_OVERLAP 1) = true ∧ t.summary (P.CANOPY k) B.CANOPY_SEIZED = true ∧
        t = { s with regs := t.regs, evt := t.evt, glade := t.glade, canopy := t.canopy }) ∧
      (s.holder = k + 1 →
        (∃ t, exec (.release c me) s = .next t ∧ t.holder = 0 ∧ t.canopy.vacancy = swSelf ∧ t.canopy.gapStart = s.now ∧
          t.summary (P.CANOPY k) B.CANOPY_TOKEN_RELEASED = true ∧ t = { s with regs := t.regs, evt := t.evt, glade := t.glade, canopy := t.canopy }) ∧
        (∃ t, exec (.heartbeat c me) s = .next t ∧ t.holder = k + 1 ∧ (t.core k).hb = { base := s.now } ∧
          t.flag (F.CANOPY_STATUS_SEIZE_OK other) = false ∧ onlyRegsWrite [] s t) ∧
        (s.flag (F.CANOPY_STATUS_IN_CONTROL k) = false → ∃ t, exec (.resumed c me) s = .next t ∧ t.flag (F.CANOPY_STATUS_IN_CONTROL k) = true ∧
          (swSelf ≤ s.get (F.CANOPY_SWITCH_INFO_CAUSE k) → t.summary (P.CANOPY k) B.CANOPY_SWITCHOVER = true) ∧ onlyRegsWrite [] s t))) ∧
    (s.holder = 0 → exec .seizeOk s = .next s) ∧
    (s.holder = k + 1 → ∃ t, exec .seizeOk s = .next t ∧ t.flag (F.CANOPY_STATUS_SEIZE_OK other) = true ∧ t.holder = k + 1 ∧ t.canopy.gapStart = s.now ∧
      onlyRegs [(F.CANOPY_STATUS_SEIZE_OK other).off] s t ∧ t = { s with regs := t.regs, canopy := t.canopy })

/-- R361 to R371. -/
def Obligations.CoresFailRestartAndRebuild : Prop :=
  ∀ (s : State) (c : Fin 2) (fails : BitVec 4) (corr : BitVec 17) (version : Word) (fw : FwObs), let k := c.val
    let x := s.core k
    let held := fun (t : State) (j : Nat) => (t.core j).inReset = true ∧ t.fnReg (P.CANOPY j) = fnStarting ∧
      t.rd (Reg.CANOPY_RESTARTS j) = s.rd (Reg.CANOPY_RESTARTS j) + 1 ∧ t.flag (F.CANOPY_SNOOP_SHADOW_VALID j) = false
    (s.coreRuns k = false → exec (.watchdogService c) s = .next s ∧ exec (.watchdogExpire c) s = .next s ∧
      exec (.selfDiag c fails corr) s = .next s ∧ exec (.shadowRebuildDone c) s = .next s) ∧
    (s.coreRuns k = true →
      exec (.watchdogService c) s = .next (s.setCore k { x with wdServed := s.now }) ∧
      (s.canopy.former = none → ∃ t, exec (.watchdogExpire c) s = .next t ∧ held t k ∧ (t.core k).wdog = true ∧
        t.holder = (if s.holder = k + 1 then 0 else s.holder) ∧ t = { s with regs := t.regs, glade := t.glade, canopy := t.canopy }) ∧
      (∃ t, exec (.selfDiag c 0 corr) s = .next t ∧ t.rd (Reg.CANOPY_DIAG_RUNS k) = s.rd (Reg.CANOPY_DIAG_RUNS k) + 1 ∧
        t.get ⟨Reg.CANOPY_DIAG k, 0, 4⟩ = 0 ∧ (t.rd (Reg.CANOPY_SRAM_CORR k)).toNat = min ((s.rd (Reg.CANOPY_SRAM_CORR k)).toNat + corr.toNat) 0xFFFFFFFF ∧
        onlyRegs [Reg.CANOPY_DIAG_RUNS k, Reg.CANOPY_DIAG k, Reg.CANOPY_SRAM_CORR k] s t ∧ t = { s with regs := t.regs }) ∧
      (fails ≠ 0 → s.canopy.former = none → ∃ t, exec (.selfDiag c fails corr) s = .next t ∧ held t k ∧ (t.core k).diag = true ∧ (t.core k).fails = fails ∧
        t.holder = (if s.holder = k + 1 then 0 else s.holder) ∧
        (t.rd (Hdr.ERR_COUNT (P.CANOPY k))).toNat = min ((s.rd (Hdr.ERR_COUNT (P.CANOPY k))).toNat + 1) 0xFFFFFFFF) ∧
      (s.flag (F.CANOPY_SNOOP_SHADOW_VALID k) = true → exec (.shadowRebuildDone c) s = .next s) ∧
      (s.flag (F.CANOPY_SNOOP_SHADOW_VALID k) = false → ∃ t, exec (.shadowRebuildDone c) s = .next t ∧
        t.flag (F.CANOPY_SNOOP_SHADOW_VALID k) = true ∧ t.flag (F.CANOPY_SNOOP_OVERFLOW k) = false ∧
        (t.core k).shadow.map (·.1) = t.regs.map (·.1) ∧ t = { s with regs := t.regs, canopy := t.canopy })) ∧
    (s.holder = 0 → exec .tokenRevoke s = .next s) ∧
    (s.holder = k + 1 → ∃ t, exec .tokenRevoke s = .next t ∧ t.holder = 0 ∧ held t k ∧ t.canopy.vacancy = swRevoked ∧ t.canopy.former = none ∧
      t.get (F.CANOPY_SWITCH_INFO_CAUSE k) = swRevoked ∧ t.summary (P.CANOPY k) B.CANOPY_REVOKED = true ∧
      t = { s with regs := t.regs, evt := t.evt, glade := t.glade, canopy := t.canopy }) ∧
    (s.canopy.former = none → exec .overlapEnd s = .next s) ∧
    (s.canopy.former = some c → s.canopy.since = [] → ∃ t, exec .overlapEnd s = .next t ∧ held t k ∧ t.canopy.former = none ∧
      t.flag (F.CANOPY_STATUS_OVERLAP 0) = false ∧ t.flag (F.CANOPY_STATUS_OVERLAP 1) = false ∧ t.holder = s.holder ∧
      t = { s with regs := t.regs, canopy := t.canopy }) ∧
    (x.inReset = false → ∀ v, exec (.coreRestart c v version fails fw) s = .next s) ∧
    (x.inReset = true → s.mod.mstate ≠ .bringup →
      (s.thirdRestart k = false → ∃ t, exec (.coreRestart c true version 0 fw) s = .next t ∧ t.fnReg (P.CANOPY k) = fnReady ∧
        t.core k = { x with inReset := false, wdServed := s.now, snoop := [], shadow := [] } ∧ t.rd (Reg.CANOPY_FW_VER k) = version ∧
        t.rd (Reg.CANOPY_DIAG_RUNS k) = 1 ∧ t.flag (F.CANOPY_SNOOP_SHADOW_VALID k) = false ∧ t = { s with regs := t.regs, canopy := t.canopy }) ∧
      (∃ t, exec (.coreRestart c false version fails fw) s = .next t ∧ t.fnReg (P.CANOPY k) = fnFault ∧ (t.core k).inReset = false ∧
        t.summary (P.CANOPY k) B.CANOPY_CORE_FAILED = true ∧ t = { s with regs := t.regs, evt := t.evt, glade := t.glade, canopy := t.canopy, dwood := t.dwood }))

/-- R15, R344, R356, R376, R463, R470. -/
def Obligations.StandbyRailAndFortyEightVolts : Prop :=
  ∀ (s : State) (trip : BitVec 2) (slot : BitVec 6) (mode : BitVec 2) (hot : BitVec 16),
    (s.mod.sbGood = true → exec (.standbyRailGood trip) s = .next s) ∧
    (s.mod.sbGood = false → ∃ t, exec (.standbyRailGood trip) s = .next t ∧ t.mod.sbGood = true ∧ t.mod.tripSel = trip ∧ t.mod.mstate = s.mod.mstate ∧
      t.get F.GLADE_TRIP_STRAP = trip.toNat ∧ t.get F.MODULE_STRAPS_TRIP_SEL = trip.toNat ∧ t.mem = s.mem) ∧
    (s.mod.sbGood = false → exec .standbyRailLost s = .next s) ∧
    (s.mod.sbGood = true → ∃ t, exec .standbyRailLost s = .next t ∧ t.glade = {} ∧ t.coolant = {} ∧ (s.mod.v48 = true → t.mem = []) ∧
      (s.mod.v48 = false → t.mem = s.mem ∧ t.dwood = s.dwood) ∧
      t.mod = { mstate := if s.leakLatched && decide (s.mod.mstate = .leak) then .leak else .standby }) ∧
    ((s.mod.sbGood = false ∨ s.mod.pwrOk = true) → exec (.pwrOkAssert slot mode hot) s = .next s) ∧
    (s.mod.sbGood = true → s.mod.pwrOk = false →
      (hot ≠ 0 → s.powerAbsent = true → s.flag F.GLADE_TRIP_LATCHED = false → ∃ t, exec (.pwrOkAssert slot mode hot) s = .next t ∧
        t.mod.mstate = .tripped ∧ t.mod.shdnL = true ∧ t.mod.staggering = false ∧ t.mod.pwrOk = true ∧ t.flag F.GLADE_TRIP_LATCHED = true ∧
        t.get F.GLADE_TRIP_GROVES = hot.toNat ∧ t.get F.MODULE_MSTATE_STATE = mstateCode .tripped) ∧
      (s.mod.mstate = .standby → s.flag F.MODULE_MSTATE_BOOT_FAIL = false → s.leakLatched = false → ∃ t, exec (.pwrOkAssert slot mode 0) s = .next t ∧
        t.mod = { s.mod with pwrOk := true, offLong := false, slotId := slot, bootMode := mode, staggering := true } ∧
        t.get F.MODULE_STRAPS_SLOT_ID = slot.toNat ∧ t.get F.MODULE_STRAPS_BOOT_MODE = mode.toNat ∧ t.get F.SIDEBAND_ADDR_STATIC = 0x60 + slot.toNat % 4 ∧
        onlyRegs [F.MODULE_STRAPS_SLOT_ID.off, F.SIDEBAND_ADDR_STATIC.off] s t ∧ t = { s with regs := t.regs, mod := t.mod })) ∧
    ((s.mod.staggering = false ∨ s.mod.mstate ≠ .standby) → exec .staggerDone s = .next s) ∧
    (s.mod.staggering = true → s.mod.mstate = .standby →
      (s.leakLatched = false → ∃ t, exec .staggerDone s = .next t ∧ t.mod.mstate = .bringup ∧ t.bootStep = 2 ∧ t.mod.v48 = true ∧ t.mod.power = .hold ∧
        (t.rd Reg.MODULE_BOOT_COUNT).toNat = min ((s.rd Reg.MODULE_BOOT_COUNT).toNat + 1) 0xFFFFFFFF) ∧
      (s.leakLatched = true → ∃ t, exec .staggerDone s = .next t ∧ t.mod.mstate = .leak ∧ t.bootStep = 0 ∧ t.mod.v48 = true)) ∧
    (∀ c ∈ [Instr.pwrOkDeassert, .vinUndervolt], (s.mod.pwrOk = false → exec c s = .next s) ∧
      (s.mod.pwrOk = true → ∃ t, exec c s = .next t ∧ t.mod.pwrOk = false ∧ t.mod.staggering = false ∧ t.mod.offLong = false ∧
        (s.mod.v48 = false → t = { s with mod := t.mod }) ∧
        (s.mod.v48 = true → t.mod.v48 = false ∧ t.mod.power = .standby ∧ t.mem = [] ∧ t.stand = {} ∧ t.bootStep = 0 ∧
          t.mod.mstate = (if s.mod.mstate = .leak ∨ s.mod.mstate = .tripped then s.mod.mstate else .standby))))

/-- R377, R378, R380, R383, R385. -/
def Obligations.BringUpStepsEndAndFail : Prop :=
  ∀ (s : State) (n : BitVec 3) (obs : List KatObs) (req : Req), let k := n.toNat
    (s.mod.mstate ≠ .bringup → exec (.bootStepDone n) s = .next s ∧ exec .bootStepFail s = .next s ∧ exec (.katPassDone obs) s = .next s) ∧
    (k ≠ 1 → (k ≠ s.bootStep ∨ s.boot.held = true ∨ s.flag F.MODULE_MSTATE_WAIT = true ∨ s.stepOk k = false) → exec (.bootStepDone n) s = .next s) ∧
    (s.mod.mstate = .bringup → s.fluid.iso = none → s.fluid.isoQ = [] → ∃ t, exec (.bootStepDone 1) s = .next t ∧
      t.get ⟨Reg.MODULE_STEP_TIME 1, 0, 16⟩ = min (s.msSince s.boot.t0) 65535 ∧ onlyRegs [Reg.MODULE_STEP_TIME 1] s t ∧ t = { s with regs := t.regs }) ∧
    (s.mod.mstate = .bringup → s.bootStep = k → s.boot.again = false → s.boot.held = false → s.flag F.MODULE_MSTATE_WAIT = false → s.stepOk k = true →
      let time := fun (t : State) => t.get ⟨Reg.MODULE_STEP_TIME k, 0, 16⟩ = min (s.msSince s.boot.stepT0) 65535
      (k = 2 → s.mod.bootMode = 1 → ∃ t, exec (.bootStepDone n) s = .next t ∧ t.bootStep = 3 ∧ time t ∧ t.flag F.MODULE_MSTATE_WAIT = true ∧
        t.mod = { s.mod with power := .idle } ∧ t.host.cfgOk = true ∧ t.boot.stepT0 = s.now ∧ onlyRegs [Reg.MODULE_MSTATE, Reg.MODULE_STEP_TIME 2] s t) ∧
      (3 ≤ k → k ≤ 5 → s.holder = 0 → s.mod.bootMode ≠ 1 → ∃ t, exec (.bootStepDone n) s = .next t ∧ t.bootStep = k + 1 ∧ time t ∧
        t.boot.again = true ∧ t.boot.stepT0 = s.now ∧ t.mod.mstate = .bringup) ∧
      (k = 6 → s.leakLatched = false → ∃ t, exec (.bootStepDone n) s = .next t ∧ t.mod.mstate = .ready ∧ t.bootStep = 0 ∧ time t ∧
        t.get F.MODULE_MSTATE_STATE = mstateCode .ready ∧ t.summary P.MODULE B.MODULE_BOOT_DONE = true)) ∧
    ((s.bootStep = 0 ∨ s.bootStep = 1 ∨ s.bootStep = 5 ∨ s.bootStep = 7) → exec .bootStepFail s = .next s) ∧
    (s.mod.mstate = .bringup → s.bootStep ∈ [2, 3, 4, 6] →
      (s.boot.retried = true → ∃ t, exec .bootStepFail s = .next t ∧ t.mod.mstate = .standby ∧ t.mod.power = .standby ∧ t.mod.v48 = false ∧
        t.flag F.MODULE_MSTATE_BOOT_FAIL = true ∧ t.bootStep = 0 ∧ t.mem = []) ∧
      (s.boot.retried = false → s.bootStep ≠ 2 → s.mod.bootMode = 1 → ∃ t, exec .bootStepFail s = .next t ∧
        t.flag (F.MODULE_STEP_TIME_RETRIED s.bootStep) = true ∧ t.flag F.MODULE_MSTATE_WAIT = true ∧ t.boot.going = false)) ∧
    ((s.bootStep ≠ 6 ∨ s.boot.katLeft = []) → exec (.katPassDone obs) s = .next s) ∧
    (s.mod.mstate = .bringup → s.bootStep = 6 → s.boot.katLeft ≠ [] → s.boot.katOn = true → ∃ t, exec (.katPassDone obs) s = .next t ∧
      t.boot.katLeft = s.boot.katLeft.drop s.katGroves ∧ t.boot.katDone = decide (s.boot.katLeft.length ≤ s.katGroves) ∧
      t.boot.katOn = decide (s.katGroves < s.boot.katLeft.length)) ∧
    (req ≠ .debug → (req ≠ .host ∨ s.mod.bootMode ≠ 1 ∨ s.mod.mstate ≠ .bringup ∨ k < 3 ∨ k ≠ s.bootStep) →
      ∀ c ∈ [Instr.bootCtrlGo req n, .bootCtrlDone req n], exec c s = .next (s.refuse req Reg.MODULE_BOOT_CTRL causeRight)) ∧
    (s.absent P.MODULE = false → s.mod.bootMode = 1 → s.mod.mstate = .bringup → k = s.bootStep →
      (k = 4 ∨ k = 5 → s.boot.going = false → ∃ t, exec (.bootCtrlGo .host n) s = .next t ∧ t.boot = { s.boot with going := true } ∧
        t.get F.MODULE_BOOT_CTRL_STEP = k ∧ onlyRegsWrite [Reg.MODULE_BOOT_CTRL, Hdr.OWNER P.MODULE] s t) ∧
      (3 ≤ k → s.boot.going = false → ∃ t, exec (.bootCtrlDone .host n) s = .next t ∧ t.boot = s.boot ∧
        t.get F.MODULE_BOOT_CTRL_STEP = k ∧ onlyRegsWrite [Reg.MODULE_BOOT_CTRL, Hdr.OWNER P.MODULE] s t) ∧
      (k = 5 → s.boot.going = true → ∃ t, exec (.bootCtrlDone .host n) s = .next t ∧ t.bootStep = 6 ∧ t.flag F.MODULE_MSTATE_WAIT = true ∧
        t.boot.going = false))

/-- R390, R398 to R400. -/
def Obligations.ModuleCommandsAndDeadwood : Prop :=
  ∀ (s : State) (data : Word),
    let no := fun (c : Instr) (off : Nat) => exec c s = .next (s.refuse .host off causeRight)
    let open_ := s.mod.mstate = .ready ∨ s.mod.mstate = .service
    let i := bitsOf data 0 13
    ((s.mod.mstate ≠ .ready ∨ s.hasToken 3 0 = false) → no (.serviceReq .host) Reg.MODULE_COMMAND) ∧
    (s.mod.mstate ≠ .service → no (.restart .host) Reg.MODULE_COMMAND) ∧
    ((¬ open_ ∨ s.inHold = true) → no (.hold .host) Reg.MODULE_COMMAND) ∧
    ((¬ open_ ∨ s.inHold = false ∨ (s.mod.fsHold = true ∧ s.flag F.GLADE_STATUS_FLOW_STOP = true)) → no (.wake .host) Reg.MODULE_COMMAND) ∧
    ((s.mod.mstate ≠ .service ∨ s.dwoodToken = none) → no (.dwoodClear .host) Reg.DWOOD_CLEAR) ∧
    (s.absent P.MODULE = false →
      (s.mod.mstate = .ready → s.hasToken 3 0 = true → ∃ t, exec (.serviceReq .host) s = .next t ∧ t.mod = { s.mod with mstate := .service } ∧
        t.get F.MODULE_MSTATE_STATE = mstateCode .service ∧ t.sec.token = none ∧ t.flag F.SEC_STATUS_TOKEN_PENDING = false ∧
        t.summary P.MODULE B.MODULE_SERVICE_ENTER = true) ∧
      (s.mod.mstate = .service → ∃ t, exec (.restart .host) s = .next t ∧ t.mod.mstate = .bringup ∧ t.bootStep = 2 ∧ t.holder = 0 ∧ t.mem = [] ∧
        t.stand = {} ∧ t.mod.power = .hold) ∧
      (open_ → s.inHold = false → ∃ t, exec (.hold .host) s = .next t ∧ t.mod = { s.mod with target := some .hold, byCommand := true, svcHeld := t.mod.svcHeld } ∧
        t.mem = s.mem ∧ t.rd (Hdr.OWNER P.MODULE) = reqIdent .host) ∧
      (open_ → s.inHold = true → ¬ (s.mod.fsHold = true ∧ s.flag F.GLADE_STATUS_FLOW_STOP = true) → ∃ t, exec (.wake .host) s = .next t ∧
        t.mod = { s.mod with target := some .idle, byCommand := true, svcHeld := [], fsHold := false } ∧
        t.mem = s.mem ∧ t.rd (Hdr.OWNER P.MODULE) = reqIdent .host)) ∧
    (s.absent P.DWOOD = false →
      (∃ t, exec (.dwoodSel { req := .host, data := data, be := 15 }) s = .next t ∧ t.rd Reg.DWOOD_SEL = BitVec.ofNat 32 i ∧
        (∀ j < 4, t.rd (Reg.DWOOD_ENTRY j) = (aget 0 s.dwood i).extractLsb' (32 * j) 32) ∧ t.dwood = s.dwood ∧
        onlyRegsWrite [Reg.DWOOD_SEL, Reg.DWOOD_ENTRY 0, Reg.DWOOD_ENTRY 1, Reg.DWOOD_ENTRY 2, Reg.DWOOD_ENTRY 3, Hdr.OWNER P.DWOOD] s t) ∧
      (∀ a, s.mod.mstate = .service → s.dwoodToken = some a → a ≠ 0xFFFF → dwValid (aget 0 s.dwood a) = true → dwFactory (aget 0 s.dwood a) = false →
        ∃ t, exec (.dwoodClear .host) s = .next t ∧ t.dwood = aset 0 s.dwood a 0 ∧ t.sec.token = none ∧
          (t.rd Reg.DWOOD_CLEARED).toNat = min ((s.rd Reg.DWOOD_CLEARED).toNat + 1) 0xFFFFFFFF ∧ t.summary P.DWOOD B.DWOOD_DWOOD_CLEARED = true))

/-- R404 to R409. -/
def Obligations.ASuspendedGroupRejoinsAndResumes : Prop :=
  ∀ (s : State) (l : Fin 96) (a : ResumeAns) (r : ReleaseMsg),
    let took := fun (b : SvcBody) => { s with inbox := s.inbox.erase (l.val, b) }
    let busy := s.flag F.EVT_GROUP_STATUS_RESUME_BUSY
    let here := s.armed && s.suspended
    let sentOn := fun (t : State) (p : Nat) (b : SvcBody) => if s.linkUp p then ∃ n, t.out = .svcSend p n b :: s.out else t.out = .undelivered p b :: s.out
    (s.mod.mstate ≠ .halted → exec (.rejoin .host) s = .next (s.refuse .host Reg.EVT_GROUP_CTRL causeRight)) ∧
    (s.resumeOk = false → exec (.resume .host) s = .next (s.refuse .host Reg.EVT_GROUP_CTRL causeRight)) ∧
    (s.absent P.EVT = false →
      (s.mod.mstate = .halted → ∃ t, exec (.rejoin .host) s = .next t ∧ t.group = { s.group with rejoined := true } ∧ t.stand = s.stand ∧
        t.mod = { s.mod with target := if s.mod.power = .idle then none else some .idle, byCommand := false, fsHold := false }) ∧
      (s.resumeOk = true → 1 < s.group.members → ∃ t b, exec (.resume .host) s = .next t ∧ t.flag F.EVT_GROUP_STATUS_RESUME_BUSY = true ∧
        t.rd Reg.EVT_RESUME_INFO = 0 ∧ b.member.toNat = s.get F.STAND_MEMBERSHIP_MEMBER % 8192 ∧
        t.group = { s.group with answers := [b], reqFrom := [], release := none, parent := none })) ∧
    ((here = false ∨ s.isLead = true) → exec (.resumeReqRx l) s = .next (took .resumeReq)) ∧
    (here = true → s.isLead = false →
      (s.group.reqFrom = [] → s.linkUp l.val = true → ∃ t n rest, exec (.resumeReqRx l) s = .next t ∧
        t.group = { s.group with reqFrom := [l.val], parent := some l.val, release := none } ∧ t.out = .svcSend l.val n (.resumeAnswer s.ownAnswer) :: rest) ∧
      (s.group.reqFrom ≠ [] → l.val ∉ s.group.reqFrom → exec (.resumeReqRx l) s =
        .next { took .resumeReq with group := { s.group with reqFrom := s.group.reqFrom ++ [l.val] } })) ∧
    (here = false → exec (.resumeAnswerRx l a) s = .next (took (.resumeAnswer a)) ∧ exec (.unloadMsgRx l) s = .next (took .unload)) ∧
    (here = true → s.isLead = false → ∀ p, s.group.parent = some p → ∃ t, exec (.resumeAnswerRx l a) s = .next t ∧ sentOn t p (.resumeAnswer a) ∧
      t = { took (.resumeAnswer a) with links := t.links, out := t.out }) ∧
    (here = true → s.isLead = true → busy = true → s.group.release = none → (∀ b ∈ s.group.answers, b.member ≠ a.member) →
      (s.group.answers.length + 1 < s.group.members → exec (.resumeAnswerRx l a) s =
        .next { took (.resumeAnswer a) with group := { s.group with answers := s.group.answers ++ [a] } }) ∧
      (s.group.answers.length + 1 = s.group.members → (∀ b ∈ s.group.answers, b.ready = true) →
        (a.ready = true → ∃ t q, exec (.resumeAnswerRx l a) s = .next t ∧ t.group.release = some q ∧ q.resume = true ∧ t.regs = s.regs ∧
          q.tRel = s.ftime + BitVec.ofNat 64 (2048 * (s.dMax + 2)) ∧ q.gR = BitVec.ofNat 64 (s.gepoch + 1) ∧ a.q.toNat ≤ q.pace.toNat) ∧
        (a.ready = false → ∃ t, exec (.resumeAnswerRx l a) s = .next t ∧ t.flag F.EVT_GROUP_STATUS_RESUME_BUSY = false ∧ t.group.answers = [] ∧
          t.rd Reg.EVT_RESUME_INFO = BitVec.ofNat 32 (a.member.toNat + 8192 * a.cause.toNat)))) ∧
    ((busy = false ∨ s.group.release ≠ none) → exec .resumeTimeout s = .next s) ∧
    (busy = true → s.group.release = none → (∀ b ∈ s.group.answers, b.ready = true) →
      ∀ m < s.group.members, m < 8192 → (∀ b ∈ s.group.answers, b.member.toNat ≠ m) → (∀ i < m, ∃ b ∈ s.group.answers, b.member.toNat = i) →
        ∃ t, exec .resumeTimeout s = .next t ∧ t.flag F.EVT_GROUP_STATUS_RESUME_BUSY = false ∧ t.rd Reg.EVT_RESUME_INFO = BitVec.ofNat 32 (m + 65536) ∧
          t.group = { s.group with release := none, reqFrom := [], answers := [] }) ∧
    (r.resume = true → (here = false ∨ s.isLead = true ∨ s.group.release ≠ none ∨ s.group.reqFrom = []) → exec (.releaseRx l r) s = .next (took (.release r))) ∧
    (r.resume = true → here = true → s.isLead = false → s.group.release = none → s.group.reqFrom ≠ [] → ∃ t, exec (.releaseRx l r) s = .next t ∧
      t.group = { s.group with release := some r } ∧ t = { took (.release r) with links := t.links, out := t.out, group := t.group }) ∧
    (s.group.release = none → exec .releaseTick s = .next s) ∧
    (s.group.release = some r → (here = false ∨ r.tRel ≠ s.ftime) → exec .releaseTick s = .next s) ∧
    (s.group.release = some r → here = true → r.tRel = s.ftime → s.flag F.STAND_STATUS_UNCOMMITTED = false → s.mod.mstate = .halted → s.serving = false →
      ∃ t, exec .releaseTick s = .next t ∧ t.mod.mstate = .running ∧ t.suspended = false ∧ t.flag F.EVT_GROUP_STATUS_RESUME_BUSY = false ∧
        t.gepoch = r.gR.toNat ∧ t.stand.epochs = true ∧ t.group = { s.group with rejoined := false, reqFrom := [], answers := [], release := none }) ∧
    (here = true → ∃ t, exec (.unloadMsgRx l) s = .next t ∧ t.armed = false ∧ (s.mod.mstate = .halted → t.mod.mstate = .ready))

/-- R410 to R413. -/
def Obligations.AStandImageIsDistributedAndRepaired : Prop :=
  ∀ (s : State) (l : Fin 96) (raw : List Byte) (d : BitVec 256) (c : Chunk) (ds : List (BitVec 256)) (data : Option Chunk),
    let took := fun (b : SvcBody) => { s with inbox := s.inbox.erase (l.val, b) }
    let ld := s.group.load
    let own := s.manifestAt (s.rd64 Reg.EVT_MANIFEST_LO).toNat
    let man := manifestOf raw
    let good := match data with
      | some x => chunkOk d x
      | none => false
    (s.loadStartOk = false → exec (.loadStart .host) s = .next (s.refuse .host Reg.EVT_LOAD_CTRL causeRight)) ∧
    (s.loadStartOk = true → s.absent P.EVT = false →
      (∀ f i, s.manifestFail own (manifestOf own) = some f → manIndex (manifestOf own) s.serial = some i → ∃ t, exec (.loadStart .host) s = .next t ∧
        t.rd Reg.EVT_LOAD_STATE = 5 ∧ t.group.load = {} ∧ t.group.refused = [(i, f.reason)] ∧ t.group.listed = (manifestOf own).members.length ∧
        t.summary P.STAND B.STAND_LOAD_REFUSED = true) ∧
      (∀ i x, s.manifestFail own (manifestOf own) = none → manIndex (manifestOf own) s.serial = some i → (manifestOf own).members[i]? = some x →
        (∃ e ∈ x.chunks, s.stagedChunk e = none) → ∃ t, exec (.loadStart .host) s = .next t ∧ t.rd Reg.EVT_LOAD_STATE = 2 ∧ t.group.load.raw = own ∧
        t.group.load.lead = true ∧ t.group.load.member = i ∧ t.group.load.ended = true ∧ t.group.ready = [] ∧ t.group.refused = [] ∧
        t.group.listed = (manifestOf own).members.length)) ∧
    (ld.raw ≠ [] → exec (.manifestRx l raw) s = .next (took (.manifest raw))) ∧
    (ld.raw = [] → ∀ i, manIndex man s.serial = some i →
      let fresh : LoadSt := { man := some man, raw := raw, member := i, parent := some l.val, sent := (s.loadLinks man).filter (fun k => decide (k ≠ l.val)) }
      (s.manifestFail raw man = none → ∃ t, exec (.manifestRx l raw) s = .next t ∧ t.group = { s.group with load := fresh } ∧ t.rd Reg.EVT_LOAD_STATE = 1 ∧
        t.get F.STAND_LOAD_STATUS_RESULT = 1 ∧ t = { took (.manifest raw) with regs := t.regs, links := t.links, out := t.out, group := t.group }) ∧
      (∀ f, s.manifestFail raw man = some f → ∃ t, exec (.manifestRx l raw) s = .next t ∧ t.group = { s.group with load := { fresh with checked := true } } ∧
        t.rd Reg.STAND_LOAD_STATUS = BitVec.ofNat 32 (3 + 256 * f.reason + 65536 * f.unit) ∧ t.summary P.STAND B.STAND_LOAD_REFUSED = true)) ∧
    ((ld.man = none ∨ d ∈ ld.seen) → exec (.chunkRx l d c) s = .next (took (.chunk d c))) ∧
    (∀ m, ld.man = some m → d ∉ ld.seen → ld.endParent = false → ∃ t, exec (.chunkRx l d c) s = .next t ∧
      t.group.load = (if chunkOk d c && (manDigests m).contains d then
        { ld with seen := d :: ld.seen, held := aset none ld.held d.toNat (some c), asked := ld.asked.filter (fun x => decide (x ≠ d)) }
        else { ld with seen := d :: ld.seen }) ∧
      onlyRegs [Reg.EVT_CHUNKS_NEED, Reg.EVT_CHUNKS_HAVE, Reg.EVT_LOAD_STATE] s t) ∧
    (ld.man = none → exec (.imageEndRx l) s = .next (took .imageEnd) ∧ exec (.repairReqRx l ds) s = .next (took (.repairReq ds)) ∧ exec .repairRetry s = .next s) ∧
    (ld.man ≠ none →
      (ld.parent ≠ some l.val → ∃ t, exec (.imageEndRx l) s = .next t ∧ t.group = { s.group with load := { ld with ended := true } } ∧
        t = { took .imageEnd with links := t.links, out := t.out, group := t.group }) ∧
      (ld.parent = some l.val → ld.endParent = false → ld.checked = false → missingChunks ld ≠ [] → ld.asked = [] → ld.tries = [] →
        ∃ t, exec (.imageEndRx l) s = .next t ∧ t.rd Reg.EVT_LOAD_STATE = 2 ∧
          t.group = { s.group with load := { ld with ended := true, endParent := true, asked := (missingChunks ld).take 64, askOf := 0 } }) ∧
      (∃ t, exec (.repairReqRx l ds) s = .next t ∧ t = { took (.repairReq ds) with links := t.links, out := t.out } ∧
        (ds = [d] → s.linkUp l.val = true → ∃ n, t.out = .svcSend l.val n (.repairReply d (heldChunk ld d)) :: s.out))) ∧
    (d ∉ ld.asked → exec (.repairReplyRx l d data) s = .next (took (.repairReply d data))) ∧
    (d ∈ ld.asked → d ∈ missingChunks ld → (∃ e ∈ missingChunks ld, e ≠ d) → (∃ e ∈ ld.asked, e ≠ d) →
      ∃ t, exec (.repairReplyRx l d data) s = .next t ∧
        (good = true → heldChunk t.group.load d = data ∧ (t.rd Reg.EVT_REPAIRS).toNat = min ((s.rd Reg.EVT_REPAIRS).toNat + 1) 0xFFFFFFFF) ∧
        (good = false → t.group.load = { ld with asked := ld.asked.filter (fun x => decide (x ≠ d)), tries := aset 0 ld.tries d.toNat (ld.askOf + 1) } ∧
          t.rd Reg.EVT_REPAIRS = s.rd Reg.EVT_REPAIRS)) ∧
    (ld.man ≠ none → ld.endParent = true → ld.checked = false → ld.lead = false → missingChunks ld ≠ [] → ld.parent ≠ none →
      ∃ t, exec .repairRetry s = .next t ∧ t.group = { s.group with load := { ld with tries := [], asked := (missingChunks ld).take 64, askOf := 0 } } ∧
        t = { s with links := t.links, out := t.out, group := t.group })

/-- R154, R414, R415. -/
def Obligations.TheArmBarrierArmsOrCancels : Prop :=
  ∀ (s : State) (l : Fin 96) (m : BitVec 13) (q : BitVec 14) (reason : BitVec 8) (r : ReleaseMsg),
    let took := fun (b : SvcBody) => { s with inbox := s.inbox.erase (l.val, b) }
    let ld := s.group.load
    let gone := fun (t : State) => t.group.load = {} ∧ t.rd Reg.EVT_LOAD_STATE = 5
    let sentOn := fun (t : State) (p : Nat) (b : SvcBody) => if s.linkUp p then ∃ n, t.out = .svcSend p n b :: s.out else t.out = .undelivered p b :: s.out
    (ld.man = none → exec (.armReadyRx l m q) s = .next (took (.armReady m q)) ∧ exec (.armRefusedRx l m reason) s = .next (took (.armRefused m reason)) ∧
      exec .loadTimeout s = .next s) ∧
    (ld.man ≠ none → ld.lead = false → ∀ p, ld.parent = some p →
      (∃ t, exec (.armReadyRx l m q) s = .next t ∧ sentOn t p (.armReady m q) ∧ t = { took (.armReady m q) with links := t.links, out := t.out }) ∧
      (∃ t, exec (.armRefusedRx l m reason) s = .next t ∧ sentOn t p (.armRefused m reason) ∧
        t = { took (.armRefused m reason) with links := t.links, out := t.out })) ∧
    (ld.man ≠ none → ld.lead = true →
      (m.toNat < s.group.listed → (∀ e ∈ s.group.ready, e.1 ≠ m.toNat) → ∃ t, exec (.armReadyRx l m q) s = .next t ∧
        t.group.ready = s.group.ready ++ [(m.toNat, q.toNat)] ∧ t.rd Reg.EVT_MISSING_COUNT = BitVec.ofNat 32 (s.group.listed - (s.group.ready.length + 1)) ∧
        (s.group.ready.length + 1 < s.group.listed → t.group.load = ld) ∧
        (∀ im, s.group.ready.length + 1 = s.group.listed → ld.release = none → ld.image = some im → ∃ x, t.group.load = { ld with release := some x } ∧
          x.resume = false ∧ x.tRel = s.ftime + BitVec.ofNat 64 (2048 * (im.dMax + 2)))) ∧
      ((s.group.listed ≤ m.toNat ∨ ∃ e ∈ s.group.ready, e.1 = m.toNat) → exec (.armReadyRx l m q) s = .next (took (.armReady m q))) ∧
      (∃ t, exec (.armRefusedRx l m reason) s = .next t ∧ gone t ∧ t.group.refused = s.group.refused ++ [(m.toNat, reason.toNat)]) ∧
      (s.absent P.EVT = false → ∃ t, exec (.loadCancel .host) s = .next t ∧ gone t ∧ t.rd (Hdr.OWNER P.EVT) = reqIdent .host) ∧
      ((ld.incomplete = true ∨ ld.release ≠ none) → exec .loadTimeout s = .next s) ∧
      (ld.incomplete = false → ld.release = none → ∃ t, exec .loadTimeout s = .next t ∧ t.group = { s.group with load := { ld with incomplete := true } } ∧
        onlyRegsEvt [] s t ∧ t = { s with regs := t.regs, evt := t.evt, group := t.group })) ∧
    ((ld.man = none ∨ ld.lead = false) → exec (.loadCancel .host) s = .next (s.refuse .host Reg.EVT_LOAD_CTRL causeRight)) ∧
    (s.armCancellable = false → ld.man = none → exec (.cancelRx l) s = .next (took .cancel)) ∧
    (s.armCancellable = false → ld.man ≠ none → ∃ t, exec (.cancelRx l) s = .next t ∧ gone t) ∧
    (s.armCancellable = true → ∃ t, exec (.cancelRx l) s = .next t ∧ t.armed = false ∧ t.rd Reg.EVT_LOAD_STATE = 5) ∧
    (r.resume = false → (ld.image = none ∨ ld.release ≠ none ∨ ld.lead = true) → exec (.releaseRx l r) s = .next (took (.release r))) ∧
    (r.resume = false → ld.image ≠ none → ld.release = none → ld.lead = false →
      (s.ftime.toNat < r.tRel.toNat → ∃ t, exec (.releaseRx l r) s = .next t ∧ t.group = { s.group with load := { ld with release := some r } } ∧
        t = { took (.release r) with links := t.links, out := t.out, group := t.group }) ∧
      (r.tRel.toNat ≤ s.ftime.toNat → ∃ t, exec (.releaseRx l r) s = .next t ∧ gone t)) ∧
    ((ld.image = none ∨ ld.release = none) → exec .armTick s = .next s) ∧
    (∀ im, ld.image = some im → ld.release = some r →
      (r.tRel ≠ s.ftime → exec .armTick s = .next s) ∧
      (r.tRel = s.ftime → s.mod.mstate = .ready → s.armed = false → s.flag F.CLK_STATUS_TIME_VALID = true → s.loadLatLong im = none → ∃ t, exec .armTick s = .next t ∧ t.armed = true ∧
        t.mod.mstate = .running ∧ t.image = some im ∧ t.gepoch = 0 ∧ t.stand.epochs = true ∧ t.rd Reg.EVT_LOAD_STATE = 4 ∧ t.group.load = {} ∧
        t.rd Reg.STAND_STAND_ID = im.standId ∧ t.isLead = decide (im.member = im.lead) ∧ t.summary P.STAND B.STAND_ARMED = true) ∧
      (r.tRel = s.ftime → s.mod.mstate ≠ .ready → ld.lead = false → ∃ t, exec .armTick s = .next t ∧ gone t ∧ t.armed = s.armed ∧
        t.summary P.STAND B.STAND_LOAD_REFUSED = true))

/-- R31, R416 to R419, R421. -/
def Obligations.EventsEnterAreNumberedAndForwarded : Prop :=
  ∀ (s : State) (page : BitVec 10) (code : BitVec 16) (sev : BitVec 2) (d0 d1 data : Word) (l : Fin 96) (f : FwdEvent),
    let pg := 4096 * page.toNat
    let took := { s with inbox := s.inbox.erase (l.val, .event f) }
    let q := s.evt.queue
    let e : EvEntry := { stamp := s.ftime, last := s.ftime.setWidth 32, code := code.toNat, sev := sev.toNat, page := pg, data0 := d0, data1 := d1 }
    let n : EvEntry := { stamp := f.stamp, last := f.stamp.setWidth 32, code := f.code.toNat, sev := f.sev.toNat, page := 4096 * f.page.toNat,
                         remote := true, origin := f.origin.toNat, data0 := f.data0, data1 := f.data1 }
    let known := (pageAt page.toNat).isSome && knownCode code.toNat
    let bit := bitOfEvent pg code.toNat sev.toNat
    let listens := s.mod.power ≠ .standby ∧ s.evt.building = false
    let numbered := fun (x : EvEntry) => x.seq.isNone && decide (x.stamp.toNat + 64 ≤ s.ftime.toNat)
    (known = false → exec (.eventRaise page code sev d0 d1) s = .next s) ∧
    (known = true → listens → ∃ t, exec (.eventRaise page code sev d0 d1) s = .next t ∧ (∀ b, bit = some b → t.summary pg b = true) ∧
      (q.any (fun x => x.matches e) = false → q.length < 512 → t.evt.queue = q ++ [e] ∧ t.get F.EVT_STATUS_FILL = (q.length + 1) % 1024) ∧
      (q.any (fun x => x.matches e) = true → t.evt.queue.length = q.length ∧ t.evt.queue = coalesceIn e q ∧
        (t.rd Reg.EVT_COALESCED).toNat = min ((s.rd Reg.EVT_COALESCED).toNat + 1) 0xFFFFFFFF) ∧
      (q.any (fun x => x.matches e) = false → 512 ≤ q.length → sev.toNat < 2 → t.evt.queue = q ∧ t.evt.ovfLatch = true ∧
        (t.rd (Hdr.ERR_COUNT P.EVT)).toNat = min ((s.rd (Hdr.ERR_COUNT P.EVT)).toNat + 1) 0xFFFFFFFF) ∧
      t = { s with regs := t.regs, evt := t.evt }) ∧
    ((∀ x ∈ s.evAll, numbered x = false) → exec .eventSequence s = .next s) ∧
    (∀ x, evFirst (s.evAll.filter numbered) = some x →
      let x' := { x with seq := some (s.rd Reg.EVT_SEQ), msiTaken := true, rlogTaken := x.rlogTaken || decide (x.sev < s.get F.EVT_ROUTE_RLOG_MIN) }
      ∃ t, exec .eventSequence s = .next t ∧ t.rd Reg.EVT_SEQ = s.rd Reg.EVT_SEQ + 1 ∧
        (x.rlogTaken = false → s.get F.EVT_ROUTE_RLOG_MIN ≤ x.sev → x' ∈ t.evAll) ∧
        (s.holder = 0 → s.evt.canopy.length < 256 → t.evt.canopy = s.evt.canopy ++ [x'])) ∧
    (s.armed = false → exec (.eventFwdRx l f) s = .next took) ∧
    (s.armed = true → s.isLead = true → q.any (fun x => x.matches n) = false → q.length < 512 → ∃ t, exec (.eventFwdRx l f) s = .next t ∧
      t.evt.queue = q ++ [n] ∧ t.rd Reg.EVT_FWD_RX = s.rd Reg.EVT_FWD_RX + 1 ∧ onlyRegsEvt [Reg.EVT_FWD_RX] s t ∧ t = { took with regs := t.regs, evt := t.evt }) ∧
    (s.armed = true → s.isLead = false → ∀ p, s.group.parent = some p → ∃ t, exec (.eventFwdRx l f) s = .next t ∧
      (if s.linkUp p then ∃ k, t.out = .svcSend p k (.event f) :: s.out else t.out = .undelivered p (.event f) :: s.out) ∧
      t = { took with links := t.links, out := t.out }) ∧
    (exec (.inject { req := .sideband, data := data, be := 15 }) s = .next (s.refuse .sideband Reg.EVT_INJECT causeRight)) ∧
    (s.absent P.EVT = false → listens → q.length < 509 → (∀ x ∈ q, x.code = Evn.EVT_TEST.code → x.rlogTaken = true) →
      ∃ t, exec (.inject { req := .host, data := data, be := 15 }) s = .next t ∧ t.summary P.EVT B.EVT_TEST = true ∧
        (∃ x ∈ t.evt.queue, x.code = Evn.EVT_TEST.code ∧ x.page = P.EVT ∧ x.sev = Evn.EVT_TEST.sev ∧ x.data0 = data ∧ x.stamp = s.ftime) ∧
        t.rd (Hdr.OWNER P.EVT) = reqIdent .host)

/-- R422 to R432. -/
def Obligations.RinglogRecordsAreWrittenReadAndCleared : Prop :=
  ∀ (s : State) (data : Word) (smbus : Bool) (start : Dword) (max sevMin : BitVec 8),
    let w : WriteReq := { req := .host, data := data, be := 15 }
    let runs := s.flag F.RLOG_STATUS_READY && !s.flag F.RLOG_STATUS_CLEAR_BUSY
    let next := s.rd64 Reg.RLOG_NEXT_LO
    let from_ := (data ++ (aget none (s.reqCtx .host).heldLo Reg.RLOG_SEEK_LO).getD (s.rlogSelOf .host).seekLo : Dword).toNat
    let scope := F.RLOG_CLEAR_SCOPE.of data
    let replied := fun (t : State) (r : SideReply) => t.out = .sideReply smbus r :: s.out ∧ t.rlog = s.rlog ∧
      t.rd Reg.SIDEBAND_RX_MSGS = s.rd Reg.SIDEBAND_RX_MSGS + 1 ∧ t.rd Reg.SIDEBAND_TX_MSGS = s.rd Reg.SIDEBAND_TX_MSGS + 1
    ((runs = false ∨ s.rlogNext = none) → exec .rlogWrite s = .next s) ∧
    (runs = true → ∀ e i, s.rlogNext = some e → s.rlogFree 0 65536 = some i → ∃ t, exec .rlogWrite s = .next t ∧
      t.rlogSlot i = s.recordOf e next.toNat (e.seq.getD 0) 0 ∧ t.rd64 Reg.RLOG_NEXT_LO = next + 1 ∧
      (∀ j, j ≠ i → t.rlogSlot j = s.rlogSlot j) ∧ t.flag F.RLOG_STATUS_DROP_EPISODE = false) ∧
    (s.evt.building = false → exec .rlogIndexDone s = .next s) ∧
    (s.evt.building = true → s.rlog.clear = none → ∃ t, exec .rlogIndexDone s = .next t ∧ t.evt.building = false ∧ t.evt.held = [] ∧
      t.flag F.RLOG_STATUS_READY = true ∧ t.rlog = s.rlog ∧
      t.rd64 Reg.RLOG_NEXT_LO = BitVec.ofNat 64 (((newestRec s.records).map (fun e => slotWseq e.2 + 1)).getD 0)) ∧
    (s.absent P.RLOG = false →
      (∃ t, exec (.rlogSel w) s = .next t ∧ (t.rlogSelOf .host).win = s.rlogSlot (data.toNat % 65536) ∧
        (t.rlogSelOf .host).sel = BitVec.ofNat 32 (data.toNat % 65536) ∧ t.rlog.slots = s.rlog.slots ∧ onlyRegsWrite [Hdr.OWNER P.RLOG] s t) ∧
      (∃ t, exec (.rlogSeek w) s = .next t ∧ t.rlog.slots = s.rlog.slots ∧ onlyRegsWrite [Hdr.OWNER P.RLOG] s t ∧
        (∀ e, oldestRec (s.records.filter (fun e => decide (from_ ≤ slotWseq e.2))) = some e → (t.rlogSelOf .host).win = s.rlogSlot e.1 ∧
          (t.rlogSelOf .host).check = BitVec.ofNat 64 (slotWseq (s.rlogSlot e.1))) ∧
        ((∀ e ∈ s.records, slotWseq e.2 < from_) → (t.rlogSelOf .host).win = (s.rlogSelOf .host).win ∧ bitsOf (t.rlogSelOf .host).status 16 1 = 0))) ∧
    (F.RLOG_CLEAR_GO.of data = 1 → s.clearOk scope = false → exec (.rlogClear w) s = .next (s.refuse .host Reg.RLOG_CLEAR causeRight)) ∧
    (F.RLOG_CLEAR_GO.of data = 1 → s.clearOk scope = true → s.absent P.RLOG = false → ∃ t c, exec (.rlogClear w) s = .next t ∧
      t.rlog = { s.rlog with clear := some c } ∧ c.scope = scope ∧ c.arg = s.rd Reg.RLOG_CLEAR_ARG ∧ t.flag F.RLOG_STATUS_CLEAR_BUSY = true ∧ t.sec.token = none) ∧
    ((s.rlog.clear = none ∨ s.flag F.RLOG_STATUS_CLEAR_BUSY = false) → exec .rlogClearDone s = .next s) ∧
    (∀ c, s.rlog.clear = some c → s.flag F.RLOG_STATUS_CLEAR_BUSY = true → ∃ t, exec .rlogClearDone s = .next t ∧ t.rlog.clear = none ∧
      t.flag F.RLOG_STATUS_CLEAR_BUSY = false ∧ (∀ e ∈ t.rlog.slots, c.removes e.2 = false) ∧ t.summary P.RLOG B.RLOG_LOG_CLEARED = true ∧
      (t.rd Reg.RLOG_CLEARS).toNat = min ((s.rd Reg.RLOG_CLEARS).toNat + 1) 0xFFFFFFFF) ∧
    (s.sideAnswers smbus = false → exec (.rlogStatus smbus) s = .next s ∧ exec (.rlogRead smbus start max sevMin) s = .next s) ∧
    (s.sideAnswers smbus = true → s.side.waiting.length < 8 →
      (∃ t, exec (.rlogStatus smbus) s = .next t ∧
        replied t (.msg .success (s.regBytes Reg.RLOG_CNT_INFO 5 ++ s.regBytes Reg.RLOG_DROP_LO 2 ++ s.regBytes Reg.RLOG_NEXT_LO 2))) ∧
      ((max.toNat = 0 ∨ 4 < max.toNat ∨ 3 < sevMin.toNat) → ∃ t, exec (.rlogRead smbus start max sevMin) s = .next t ∧ replied t (.msg .invalidData [])) ∧
      (0 < max.toNat → max.toNat ≤ 4 → sevMin.toNat ≤ 3 → ∃ (t : State) (rs : List (BitVec 512)) (n : Nat), exec (.rlogRead smbus start max sevMin) s = .next t ∧ rs.length ≤ max.toNat ∧
        (∀ v ∈ rs, (∃ e ∈ s.records, e.2 = v) ∧ start.toNat ≤ slotWseq v ∧ sevMin.toNat ≤ slotSev v) ∧
        replied t (.msg .success (leBytes 1 rs.length ++ leBytes 1 0 ++ leBytes 8 n ++ rs.flatMap (fun v => leBytes 64 v.toNat)))))

/-- R439 to R441. -/
def Obligations.TokensAreVerifiedUsedAndExpire : Prop :=
  ∀ (s : State) (random : BitVec 128) (c : Fin 8) (x : Token) (b : Blow),
    let w := fun (i : Instr) => exec i s = .next (s.refuse .host Reg.SEC_TOKEN_CTL causeRight)
    let result := fun (t : State) => t.get F.SEC_TOKEN_RESULT_RESULT
    let pending := fun (t : State) => t.flag F.SEC_STATUS_TOKEN_PENDING
    (exec (.newNonce (.svc c) random) s = .next (s.refuse (.svc c) Reg.SEC_TOKEN_CTL causeRight)) ∧
    (s.flag F.SEC_STATUS_VERIFY_BUSY = true → w (.verify .host)) ∧
    (s.absent P.SEC = false →
      (∃ t, exec (.newNonce .host random) s = .next t ∧ t.flag F.SEC_STATUS_NONCE_VALID = true ∧ (∀ j < 4, t.rd (Reg.SEC_NONCE j) = random.extractLsb' (32 * j) 32) ∧
        onlyRegsWrite [Reg.SEC_NONCE 0, Reg.SEC_NONCE 1, Reg.SEC_NONCE 2, Reg.SEC_NONCE 3, Reg.SEC_STATUS, Hdr.OWNER P.SEC] s t ∧ t.sec = s.sec) ∧
      (s.flag F.SEC_STATUS_VERIFY_BUSY = false → ∃ t k, exec (.verify .host) s = .next t ∧ t.flag F.SEC_STATUS_VERIFY_BUSY = true ∧
        t.flag F.SEC_STATUS_NONCE_VALID = false ∧ t.sec = { s.sec with checking := some k } ∧ k.scope = s.get F.SEC_TOKEN_REQ_SCOPE ∧
        k.signer = s.get F.SEC_TOKEN_REQ_SIGNER ∧ k.arg = s.rd Reg.SEC_TOKEN_ARG ∧ k.nonce.isSome = s.flag F.SEC_STATUS_NONCE_VALID) ∧
      (pending s = true → ∃ t, exec (.discard .host) s = .next t ∧ pending t = false ∧ result t = 0 ∧ t.sec = { s.sec with token := none }) ∧
      (pending s = false → ∃ t, exec (.discard .host) s = .next t ∧ t.sec = s.sec ∧ onlyRegsWrite [Hdr.OWNER P.SEC] s t)) ∧
    (∃ t, exec .nonceExpire s = .next t ∧ t.flag F.SEC_STATUS_NONCE_VALID = false ∧ onlyRegs [Reg.SEC_STATUS] s t ∧ t = { s with regs := t.regs }) ∧
    (pending s = false → exec .tokenExpire s = .next s) ∧
    (pending s = true → ∃ t, exec .tokenExpire s = .next t ∧ pending t = false ∧ result t = 7 ∧ t.get F.SEC_TOKEN_RESULT_TTL = 0 ∧
      t.sec = { s.sec with token := none } ∧ onlyRegs [Reg.SEC_STATUS, Reg.SEC_TOKEN_RESULT] s t ∧ t = { s with regs := t.regs, sec := t.sec }) ∧
    (s.sec.checking = none → exec .tokenVerifyDone s = .next s) ∧
    (s.sec.checking = some x →
      (s.tokenCheck x ≠ 0 → ∃ t, exec .tokenVerifyDone s = .next t ∧ result t = s.tokenCheck x ∧ t.get F.SEC_TOKEN_RESULT_SCOPE = x.scope % 256 ∧
        t.flag F.SEC_STATUS_VERIFY_BUSY = false ∧ t.sec = { s.sec with checking := none } ∧ t.summary P.SEC B.SEC_TOKEN_REJECTED = true ∧
        (t.rd (Hdr.ERR_COUNT P.SEC)).toNat = min ((s.rd (Hdr.ERR_COUNT P.SEC)).toNat + 1) 0xFFFFFFFF) ∧
      (s.tokenCheck x = 0 → ∃ t, exec .tokenVerifyDone s = .next t ∧ t.sec.checking = none ∧ t.summary P.SEC B.SEC_TOKEN_ACCEPTED = true ∧
        (2 ≤ x.scope → x.scope ≤ 5 → pending t = true ∧ result t = 1 ∧ t.sec.token = some x ∧ t.sec.tokenAt = s.now ∧ t.flag F.SEC_STATUS_VERIFY_BUSY = false) ∧
        (x.scope = 6 → t.flag F.SEC_STATUS_DEBUG_OPEN = true ∧ result t = 8 ∧ t.sec.token = (if pending s then none else s.sec.token)) ∧
        (x.scope = 9 → t.sec.blow = some (.revoke x.arg.toNat) ∧ t.flag F.SEC_STATUS_VERIFY_BUSY = true ∧ result t = 8) ∧
        (x.scope = 1 → s.flag F.COOLANT_LEAK_INFO_CYCLED = false → result t = 8 ∧ t.leakLatched = s.leakLatched ∧ t.mod = s.mod))) ∧
    (s.sec.blow = none → ∀ ok, exec (.fuseBlowDone ok) s = .next s) ∧
    (s.sec.blow = some b →
      (∃ t, exec (.fuseBlowDone true) s = .next t ∧ t.sec.blow = none ∧ t.flag F.SEC_STATUS_VERIFY_BUSY = false ∧ t.freeCtr = s.freeCtr ∧
        t.flag F.HWOOD_FUSE_STATUS_PENDING = true ∧ (∀ e ∈ b.words, t.fuse e.1 &&& e.2 = e.2) ∧ (∀ o, t.fuse o &&& s.fuse o = s.fuse o)) ∧
      (∃ t, exec (.fuseBlowDone false) s = .next t ∧ t.sec.blow = none ∧ t.flag F.SEC_STATUS_VERIFY_BUSY = false ∧ result t = 6 ∧
        (∀ o, t.fuse o &&& s.fuse o = s.fuse o) ∧
        (t.rd (Hdr.ERR_COUNT P.HWOOD)).toNat = min ((s.rd (Hdr.ERR_COUNT P.HWOOD)).toNat + 1) 0xFFFFFFFF))

/-- R437, R438, R443, R444. -/
def Obligations.FirmwareMeasurementsAndReports : Prop :=
  ∀ (s : State) (data : Word) (flash : Bool),
    let w : WriteReq := { req := .host, data := data, be := 15 }
    let i := F.SEC_MEAS_CTL_INDEX.of data
    let target := 1 - s.sec.running
    let bs := memBytes s.mem (s.rd64 Reg.SEC_FW_ADDR_LO).toNat (s.rd Reg.SEC_FW_LEN).toNat
    let blocked := s.dwNamed dwFwCopy target 0 || decide (31457280 < (s.rd Reg.SEC_FW_LEN).toNat)
    let result := fun (t : State) => t.get F.SEC_FW_STATUS_RESULT
    let m := bytesOf (Config.sm3 (s.regBytes (Reg.SEC_MEAS (8 * i)) 8 ++ s.regBytes (Reg.SEC_EXTEND_DATA 0) 8))
    (F.SEC_FW_CTL_UPDATE.of data = 1 → (s.mod.mstate ≠ .service ∨ s.flag F.SEC_STATUS_FW_BUSY = true) →
      exec (.fwUpdate w) s = .next (s.refuse .host Reg.SEC_FW_CTL causeRight)) ∧
    (i < 8 → exec (.extend w) s = .next (s.refuse .host Reg.SEC_MEAS_CTL causeRight)) ∧
    (F.SEC_REPORT_CTL_GO.of data = 1 → s.flag F.SEC_STATUS_REPORT_BUSY = true → exec (.reportGo w) s = .next (s.refuse .host Reg.SEC_REPORT_CTL causeRight)) ∧
    (s.absent P.SEC = false →
      (F.SEC_FW_CTL_UPDATE.of data = 1 → s.mod.mstate = .service → s.flag F.SEC_STATUS_FW_BUSY = false → ∃ t, exec (.fwUpdate w) s = .next t ∧
        t.get F.SEC_FW_STATUS_TARGET = target ∧ (blocked = true → result t = 5 ∧ t.sec = s.sec) ∧
        (blocked = false → result t = 1 ∧ t.flag F.SEC_STATUS_FW_BUSY = true ∧ t.sec = { s.sec with update := true })) ∧
      (8 ≤ i → F.SEC_MEAS_CTL_EXTEND.of data = 1 → ∃ t, exec (.extend w) s = .next t ∧ t.get F.SEC_MEAS_CTL_INDEX = i ∧
        (∀ j < 8, t.rd (Reg.SEC_MEAS (8 * i) + 4 * j) = BitVec.ofNat 32 (leValue ((m.drop (4 * j)).take 4))) ∧
        onlyRegsWrite (Reg.SEC_MEAS_CTL :: Hdr.OWNER P.SEC :: (List.range 8).map (fun j => Reg.SEC_MEAS (8 * i) + 4 * j)) s t ∧ t.sec = s.sec) ∧
      (F.SEC_REPORT_CTL_GO.of data = 1 → s.flag F.SEC_STATUS_REPORT_BUSY = false → ∃ t, exec (.reportGo w) s = .next t ∧
        t.flag F.SEC_STATUS_REPORT_BUSY = true ∧ t.flag F.SEC_STATUS_REPORT_VALID = false ∧ t.get F.SEC_REPORT_CTL_MASK = F.SEC_REPORT_CTL_MASK.of data ∧
        t.sec = { s.sec with report := some (F.SEC_REPORT_CTL_MASK.of data, s.regBytes (Reg.SEC_REPORT_NONCE 0) 8, s.ftime) } ∧
        onlyRegsWrite [Reg.SEC_STATUS, Reg.SEC_REPORT_CTL, Hdr.OWNER P.SEC] s t)) ∧
    (s.sec.update = false → exec (.fwUpdateDone flash) s = .next s) ∧
    (s.sec.update = true → ∃ t, exec (.fwUpdateDone flash) s = .next t ∧ t.flag F.SEC_STATUS_FW_BUSY = false ∧ t.sec.update = false ∧
      (∀ k, s.bundleKinds 4 bs [] = .error k → result t = 3 ∧ t.summary P.SEC B.SEC_IMAGE_REJECTED = true ∧ t.sec.copies = s.sec.copies) ∧
      (∀ ks, s.bundleKinds 4 bs [] = .ok ks →
        ((∃ k ∈ [1, 2, 3, 4], k ∉ ks) → result t = 4 ∧ t.sec.copies = s.sec.copies) ∧
        ((∀ k ∈ [1, 2, 3, 4], k ∈ ks) → flash = false → result t = 6 ∧ t.sec.prefer = s.sec.prefer) ∧
        ((∀ k ∈ [1, 2, 3, 4], k ∈ ks) → flash = true → result t = 2 ∧ t.sec.prefer = s.get F.SEC_FW_STATUS_TARGET ∧
          aget [] t.sec.copies (s.get F.SEC_FW_STATUS_TARGET) = bs))) ∧
    (s.sec.report = none → exec .reportDone s = .next s) ∧
    (∀ mask nonce time, s.sec.report = some (mask, nonce, time) → ∃ t, exec .reportDone s = .next t ∧ t.flag F.SEC_STATUS_REPORT_BUSY = false ∧
      t.flag F.SEC_STATUS_REPORT_VALID = true ∧ t.rd Reg.SEC_REPORT_LEN = BitVec.ofNat 32 ((s.reportBytes mask nonce time).length + 64) ∧
      t.sec = { s.sec with report := none } ∧ t = { s with regs := t.regs, sec := t.sec })

/-- R447 to R450, R457. -/
def Obligations.SidebandAddressesModesAndSilence : Prop :=
  ∀ (s : State) (smbus : Bool) (addr : BitVec 7) (eid type sel : BitVec 8) (tag : BitVec 3),
    let mode := fun (t : State) => t.get F.SIDEBAND_STATUS_MODE
    let frame := fun (l : List Nat) (t : State) => onlyRegsEvt (Reg.SIDEBAND_STATUS :: Hdr.EVT_SUMMARY P.SIDEBAND :: l) s t ∧
      t = { s with regs := t.regs, evt := t.evt, side := t.side, out := t.out }
    let ccc := [(Instr.getpid, Config.i3cData 0), (.getbcr, Config.i3cData 1), (.getdcr, Config.i3cData 2), (.getstatus, Config.i3cStatus (!s.evt.pldm.isEmpty))]
    let served := [(Instr.getEndpointId smbus, SideReply.ident (if s.flag F.SIDEBAND_STATUS_EID_VALID then some (BitVec.ofNat 8 (s.get F.SIDEBAND_ADDR_EID)) else none)),
      (.getMctpVersionSupport smbus type, if mctpTypes.contains type.toNat then .msg .success (Config.mctpVersions type.toNat) else .msg .invalidData []),
      (.getMessageTypeSupport smbus, .names ["PLDM", "vendor defined"]),
      (.getVendorDefinedMessageSupport smbus sel, if sel = 0 then .msg .success (bytesOf Config.enterprise) else .msg .invalidData [])]
    (s.sideOn = false → ∀ c ∈ [Instr.entdaa addr, .setdasa addr addr, .rstdaa, .setnewda addr, .getpid, .getbcr, .getdcr, .getstatus, .enec, .disec, .traySilent,
      .setEndpointId smbus eid, .getEndpointId smbus, .getMctpVersionSupport smbus type, .getMessageTypeSupport smbus,
      .getVendorDefinedMessageSupport smbus sel], exec c s = .next s) ∧
    (s.sideOn = true →
      (mode s = smDual → s.get F.SIDEBAND_ADDR_STATIC = addr.toNat → ∀ dyn : BitVec 7, ∀ c ∈ [Instr.entdaa dyn, .setdasa addr dyn],
        ∃ t, exec c s = .next t ∧ mode t = smI3c ∧ t.get F.SIDEBAND_ADDR_DYNAMIC = dyn.toNat ∧ frame [F.SIDEBAND_ADDR_DYNAMIC.off] t) ∧
      (mode s ≠ smDual → exec (.entdaa addr) s = .next s ∧ exec (.setdasa addr addr) s = .next s) ∧
      (s.get F.SIDEBAND_ADDR_STATIC ≠ addr.toNat → ∀ dyn, exec (.setdasa addr dyn) s = .next s) ∧
      (∃ t, exec .rstdaa s = .next t ∧ mode t = smDual ∧ t.get F.SIDEBAND_ADDR_DYNAMIC = 0 ∧ t.side.sent = false ∧ frame [F.SIDEBAND_ADDR_DYNAMIC.off] t) ∧
      (mode s = smI3c → ∃ t, exec (.setnewda addr) s = .next t ∧ mode t = smI3c ∧ t.get F.SIDEBAND_ADDR_DYNAMIC = addr.toNat ∧ frame [F.SIDEBAND_ADDR_DYNAMIC.off] t) ∧
      (mode s ≠ smI3c → exec (.setnewda addr) s = .next s) ∧
      (s.flag F.SIDEBAND_STATUS_SILENT = true → exec .traySilent s = .next s) ∧
      (s.flag F.SIDEBAND_STATUS_SILENT = false → ∃ t, exec .traySilent s = .next t ∧ t.flag F.SIDEBAND_STATUS_SILENT = true ∧
        t.summary P.SIDEBAND B.SIDEBAND_TRAY_SILENT = true ∧ mode t = mode s ∧ frame [] t)) ∧
    (s.sideAnswers false = false → ∀ c ∈ [Instr.getpid, .getbcr, .getdcr, .getstatus, .enec, .disec], exec c s = .next s) ∧
    (s.sideAnswers false = true →
      (∀ p ∈ ccc, ∃ t, exec p.1 s = .next t ∧ t.out = .cccReply p.2 :: s.out ∧ t.flag F.SIDEBAND_STATUS_SILENT = false ∧ frame [] t) ∧
      (∃ t, exec .enec s = .next t ∧ t.side.ibi = true ∧ t.out = s.out ∧ frame [] t) ∧ (∃ t, exec .disec s = .next t ∧ t.side.ibi = false ∧ t.out = s.out ∧ frame [] t)) ∧
    (s.sideAnswers smbus = false → ∀ p ∈ served, exec p.1 s = .next s) ∧
    (s.sideAnswers smbus = true → s.side.waiting.length < 8 →
      (∀ p ∈ served, ∃ t, exec p.1 s = .next t ∧ t.out = .sideReply smbus p.2 :: s.out ∧ t.rd Reg.SIDEBAND_RX_MSGS = s.rd Reg.SIDEBAND_RX_MSGS + 1 ∧
        t.rd Reg.SIDEBAND_TX_MSGS = s.rd Reg.SIDEBAND_TX_MSGS + 1 ∧ (smbus = true → mode t = smSmbus) ∧ frame [Reg.SIDEBAND_RX_MSGS, Reg.SIDEBAND_TX_MSGS] t) ∧
      (∃ t, exec (.setEndpointId smbus eid) s = .next t ∧ t.out = .sideReply smbus (.ident (some eid)) :: s.out ∧ t.get F.SIDEBAND_ADDR_EID = eid.toNat ∧
        t.flag F.SIDEBAND_STATUS_EID_VALID = true ∧ frame [F.SIDEBAND_ADDR_EID.off, Reg.SIDEBAND_RX_MSGS, Reg.SIDEBAND_TX_MSGS] t)) ∧
    (s.sideAnswers smbus = true → 8 ≤ s.side.waiting.length → ∀ p ∈ served, ∃ t, exec p.1 s = .next t ∧ t.out = s.out ∧
      (t.rd Reg.SIDEBAND_DROPPED).toNat = min ((s.rd Reg.SIDEBAND_DROPPED).toNat + 1) 0xFFFFFFFF ∧ frame [Reg.SIDEBAND_RX_MSGS, Reg.SIDEBAND_DROPPED] t) ∧
    (exec (.mctpMsgTimeout tag) s = .next { s with side := { s.side with partials := s.side.partials.filter (fun x => decide (x ≠ tag)) } })

/-- R450 to R456. -/
def Obligations.PldmAndVendorRequests : Prop :=
  ∀ (s : State) (smbus ack : Bool) (tid type n : BitVec 8) (handle off value : Word) (id : BitVec 16) (eid : Option (BitVec 8)),
    let replied := fun (t : State) (r : SideReply) => t.out = .sideReply smbus r :: s.out ∧ t.rd Reg.SIDEBAND_RX_MSGS = s.rd Reg.SIDEBAND_RX_MSGS + 1 ∧
      t.rd Reg.SIDEBAND_TX_MSGS = s.rd Reg.SIDEBAND_TX_MSGS + 1
    let keeps := fun (l : List Nat) (t : State) =>
      onlyRegsEvt (Reg.SIDEBAND_STATUS :: Hdr.EVT_SUMMARY P.SIDEBAND :: Reg.SIDEBAND_RX_MSGS :: Reg.SIDEBAND_TX_MSGS :: l) s t ∧
      t = { s with regs := t.regs, evt := t.evt, side := t.side, out := t.out }
    let bad := SideReply.msg .invalidData []
    let asked := [(Instr.getEndpointUuid smbus, CanReq.uuid, SideReply.msg .success (Config.endpointUuid s.serial)), (.setTid smbus tid, .setTid tid, .msg .success []),
      (.getTid smbus, .getTid, .ident (some (BitVec.ofNat 8 (s.get F.SIDEBAND_ADDR_TID)))),
      (.getPldmVersion smbus type, .version type, if (pldmCommands type.toNat).isSome then .msg .success (Config.pldmVersions type.toNat) else bad),
      (.getPldmTypes smbus, .types, .names ["0", "2"]),
      (.getPldmCommands smbus type, .commands type, (pldmCommands type.toNat).elim bad .names),
      (.getPdrRepositoryInfo smbus, .pdrInfo, .pdrCount 74), (.getPdr smbus handle, .pdr handle, s.pdrAt handle.toNat)]
    let here := [(Instr.getSensorReading smbus id, if 0x0100 ≤ id.toNat ∧ id.toNat < 0x0148 then .sensor (s.sensePoint (id.toNat - 0x0100)) else bad),
      (.getNumericEffecterValue smbus id, if id = 0x0200 then .effecter (bitsOf (s.rd Reg.THERM_RACK_CAP) 0 16)
        else if id = 0x0201 then .effecter (bitsOf (s.rd Reg.TELEM_MODE) 0 2) else bad),
      (.eventMessageSupported smbus, .names ["0xFA"]), (.eventMessageBufferSize smbus, .size 1024)]
    let others := [Instr.setNumericEffecterValue smbus id value, .regRead smbus off n, .regWrite smbus off value, .setEventReceiver smbus eid,
      .pollForPlatformEventMessage smbus ack]
    (s.sideAnswers smbus = false → ∀ c ∈ asked.map (·.1) ++ here.map (·.1) ++ others, exec c s = .next s) ∧
    (s.sideAnswers smbus = true → s.side.waiting.length < 8 →
      (s.holder ≠ 0 → s.side.waiting = [] → ∀ p ∈ asked, ∃ t, exec p.1 s = .next t ∧ replied t p.2.2 ∧ t.side.waiting = [] ∧ keeps [F.SIDEBAND_ADDR_TID.off] t ∧
        (p.2.1 = .setTid tid → t.get F.SIDEBAND_ADDR_TID = tid.toNat)) ∧
      (s.holder = 0 → ∀ p ∈ asked, ∃ t, exec p.1 s = .next t ∧ t.side.waiting = s.side.waiting ++ [(smbus, p.2.1)] ∧ t.out = s.out ∧ keeps [] t) ∧
      (∀ p ∈ here, ∃ t, exec p.1 s = .next t ∧ replied t p.2 ∧ keeps [] t) ∧
      (id ≠ 0x0200 → id ≠ 0x0201 → ∃ t, exec (.setNumericEffecterValue smbus id value) s = .next t ∧ replied t bad ∧ keeps [] t) ∧
      (s.capOk value = true → value.toNat < 65536 → s.absent P.THERM = false → bitsOf (s.rd Reg.TELEM_MODE) 0 2 ≠ 1 →
        ∃ t, exec (.setNumericEffecterValue smbus 0x0200 value) s = .next t ∧ replied t (.msg .success []) ∧ t.therm.rack = value.toNat) ∧
      ((n.toNat = 0 ∨ 16 < n.toNat ∨ off.toNat % 4 ≠ 0 ∨ 0x400000 < off.toNat + 4 * n.toNat) → ∃ t, exec (.regRead smbus off n) s = .next t ∧ replied t bad ∧ keeps [] t) ∧
      (0 < n.toNat → n.toNat ≤ 16 → off.toNat % 4 = 0 → off.toNat + 4 * n.toNat ≤ 0x400000 → ∃ t bs, exec (.regRead smbus off n) s = .next t ∧
        t.out = .sideReply smbus (.msg .success bs) :: s.out ∧ bs.length = 4 * n.toNat) ∧
      ((off.toNat % 4 ≠ 0 ∨ 0x400000 ≤ off.toNat) → ∃ t, exec (.regWrite smbus off value) s = .next t ∧ replied t bad ∧ keeps [] t) ∧
      (off.toNat % 4 = 0 → off.toNat < 0x400000 → ∃ t cc, exec (.regWrite smbus off value) s = .next t ∧
        t.out.head? = some (.sideReply smbus (.msg cc [])) ∧ (cc = .success ∨ cc = .refused)) ∧
      (∃ t, exec (.setEventReceiver smbus eid) s = .next t ∧ replied t (.msg .success []) ∧ t.side.receiver = eid ∧
        t.flag F.SIDEBAND_STATUS_RECEIVER = eid.isSome ∧ keeps [] t) ∧
      (∀ e rest, s.evt.pldm = e :: rest → ∃ t, exec (.pollForPlatformEventMessage smbus false) s = .next t ∧ replied t (.msg .success (eventBytes e)) ∧ t.side.sent = true) ∧
      (s.side.sent = true → ∃ t, exec (.pollForPlatformEventMessage smbus true) s = .next t ∧ replied t (.msg .success []) ∧ t.side.sent = false)) ∧
    ((s.evt.pldm = [] ∨ s.sideOn = false ∨ s.get F.SIDEBAND_STATUS_MODE ≠ smI3c ∨ s.side.ibi = false ∨ s.side.sent = true ∨
      s.flag F.SIDEBAND_STATUS_RECEIVER = false) → exec .platformEventMessage s = .next s) ∧
    (∀ e rest, s.evt.pldm = e :: rest → s.sideOn = true → s.get F.SIDEBAND_STATUS_MODE = smI3c → s.side.ibi = true → s.side.sent = false →
      s.flag F.SIDEBAND_STATUS_RECEIVER = true → ∃ t, exec .platformEventMessage s = .next t ∧ t.out = .platformEvent (eventBytes e) :: .ibi 0xAE :: s.out ∧
        t.side = { s.side with sent := true } ∧ t.evt = s.evt ∧ onlyRegs [Reg.SIDEBAND_TX_MSGS] s t) ∧
    ((s.sideAnswers false = false ∨ s.side.sent = false) → exec .platformEventAck s = .next s) ∧
    (s.sideAnswers false = true → s.side.sent = true → ∃ t, exec .platformEventAck s = .next t ∧ t.evt.pldm = s.evt.pldm.drop 1 ∧ t.side.sent = false ∧
      t.flag F.SIDEBAND_STATUS_ALERT = !(s.evt.pldm.drop 1).isEmpty ∧ keeps [] t)
end

