-- ==== Sys2Proof/Laws/Maps.lean ====
section
/-! SUPPORT. Sparse maps: a read after a write, and the canonical form. -/

namespace Sys2Proof.Machine

variable {α : Type}

@[simp] theorem aget_nil (d : α) (k : Nat) : aget d [] k = d := rfl

theorem aget_append_of_not_mem (d : α) (m n : AMap α) (k : Nat) (h : ∀ e ∈ m, e.1 ≠ k) : aget d (m ++ n) k = aget d n k := by
  induction m with
  | nil => rfl
  | cons e m ih =>
    obtain ⟨i, v⟩ := e
    have hi : i ≠ k := h (i, v) (by simp)
    simpa [aget, hi] using ih (fun e he => h e (by simp [he]))

theorem aget_append_of_mem (d : α) (m n : AMap α) (k : Nat) (h : ∃ e ∈ m, e.1 = k) : aget d (m ++ n) k = aget d m k := by
  induction m with
  | nil => simp at h
  | cons e m ih =>
    obtain ⟨i, v⟩ := e
    by_cases hi : i = k
    · simp [aget, hi]
    · have h2 : ∃ e ∈ m, e.1 = k := by
        obtain ⟨e, he, hk⟩ := h
        rcases List.mem_cons.1 he with rfl | he
        · exact absurd hk hi
        · exact ⟨e, he, hk⟩
      simpa [aget, hi] using ih h2

theorem aget_absent (d : α) (m : AMap α) (k : Nat) (h : ∀ e ∈ m, e.1 ≠ k) : aget d m k = d := by
  induction m with
  | nil => rfl
  | cons e m ih =>
    obtain ⟨i, v⟩ := e
    have := h (i, v) (by simp)
    simp only [ne_eq] at this
    simp [aget, this]
    exact ih (fun e he => h e (by simp [he]))

theorem aget_filter (d : α) (m : AMap α) (k : Nat) (p : Nat → Bool) (h : p k = true) :
    aget d (m.filter (fun e => p e.1)) k = aget d m k := by
  induction m with
  | nil => rfl
  | cons e m ih =>
    obtain ⟨i, v⟩ := e
    by_cases hp : p i = true
    · simp [List.filter, hp, aget, ih]
    · have hik : i ≠ k := by rintro rfl; exact hp h
      simp [List.filter, hp, aget, hik, ih]

/-- A read after a write of the same key gives the value written. -/
@[simp] theorem aget_aset_same [DecidableEq α] (d : α) (m : AMap α) (k : Nat) (v : α) : aget d (aset d m k v) k = v := by
  have h2 : aget d (m.filter (fun e => decide (k < e.1))) k = d := by
    apply aget_absent; intro e he; simp only [List.mem_filter, decide_eq_true_eq] at he; omega
  unfold aset
  rw [List.append_assoc, aget_append_of_not_mem]
  · by_cases hv : v = d
    · simp [hv, h2]
    · simp [hv, aget]
  · intro e he; simp only [List.mem_filter, decide_eq_true_eq] at he; omega

/-- A write leaves every other key alone. -/
theorem aget_aset_ne [DecidableEq α] (d d' : α) (m : AMap α) {k j : Nat} (v : α) (h : j ≠ k) :
    aget d' (aset d m k v) j = aget d' m j := by
  unfold aset
  rcases Nat.lt_or_gt_of_ne h with hlt | hgt
  · have e1 : aget d' (m.filter (fun e => decide (e.1 < k))) j = aget d' m j :=
      aget_filter d' m j (fun x => decide (x < k)) (by simpa using hlt)
    rw [List.append_assoc]
    by_cases hm : ∃ e ∈ m.filter (fun e => decide (e.1 < k)), e.1 = j
    · rw [aget_append_of_mem _ _ _ _ hm, e1]
    · have hm' : ∀ e ∈ m.filter (fun e => decide (e.1 < k)), e.1 ≠ j := fun e he hj => hm ⟨e, he, hj⟩
      rw [aget_append_of_not_mem _ _ _ _ hm', ← e1, aget_absent d' _ j hm']
      apply aget_absent
      intro e he
      rcases List.mem_append.1 he with he | he
      · split at he
        · simp at he
        · simp only [List.mem_singleton] at he; subst he; simpa using Ne.symm h
      · simp only [List.mem_filter, decide_eq_true_eq] at he; omega
  · rw [aget_append_of_not_mem]
    · exact aget_filter d' m j (fun x => decide (k < x)) (by simpa using hgt)
    · intro e he
      rcases List.mem_append.1 he with he | he
      · simp only [List.mem_filter, decide_eq_true_eq] at he; omega
      · split at he
        · simp at he
        · simp only [List.mem_singleton] at he; subst he; simpa using Ne.symm h

theorem aget_aset [DecidableEq α] (d : α) (m : AMap α) (k j : Nat) (v : α) :
    aget d (aset d m k v) j = if j = k then v else aget d m j := by
  split
  · next h => rw [h, aget_aset_same]
  · next h => exact aget_aset_ne d d m v h

/-! ## The canonical form -/

theorem keysRising_iff (m : AMap α) : keysRising m = true ↔ m.Pairwise (fun a b => a.1 < b.1) := by
  induction m with
  | nil => simp [keysRising]
  | cons e m ih =>
    obtain ⟨i, v⟩ := e
    cases m with
    | nil => simp [keysRising]
    | cons e' m =>
      obtain ⟨j, w⟩ := e'
      simp only [keysRising, Bool.and_eq_true, decide_eq_true_eq, ih]
      rw [List.pairwise_cons (a := (i, v))]
      constructor
      · rintro ⟨h, hp⟩
        refine ⟨?_, hp⟩
        intro b hb
        rcases List.mem_cons.1 hb with rfl | hb
        · exact h
        · exact lt_trans h ((List.pairwise_cons.1 hp).1 b hb)
      · rintro ⟨h, hp⟩
        exact ⟨h (j, w) (by simp), hp⟩

/-- A write keeps the canonical form. -/
theorem amapWf_aset [DecidableEq α] (d : α) (m : AMap α) (k : Nat) (v : α) (h : amapWf d m = true) :
    amapWf d (aset d m k v) = true := by
  unfold amapWf at *
  rw [Bool.and_eq_true, keysRising_iff] at *
  obtain ⟨hr, ha⟩ := h
  rw [List.all_eq_true] at ha
  unfold aset
  constructor
  · rw [List.pairwise_append, List.pairwise_append]
    refine ⟨⟨hr.filter _, ?_, ?_⟩, hr.filter _, ?_⟩
    · split <;> simp
    · intro a ha' b hb
      simp [List.mem_filter] at ha'
      split at hb <;> simp at hb
      subst hb; exact ha'.2
    · intro a ha' b hb
      simp only [List.mem_append, List.mem_filter, decide_eq_true_eq] at ha' hb
      rcases ha' with ha' | ha'
      · exact lt_trans ha'.2 hb.2
      · split at ha' <;> simp at ha'
        subst ha'; exact hb.2
  · rw [List.all_eq_true]
    intro e he
    simp only [List.mem_append, List.mem_filter] at he
    rcases he with (he | he) | he
    · exact ha e he.1
    · split at he <;> simp at he
      subst he; simpa using by assumption
    · exact ha e he.1

/-- Leaving entries out keeps the canonical form. -/
theorem amapWf_filter [DecidableEq α] (d : α) (m : AMap α) (p : Nat × α → Bool) (h : amapWf d m = true) :
    amapWf d (m.filter p) = true := by
  unfold amapWf at *
  rw [Bool.and_eq_true, keysRising_iff] at *
  refine ⟨h.1.filter _, ?_⟩
  rw [List.all_eq_true] at *
  intro e he
  exact h.2 e (List.mem_filter.1 he).1

end Sys2Proof.Machine
end

