-- ==== Sys2Proof/Laws/State.lean ====
section
/-! SUPPORT. What each named update of the state leaves alone: one lemma per field and update, so that no proof unfolds a record update. -/

namespace Sys2Proof.Machine.State

variable (s : State)

/-! `emit` -/

@[simp] theorem emit_regs (o : Out) : (s.emit o).regs = s.regs := rfl
@[simp] theorem emit_pending (o : Out) : (s.emit o).pending = s.pending := rfl
@[simp] theorem emit_now (o : Out) : (s.emit o).now = s.now := rfl
@[simp] theorem emit_ftime (o : Out) : (s.emit o).ftime = s.ftime := rfl
@[simp] theorem emit_freeCtr (o : Out) : (s.emit o).freeCtr = s.freeCtr := rfl
@[simp] theorem emit_mod (o : Out) : (s.emit o).mod = s.mod := rfl
@[simp] theorem emit_ctx (o : Out) : (s.emit o).ctx = s.ctx := rfl
@[simp] theorem emit_evt (o : Out) : (s.emit o).evt = s.evt := rfl
@[simp] theorem emit_clk (o : Out) : (s.emit o).clk = s.clk := rfl
@[simp] theorem emit_links (o : Out) : (s.emit o).links = s.links := rfl
@[simp] theorem emit_inbox (o : Out) : (s.emit o).inbox = s.inbox := rfl
@[simp] theorem emit_stand (o : Out) : (s.emit o).stand = s.stand := rfl
@[simp] theorem emit_image (o : Out) : (s.emit o).image = s.image := rfl
@[simp] theorem emit_engines (o : Out) : (s.emit o).engines = s.engines := rfl
@[simp] theorem emit_groves (o : Out) : (s.emit o).groves = s.groves := rfl
@[simp] theorem emit_mem (o : Out) : (s.emit o).mem = s.mem := rfl
@[simp] theorem emit_poison (o : Out) : (s.emit o).poison = s.poison := rfl
@[simp] theorem emit_bg (o : Out) : (s.emit o).bg = s.bg := rfl
@[simp] theorem emit_bgNext (o : Out) : (s.emit o).bgNext = s.bgNext := rfl
@[simp] theorem emit_reduce (o : Out) : (s.emit o).reduce = s.reduce := rfl
@[simp] theorem emit_lpddr (o : Out) : (s.emit o).lpddr = s.lpddr := rfl
@[simp] theorem emit_boot (o : Out) : (s.emit o).boot = s.boot := rfl
@[simp] theorem emit_host (o : Out) : (s.emit o).host = s.host := rfl
@[simp] theorem emit_serve (o : Out) : (s.emit o).serve = s.serve := rfl
@[simp] theorem emit_sample (o : Out) : (s.emit o).sample = s.sample := rfl
@[simp] theorem emit_fluid (o : Out) : (s.emit o).fluid = s.fluid := rfl
@[simp] theorem emit_coolant (o : Out) : (s.emit o).coolant = s.coolant := rfl
@[simp] theorem emit_therm (o : Out) : (s.emit o).therm = s.therm := rfl
@[simp] theorem emit_canopy (o : Out) : (s.emit o).canopy = s.canopy := rfl
@[simp] theorem emit_glade (o : Out) : (s.emit o).glade = s.glade := rfl
@[simp] theorem emit_group (o : Out) : (s.emit o).group = s.group := rfl
@[simp] theorem emit_rlog (o : Out) : (s.emit o).rlog = s.rlog := rfl
@[simp] theorem emit_sec (o : Out) : (s.emit o).sec = s.sec := rfl
@[simp] theorem emit_side (o : Out) : (s.emit o).side = s.side := rfl
@[simp] theorem emit_dwood (o : Out) : (s.emit o).dwood = s.dwood := rfl

/-! `emitAll` -/

@[simp] theorem emitAll_regs (os : List Out) : (s.emitAll os).regs = s.regs := rfl
@[simp] theorem emitAll_pending (os : List Out) : (s.emitAll os).pending = s.pending := rfl
@[simp] theorem emitAll_now (os : List Out) : (s.emitAll os).now = s.now := rfl
@[simp] theorem emitAll_ftime (os : List Out) : (s.emitAll os).ftime = s.ftime := rfl
@[simp] theorem emitAll_freeCtr (os : List Out) : (s.emitAll os).freeCtr = s.freeCtr := rfl
@[simp] theorem emitAll_mod (os : List Out) : (s.emitAll os).mod = s.mod := rfl
@[simp] theorem emitAll_ctx (os : List Out) : (s.emitAll os).ctx = s.ctx := rfl
@[simp] theorem emitAll_evt (os : List Out) : (s.emitAll os).evt = s.evt := rfl
@[simp] theorem emitAll_clk (os : List Out) : (s.emitAll os).clk = s.clk := rfl
@[simp] theorem emitAll_links (os : List Out) : (s.emitAll os).links = s.links := rfl
@[simp] theorem emitAll_inbox (os : List Out) : (s.emitAll os).inbox = s.inbox := rfl
@[simp] theorem emitAll_stand (os : List Out) : (s.emitAll os).stand = s.stand := rfl
@[simp] theorem emitAll_image (os : List Out) : (s.emitAll os).image = s.image := rfl
@[simp] theorem emitAll_engines (os : List Out) : (s.emitAll os).engines = s.engines := rfl
@[simp] theorem emitAll_groves (os : List Out) : (s.emitAll os).groves = s.groves := rfl
@[simp] theorem emitAll_mem (os : List Out) : (s.emitAll os).mem = s.mem := rfl
@[simp] theorem emitAll_poison (os : List Out) : (s.emitAll os).poison = s.poison := rfl
@[simp] theorem emitAll_bg (os : List Out) : (s.emitAll os).bg = s.bg := rfl
@[simp] theorem emitAll_bgNext (os : List Out) : (s.emitAll os).bgNext = s.bgNext := rfl
@[simp] theorem emitAll_reduce (os : List Out) : (s.emitAll os).reduce = s.reduce := rfl
@[simp] theorem emitAll_lpddr (os : List Out) : (s.emitAll os).lpddr = s.lpddr := rfl
@[simp] theorem emitAll_boot (os : List Out) : (s.emitAll os).boot = s.boot := rfl
@[simp] theorem emitAll_host (os : List Out) : (s.emitAll os).host = s.host := rfl
@[simp] theorem emitAll_serve (os : List Out) : (s.emitAll os).serve = s.serve := rfl
@[simp] theorem emitAll_sample (os : List Out) : (s.emitAll os).sample = s.sample := rfl
@[simp] theorem emitAll_fluid (os : List Out) : (s.emitAll os).fluid = s.fluid := rfl
@[simp] theorem emitAll_coolant (os : List Out) : (s.emitAll os).coolant = s.coolant := rfl
@[simp] theorem emitAll_therm (os : List Out) : (s.emitAll os).therm = s.therm := rfl
@[simp] theorem emitAll_canopy (os : List Out) : (s.emitAll os).canopy = s.canopy := rfl
@[simp] theorem emitAll_glade (os : List Out) : (s.emitAll os).glade = s.glade := rfl
@[simp] theorem emitAll_group (os : List Out) : (s.emitAll os).group = s.group := rfl
@[simp] theorem emitAll_rlog (os : List Out) : (s.emitAll os).rlog = s.rlog := rfl
@[simp] theorem emitAll_sec (os : List Out) : (s.emitAll os).sec = s.sec := rfl
@[simp] theorem emitAll_side (os : List Out) : (s.emitAll os).side = s.side := rfl
@[simp] theorem emitAll_dwood (os : List Out) : (s.emitAll os).dwood = s.dwood := rfl

/-! `wr` -/

@[simp] theorem wr_pending (off : Nat) (v : Word) : (s.wr off v).pending = s.pending := rfl
@[simp] theorem wr_out (off : Nat) (v : Word) : (s.wr off v).out = s.out := rfl
@[simp] theorem wr_now (off : Nat) (v : Word) : (s.wr off v).now = s.now := rfl
@[simp] theorem wr_ftime (off : Nat) (v : Word) : (s.wr off v).ftime = s.ftime := rfl
@[simp] theorem wr_freeCtr (off : Nat) (v : Word) : (s.wr off v).freeCtr = s.freeCtr := rfl
@[simp] theorem wr_mod (off : Nat) (v : Word) : (s.wr off v).mod = s.mod := rfl
@[simp] theorem wr_ctx (off : Nat) (v : Word) : (s.wr off v).ctx = s.ctx := rfl
@[simp] theorem wr_evt (off : Nat) (v : Word) : (s.wr off v).evt = s.evt := rfl
@[simp] theorem wr_clk (off : Nat) (v : Word) : (s.wr off v).clk = s.clk := rfl
@[simp] theorem wr_links (off : Nat) (v : Word) : (s.wr off v).links = s.links := rfl
@[simp] theorem wr_inbox (off : Nat) (v : Word) : (s.wr off v).inbox = s.inbox := rfl
@[simp] theorem wr_stand (off : Nat) (v : Word) : (s.wr off v).stand = s.stand := rfl
@[simp] theorem wr_image (off : Nat) (v : Word) : (s.wr off v).image = s.image := rfl
@[simp] theorem wr_engines (off : Nat) (v : Word) : (s.wr off v).engines = s.engines := rfl
@[simp] theorem wr_groves (off : Nat) (v : Word) : (s.wr off v).groves = s.groves := rfl
@[simp] theorem wr_mem (off : Nat) (v : Word) : (s.wr off v).mem = s.mem := rfl
@[simp] theorem wr_poison (off : Nat) (v : Word) : (s.wr off v).poison = s.poison := rfl
@[simp] theorem wr_bg (off : Nat) (v : Word) : (s.wr off v).bg = s.bg := rfl
@[simp] theorem wr_bgNext (off : Nat) (v : Word) : (s.wr off v).bgNext = s.bgNext := rfl
@[simp] theorem wr_reduce (off : Nat) (v : Word) : (s.wr off v).reduce = s.reduce := rfl
@[simp] theorem wr_lpddr (off : Nat) (v : Word) : (s.wr off v).lpddr = s.lpddr := rfl
@[simp] theorem wr_boot (off : Nat) (v : Word) : (s.wr off v).boot = s.boot := rfl
@[simp] theorem wr_host (off : Nat) (v : Word) : (s.wr off v).host = s.host := rfl
@[simp] theorem wr_serve (off : Nat) (v : Word) : (s.wr off v).serve = s.serve := rfl
@[simp] theorem wr_sample (off : Nat) (v : Word) : (s.wr off v).sample = s.sample := rfl
@[simp] theorem wr_fluid (off : Nat) (v : Word) : (s.wr off v).fluid = s.fluid := rfl
@[simp] theorem wr_coolant (off : Nat) (v : Word) : (s.wr off v).coolant = s.coolant := rfl
@[simp] theorem wr_therm (off : Nat) (v : Word) : (s.wr off v).therm = s.therm := rfl
@[simp] theorem wr_canopy (off : Nat) (v : Word) : (s.wr off v).canopy = s.canopy := rfl
@[simp] theorem wr_glade (off : Nat) (v : Word) : (s.wr off v).glade = s.glade := rfl
@[simp] theorem wr_group (off : Nat) (v : Word) : (s.wr off v).group = s.group := rfl
@[simp] theorem wr_rlog (off : Nat) (v : Word) : (s.wr off v).rlog = s.rlog := rfl
@[simp] theorem wr_sec (off : Nat) (v : Word) : (s.wr off v).sec = s.sec := rfl
@[simp] theorem wr_side (off : Nat) (v : Word) : (s.wr off v).side = s.side := rfl
@[simp] theorem wr_dwood (off : Nat) (v : Word) : (s.wr off v).dwood = s.dwood := rfl

/-! `put` -/

@[simp] theorem put_pending (f : Fld) (x : Nat) : (s.put f x).pending = s.pending := rfl
@[simp] theorem put_out (f : Fld) (x : Nat) : (s.put f x).out = s.out := rfl
@[simp] theorem put_now (f : Fld) (x : Nat) : (s.put f x).now = s.now := rfl
@[simp] theorem put_ftime (f : Fld) (x : Nat) : (s.put f x).ftime = s.ftime := rfl
@[simp] theorem put_freeCtr (f : Fld) (x : Nat) : (s.put f x).freeCtr = s.freeCtr := rfl
@[simp] theorem put_mod (f : Fld) (x : Nat) : (s.put f x).mod = s.mod := rfl
@[simp] theorem put_ctx (f : Fld) (x : Nat) : (s.put f x).ctx = s.ctx := rfl
@[simp] theorem put_evt (f : Fld) (x : Nat) : (s.put f x).evt = s.evt := rfl
@[simp] theorem put_clk (f : Fld) (x : Nat) : (s.put f x).clk = s.clk := rfl
@[simp] theorem put_links (f : Fld) (x : Nat) : (s.put f x).links = s.links := rfl
@[simp] theorem put_inbox (f : Fld) (x : Nat) : (s.put f x).inbox = s.inbox := rfl
@[simp] theorem put_stand (f : Fld) (x : Nat) : (s.put f x).stand = s.stand := rfl
@[simp] theorem put_image (f : Fld) (x : Nat) : (s.put f x).image = s.image := rfl
@[simp] theorem put_engines (f : Fld) (x : Nat) : (s.put f x).engines = s.engines := rfl
@[simp] theorem put_groves (f : Fld) (x : Nat) : (s.put f x).groves = s.groves := rfl
@[simp] theorem put_mem (f : Fld) (x : Nat) : (s.put f x).mem = s.mem := rfl
@[simp] theorem put_poison (f : Fld) (x : Nat) : (s.put f x).poison = s.poison := rfl
@[simp] theorem put_bg (f : Fld) (x : Nat) : (s.put f x).bg = s.bg := rfl
@[simp] theorem put_bgNext (f : Fld) (x : Nat) : (s.put f x).bgNext = s.bgNext := rfl
@[simp] theorem put_reduce (f : Fld) (x : Nat) : (s.put f x).reduce = s.reduce := rfl
@[simp] theorem put_lpddr (f : Fld) (x : Nat) : (s.put f x).lpddr = s.lpddr := rfl
@[simp] theorem put_boot (f : Fld) (x : Nat) : (s.put f x).boot = s.boot := rfl
@[simp] theorem put_host (f : Fld) (x : Nat) : (s.put f x).host = s.host := rfl
@[simp] theorem put_serve (f : Fld) (x : Nat) : (s.put f x).serve = s.serve := rfl
@[simp] theorem put_sample (f : Fld) (x : Nat) : (s.put f x).sample = s.sample := rfl
@[simp] theorem put_fluid (f : Fld) (x : Nat) : (s.put f x).fluid = s.fluid := rfl
@[simp] theorem put_coolant (f : Fld) (x : Nat) : (s.put f x).coolant = s.coolant := rfl
@[simp] theorem put_therm (f : Fld) (x : Nat) : (s.put f x).therm = s.therm := rfl
@[simp] theorem put_canopy (f : Fld) (x : Nat) : (s.put f x).canopy = s.canopy := rfl
@[simp] theorem put_glade (f : Fld) (x : Nat) : (s.put f x).glade = s.glade := rfl
@[simp] theorem put_group (f : Fld) (x : Nat) : (s.put f x).group = s.group := rfl
@[simp] theorem put_rlog (f : Fld) (x : Nat) : (s.put f x).rlog = s.rlog := rfl
@[simp] theorem put_sec (f : Fld) (x : Nat) : (s.put f x).sec = s.sec := rfl
@[simp] theorem put_side (f : Fld) (x : Nat) : (s.put f x).side = s.side := rfl
@[simp] theorem put_dwood (f : Fld) (x : Nat) : (s.put f x).dwood = s.dwood := rfl

/-! `putB` -/

@[simp] theorem putB_pending (f : Fld) (b : Bool) : (s.putB f b).pending = s.pending := rfl
@[simp] theorem putB_out (f : Fld) (b : Bool) : (s.putB f b).out = s.out := rfl
@[simp] theorem putB_now (f : Fld) (b : Bool) : (s.putB f b).now = s.now := rfl
@[simp] theorem putB_ftime (f : Fld) (b : Bool) : (s.putB f b).ftime = s.ftime := rfl
@[simp] theorem putB_freeCtr (f : Fld) (b : Bool) : (s.putB f b).freeCtr = s.freeCtr := rfl
@[simp] theorem putB_mod (f : Fld) (b : Bool) : (s.putB f b).mod = s.mod := rfl
@[simp] theorem putB_ctx (f : Fld) (b : Bool) : (s.putB f b).ctx = s.ctx := rfl
@[simp] theorem putB_evt (f : Fld) (b : Bool) : (s.putB f b).evt = s.evt := rfl
@[simp] theorem putB_clk (f : Fld) (b : Bool) : (s.putB f b).clk = s.clk := rfl
@[simp] theorem putB_links (f : Fld) (b : Bool) : (s.putB f b).links = s.links := rfl
@[simp] theorem putB_inbox (f : Fld) (b : Bool) : (s.putB f b).inbox = s.inbox := rfl
@[simp] theorem putB_stand (f : Fld) (b : Bool) : (s.putB f b).stand = s.stand := rfl
@[simp] theorem putB_image (f : Fld) (b : Bool) : (s.putB f b).image = s.image := rfl
@[simp] theorem putB_engines (f : Fld) (b : Bool) : (s.putB f b).engines = s.engines := rfl
@[simp] theorem putB_groves (f : Fld) (b : Bool) : (s.putB f b).groves = s.groves := rfl
@[simp] theorem putB_mem (f : Fld) (b : Bool) : (s.putB f b).mem = s.mem := rfl
@[simp] theorem putB_poison (f : Fld) (b : Bool) : (s.putB f b).poison = s.poison := rfl
@[simp] theorem putB_bg (f : Fld) (b : Bool) : (s.putB f b).bg = s.bg := rfl
@[simp] theorem putB_bgNext (f : Fld) (b : Bool) : (s.putB f b).bgNext = s.bgNext := rfl
@[simp] theorem putB_reduce (f : Fld) (b : Bool) : (s.putB f b).reduce = s.reduce := rfl
@[simp] theorem putB_lpddr (f : Fld) (b : Bool) : (s.putB f b).lpddr = s.lpddr := rfl
@[simp] theorem putB_boot (f : Fld) (b : Bool) : (s.putB f b).boot = s.boot := rfl
@[simp] theorem putB_host (f : Fld) (b : Bool) : (s.putB f b).host = s.host := rfl
@[simp] theorem putB_serve (f : Fld) (b : Bool) : (s.putB f b).serve = s.serve := rfl
@[simp] theorem putB_sample (f : Fld) (b : Bool) : (s.putB f b).sample = s.sample := rfl
@[simp] theorem putB_fluid (f : Fld) (b : Bool) : (s.putB f b).fluid = s.fluid := rfl
@[simp] theorem putB_coolant (f : Fld) (b : Bool) : (s.putB f b).coolant = s.coolant := rfl
@[simp] theorem putB_therm (f : Fld) (b : Bool) : (s.putB f b).therm = s.therm := rfl
@[simp] theorem putB_canopy (f : Fld) (b : Bool) : (s.putB f b).canopy = s.canopy := rfl
@[simp] theorem putB_glade (f : Fld) (b : Bool) : (s.putB f b).glade = s.glade := rfl
@[simp] theorem putB_group (f : Fld) (b : Bool) : (s.putB f b).group = s.group := rfl
@[simp] theorem putB_rlog (f : Fld) (b : Bool) : (s.putB f b).rlog = s.rlog := rfl
@[simp] theorem putB_sec (f : Fld) (b : Bool) : (s.putB f b).sec = s.sec := rfl
@[simp] theorem putB_side (f : Fld) (b : Bool) : (s.putB f b).side = s.side := rfl
@[simp] theorem putB_dwood (f : Fld) (b : Bool) : (s.putB f b).dwood = s.dwood := rfl

/-! `bump` -/

@[simp] theorem bump_pending (off n : Nat) : (s.bump off n).pending = s.pending := rfl
@[simp] theorem bump_out (off n : Nat) : (s.bump off n).out = s.out := rfl
@[simp] theorem bump_now (off n : Nat) : (s.bump off n).now = s.now := rfl
@[simp] theorem bump_ftime (off n : Nat) : (s.bump off n).ftime = s.ftime := rfl
@[simp] theorem bump_freeCtr (off n : Nat) : (s.bump off n).freeCtr = s.freeCtr := rfl
@[simp] theorem bump_mod (off n : Nat) : (s.bump off n).mod = s.mod := rfl
@[simp] theorem bump_ctx (off n : Nat) : (s.bump off n).ctx = s.ctx := rfl
@[simp] theorem bump_evt (off n : Nat) : (s.bump off n).evt = s.evt := rfl
@[simp] theorem bump_clk (off n : Nat) : (s.bump off n).clk = s.clk := rfl
@[simp] theorem bump_links (off n : Nat) : (s.bump off n).links = s.links := rfl
@[simp] theorem bump_inbox (off n : Nat) : (s.bump off n).inbox = s.inbox := rfl
@[simp] theorem bump_stand (off n : Nat) : (s.bump off n).stand = s.stand := rfl
@[simp] theorem bump_image (off n : Nat) : (s.bump off n).image = s.image := rfl
@[simp] theorem bump_engines (off n : Nat) : (s.bump off n).engines = s.engines := rfl
@[simp] theorem bump_groves (off n : Nat) : (s.bump off n).groves = s.groves := rfl
@[simp] theorem bump_mem (off n : Nat) : (s.bump off n).mem = s.mem := rfl
@[simp] theorem bump_poison (off n : Nat) : (s.bump off n).poison = s.poison := rfl
@[simp] theorem bump_bg (off n : Nat) : (s.bump off n).bg = s.bg := rfl
@[simp] theorem bump_bgNext (off n : Nat) : (s.bump off n).bgNext = s.bgNext := rfl
@[simp] theorem bump_reduce (off n : Nat) : (s.bump off n).reduce = s.reduce := rfl
@[simp] theorem bump_lpddr (off n : Nat) : (s.bump off n).lpddr = s.lpddr := rfl
@[simp] theorem bump_boot (off n : Nat) : (s.bump off n).boot = s.boot := rfl
@[simp] theorem bump_host (off n : Nat) : (s.bump off n).host = s.host := rfl
@[simp] theorem bump_serve (off n : Nat) : (s.bump off n).serve = s.serve := rfl
@[simp] theorem bump_sample (off n : Nat) : (s.bump off n).sample = s.sample := rfl
@[simp] theorem bump_fluid (off n : Nat) : (s.bump off n).fluid = s.fluid := rfl
@[simp] theorem bump_coolant (off n : Nat) : (s.bump off n).coolant = s.coolant := rfl
@[simp] theorem bump_therm (off n : Nat) : (s.bump off n).therm = s.therm := rfl
@[simp] theorem bump_canopy (off n : Nat) : (s.bump off n).canopy = s.canopy := rfl
@[simp] theorem bump_glade (off n : Nat) : (s.bump off n).glade = s.glade := rfl
@[simp] theorem bump_group (off n : Nat) : (s.bump off n).group = s.group := rfl
@[simp] theorem bump_rlog (off n : Nat) : (s.bump off n).rlog = s.rlog := rfl
@[simp] theorem bump_sec (off n : Nat) : (s.bump off n).sec = s.sec := rfl
@[simp] theorem bump_side (off n : Nat) : (s.bump off n).side = s.side := rfl
@[simp] theorem bump_dwood (off n : Nat) : (s.bump off n).dwood = s.dwood := rfl

/-! `bumpW` -/

@[simp] theorem bumpW_pending (off n : Nat) : (s.bumpW off n).pending = s.pending := rfl
@[simp] theorem bumpW_out (off n : Nat) : (s.bumpW off n).out = s.out := rfl
@[simp] theorem bumpW_now (off n : Nat) : (s.bumpW off n).now = s.now := rfl
@[simp] theorem bumpW_ftime (off n : Nat) : (s.bumpW off n).ftime = s.ftime := rfl
@[simp] theorem bumpW_freeCtr (off n : Nat) : (s.bumpW off n).freeCtr = s.freeCtr := rfl
@[simp] theorem bumpW_mod (off n : Nat) : (s.bumpW off n).mod = s.mod := rfl
@[simp] theorem bumpW_ctx (off n : Nat) : (s.bumpW off n).ctx = s.ctx := rfl
@[simp] theorem bumpW_evt (off n : Nat) : (s.bumpW off n).evt = s.evt := rfl
@[simp] theorem bumpW_clk (off n : Nat) : (s.bumpW off n).clk = s.clk := rfl
@[simp] theorem bumpW_links (off n : Nat) : (s.bumpW off n).links = s.links := rfl
@[simp] theorem bumpW_inbox (off n : Nat) : (s.bumpW off n).inbox = s.inbox := rfl
@[simp] theorem bumpW_stand (off n : Nat) : (s.bumpW off n).stand = s.stand := rfl
@[simp] theorem bumpW_image (off n : Nat) : (s.bumpW off n).image = s.image := rfl
@[simp] theorem bumpW_engines (off n : Nat) : (s.bumpW off n).engines = s.engines := rfl
@[simp] theorem bumpW_groves (off n : Nat) : (s.bumpW off n).groves = s.groves := rfl
@[simp] theorem bumpW_mem (off n : Nat) : (s.bumpW off n).mem = s.mem := rfl
@[simp] theorem bumpW_poison (off n : Nat) : (s.bumpW off n).poison = s.poison := rfl
@[simp] theorem bumpW_bg (off n : Nat) : (s.bumpW off n).bg = s.bg := rfl
@[simp] theorem bumpW_bgNext (off n : Nat) : (s.bumpW off n).bgNext = s.bgNext := rfl
@[simp] theorem bumpW_reduce (off n : Nat) : (s.bumpW off n).reduce = s.reduce := rfl
@[simp] theorem bumpW_lpddr (off n : Nat) : (s.bumpW off n).lpddr = s.lpddr := rfl
@[simp] theorem bumpW_boot (off n : Nat) : (s.bumpW off n).boot = s.boot := rfl
@[simp] theorem bumpW_host (off n : Nat) : (s.bumpW off n).host = s.host := rfl
@[simp] theorem bumpW_serve (off n : Nat) : (s.bumpW off n).serve = s.serve := rfl
@[simp] theorem bumpW_sample (off n : Nat) : (s.bumpW off n).sample = s.sample := rfl
@[simp] theorem bumpW_fluid (off n : Nat) : (s.bumpW off n).fluid = s.fluid := rfl
@[simp] theorem bumpW_coolant (off n : Nat) : (s.bumpW off n).coolant = s.coolant := rfl
@[simp] theorem bumpW_therm (off n : Nat) : (s.bumpW off n).therm = s.therm := rfl
@[simp] theorem bumpW_canopy (off n : Nat) : (s.bumpW off n).canopy = s.canopy := rfl
@[simp] theorem bumpW_glade (off n : Nat) : (s.bumpW off n).glade = s.glade := rfl
@[simp] theorem bumpW_group (off n : Nat) : (s.bumpW off n).group = s.group := rfl
@[simp] theorem bumpW_rlog (off n : Nat) : (s.bumpW off n).rlog = s.rlog := rfl
@[simp] theorem bumpW_sec (off n : Nat) : (s.bumpW off n).sec = s.sec := rfl
@[simp] theorem bumpW_side (off n : Nat) : (s.bumpW off n).side = s.side := rfl
@[simp] theorem bumpW_dwood (off n : Nat) : (s.bumpW off n).dwood = s.dwood := rfl

/-! `bumpF` -/

@[simp] theorem bumpF_pending (f : Fld) (n : Nat) : (s.bumpF f n).pending = s.pending := rfl
@[simp] theorem bumpF_out (f : Fld) (n : Nat) : (s.bumpF f n).out = s.out := rfl
@[simp] theorem bumpF_now (f : Fld) (n : Nat) : (s.bumpF f n).now = s.now := rfl
@[simp] theorem bumpF_ftime (f : Fld) (n : Nat) : (s.bumpF f n).ftime = s.ftime := rfl
@[simp] theorem bumpF_freeCtr (f : Fld) (n : Nat) : (s.bumpF f n).freeCtr = s.freeCtr := rfl
@[simp] theorem bumpF_mod (f : Fld) (n : Nat) : (s.bumpF f n).mod = s.mod := rfl
@[simp] theorem bumpF_ctx (f : Fld) (n : Nat) : (s.bumpF f n).ctx = s.ctx := rfl
@[simp] theorem bumpF_evt (f : Fld) (n : Nat) : (s.bumpF f n).evt = s.evt := rfl
@[simp] theorem bumpF_clk (f : Fld) (n : Nat) : (s.bumpF f n).clk = s.clk := rfl
@[simp] theorem bumpF_links (f : Fld) (n : Nat) : (s.bumpF f n).links = s.links := rfl
@[simp] theorem bumpF_inbox (f : Fld) (n : Nat) : (s.bumpF f n).inbox = s.inbox := rfl
@[simp] theorem bumpF_stand (f : Fld) (n : Nat) : (s.bumpF f n).stand = s.stand := rfl
@[simp] theorem bumpF_image (f : Fld) (n : Nat) : (s.bumpF f n).image = s.image := rfl
@[simp] theorem bumpF_engines (f : Fld) (n : Nat) : (s.bumpF f n).engines = s.engines := rfl
@[simp] theorem bumpF_groves (f : Fld) (n : Nat) : (s.bumpF f n).groves = s.groves := rfl
@[simp] theorem bumpF_mem (f : Fld) (n : Nat) : (s.bumpF f n).mem = s.mem := rfl
@[simp] theorem bumpF_poison (f : Fld) (n : Nat) : (s.bumpF f n).poison = s.poison := rfl
@[simp] theorem bumpF_bg (f : Fld) (n : Nat) : (s.bumpF f n).bg = s.bg := rfl
@[simp] theorem bumpF_bgNext (f : Fld) (n : Nat) : (s.bumpF f n).bgNext = s.bgNext := rfl
@[simp] theorem bumpF_reduce (f : Fld) (n : Nat) : (s.bumpF f n).reduce = s.reduce := rfl
@[simp] theorem bumpF_lpddr (f : Fld) (n : Nat) : (s.bumpF f n).lpddr = s.lpddr := rfl
@[simp] theorem bumpF_boot (f : Fld) (n : Nat) : (s.bumpF f n).boot = s.boot := rfl
@[simp] theorem bumpF_host (f : Fld) (n : Nat) : (s.bumpF f n).host = s.host := rfl
@[simp] theorem bumpF_serve (f : Fld) (n : Nat) : (s.bumpF f n).serve = s.serve := rfl
@[simp] theorem bumpF_sample (f : Fld) (n : Nat) : (s.bumpF f n).sample = s.sample := rfl
@[simp] theorem bumpF_fluid (f : Fld) (n : Nat) : (s.bumpF f n).fluid = s.fluid := rfl
@[simp] theorem bumpF_coolant (f : Fld) (n : Nat) : (s.bumpF f n).coolant = s.coolant := rfl
@[simp] theorem bumpF_therm (f : Fld) (n : Nat) : (s.bumpF f n).therm = s.therm := rfl
@[simp] theorem bumpF_canopy (f : Fld) (n : Nat) : (s.bumpF f n).canopy = s.canopy := rfl
@[simp] theorem bumpF_glade (f : Fld) (n : Nat) : (s.bumpF f n).glade = s.glade := rfl
@[simp] theorem bumpF_group (f : Fld) (n : Nat) : (s.bumpF f n).group = s.group := rfl
@[simp] theorem bumpF_rlog (f : Fld) (n : Nat) : (s.bumpF f n).rlog = s.rlog := rfl
@[simp] theorem bumpF_sec (f : Fld) (n : Nat) : (s.bumpF f n).sec = s.sec := rfl
@[simp] theorem bumpF_side (f : Fld) (n : Nat) : (s.bumpF f n).side = s.side := rfl
@[simp] theorem bumpF_dwood (f : Fld) (n : Nat) : (s.bumpF f n).dwood = s.dwood := rfl

/-! `wr64` -/

@[simp] theorem wr64_pending (lo : Nat) (v : Dword) : (s.wr64 lo v).pending = s.pending := rfl
@[simp] theorem wr64_out (lo : Nat) (v : Dword) : (s.wr64 lo v).out = s.out := rfl
@[simp] theorem wr64_now (lo : Nat) (v : Dword) : (s.wr64 lo v).now = s.now := rfl
@[simp] theorem wr64_ftime (lo : Nat) (v : Dword) : (s.wr64 lo v).ftime = s.ftime := rfl
@[simp] theorem wr64_freeCtr (lo : Nat) (v : Dword) : (s.wr64 lo v).freeCtr = s.freeCtr := rfl
@[simp] theorem wr64_mod (lo : Nat) (v : Dword) : (s.wr64 lo v).mod = s.mod := rfl
@[simp] theorem wr64_ctx (lo : Nat) (v : Dword) : (s.wr64 lo v).ctx = s.ctx := rfl
@[simp] theorem wr64_evt (lo : Nat) (v : Dword) : (s.wr64 lo v).evt = s.evt := rfl
@[simp] theorem wr64_clk (lo : Nat) (v : Dword) : (s.wr64 lo v).clk = s.clk := rfl
@[simp] theorem wr64_links (lo : Nat) (v : Dword) : (s.wr64 lo v).links = s.links := rfl
@[simp] theorem wr64_inbox (lo : Nat) (v : Dword) : (s.wr64 lo v).inbox = s.inbox := rfl
@[simp] theorem wr64_stand (lo : Nat) (v : Dword) : (s.wr64 lo v).stand = s.stand := rfl
@[simp] theorem wr64_image (lo : Nat) (v : Dword) : (s.wr64 lo v).image = s.image := rfl
@[simp] theorem wr64_engines (lo : Nat) (v : Dword) : (s.wr64 lo v).engines = s.engines := rfl
@[simp] theorem wr64_groves (lo : Nat) (v : Dword) : (s.wr64 lo v).groves = s.groves := rfl
@[simp] theorem wr64_mem (lo : Nat) (v : Dword) : (s.wr64 lo v).mem = s.mem := rfl
@[simp] theorem wr64_poison (lo : Nat) (v : Dword) : (s.wr64 lo v).poison = s.poison := rfl
@[simp] theorem wr64_bg (lo : Nat) (v : Dword) : (s.wr64 lo v).bg = s.bg := rfl
@[simp] theorem wr64_bgNext (lo : Nat) (v : Dword) : (s.wr64 lo v).bgNext = s.bgNext := rfl
@[simp] theorem wr64_reduce (lo : Nat) (v : Dword) : (s.wr64 lo v).reduce = s.reduce := rfl
@[simp] theorem wr64_lpddr (lo : Nat) (v : Dword) : (s.wr64 lo v).lpddr = s.lpddr := rfl
@[simp] theorem wr64_boot (lo : Nat) (v : Dword) : (s.wr64 lo v).boot = s.boot := rfl
@[simp] theorem wr64_host (lo : Nat) (v : Dword) : (s.wr64 lo v).host = s.host := rfl
@[simp] theorem wr64_serve (lo : Nat) (v : Dword) : (s.wr64 lo v).serve = s.serve := rfl
@[simp] theorem wr64_sample (lo : Nat) (v : Dword) : (s.wr64 lo v).sample = s.sample := rfl
@[simp] theorem wr64_fluid (lo : Nat) (v : Dword) : (s.wr64 lo v).fluid = s.fluid := rfl
@[simp] theorem wr64_coolant (lo : Nat) (v : Dword) : (s.wr64 lo v).coolant = s.coolant := rfl
@[simp] theorem wr64_therm (lo : Nat) (v : Dword) : (s.wr64 lo v).therm = s.therm := rfl
@[simp] theorem wr64_canopy (lo : Nat) (v : Dword) : (s.wr64 lo v).canopy = s.canopy := rfl
@[simp] theorem wr64_glade (lo : Nat) (v : Dword) : (s.wr64 lo v).glade = s.glade := rfl
@[simp] theorem wr64_group (lo : Nat) (v : Dword) : (s.wr64 lo v).group = s.group := rfl
@[simp] theorem wr64_rlog (lo : Nat) (v : Dword) : (s.wr64 lo v).rlog = s.rlog := rfl
@[simp] theorem wr64_sec (lo : Nat) (v : Dword) : (s.wr64 lo v).sec = s.sec := rfl
@[simp] theorem wr64_side (lo : Nat) (v : Dword) : (s.wr64 lo v).side = s.side := rfl
@[simp] theorem wr64_dwood (lo : Nat) (v : Dword) : (s.wr64 lo v).dwood = s.dwood := rfl

/-! `bump64` -/

@[simp] theorem bump64_pending (lo n : Nat) : (s.bump64 lo n).pending = s.pending := rfl
@[simp] theorem bump64_out (lo n : Nat) : (s.bump64 lo n).out = s.out := rfl
@[simp] theorem bump64_now (lo n : Nat) : (s.bump64 lo n).now = s.now := rfl
@[simp] theorem bump64_ftime (lo n : Nat) : (s.bump64 lo n).ftime = s.ftime := rfl
@[simp] theorem bump64_freeCtr (lo n : Nat) : (s.bump64 lo n).freeCtr = s.freeCtr := rfl
@[simp] theorem bump64_mod (lo n : Nat) : (s.bump64 lo n).mod = s.mod := rfl
@[simp] theorem bump64_ctx (lo n : Nat) : (s.bump64 lo n).ctx = s.ctx := rfl
@[simp] theorem bump64_evt (lo n : Nat) : (s.bump64 lo n).evt = s.evt := rfl
@[simp] theorem bump64_clk (lo n : Nat) : (s.bump64 lo n).clk = s.clk := rfl
@[simp] theorem bump64_links (lo n : Nat) : (s.bump64 lo n).links = s.links := rfl
@[simp] theorem bump64_inbox (lo n : Nat) : (s.bump64 lo n).inbox = s.inbox := rfl
@[simp] theorem bump64_stand (lo n : Nat) : (s.bump64 lo n).stand = s.stand := rfl
@[simp] theorem bump64_image (lo n : Nat) : (s.bump64 lo n).image = s.image := rfl
@[simp] theorem bump64_engines (lo n : Nat) : (s.bump64 lo n).engines = s.engines := rfl
@[simp] theorem bump64_groves (lo n : Nat) : (s.bump64 lo n).groves = s.groves := rfl
@[simp] theorem bump64_mem (lo n : Nat) : (s.bump64 lo n).mem = s.mem := rfl
@[simp] theorem bump64_poison (lo n : Nat) : (s.bump64 lo n).poison = s.poison := rfl
@[simp] theorem bump64_bg (lo n : Nat) : (s.bump64 lo n).bg = s.bg := rfl
@[simp] theorem bump64_bgNext (lo n : Nat) : (s.bump64 lo n).bgNext = s.bgNext := rfl
@[simp] theorem bump64_reduce (lo n : Nat) : (s.bump64 lo n).reduce = s.reduce := rfl
@[simp] theorem bump64_lpddr (lo n : Nat) : (s.bump64 lo n).lpddr = s.lpddr := rfl
@[simp] theorem bump64_boot (lo n : Nat) : (s.bump64 lo n).boot = s.boot := rfl
@[simp] theorem bump64_host (lo n : Nat) : (s.bump64 lo n).host = s.host := rfl
@[simp] theorem bump64_serve (lo n : Nat) : (s.bump64 lo n).serve = s.serve := rfl
@[simp] theorem bump64_sample (lo n : Nat) : (s.bump64 lo n).sample = s.sample := rfl
@[simp] theorem bump64_fluid (lo n : Nat) : (s.bump64 lo n).fluid = s.fluid := rfl
@[simp] theorem bump64_coolant (lo n : Nat) : (s.bump64 lo n).coolant = s.coolant := rfl
@[simp] theorem bump64_therm (lo n : Nat) : (s.bump64 lo n).therm = s.therm := rfl
@[simp] theorem bump64_canopy (lo n : Nat) : (s.bump64 lo n).canopy = s.canopy := rfl
@[simp] theorem bump64_glade (lo n : Nat) : (s.bump64 lo n).glade = s.glade := rfl
@[simp] theorem bump64_group (lo n : Nat) : (s.bump64 lo n).group = s.group := rfl
@[simp] theorem bump64_rlog (lo n : Nat) : (s.bump64 lo n).rlog = s.rlog := rfl
@[simp] theorem bump64_sec (lo n : Nat) : (s.bump64 lo n).sec = s.sec := rfl
@[simp] theorem bump64_side (lo n : Nat) : (s.bump64 lo n).side = s.side := rfl
@[simp] theorem bump64_dwood (lo n : Nat) : (s.bump64 lo n).dwood = s.dwood := rfl

/-! `resetRegs` -/

@[simp] theorem resetRegs_pending (offs : List Nat) : (s.resetRegs offs).pending = s.pending := rfl
@[simp] theorem resetRegs_out (offs : List Nat) : (s.resetRegs offs).out = s.out := rfl
@[simp] theorem resetRegs_now (offs : List Nat) : (s.resetRegs offs).now = s.now := rfl
@[simp] theorem resetRegs_ftime (offs : List Nat) : (s.resetRegs offs).ftime = s.ftime := rfl
@[simp] theorem resetRegs_freeCtr (offs : List Nat) : (s.resetRegs offs).freeCtr = s.freeCtr := rfl
@[simp] theorem resetRegs_mod (offs : List Nat) : (s.resetRegs offs).mod = s.mod := rfl
@[simp] theorem resetRegs_ctx (offs : List Nat) : (s.resetRegs offs).ctx = s.ctx := rfl
@[simp] theorem resetRegs_evt (offs : List Nat) : (s.resetRegs offs).evt = s.evt := rfl
@[simp] theorem resetRegs_clk (offs : List Nat) : (s.resetRegs offs).clk = s.clk := rfl
@[simp] theorem resetRegs_links (offs : List Nat) : (s.resetRegs offs).links = s.links := rfl
@[simp] theorem resetRegs_inbox (offs : List Nat) : (s.resetRegs offs).inbox = s.inbox := rfl
@[simp] theorem resetRegs_stand (offs : List Nat) : (s.resetRegs offs).stand = s.stand := rfl
@[simp] theorem resetRegs_image (offs : List Nat) : (s.resetRegs offs).image = s.image := rfl
@[simp] theorem resetRegs_engines (offs : List Nat) : (s.resetRegs offs).engines = s.engines := rfl
@[simp] theorem resetRegs_groves (offs : List Nat) : (s.resetRegs offs).groves = s.groves := rfl
@[simp] theorem resetRegs_mem (offs : List Nat) : (s.resetRegs offs).mem = s.mem := rfl
@[simp] theorem resetRegs_poison (offs : List Nat) : (s.resetRegs offs).poison = s.poison := rfl
@[simp] theorem resetRegs_bg (offs : List Nat) : (s.resetRegs offs).bg = s.bg := rfl
@[simp] theorem resetRegs_bgNext (offs : List Nat) : (s.resetRegs offs).bgNext = s.bgNext := rfl
@[simp] theorem resetRegs_reduce (offs : List Nat) : (s.resetRegs offs).reduce = s.reduce := rfl
@[simp] theorem resetRegs_lpddr (offs : List Nat) : (s.resetRegs offs).lpddr = s.lpddr := rfl
@[simp] theorem resetRegs_boot (offs : List Nat) : (s.resetRegs offs).boot = s.boot := rfl
@[simp] theorem resetRegs_host (offs : List Nat) : (s.resetRegs offs).host = s.host := rfl
@[simp] theorem resetRegs_serve (offs : List Nat) : (s.resetRegs offs).serve = s.serve := rfl
@[simp] theorem resetRegs_sample (offs : List Nat) : (s.resetRegs offs).sample = s.sample := rfl
@[simp] theorem resetRegs_fluid (offs : List Nat) : (s.resetRegs offs).fluid = s.fluid := rfl
@[simp] theorem resetRegs_coolant (offs : List Nat) : (s.resetRegs offs).coolant = s.coolant := rfl
@[simp] theorem resetRegs_therm (offs : List Nat) : (s.resetRegs offs).therm = s.therm := rfl
@[simp] theorem resetRegs_canopy (offs : List Nat) : (s.resetRegs offs).canopy = s.canopy := rfl
@[simp] theorem resetRegs_glade (offs : List Nat) : (s.resetRegs offs).glade = s.glade := rfl
@[simp] theorem resetRegs_group (offs : List Nat) : (s.resetRegs offs).group = s.group := rfl
@[simp] theorem resetRegs_rlog (offs : List Nat) : (s.resetRegs offs).rlog = s.rlog := rfl
@[simp] theorem resetRegs_sec (offs : List Nat) : (s.resetRegs offs).sec = s.sec := rfl
@[simp] theorem resetRegs_side (offs : List Nat) : (s.resetRegs offs).side = s.side := rfl
@[simp] theorem resetRegs_dwood (offs : List Nat) : (s.resetRegs offs).dwood = s.dwood := rfl

/-! `resetBlock` -/

@[simp] theorem resetBlock_pending (pg : Nat) : (s.resetBlock pg).pending = s.pending := rfl
@[simp] theorem resetBlock_out (pg : Nat) : (s.resetBlock pg).out = s.out := rfl
@[simp] theorem resetBlock_now (pg : Nat) : (s.resetBlock pg).now = s.now := rfl
@[simp] theorem resetBlock_ftime (pg : Nat) : (s.resetBlock pg).ftime = s.ftime := rfl
@[simp] theorem resetBlock_freeCtr (pg : Nat) : (s.resetBlock pg).freeCtr = s.freeCtr := rfl
@[simp] theorem resetBlock_mod (pg : Nat) : (s.resetBlock pg).mod = s.mod := rfl
@[simp] theorem resetBlock_ctx (pg : Nat) : (s.resetBlock pg).ctx = s.ctx := rfl
@[simp] theorem resetBlock_evt (pg : Nat) : (s.resetBlock pg).evt = s.evt := rfl
@[simp] theorem resetBlock_clk (pg : Nat) : (s.resetBlock pg).clk = s.clk := rfl
@[simp] theorem resetBlock_links (pg : Nat) : (s.resetBlock pg).links = s.links := rfl
@[simp] theorem resetBlock_inbox (pg : Nat) : (s.resetBlock pg).inbox = s.inbox := rfl
@[simp] theorem resetBlock_stand (pg : Nat) : (s.resetBlock pg).stand = s.stand := rfl
@[simp] theorem resetBlock_image (pg : Nat) : (s.resetBlock pg).image = s.image := rfl
@[simp] theorem resetBlock_engines (pg : Nat) : (s.resetBlock pg).engines = s.engines := rfl
@[simp] theorem resetBlock_groves (pg : Nat) : (s.resetBlock pg).groves = s.groves := rfl
@[simp] theorem resetBlock_mem (pg : Nat) : (s.resetBlock pg).mem = s.mem := rfl
@[simp] theorem resetBlock_poison (pg : Nat) : (s.resetBlock pg).poison = s.poison := rfl
@[simp] theorem resetBlock_bg (pg : Nat) : (s.resetBlock pg).bg = s.bg := rfl
@[simp] theorem resetBlock_bgNext (pg : Nat) : (s.resetBlock pg).bgNext = s.bgNext := rfl
@[simp] theorem resetBlock_reduce (pg : Nat) : (s.resetBlock pg).reduce = s.reduce := rfl
@[simp] theorem resetBlock_lpddr (pg : Nat) : (s.resetBlock pg).lpddr = s.lpddr := rfl
@[simp] theorem resetBlock_boot (pg : Nat) : (s.resetBlock pg).boot = s.boot := rfl
@[simp] theorem resetBlock_host (pg : Nat) : (s.resetBlock pg).host = s.host := rfl
@[simp] theorem resetBlock_serve (pg : Nat) : (s.resetBlock pg).serve = s.serve := rfl
@[simp] theorem resetBlock_sample (pg : Nat) : (s.resetBlock pg).sample = s.sample := rfl
@[simp] theorem resetBlock_fluid (pg : Nat) : (s.resetBlock pg).fluid = s.fluid := rfl
@[simp] theorem resetBlock_coolant (pg : Nat) : (s.resetBlock pg).coolant = s.coolant := rfl
@[simp] theorem resetBlock_therm (pg : Nat) : (s.resetBlock pg).therm = s.therm := rfl
@[simp] theorem resetBlock_canopy (pg : Nat) : (s.resetBlock pg).canopy = s.canopy := rfl
@[simp] theorem resetBlock_glade (pg : Nat) : (s.resetBlock pg).glade = s.glade := rfl
@[simp] theorem resetBlock_group (pg : Nat) : (s.resetBlock pg).group = s.group := rfl
@[simp] theorem resetBlock_rlog (pg : Nat) : (s.resetBlock pg).rlog = s.rlog := rfl
@[simp] theorem resetBlock_sec (pg : Nat) : (s.resetBlock pg).sec = s.sec := rfl
@[simp] theorem resetBlock_side (pg : Nat) : (s.resetBlock pg).side = s.side := rfl
@[simp] theorem resetBlock_dwood (pg : Nat) : (s.resetBlock pg).dwood = s.dwood := rfl

/-! `errInc` -/

@[simp] theorem errInc_pending (pg : Nat) : (s.errInc pg).pending = s.pending := rfl
@[simp] theorem errInc_out (pg : Nat) : (s.errInc pg).out = s.out := rfl
@[simp] theorem errInc_now (pg : Nat) : (s.errInc pg).now = s.now := rfl
@[simp] theorem errInc_ftime (pg : Nat) : (s.errInc pg).ftime = s.ftime := rfl
@[simp] theorem errInc_freeCtr (pg : Nat) : (s.errInc pg).freeCtr = s.freeCtr := rfl
@[simp] theorem errInc_mod (pg : Nat) : (s.errInc pg).mod = s.mod := rfl
@[simp] theorem errInc_ctx (pg : Nat) : (s.errInc pg).ctx = s.ctx := rfl
@[simp] theorem errInc_evt (pg : Nat) : (s.errInc pg).evt = s.evt := rfl
@[simp] theorem errInc_clk (pg : Nat) : (s.errInc pg).clk = s.clk := rfl
@[simp] theorem errInc_links (pg : Nat) : (s.errInc pg).links = s.links := rfl
@[simp] theorem errInc_inbox (pg : Nat) : (s.errInc pg).inbox = s.inbox := rfl
@[simp] theorem errInc_stand (pg : Nat) : (s.errInc pg).stand = s.stand := rfl
@[simp] theorem errInc_image (pg : Nat) : (s.errInc pg).image = s.image := rfl
@[simp] theorem errInc_engines (pg : Nat) : (s.errInc pg).engines = s.engines := rfl
@[simp] theorem errInc_groves (pg : Nat) : (s.errInc pg).groves = s.groves := rfl
@[simp] theorem errInc_mem (pg : Nat) : (s.errInc pg).mem = s.mem := rfl
@[simp] theorem errInc_poison (pg : Nat) : (s.errInc pg).poison = s.poison := rfl
@[simp] theorem errInc_bg (pg : Nat) : (s.errInc pg).bg = s.bg := rfl
@[simp] theorem errInc_bgNext (pg : Nat) : (s.errInc pg).bgNext = s.bgNext := rfl
@[simp] theorem errInc_reduce (pg : Nat) : (s.errInc pg).reduce = s.reduce := rfl
@[simp] theorem errInc_lpddr (pg : Nat) : (s.errInc pg).lpddr = s.lpddr := rfl
@[simp] theorem errInc_boot (pg : Nat) : (s.errInc pg).boot = s.boot := rfl
@[simp] theorem errInc_host (pg : Nat) : (s.errInc pg).host = s.host := rfl
@[simp] theorem errInc_serve (pg : Nat) : (s.errInc pg).serve = s.serve := rfl
@[simp] theorem errInc_sample (pg : Nat) : (s.errInc pg).sample = s.sample := rfl
@[simp] theorem errInc_fluid (pg : Nat) : (s.errInc pg).fluid = s.fluid := rfl
@[simp] theorem errInc_coolant (pg : Nat) : (s.errInc pg).coolant = s.coolant := rfl
@[simp] theorem errInc_therm (pg : Nat) : (s.errInc pg).therm = s.therm := rfl
@[simp] theorem errInc_canopy (pg : Nat) : (s.errInc pg).canopy = s.canopy := rfl
@[simp] theorem errInc_glade (pg : Nat) : (s.errInc pg).glade = s.glade := rfl
@[simp] theorem errInc_group (pg : Nat) : (s.errInc pg).group = s.group := rfl
@[simp] theorem errInc_rlog (pg : Nat) : (s.errInc pg).rlog = s.rlog := rfl
@[simp] theorem errInc_sec (pg : Nat) : (s.errInc pg).sec = s.sec := rfl
@[simp] theorem errInc_side (pg : Nat) : (s.errInc pg).side = s.side := rfl
@[simp] theorem errInc_dwood (pg : Nat) : (s.errInc pg).dwood = s.dwood := rfl

/-! `countDrop` -/

@[simp] theorem countDrop_pending (code : Nat) : (s.countDrop code).pending = s.pending := rfl
@[simp] theorem countDrop_out (code : Nat) : (s.countDrop code).out = s.out := rfl
@[simp] theorem countDrop_now (code : Nat) : (s.countDrop code).now = s.now := rfl
@[simp] theorem countDrop_ftime (code : Nat) : (s.countDrop code).ftime = s.ftime := rfl
@[simp] theorem countDrop_freeCtr (code : Nat) : (s.countDrop code).freeCtr = s.freeCtr := rfl
@[simp] theorem countDrop_mod (code : Nat) : (s.countDrop code).mod = s.mod := rfl
@[simp] theorem countDrop_ctx (code : Nat) : (s.countDrop code).ctx = s.ctx := rfl
@[simp] theorem countDrop_evt (code : Nat) : (s.countDrop code).evt = s.evt := rfl
@[simp] theorem countDrop_clk (code : Nat) : (s.countDrop code).clk = s.clk := rfl
@[simp] theorem countDrop_links (code : Nat) : (s.countDrop code).links = s.links := rfl
@[simp] theorem countDrop_inbox (code : Nat) : (s.countDrop code).inbox = s.inbox := rfl
@[simp] theorem countDrop_stand (code : Nat) : (s.countDrop code).stand = s.stand := rfl
@[simp] theorem countDrop_image (code : Nat) : (s.countDrop code).image = s.image := rfl
@[simp] theorem countDrop_engines (code : Nat) : (s.countDrop code).engines = s.engines := rfl
@[simp] theorem countDrop_groves (code : Nat) : (s.countDrop code).groves = s.groves := rfl
@[simp] theorem countDrop_mem (code : Nat) : (s.countDrop code).mem = s.mem := rfl
@[simp] theorem countDrop_poison (code : Nat) : (s.countDrop code).poison = s.poison := rfl
@[simp] theorem countDrop_bg (code : Nat) : (s.countDrop code).bg = s.bg := rfl
@[simp] theorem countDrop_bgNext (code : Nat) : (s.countDrop code).bgNext = s.bgNext := rfl
@[simp] theorem countDrop_reduce (code : Nat) : (s.countDrop code).reduce = s.reduce := rfl
@[simp] theorem countDrop_lpddr (code : Nat) : (s.countDrop code).lpddr = s.lpddr := rfl
@[simp] theorem countDrop_boot (code : Nat) : (s.countDrop code).boot = s.boot := rfl
@[simp] theorem countDrop_host (code : Nat) : (s.countDrop code).host = s.host := rfl
@[simp] theorem countDrop_serve (code : Nat) : (s.countDrop code).serve = s.serve := rfl
@[simp] theorem countDrop_sample (code : Nat) : (s.countDrop code).sample = s.sample := rfl
@[simp] theorem countDrop_fluid (code : Nat) : (s.countDrop code).fluid = s.fluid := rfl
@[simp] theorem countDrop_coolant (code : Nat) : (s.countDrop code).coolant = s.coolant := rfl
@[simp] theorem countDrop_therm (code : Nat) : (s.countDrop code).therm = s.therm := rfl
@[simp] theorem countDrop_canopy (code : Nat) : (s.countDrop code).canopy = s.canopy := rfl
@[simp] theorem countDrop_glade (code : Nat) : (s.countDrop code).glade = s.glade := rfl
@[simp] theorem countDrop_group (code : Nat) : (s.countDrop code).group = s.group := rfl
@[simp] theorem countDrop_rlog (code : Nat) : (s.countDrop code).rlog = s.rlog := rfl
@[simp] theorem countDrop_sec (code : Nat) : (s.countDrop code).sec = s.sec := rfl
@[simp] theorem countDrop_side (code : Nat) : (s.countDrop code).side = s.side := rfl
@[simp] theorem countDrop_dwood (code : Nat) : (s.countDrop code).dwood = s.dwood := rfl

/-! `refuse` -/

@[simp] theorem refuse_pending (req : Req) (off cause : Nat) (rd : Bool) : (s.refuse req off cause rd).pending = s.pending := rfl
@[simp] theorem refuse_out (req : Req) (off cause : Nat) (rd : Bool) : (s.refuse req off cause rd).out = s.out := rfl
@[simp] theorem refuse_now (req : Req) (off cause : Nat) (rd : Bool) : (s.refuse req off cause rd).now = s.now := rfl
@[simp] theorem refuse_ftime (req : Req) (off cause : Nat) (rd : Bool) : (s.refuse req off cause rd).ftime = s.ftime := rfl
@[simp] theorem refuse_freeCtr (req : Req) (off cause : Nat) (rd : Bool) : (s.refuse req off cause rd).freeCtr = s.freeCtr := rfl
@[simp] theorem refuse_mod (req : Req) (off cause : Nat) (rd : Bool) : (s.refuse req off cause rd).mod = s.mod := rfl
@[simp] theorem refuse_ctx (req : Req) (off cause : Nat) (rd : Bool) : (s.refuse req off cause rd).ctx = s.ctx := rfl
@[simp] theorem refuse_evt (req : Req) (off cause : Nat) (rd : Bool) : (s.refuse req off cause rd).evt = s.evt := rfl
@[simp] theorem refuse_clk (req : Req) (off cause : Nat) (rd : Bool) : (s.refuse req off cause rd).clk = s.clk := rfl
@[simp] theorem refuse_links (req : Req) (off cause : Nat) (rd : Bool) : (s.refuse req off cause rd).links = s.links := rfl
@[simp] theorem refuse_inbox (req : Req) (off cause : Nat) (rd : Bool) : (s.refuse req off cause rd).inbox = s.inbox := rfl
@[simp] theorem refuse_stand (req : Req) (off cause : Nat) (rd : Bool) : (s.refuse req off cause rd).stand = s.stand := rfl
@[simp] theorem refuse_image (req : Req) (off cause : Nat) (rd : Bool) : (s.refuse req off cause rd).image = s.image := rfl
@[simp] theorem refuse_engines (req : Req) (off cause : Nat) (rd : Bool) : (s.refuse req off cause rd).engines = s.engines := rfl
@[simp] theorem refuse_groves (req : Req) (off cause : Nat) (rd : Bool) : (s.refuse req off cause rd).groves = s.groves := rfl
@[simp] theorem refuse_mem (req : Req) (off cause : Nat) (rd : Bool) : (s.refuse req off cause rd).mem = s.mem := rfl
@[simp] theorem refuse_poison (req : Req) (off cause : Nat) (rd : Bool) : (s.refuse req off cause rd).poison = s.poison := rfl
@[simp] theorem refuse_bg (req : Req) (off cause : Nat) (rd : Bool) : (s.refuse req off cause rd).bg = s.bg := rfl
@[simp] theorem refuse_bgNext (req : Req) (off cause : Nat) (rd : Bool) : (s.refuse req off cause rd).bgNext = s.bgNext := rfl
@[simp] theorem refuse_reduce (req : Req) (off cause : Nat) (rd : Bool) : (s.refuse req off cause rd).reduce = s.reduce := rfl
@[simp] theorem refuse_lpddr (req : Req) (off cause : Nat) (rd : Bool) : (s.refuse req off cause rd).lpddr = s.lpddr := rfl
@[simp] theorem refuse_boot (req : Req) (off cause : Nat) (rd : Bool) : (s.refuse req off cause rd).boot = s.boot := rfl
@[simp] theorem refuse_host (req : Req) (off cause : Nat) (rd : Bool) : (s.refuse req off cause rd).host = s.host := rfl
@[simp] theorem refuse_serve (req : Req) (off cause : Nat) (rd : Bool) : (s.refuse req off cause rd).serve = s.serve := rfl
@[simp] theorem refuse_sample (req : Req) (off cause : Nat) (rd : Bool) : (s.refuse req off cause rd).sample = s.sample := rfl
@[simp] theorem refuse_fluid (req : Req) (off cause : Nat) (rd : Bool) : (s.refuse req off cause rd).fluid = s.fluid := rfl
@[simp] theorem refuse_coolant (req : Req) (off cause : Nat) (rd : Bool) : (s.refuse req off cause rd).coolant = s.coolant := rfl
@[simp] theorem refuse_therm (req : Req) (off cause : Nat) (rd : Bool) : (s.refuse req off cause rd).therm = s.therm := rfl
@[simp] theorem refuse_canopy (req : Req) (off cause : Nat) (rd : Bool) : (s.refuse req off cause rd).canopy = s.canopy := rfl
@[simp] theorem refuse_glade (req : Req) (off cause : Nat) (rd : Bool) : (s.refuse req off cause rd).glade = s.glade := rfl
@[simp] theorem refuse_group (req : Req) (off cause : Nat) (rd : Bool) : (s.refuse req off cause rd).group = s.group := rfl
@[simp] theorem refuse_rlog (req : Req) (off cause : Nat) (rd : Bool) : (s.refuse req off cause rd).rlog = s.rlog := rfl
@[simp] theorem refuse_sec (req : Req) (off cause : Nat) (rd : Bool) : (s.refuse req off cause rd).sec = s.sec := rfl
@[simp] theorem refuse_side (req : Req) (off cause : Nat) (rd : Bool) : (s.refuse req off cause rd).side = s.side := rfl
@[simp] theorem refuse_dwood (req : Req) (off cause : Nat) (rd : Bool) : (s.refuse req off cause rd).dwood = s.dwood := rfl

/-! `setLink` -/

@[simp] theorem setLink_regs (l : Nat) (x : LinkSt) : (s.setLink l x).regs = s.regs := rfl
@[simp] theorem setLink_pending (l : Nat) (x : LinkSt) : (s.setLink l x).pending = s.pending := rfl
@[simp] theorem setLink_out (l : Nat) (x : LinkSt) : (s.setLink l x).out = s.out := rfl
@[simp] theorem setLink_now (l : Nat) (x : LinkSt) : (s.setLink l x).now = s.now := rfl
@[simp] theorem setLink_ftime (l : Nat) (x : LinkSt) : (s.setLink l x).ftime = s.ftime := rfl
@[simp] theorem setLink_freeCtr (l : Nat) (x : LinkSt) : (s.setLink l x).freeCtr = s.freeCtr := rfl
@[simp] theorem setLink_mod (l : Nat) (x : LinkSt) : (s.setLink l x).mod = s.mod := rfl
@[simp] theorem setLink_ctx (l : Nat) (x : LinkSt) : (s.setLink l x).ctx = s.ctx := rfl
@[simp] theorem setLink_evt (l : Nat) (x : LinkSt) : (s.setLink l x).evt = s.evt := rfl
@[simp] theorem setLink_clk (l : Nat) (x : LinkSt) : (s.setLink l x).clk = s.clk := rfl
@[simp] theorem setLink_inbox (l : Nat) (x : LinkSt) : (s.setLink l x).inbox = s.inbox := rfl
@[simp] theorem setLink_stand (l : Nat) (x : LinkSt) : (s.setLink l x).stand = s.stand := rfl
@[simp] theorem setLink_image (l : Nat) (x : LinkSt) : (s.setLink l x).image = s.image := rfl
@[simp] theorem setLink_engines (l : Nat) (x : LinkSt) : (s.setLink l x).engines = s.engines := rfl
@[simp] theorem setLink_groves (l : Nat) (x : LinkSt) : (s.setLink l x).groves = s.groves := rfl
@[simp] theorem setLink_mem (l : Nat) (x : LinkSt) : (s.setLink l x).mem = s.mem := rfl
@[simp] theorem setLink_poison (l : Nat) (x : LinkSt) : (s.setLink l x).poison = s.poison := rfl
@[simp] theorem setLink_bg (l : Nat) (x : LinkSt) : (s.setLink l x).bg = s.bg := rfl
@[simp] theorem setLink_bgNext (l : Nat) (x : LinkSt) : (s.setLink l x).bgNext = s.bgNext := rfl
@[simp] theorem setLink_reduce (l : Nat) (x : LinkSt) : (s.setLink l x).reduce = s.reduce := rfl
@[simp] theorem setLink_lpddr (l : Nat) (x : LinkSt) : (s.setLink l x).lpddr = s.lpddr := rfl
@[simp] theorem setLink_boot (l : Nat) (x : LinkSt) : (s.setLink l x).boot = s.boot := rfl
@[simp] theorem setLink_host (l : Nat) (x : LinkSt) : (s.setLink l x).host = s.host := rfl
@[simp] theorem setLink_serve (l : Nat) (x : LinkSt) : (s.setLink l x).serve = s.serve := rfl
@[simp] theorem setLink_sample (l : Nat) (x : LinkSt) : (s.setLink l x).sample = s.sample := rfl
@[simp] theorem setLink_fluid (l : Nat) (x : LinkSt) : (s.setLink l x).fluid = s.fluid := rfl
@[simp] theorem setLink_coolant (l : Nat) (x : LinkSt) : (s.setLink l x).coolant = s.coolant := rfl
@[simp] theorem setLink_therm (l : Nat) (x : LinkSt) : (s.setLink l x).therm = s.therm := rfl
@[simp] theorem setLink_canopy (l : Nat) (x : LinkSt) : (s.setLink l x).canopy = s.canopy := rfl
@[simp] theorem setLink_glade (l : Nat) (x : LinkSt) : (s.setLink l x).glade = s.glade := rfl
@[simp] theorem setLink_group (l : Nat) (x : LinkSt) : (s.setLink l x).group = s.group := rfl
@[simp] theorem setLink_rlog (l : Nat) (x : LinkSt) : (s.setLink l x).rlog = s.rlog := rfl
@[simp] theorem setLink_sec (l : Nat) (x : LinkSt) : (s.setLink l x).sec = s.sec := rfl
@[simp] theorem setLink_side (l : Nat) (x : LinkSt) : (s.setLink l x).side = s.side := rfl
@[simp] theorem setLink_dwood (l : Nat) (x : LinkSt) : (s.setLink l x).dwood = s.dwood := rfl

/-! `setEng` -/

@[simp] theorem setEng_regs (i : Nat) (x : EngineSt) : (s.setEng i x).regs = s.regs := rfl
@[simp] theorem setEng_pending (i : Nat) (x : EngineSt) : (s.setEng i x).pending = s.pending := rfl
@[simp] theorem setEng_out (i : Nat) (x : EngineSt) : (s.setEng i x).out = s.out := rfl
@[simp] theorem setEng_now (i : Nat) (x : EngineSt) : (s.setEng i x).now = s.now := rfl
@[simp] theorem setEng_ftime (i : Nat) (x : EngineSt) : (s.setEng i x).ftime = s.ftime := rfl
@[simp] theorem setEng_freeCtr (i : Nat) (x : EngineSt) : (s.setEng i x).freeCtr = s.freeCtr := rfl
@[simp] theorem setEng_mod (i : Nat) (x : EngineSt) : (s.setEng i x).mod = s.mod := rfl
@[simp] theorem setEng_ctx (i : Nat) (x : EngineSt) : (s.setEng i x).ctx = s.ctx := rfl
@[simp] theorem setEng_evt (i : Nat) (x : EngineSt) : (s.setEng i x).evt = s.evt := rfl
@[simp] theorem setEng_clk (i : Nat) (x : EngineSt) : (s.setEng i x).clk = s.clk := rfl
@[simp] theorem setEng_links (i : Nat) (x : EngineSt) : (s.setEng i x).links = s.links := rfl
@[simp] theorem setEng_inbox (i : Nat) (x : EngineSt) : (s.setEng i x).inbox = s.inbox := rfl
@[simp] theorem setEng_stand (i : Nat) (x : EngineSt) : (s.setEng i x).stand = s.stand := rfl
@[simp] theorem setEng_image (i : Nat) (x : EngineSt) : (s.setEng i x).image = s.image := rfl
@[simp] theorem setEng_groves (i : Nat) (x : EngineSt) : (s.setEng i x).groves = s.groves := rfl
@[simp] theorem setEng_mem (i : Nat) (x : EngineSt) : (s.setEng i x).mem = s.mem := rfl
@[simp] theorem setEng_poison (i : Nat) (x : EngineSt) : (s.setEng i x).poison = s.poison := rfl
@[simp] theorem setEng_bg (i : Nat) (x : EngineSt) : (s.setEng i x).bg = s.bg := rfl
@[simp] theorem setEng_bgNext (i : Nat) (x : EngineSt) : (s.setEng i x).bgNext = s.bgNext := rfl
@[simp] theorem setEng_reduce (i : Nat) (x : EngineSt) : (s.setEng i x).reduce = s.reduce := rfl
@[simp] theorem setEng_lpddr (i : Nat) (x : EngineSt) : (s.setEng i x).lpddr = s.lpddr := rfl
@[simp] theorem setEng_boot (i : Nat) (x : EngineSt) : (s.setEng i x).boot = s.boot := rfl
@[simp] theorem setEng_host (i : Nat) (x : EngineSt) : (s.setEng i x).host = s.host := rfl
@[simp] theorem setEng_serve (i : Nat) (x : EngineSt) : (s.setEng i x).serve = s.serve := rfl
@[simp] theorem setEng_sample (i : Nat) (x : EngineSt) : (s.setEng i x).sample = s.sample := rfl
@[simp] theorem setEng_fluid (i : Nat) (x : EngineSt) : (s.setEng i x).fluid = s.fluid := rfl
@[simp] theorem setEng_coolant (i : Nat) (x : EngineSt) : (s.setEng i x).coolant = s.coolant := rfl
@[simp] theorem setEng_therm (i : Nat) (x : EngineSt) : (s.setEng i x).therm = s.therm := rfl
@[simp] theorem setEng_canopy (i : Nat) (x : EngineSt) : (s.setEng i x).canopy = s.canopy := rfl
@[simp] theorem setEng_glade (i : Nat) (x : EngineSt) : (s.setEng i x).glade = s.glade := rfl
@[simp] theorem setEng_group (i : Nat) (x : EngineSt) : (s.setEng i x).group = s.group := rfl
@[simp] theorem setEng_rlog (i : Nat) (x : EngineSt) : (s.setEng i x).rlog = s.rlog := rfl
@[simp] theorem setEng_sec (i : Nat) (x : EngineSt) : (s.setEng i x).sec = s.sec := rfl
@[simp] theorem setEng_side (i : Nat) (x : EngineSt) : (s.setEng i x).side = s.side := rfl
@[simp] theorem setEng_dwood (i : Nat) (x : EngineSt) : (s.setEng i x).dwood = s.dwood := rfl

/-! `setGrove` -/

@[simp] theorem setGrove_regs (g : Nat) (x : GroveSt) : (s.setGrove g x).regs = s.regs := rfl
@[simp] theorem setGrove_pending (g : Nat) (x : GroveSt) : (s.setGrove g x).pending = s.pending := rfl
@[simp] theorem setGrove_out (g : Nat) (x : GroveSt) : (s.setGrove g x).out = s.out := rfl
@[simp] theorem setGrove_now (g : Nat) (x : GroveSt) : (s.setGrove g x).now = s.now := rfl
@[simp] theorem setGrove_ftime (g : Nat) (x : GroveSt) : (s.setGrove g x).ftime = s.ftime := rfl
@[simp] theorem setGrove_freeCtr (g : Nat) (x : GroveSt) : (s.setGrove g x).freeCtr = s.freeCtr := rfl
@[simp] theorem setGrove_mod (g : Nat) (x : GroveSt) : (s.setGrove g x).mod = s.mod := rfl
@[simp] theorem setGrove_ctx (g : Nat) (x : GroveSt) : (s.setGrove g x).ctx = s.ctx := rfl
@[simp] theorem setGrove_evt (g : Nat) (x : GroveSt) : (s.setGrove g x).evt = s.evt := rfl
@[simp] theorem setGrove_clk (g : Nat) (x : GroveSt) : (s.setGrove g x).clk = s.clk := rfl
@[simp] theorem setGrove_links (g : Nat) (x : GroveSt) : (s.setGrove g x).links = s.links := rfl
@[simp] theorem setGrove_inbox (g : Nat) (x : GroveSt) : (s.setGrove g x).inbox = s.inbox := rfl
@[simp] theorem setGrove_stand (g : Nat) (x : GroveSt) : (s.setGrove g x).stand = s.stand := rfl
@[simp] theorem setGrove_image (g : Nat) (x : GroveSt) : (s.setGrove g x).image = s.image := rfl
@[simp] theorem setGrove_engines (g : Nat) (x : GroveSt) : (s.setGrove g x).engines = s.engines := rfl
@[simp] theorem setGrove_mem (g : Nat) (x : GroveSt) : (s.setGrove g x).mem = s.mem := rfl
@[simp] theorem setGrove_poison (g : Nat) (x : GroveSt) : (s.setGrove g x).poison = s.poison := rfl
@[simp] theorem setGrove_bg (g : Nat) (x : GroveSt) : (s.setGrove g x).bg = s.bg := rfl
@[simp] theorem setGrove_bgNext (g : Nat) (x : GroveSt) : (s.setGrove g x).bgNext = s.bgNext := rfl
@[simp] theorem setGrove_reduce (g : Nat) (x : GroveSt) : (s.setGrove g x).reduce = s.reduce := rfl
@[simp] theorem setGrove_lpddr (g : Nat) (x : GroveSt) : (s.setGrove g x).lpddr = s.lpddr := rfl
@[simp] theorem setGrove_boot (g : Nat) (x : GroveSt) : (s.setGrove g x).boot = s.boot := rfl
@[simp] theorem setGrove_host (g : Nat) (x : GroveSt) : (s.setGrove g x).host = s.host := rfl
@[simp] theorem setGrove_serve (g : Nat) (x : GroveSt) : (s.setGrove g x).serve = s.serve := rfl
@[simp] theorem setGrove_sample (g : Nat) (x : GroveSt) : (s.setGrove g x).sample = s.sample := rfl
@[simp] theorem setGrove_fluid (g : Nat) (x : GroveSt) : (s.setGrove g x).fluid = s.fluid := rfl
@[simp] theorem setGrove_coolant (g : Nat) (x : GroveSt) : (s.setGrove g x).coolant = s.coolant := rfl
@[simp] theorem setGrove_therm (g : Nat) (x : GroveSt) : (s.setGrove g x).therm = s.therm := rfl
@[simp] theorem setGrove_canopy (g : Nat) (x : GroveSt) : (s.setGrove g x).canopy = s.canopy := rfl
@[simp] theorem setGrove_glade (g : Nat) (x : GroveSt) : (s.setGrove g x).glade = s.glade := rfl
@[simp] theorem setGrove_group (g : Nat) (x : GroveSt) : (s.setGrove g x).group = s.group := rfl
@[simp] theorem setGrove_rlog (g : Nat) (x : GroveSt) : (s.setGrove g x).rlog = s.rlog := rfl
@[simp] theorem setGrove_sec (g : Nat) (x : GroveSt) : (s.setGrove g x).sec = s.sec := rfl
@[simp] theorem setGrove_side (g : Nat) (x : GroveSt) : (s.setGrove g x).side = s.side := rfl
@[simp] theorem setGrove_dwood (g : Nat) (x : GroveSt) : (s.setGrove g x).dwood = s.dwood := rfl

/-! `setRed` -/

@[simp] theorem setRed_regs (l : Nat) (x : ReduceSt) : (s.setRed l x).regs = s.regs := rfl
@[simp] theorem setRed_pending (l : Nat) (x : ReduceSt) : (s.setRed l x).pending = s.pending := rfl
@[simp] theorem setRed_out (l : Nat) (x : ReduceSt) : (s.setRed l x).out = s.out := rfl
@[simp] theorem setRed_now (l : Nat) (x : ReduceSt) : (s.setRed l x).now = s.now := rfl
@[simp] theorem setRed_ftime (l : Nat) (x : ReduceSt) : (s.setRed l x).ftime = s.ftime := rfl
@[simp] theorem setRed_freeCtr (l : Nat) (x : ReduceSt) : (s.setRed l x).freeCtr = s.freeCtr := rfl
@[simp] theorem setRed_mod (l : Nat) (x : ReduceSt) : (s.setRed l x).mod = s.mod := rfl
@[simp] theorem setRed_ctx (l : Nat) (x : ReduceSt) : (s.setRed l x).ctx = s.ctx := rfl
@[simp] theorem setRed_evt (l : Nat) (x : ReduceSt) : (s.setRed l x).evt = s.evt := rfl
@[simp] theorem setRed_clk (l : Nat) (x : ReduceSt) : (s.setRed l x).clk = s.clk := rfl
@[simp] theorem setRed_links (l : Nat) (x : ReduceSt) : (s.setRed l x).links = s.links := rfl
@[simp] theorem setRed_inbox (l : Nat) (x : ReduceSt) : (s.setRed l x).inbox = s.inbox := rfl
@[simp] theorem setRed_stand (l : Nat) (x : ReduceSt) : (s.setRed l x).stand = s.stand := rfl
@[simp] theorem setRed_image (l : Nat) (x : ReduceSt) : (s.setRed l x).image = s.image := rfl
@[simp] theorem setRed_engines (l : Nat) (x : ReduceSt) : (s.setRed l x).engines = s.engines := rfl
@[simp] theorem setRed_groves (l : Nat) (x : ReduceSt) : (s.setRed l x).groves = s.groves := rfl
@[simp] theorem setRed_mem (l : Nat) (x : ReduceSt) : (s.setRed l x).mem = s.mem := rfl
@[simp] theorem setRed_poison (l : Nat) (x : ReduceSt) : (s.setRed l x).poison = s.poison := rfl
@[simp] theorem setRed_bg (l : Nat) (x : ReduceSt) : (s.setRed l x).bg = s.bg := rfl
@[simp] theorem setRed_bgNext (l : Nat) (x : ReduceSt) : (s.setRed l x).bgNext = s.bgNext := rfl
@[simp] theorem setRed_lpddr (l : Nat) (x : ReduceSt) : (s.setRed l x).lpddr = s.lpddr := rfl
@[simp] theorem setRed_boot (l : Nat) (x : ReduceSt) : (s.setRed l x).boot = s.boot := rfl
@[simp] theorem setRed_host (l : Nat) (x : ReduceSt) : (s.setRed l x).host = s.host := rfl
@[simp] theorem setRed_serve (l : Nat) (x : ReduceSt) : (s.setRed l x).serve = s.serve := rfl
@[simp] theorem setRed_sample (l : Nat) (x : ReduceSt) : (s.setRed l x).sample = s.sample := rfl
@[simp] theorem setRed_fluid (l : Nat) (x : ReduceSt) : (s.setRed l x).fluid = s.fluid := rfl
@[simp] theorem setRed_coolant (l : Nat) (x : ReduceSt) : (s.setRed l x).coolant = s.coolant := rfl
@[simp] theorem setRed_therm (l : Nat) (x : ReduceSt) : (s.setRed l x).therm = s.therm := rfl
@[simp] theorem setRed_canopy (l : Nat) (x : ReduceSt) : (s.setRed l x).canopy = s.canopy := rfl
@[simp] theorem setRed_glade (l : Nat) (x : ReduceSt) : (s.setRed l x).glade = s.glade := rfl
@[simp] theorem setRed_group (l : Nat) (x : ReduceSt) : (s.setRed l x).group = s.group := rfl
@[simp] theorem setRed_rlog (l : Nat) (x : ReduceSt) : (s.setRed l x).rlog = s.rlog := rfl
@[simp] theorem setRed_sec (l : Nat) (x : ReduceSt) : (s.setRed l x).sec = s.sec := rfl
@[simp] theorem setRed_side (l : Nat) (x : ReduceSt) : (s.setRed l x).side = s.side := rfl
@[simp] theorem setRed_dwood (l : Nat) (x : ReduceSt) : (s.setRed l x).dwood = s.dwood := rfl

/-! `setReqCtx` -/

@[simp] theorem setReqCtx_regs (r : Req) (x : ReqCtx) : (s.setReqCtx r x).regs = s.regs := rfl
@[simp] theorem setReqCtx_pending (r : Req) (x : ReqCtx) : (s.setReqCtx r x).pending = s.pending := rfl
@[simp] theorem setReqCtx_out (r : Req) (x : ReqCtx) : (s.setReqCtx r x).out = s.out := rfl
@[simp] theorem setReqCtx_now (r : Req) (x : ReqCtx) : (s.setReqCtx r x).now = s.now := rfl
@[simp] theorem setReqCtx_ftime (r : Req) (x : ReqCtx) : (s.setReqCtx r x).ftime = s.ftime := rfl
@[simp] theorem setReqCtx_freeCtr (r : Req) (x : ReqCtx) : (s.setReqCtx r x).freeCtr = s.freeCtr := rfl
@[simp] theorem setReqCtx_mod (r : Req) (x : ReqCtx) : (s.setReqCtx r x).mod = s.mod := rfl
@[simp] theorem setReqCtx_evt (r : Req) (x : ReqCtx) : (s.setReqCtx r x).evt = s.evt := rfl
@[simp] theorem setReqCtx_clk (r : Req) (x : ReqCtx) : (s.setReqCtx r x).clk = s.clk := rfl
@[simp] theorem setReqCtx_links (r : Req) (x : ReqCtx) : (s.setReqCtx r x).links = s.links := rfl
@[simp] theorem setReqCtx_inbox (r : Req) (x : ReqCtx) : (s.setReqCtx r x).inbox = s.inbox := rfl
@[simp] theorem setReqCtx_stand (r : Req) (x : ReqCtx) : (s.setReqCtx r x).stand = s.stand := rfl
@[simp] theorem setReqCtx_image (r : Req) (x : ReqCtx) : (s.setReqCtx r x).image = s.image := rfl
@[simp] theorem setReqCtx_engines (r : Req) (x : ReqCtx) : (s.setReqCtx r x).engines = s.engines := rfl
@[simp] theorem setReqCtx_groves (r : Req) (x : ReqCtx) : (s.setReqCtx r x).groves = s.groves := rfl
@[simp] theorem setReqCtx_mem (r : Req) (x : ReqCtx) : (s.setReqCtx r x).mem = s.mem := rfl
@[simp] theorem setReqCtx_poison (r : Req) (x : ReqCtx) : (s.setReqCtx r x).poison = s.poison := rfl
@[simp] theorem setReqCtx_bg (r : Req) (x : ReqCtx) : (s.setReqCtx r x).bg = s.bg := rfl
@[simp] theorem setReqCtx_bgNext (r : Req) (x : ReqCtx) : (s.setReqCtx r x).bgNext = s.bgNext := rfl
@[simp] theorem setReqCtx_reduce (r : Req) (x : ReqCtx) : (s.setReqCtx r x).reduce = s.reduce := rfl
@[simp] theorem setReqCtx_lpddr (r : Req) (x : ReqCtx) : (s.setReqCtx r x).lpddr = s.lpddr := rfl
@[simp] theorem setReqCtx_boot (r : Req) (x : ReqCtx) : (s.setReqCtx r x).boot = s.boot := rfl
@[simp] theorem setReqCtx_host (r : Req) (x : ReqCtx) : (s.setReqCtx r x).host = s.host := rfl
@[simp] theorem setReqCtx_serve (r : Req) (x : ReqCtx) : (s.setReqCtx r x).serve = s.serve := rfl
@[simp] theorem setReqCtx_sample (r : Req) (x : ReqCtx) : (s.setReqCtx r x).sample = s.sample := rfl
@[simp] theorem setReqCtx_fluid (r : Req) (x : ReqCtx) : (s.setReqCtx r x).fluid = s.fluid := rfl
@[simp] theorem setReqCtx_coolant (r : Req) (x : ReqCtx) : (s.setReqCtx r x).coolant = s.coolant := rfl
@[simp] theorem setReqCtx_therm (r : Req) (x : ReqCtx) : (s.setReqCtx r x).therm = s.therm := rfl
@[simp] theorem setReqCtx_canopy (r : Req) (x : ReqCtx) : (s.setReqCtx r x).canopy = s.canopy := rfl
@[simp] theorem setReqCtx_glade (r : Req) (x : ReqCtx) : (s.setReqCtx r x).glade = s.glade := rfl
@[simp] theorem setReqCtx_group (r : Req) (x : ReqCtx) : (s.setReqCtx r x).group = s.group := rfl
@[simp] theorem setReqCtx_rlog (r : Req) (x : ReqCtx) : (s.setReqCtx r x).rlog = s.rlog := rfl
@[simp] theorem setReqCtx_sec (r : Req) (x : ReqCtx) : (s.setReqCtx r x).sec = s.sec := rfl
@[simp] theorem setReqCtx_side (r : Req) (x : ReqCtx) : (s.setReqCtx r x).side = s.side := rfl
@[simp] theorem setReqCtx_dwood (r : Req) (x : ReqCtx) : (s.setReqCtx r x).dwood = s.dwood := rfl

/-! `setCore` -/

@[simp] theorem setCore_regs (k : Nat) (x : CoreSt) : (s.setCore k x).regs = s.regs := rfl
@[simp] theorem setCore_pending (k : Nat) (x : CoreSt) : (s.setCore k x).pending = s.pending := rfl
@[simp] theorem setCore_out (k : Nat) (x : CoreSt) : (s.setCore k x).out = s.out := rfl
@[simp] theorem setCore_now (k : Nat) (x : CoreSt) : (s.setCore k x).now = s.now := rfl
@[simp] theorem setCore_ftime (k : Nat) (x : CoreSt) : (s.setCore k x).ftime = s.ftime := rfl
@[simp] theorem setCore_freeCtr (k : Nat) (x : CoreSt) : (s.setCore k x).freeCtr = s.freeCtr := rfl
@[simp] theorem setCore_mod (k : Nat) (x : CoreSt) : (s.setCore k x).mod = s.mod := rfl
@[simp] theorem setCore_ctx (k : Nat) (x : CoreSt) : (s.setCore k x).ctx = s.ctx := rfl
@[simp] theorem setCore_evt (k : Nat) (x : CoreSt) : (s.setCore k x).evt = s.evt := rfl
@[simp] theorem setCore_clk (k : Nat) (x : CoreSt) : (s.setCore k x).clk = s.clk := rfl
@[simp] theorem setCore_links (k : Nat) (x : CoreSt) : (s.setCore k x).links = s.links := rfl
@[simp] theorem setCore_inbox (k : Nat) (x : CoreSt) : (s.setCore k x).inbox = s.inbox := rfl
@[simp] theorem setCore_stand (k : Nat) (x : CoreSt) : (s.setCore k x).stand = s.stand := rfl
@[simp] theorem setCore_image (k : Nat) (x : CoreSt) : (s.setCore k x).image = s.image := rfl
@[simp] theorem setCore_engines (k : Nat) (x : CoreSt) : (s.setCore k x).engines = s.engines := rfl
@[simp] theorem setCore_groves (k : Nat) (x : CoreSt) : (s.setCore k x).groves = s.groves := rfl
@[simp] theorem setCore_mem (k : Nat) (x : CoreSt) : (s.setCore k x).mem = s.mem := rfl
@[simp] theorem setCore_poison (k : Nat) (x : CoreSt) : (s.setCore k x).poison = s.poison := rfl
@[simp] theorem setCore_bg (k : Nat) (x : CoreSt) : (s.setCore k x).bg = s.bg := rfl
@[simp] theorem setCore_bgNext (k : Nat) (x : CoreSt) : (s.setCore k x).bgNext = s.bgNext := rfl
@[simp] theorem setCore_reduce (k : Nat) (x : CoreSt) : (s.setCore k x).reduce = s.reduce := rfl
@[simp] theorem setCore_lpddr (k : Nat) (x : CoreSt) : (s.setCore k x).lpddr = s.lpddr := rfl
@[simp] theorem setCore_boot (k : Nat) (x : CoreSt) : (s.setCore k x).boot = s.boot := rfl
@[simp] theorem setCore_host (k : Nat) (x : CoreSt) : (s.setCore k x).host = s.host := rfl
@[simp] theorem setCore_serve (k : Nat) (x : CoreSt) : (s.setCore k x).serve = s.serve := rfl
@[simp] theorem setCore_sample (k : Nat) (x : CoreSt) : (s.setCore k x).sample = s.sample := rfl
@[simp] theorem setCore_fluid (k : Nat) (x : CoreSt) : (s.setCore k x).fluid = s.fluid := rfl
@[simp] theorem setCore_coolant (k : Nat) (x : CoreSt) : (s.setCore k x).coolant = s.coolant := rfl
@[simp] theorem setCore_therm (k : Nat) (x : CoreSt) : (s.setCore k x).therm = s.therm := rfl
@[simp] theorem setCore_glade (k : Nat) (x : CoreSt) : (s.setCore k x).glade = s.glade := rfl
@[simp] theorem setCore_group (k : Nat) (x : CoreSt) : (s.setCore k x).group = s.group := rfl
@[simp] theorem setCore_rlog (k : Nat) (x : CoreSt) : (s.setCore k x).rlog = s.rlog := rfl
@[simp] theorem setCore_sec (k : Nat) (x : CoreSt) : (s.setCore k x).sec = s.sec := rfl
@[simp] theorem setCore_side (k : Nat) (x : CoreSt) : (s.setCore k x).side = s.side := rfl
@[simp] theorem setCore_dwood (k : Nat) (x : CoreSt) : (s.setCore k x).dwood = s.dwood := rfl

/-! `setPower` -/

@[simp] theorem setPower_regs (p : Power) : (s.setPower p).regs = s.regs := rfl
@[simp] theorem setPower_pending (p : Power) : (s.setPower p).pending = s.pending := rfl
@[simp] theorem setPower_out (p : Power) : (s.setPower p).out = s.out := rfl
@[simp] theorem setPower_now (p : Power) : (s.setPower p).now = s.now := rfl
@[simp] theorem setPower_ftime (p : Power) : (s.setPower p).ftime = s.ftime := rfl
@[simp] theorem setPower_freeCtr (p : Power) : (s.setPower p).freeCtr = s.freeCtr := rfl
@[simp] theorem setPower_ctx (p : Power) : (s.setPower p).ctx = s.ctx := rfl
@[simp] theorem setPower_evt (p : Power) : (s.setPower p).evt = s.evt := rfl
@[simp] theorem setPower_clk (p : Power) : (s.setPower p).clk = s.clk := rfl
@[simp] theorem setPower_links (p : Power) : (s.setPower p).links = s.links := rfl
@[simp] theorem setPower_inbox (p : Power) : (s.setPower p).inbox = s.inbox := rfl
@[simp] theorem setPower_stand (p : Power) : (s.setPower p).stand = s.stand := rfl
@[simp] theorem setPower_image (p : Power) : (s.setPower p).image = s.image := rfl
@[simp] theorem setPower_engines (p : Power) : (s.setPower p).engines = s.engines := rfl
@[simp] theorem setPower_groves (p : Power) : (s.setPower p).groves = s.groves := rfl
@[simp] theorem setPower_mem (p : Power) : (s.setPower p).mem = s.mem := rfl
@[simp] theorem setPower_poison (p : Power) : (s.setPower p).poison = s.poison := rfl
@[simp] theorem setPower_bg (p : Power) : (s.setPower p).bg = s.bg := rfl
@[simp] theorem setPower_bgNext (p : Power) : (s.setPower p).bgNext = s.bgNext := rfl
@[simp] theorem setPower_reduce (p : Power) : (s.setPower p).reduce = s.reduce := rfl
@[simp] theorem setPower_lpddr (p : Power) : (s.setPower p).lpddr = s.lpddr := rfl
@[simp] theorem setPower_boot (p : Power) : (s.setPower p).boot = s.boot := rfl
@[simp] theorem setPower_host (p : Power) : (s.setPower p).host = s.host := rfl
@[simp] theorem setPower_serve (p : Power) : (s.setPower p).serve = s.serve := rfl
@[simp] theorem setPower_sample (p : Power) : (s.setPower p).sample = s.sample := rfl
@[simp] theorem setPower_fluid (p : Power) : (s.setPower p).fluid = s.fluid := rfl
@[simp] theorem setPower_coolant (p : Power) : (s.setPower p).coolant = s.coolant := rfl
@[simp] theorem setPower_therm (p : Power) : (s.setPower p).therm = s.therm := rfl
@[simp] theorem setPower_canopy (p : Power) : (s.setPower p).canopy = s.canopy := rfl
@[simp] theorem setPower_glade (p : Power) : (s.setPower p).glade = s.glade := rfl
@[simp] theorem setPower_group (p : Power) : (s.setPower p).group = s.group := rfl
@[simp] theorem setPower_rlog (p : Power) : (s.setPower p).rlog = s.rlog := rfl
@[simp] theorem setPower_sec (p : Power) : (s.setPower p).sec = s.sec := rfl
@[simp] theorem setPower_side (p : Power) : (s.setPower p).side = s.side := rfl
@[simp] theorem setPower_dwood (p : Power) : (s.setPower p).dwood = s.dwood := rfl

/-! `dropHeldLo` -/

@[simp] theorem dropHeldLo_regs (pg : Nat) : (s.dropHeldLo pg).regs = s.regs := rfl
@[simp] theorem dropHeldLo_pending (pg : Nat) : (s.dropHeldLo pg).pending = s.pending := rfl
@[simp] theorem dropHeldLo_out (pg : Nat) : (s.dropHeldLo pg).out = s.out := rfl
@[simp] theorem dropHeldLo_now (pg : Nat) : (s.dropHeldLo pg).now = s.now := rfl
@[simp] theorem dropHeldLo_ftime (pg : Nat) : (s.dropHeldLo pg).ftime = s.ftime := rfl
@[simp] theorem dropHeldLo_freeCtr (pg : Nat) : (s.dropHeldLo pg).freeCtr = s.freeCtr := rfl
@[simp] theorem dropHeldLo_mod (pg : Nat) : (s.dropHeldLo pg).mod = s.mod := rfl
@[simp] theorem dropHeldLo_evt (pg : Nat) : (s.dropHeldLo pg).evt = s.evt := rfl
@[simp] theorem dropHeldLo_clk (pg : Nat) : (s.dropHeldLo pg).clk = s.clk := rfl
@[simp] theorem dropHeldLo_links (pg : Nat) : (s.dropHeldLo pg).links = s.links := rfl
@[simp] theorem dropHeldLo_inbox (pg : Nat) : (s.dropHeldLo pg).inbox = s.inbox := rfl
@[simp] theorem dropHeldLo_stand (pg : Nat) : (s.dropHeldLo pg).stand = s.stand := rfl
@[simp] theorem dropHeldLo_image (pg : Nat) : (s.dropHeldLo pg).image = s.image := rfl
@[simp] theorem dropHeldLo_engines (pg : Nat) : (s.dropHeldLo pg).engines = s.engines := rfl
@[simp] theorem dropHeldLo_groves (pg : Nat) : (s.dropHeldLo pg).groves = s.groves := rfl
@[simp] theorem dropHeldLo_mem (pg : Nat) : (s.dropHeldLo pg).mem = s.mem := rfl
@[simp] theorem dropHeldLo_poison (pg : Nat) : (s.dropHeldLo pg).poison = s.poison := rfl
@[simp] theorem dropHeldLo_bg (pg : Nat) : (s.dropHeldLo pg).bg = s.bg := rfl
@[simp] theorem dropHeldLo_bgNext (pg : Nat) : (s.dropHeldLo pg).bgNext = s.bgNext := rfl
@[simp] theorem dropHeldLo_reduce (pg : Nat) : (s.dropHeldLo pg).reduce = s.reduce := rfl
@[simp] theorem dropHeldLo_lpddr (pg : Nat) : (s.dropHeldLo pg).lpddr = s.lpddr := rfl
@[simp] theorem dropHeldLo_boot (pg : Nat) : (s.dropHeldLo pg).boot = s.boot := rfl
@[simp] theorem dropHeldLo_host (pg : Nat) : (s.dropHeldLo pg).host = s.host := rfl
@[simp] theorem dropHeldLo_serve (pg : Nat) : (s.dropHeldLo pg).serve = s.serve := rfl
@[simp] theorem dropHeldLo_sample (pg : Nat) : (s.dropHeldLo pg).sample = s.sample := rfl
@[simp] theorem dropHeldLo_fluid (pg : Nat) : (s.dropHeldLo pg).fluid = s.fluid := rfl
@[simp] theorem dropHeldLo_coolant (pg : Nat) : (s.dropHeldLo pg).coolant = s.coolant := rfl
@[simp] theorem dropHeldLo_therm (pg : Nat) : (s.dropHeldLo pg).therm = s.therm := rfl
@[simp] theorem dropHeldLo_canopy (pg : Nat) : (s.dropHeldLo pg).canopy = s.canopy := rfl
@[simp] theorem dropHeldLo_glade (pg : Nat) : (s.dropHeldLo pg).glade = s.glade := rfl
@[simp] theorem dropHeldLo_group (pg : Nat) : (s.dropHeldLo pg).group = s.group := rfl
@[simp] theorem dropHeldLo_rlog (pg : Nat) : (s.dropHeldLo pg).rlog = s.rlog := rfl
@[simp] theorem dropHeldLo_sec (pg : Nat) : (s.dropHeldLo pg).sec = s.sec := rfl
@[simp] theorem dropHeldLo_side (pg : Nat) : (s.dropHeldLo pg).side = s.side := rfl
@[simp] theorem dropHeldLo_dwood (pg : Nat) : (s.dropHeldLo pg).dwood = s.dwood := rfl

end Sys2Proof.Machine.State
end

