-- ==== Sys2Proof/Laws/Regs.lean ====
section
/-! SUPPORT. Registers and fields: a read after a write. -/

namespace Sys2Proof.Machine

/-! ## Bit fields -/

theorem bitsOf_lt (v : Word) (lo w : Nat) : bitsOf v lo w < 2 ^ w := Nat.mod_lt _ (Nat.two_pow_pos w)

theorem setBits_toNat (v : Word) (lo w x : Nat) (h : lo + w ≤ 32) :
    (setBits v lo w x).toNat = v.toNat / 2 ^ (lo + w) * 2 ^ (lo + w) + x % 2 ^ w * 2 ^ lo + v.toNat % 2 ^ lo := by
  have hv : v.toNat = v.toNat / 2 ^ (lo + w) * 2 ^ (lo + w) + bitsOf v lo w * 2 ^ lo + v.toNat % 2 ^ lo := by
    have h1 := Nat.div_add_mod v.toNat (2 ^ lo)
    have h2 := Nat.div_add_mod (v.toNat / 2 ^ lo) (2 ^ w)
    rw [Nat.div_div_eq_div_mul, ← Nat.pow_add] at h2
    unfold bitsOf
    conv_lhs => rw [← h1, ← h2]
    rw [Nat.pow_add]; ring
  have hx : x % 2 ^ w < 2 ^ w := Nat.mod_lt _ (Nat.two_pow_pos w)
  have hlo : v.toNat % 2 ^ lo < 2 ^ lo := Nat.mod_lt _ (Nat.two_pow_pos lo)
  have hhi : v.toNat / 2 ^ (lo + w) < 2 ^ (32 - (lo + w)) := by
    rw [Nat.div_lt_iff_lt_mul (Nat.two_pow_pos _), ← Nat.pow_add, show 32 - (lo + w) + (lo + w) = 32 by omega]
    exact v.isLt
  have hmid : x % 2 ^ w * 2 ^ lo + v.toNat % 2 ^ lo < 2 ^ (lo + w) := by
    have : (x % 2 ^ w + 1) * 2 ^ lo ≤ 2 ^ w * 2 ^ lo := Nat.mul_le_mul_right _ hx
    rw [Nat.pow_add, Nat.mul_comm (2 ^ lo)]; rw [Nat.add_mul] at this; omega
  have htot : v.toNat / 2 ^ (lo + w) * 2 ^ (lo + w) + (x % 2 ^ w * 2 ^ lo + v.toNat % 2 ^ lo) < 2 ^ 32 := by
    have : (v.toNat / 2 ^ (lo + w) + 1) * 2 ^ (lo + w) ≤ 2 ^ (32 - (lo + w)) * 2 ^ (lo + w) := Nat.mul_le_mul_right _ hhi
    rw [← Nat.pow_add, show 32 - (lo + w) + (lo + w) = 32 by omega, Nat.add_mul] at this; omega
  unfold setBits
  rw [BitVec.toNat_ofNat, Nat.mod_eq_of_lt]
  · omega
  · omega

theorem bitsOf_setBits_same (v : Word) (lo w x : Nat) (h : lo + w ≤ 32) : bitsOf (setBits v lo w x) lo w = x % 2 ^ w := by
  have hlo : v.toNat % 2 ^ lo < 2 ^ lo := Nat.mod_lt _ (Nat.two_pow_pos lo)
  unfold bitsOf
  rw [setBits_toNat v lo w x h, Nat.pow_add]
  rw [show v.toNat / (2 ^ lo * 2 ^ w) * (2 ^ lo * 2 ^ w) + x % 2 ^ w * 2 ^ lo + v.toNat % 2 ^ lo
      = v.toNat % 2 ^ lo + 2 ^ lo * (x % 2 ^ w + 2 ^ w * (v.toNat / (2 ^ lo * 2 ^ w))) by ring]
  rw [Nat.add_mul_div_left _ _ (Nat.two_pow_pos lo), Nat.div_eq_of_lt hlo, Nat.zero_add, Nat.add_mul_mod_self_left, Nat.mod_mod]

theorem bitsOf_setBits_disj (v : Word) (lo w x lo' w' : Nat) (h : lo + w ≤ 32) (hd : lo + w ≤ lo' ∨ lo' + w' ≤ lo) :
    bitsOf (setBits v lo w x) lo' w' = bitsOf v lo' w' := by
  have hx : x % 2 ^ w < 2 ^ w := Nat.mod_lt _ (Nat.two_pow_pos w)
  have hlo : v.toNat % 2 ^ lo < 2 ^ lo := Nat.mod_lt _ (Nat.two_pow_pos lo)
  unfold bitsOf
  rw [setBits_toNat v lo w x h]
  rcases hd with hd | hd
  · obtain ⟨k, rfl⟩ := Nat.exists_eq_add_of_le hd
    have hmid : x % 2 ^ w * 2 ^ lo + v.toNat % 2 ^ lo < 2 ^ (lo + w) := by
      have : (x % 2 ^ w + 1) * 2 ^ lo ≤ 2 ^ w * 2 ^ lo := Nat.mul_le_mul_right _ hx
      rw [Nat.pow_add, Nat.mul_comm (2 ^ lo)]; rw [Nat.add_mul] at this; omega
    rw [Nat.pow_add 2 (lo + w) k, ← Nat.div_div_eq_div_mul, ← Nat.div_div_eq_div_mul, Nat.add_assoc, Nat.add_comm,
      Nat.add_mul_div_right _ _ (Nat.two_pow_pos _), Nat.div_eq_of_lt hmid, Nat.zero_add]
  · obtain ⟨k, rfl⟩ := Nat.exists_eq_add_of_le hd
    have e1 : ∀ n : Nat, n / 2 ^ lo' % 2 ^ w' = n % 2 ^ (lo' + w') / 2 ^ lo' := by
      intro n; rw [Nat.pow_add, Nat.mod_mul_right_div_self]
    rw [e1, e1]
    congr 1
    have d1 : 2 ^ (lo' + w') ∣ 2 ^ (lo' + w' + k) := Nat.pow_dvd_pow 2 (by omega)
    have d2 : 2 ^ (lo' + w') ∣ 2 ^ (lo' + w' + k + w) := Nat.pow_dvd_pow 2 (by omega)
    rw [Nat.add_mod, Nat.add_mod (_ * _)]
    rw [Nat.mod_eq_zero_of_dvd (Dvd.dvd.mul_left d2 _), Nat.mod_eq_zero_of_dvd (Dvd.dvd.mul_left d1 _)]
    simp [Nat.mod_mod_of_dvd _ d1]

/-! ## Registers -/

@[simp] theorem rd_wr_same (s : State) (off : Nat) (v : Word) : (s.wr off v).rd off = v := by simp [State.wr, State.rd]

theorem rd_wr_ne (s : State) {off o : Nat} (v : Word) (h : o ≠ off) : (s.wr off v).rd o = s.rd o := by
  unfold State.wr State.rd; exact aget_aset_ne _ _ _ v h

theorem rd_wr (s : State) (off o : Nat) (v : Word) : (s.wr off v).rd o = if o = off then v else s.rd o := by
  split
  · next h => rw [h, rd_wr_same]
  · next h => exact rd_wr_ne s v h

/-- A read depends on the register map alone. -/
theorem rd_congr {s t : State} (h : t.regs = s.regs) (o : Nat) : t.rd o = s.rd o := by unfold State.rd; rw [h]

theorem get_congr {s t : State} (h : t.regs = s.regs) (f : Fld) : t.get f = s.get f := by unfold State.get; rw [rd_congr h]

theorem flag_congr {s t : State} (h : t.regs = s.regs) (f : Fld) : t.flag f = s.flag f := by unfold State.flag; rw [get_congr h]

theorem put_rd (s : State) (f : Fld) (x o : Nat) :
    (s.put f x).rd o = if o = f.off then setBits (s.rd f.off) f.lo f.w x else s.rd o := rd_wr s f.off o _

theorem rd_put_ne (s : State) (f : Fld) (x : Nat) {o : Nat} (h : o ≠ f.off) : (s.put f x).rd o = s.rd o := rd_wr_ne s _ h

theorem get_put_same (s : State) (f : Fld) (x : Nat) (h : f.lo + f.w ≤ 32) : (s.put f x).get f = x % 2 ^ f.w := by
  simp [State.get, put_rd, bitsOf_setBits_same _ _ _ _ h]

/-- Two fields that share no bit. -/
def Fld.disj (f g : Fld) : Bool := decide (f.off ≠ g.off) || decide (f.lo + f.w ≤ g.lo) || decide (g.lo + g.w ≤ f.lo)

theorem get_put_disj (s : State) (f g : Fld) (x : Nat) (hf : f.lo + f.w ≤ 32) (h : f.disj g = true) :
    (s.put f x).get g = s.get g := by
  unfold State.get
  rw [put_rd]
  split
  · next ho =>
    simp only [Fld.disj, ho, ne_eq, not_true_eq_false, decide_false, Bool.false_or, Bool.or_eq_true, decide_eq_true_eq] at h
    rw [bitsOf_setBits_disj _ _ _ _ _ _ hf h, ho]
  · rfl

theorem get_put_off (s : State) (f g : Fld) (x : Nat) (h : g.off ≠ f.off) : (s.put f x).get g = s.get g := by
  unfold State.get; rw [rd_put_ne s f x h]

theorem get_wr_off (s : State) (g : Fld) (o : Nat) (v : Word) (h : g.off ≠ o) : (s.wr o v).get g = s.get g := by
  unfold State.get; rw [rd_wr_ne s v h]

/-- Both cases of a one-bit field. -/
theorem flag_putB_same (s : State) (f : Fld) (b : Bool) (h : f.lo + f.w ≤ 32) (hw : f.w = 1) : (s.putB f b).flag f = b := by
  unfold State.flag State.putB
  rw [get_put_same s f _ h, hw]
  cases b <;> rfl

theorem flag_putB_disj (s : State) (f g : Fld) (b : Bool) (hf : f.lo + f.w ≤ 32) (h : f.disj g = true) :
    (s.putB f b).flag g = s.flag g := by
  unfold State.flag State.putB; rw [get_put_disj s f g _ hf h]

end Sys2Proof.Machine
end

