-- ==== Sys2Proof/Laws/Events.lean ====
section
/-! SUPPORT. What raising an event can do: it changes the event arbiter, Glade's island log and the registers that report on them, and
nothing else; and it leaves the summary bit of its source set. -/

namespace Sys2Proof.Machine

/-- Everything but the event arbiter, Glade's island log and the registers of `evtOffs` is as before, and a summary bit that is set stays
set. -/
def evtFrame (s t : State) : Prop :=
  t = { s with regs := t.regs, evt := t.evt, glade := t.glade } ∧ (∀ o, o ∉ evtOffs → t.rd o = s.rd o) ∧
    ∀ pg bit, pg % 4096 = 0 → s.flag ⟨Hdr.EVT_SUMMARY pg, bit, 1⟩ = true → t.flag ⟨Hdr.EVT_SUMMARY pg, bit, 1⟩ = true

theorem evtFrame_refl (s : State) : evtFrame s s := ⟨rfl, fun _ _ => rfl, fun _ _ _ h => h⟩

theorem evtFrame_trans {s t u : State} (h1 : evtFrame s t) (h2 : evtFrame t u) : evtFrame s u := by
  refine ⟨?_, fun o ho => (h2.2.1 o ho).trans (h1.2.1 o ho), fun p b hp h => h2.2.2 p b hp (h1.2.2 p b hp h)⟩
  have a := h1.1
  have b := h2.1
  rw [a] at b
  exact b

/-- A change of the event arbiter or of Glade's own state touches no register. -/
theorem evtFrame_of_regs {s t : State} (h : t = { s with evt := t.evt, glade := t.glade }) : evtFrame s t := by
  have hr : t.regs = s.regs := by rw [h]
  refine ⟨?_, fun o _ => rd_congr hr o, fun p b _ hb => by rw [flag_congr hr]; exact hb⟩
  rw [hr]; exact h

theorem evtFrame_wr (s : State) (o : Nat) (v : Word) (h : o ∈ evtOffs) (hs : o ≠ 0x2014) : evtFrame s (s.wr o v) := by
  refine ⟨rfl, fun p hp => rd_wr_ne s v (fun e => hp (e ▸ h)), fun pg bit hm hb => ?_⟩
  have hp : pg + 0x14 ≠ o := by
    simp only [evtOffs, List.mem_cons, List.not_mem_nil, or_false] at h
    omega
  rw [State.flag, get_wr_off s _ o v hp]; exact hb

/-- A write of a field outside the summary register. -/
theorem evtFrame_put (s : State) (f : Fld) (x : Nat) (h : f.off ∈ evtOffs) (hs : f.off ≠ 0x2014) : evtFrame s (s.put f x) :=
  evtFrame_wr s f.off _ h hs

theorem bitsOf_setBits_one (v : Word) (lo b : Nat) (hlo : lo < 32) (h : bitsOf v b 1 ≠ 0) : bitsOf (setBits v lo 1 1) b 1 ≠ 0 := by
  by_cases hb : lo = b
  · subst hb; rw [bitsOf_setBits_same _ _ _ _ (by omega)]; decide
  · rw [bitsOf_setBits_disj _ _ _ _ _ _ (by omega) (by omega)]; exact h

/-- Setting a summary bit keeps the others. -/
theorem summary_putB (s : State) (pg bit pg' bit' : Nat) (hb : bit < 32) (h : s.flag ⟨Hdr.EVT_SUMMARY pg', bit', 1⟩ = true) :
    (s.putB ⟨Hdr.EVT_SUMMARY pg, bit, 1⟩ true).flag ⟨Hdr.EVT_SUMMARY pg', bit', 1⟩ = true := by
  simp only [State.flag, State.get, State.putB, put_rd, bne_iff_ne, ne_eq] at *
  split
  · next ho => rw [ho] at h; exact bitsOf_setBits_one _ _ _ hb h
  · exact h

theorem evtFrame_summary (s : State) (pg bit : Nat) (h : Hdr.EVT_SUMMARY pg ∈ evtOffs) (hb : bit < 32) :
    evtFrame s (s.putB ⟨Hdr.EVT_SUMMARY pg, bit, 1⟩ true) :=
  ⟨rfl, fun _ hp => rd_put_ne s _ _ (fun e => hp (e ▸ h)), fun pg' bit' _ hs => summary_putB s pg bit pg' bit' hb hs⟩

theorem countDrop_frame (s : State) (code : Nat) : evtFrame s (s.countDrop code) := by
  unfold State.countDrop State.bumpF
  dsimp only
  split
  · exact evtFrame_put _ _ _ (show Reg.EVT_DROP0 ∈ evtOffs by decide) (show Reg.EVT_DROP0 ≠ 0x2014 by decide)
  · exact evtFrame_put _ _ _ (show Reg.EVT_DROP1 ∈ evtOffs by decide) (show Reg.EVT_DROP1 ≠ 0x2014 by decide)

theorem errInc_evt_frame (s : State) : evtFrame s (s.errInc P.EVT) :=
  evtFrame_trans (evtFrame_wr s _ _ (by decide) (by decide)) (evtFrame_summary _ P.EVT B.ERR_INC (by decide) (by decide))

theorem evtStatus_frame (s : State) : evtFrame s s.evtStatus := by
  unfold State.evtStatus
  split
  · refine evtFrame_trans (evtFrame_of_regs ?_) (evtFrame_trans (evtFrame_put _ _ _ (by decide) (by decide))
      (evtFrame_put _ _ _ (by decide) (by decide)))
    rfl
  · exact evtFrame_trans (evtFrame_put _ _ _ (by decide) (by decide)) (evtFrame_put _ _ _ (by decide) (by decide))

theorem evtDropped_frame (s : State) (code : Nat) : evtFrame s (s.evtDropped code) := by
  unfold State.evtDropped
  refine evtFrame_trans (countDrop_frame s code) (evtFrame_trans (errInc_evt_frame _) ?_)
  dsimp only
  split
  · exact evtFrame_refl _
  · exact evtFrame_trans (evtFrame_summary _ P.EVT B.EVT_OVERFLOW (by decide) (by decide)) (evtFrame_of_regs rfl)

/-- An entry that enters the arbiter's queue. -/
theorem evtEnter_frame (s : State) (e : EvEntry) : evtFrame s (s.evtEnter e) := by
  unfold State.evtEnter
  split
  · exact evtFrame_trans (evtFrame_wr s _ _ (by decide) (by decide)) (evtFrame_of_regs rfl)
  · split
    · exact evtFrame_trans (evtFrame_of_regs rfl) (evtStatus_frame _)
    · split
      · split
        · exact evtFrame_trans (evtFrame_of_regs rfl) (evtFrame_trans (evtDropped_frame _ _) (evtStatus_frame _))
        · exact evtFrame_trans (evtDropped_frame _ _) (evtStatus_frame _)
      · exact evtFrame_trans (evtDropped_frame _ _) (evtStatus_frame _)

theorem islandLog_frame (s : State) (e : EvEntry) : evtFrame s (s.islandLog e) := by
  unfold State.islandLog
  split
  · exact evtFrame_trans (evtFrame_of_regs rfl) (evtFrame_put _ _ _ (by decide) (by decide))
  · exact evtFrame_put _ _ _ (by decide) (by decide)

/-- An event of a page, wherever the arbiter's state sends it. -/
theorem eventOf_frame (s : State) (pg : Nat) (ev : EvKind) (sev : Nat) (d0 d1 : Option Word) :
    evtFrame s (s.eventOf pg ev sev d0 d1) := by
  unfold State.eventOf
  dsimp only
  split
  · split
    · exact islandLog_frame _ _
    · exact evtFrame_refl _
  · split
    · split
      · exact islandLog_frame _ _
      · split <;> exact evtFrame_of_regs rfl
    · exact evtEnter_frame _ _

/-! ## What callers cite -/

section
variable (s : State) (pg bit : Nat) (ev : EvKind) (sev : Nat) (d0 d1 : Option Word)

theorem eventOf_rd {o : Nat} (h : o ∉ evtOffs) : (s.eventOf pg ev sev d0 d1).rd o = s.rd o := (eventOf_frame s pg ev sev d0 d1).2.1 o h

theorem raiseSev_rd {o : Nat} (h : o ∉ evtOffs) (h2 : o ≠ Hdr.EVT_SUMMARY pg) : (s.raiseSev pg bit ev sev d0 d1).rd o = s.rd o := by
  unfold State.raiseSev; rw [eventOf_rd _ _ _ _ _ _ h]; exact rd_put_ne s _ _ h2

theorem raise_rd {o : Nat} (h : o ∉ evtOffs) (h2 : o ≠ Hdr.EVT_SUMMARY pg) : (s.raise pg bit ev d0 d1).rd o = s.rd o :=
  raiseSev_rd s pg bit ev ev.sev d0 d1 h h2

theorem raiseBare_rd {o : Nat} (h : o ∉ evtOffs) : (s.raiseBare pg ev d0 d1).rd o = s.rd o := eventOf_rd s pg ev ev.sev d0 d1 h

theorem raise_get {f : Fld} (h : f.off ∉ evtOffs) (h2 : f.off ≠ Hdr.EVT_SUMMARY pg) : (s.raise pg bit ev d0 d1).get f = s.get f := by
  unfold State.get; rw [raise_rd s pg bit ev d0 d1 h h2]

theorem raise_flag {f : Fld} (h : f.off ∉ evtOffs) (h2 : f.off ≠ Hdr.EVT_SUMMARY pg) : (s.raise pg bit ev d0 d1).flag f = s.flag f := by
  unfold State.flag; rw [raise_get s pg bit ev d0 d1 h h2]

theorem raiseSev_get {f : Fld} (h : f.off ∉ evtOffs) (h2 : f.off ≠ Hdr.EVT_SUMMARY pg) : (s.raiseSev pg bit ev sev d0 d1).get f = s.get f := by
  unfold State.get; rw [raiseSev_rd s pg bit ev sev d0 d1 h h2]

theorem raiseSev_flag {f : Fld} (h : f.off ∉ evtOffs) (h2 : f.off ≠ Hdr.EVT_SUMMARY pg) : (s.raiseSev pg bit ev sev d0 d1).flag f = s.flag f := by
  unfold State.flag; rw [raiseSev_get s pg bit ev sev d0 d1 h h2]

theorem raiseBare_get {f : Fld} (h : f.off ∉ evtOffs) : (s.raiseBare pg ev d0 d1).get f = s.get f := by
  unfold State.get; rw [raiseBare_rd s pg ev d0 d1 h]

theorem raiseBare_flag {f : Fld} (h : f.off ∉ evtOffs) : (s.raiseBare pg ev d0 d1).flag f = s.flag f := by
  unfold State.flag; rw [raiseBare_get s pg ev d0 d1 h]

theorem raiseSev_summary (hb : bit < 32) (hp : pg % 4096 = 0) : (s.raiseSev pg bit ev sev d0 d1).flag ⟨Hdr.EVT_SUMMARY pg, bit, 1⟩ = true := by
  unfold State.raiseSev
  exact (eventOf_frame _ pg ev sev d0 d1).2.2 pg bit hp (flag_putB_same s _ true (by simp; omega) rfl)

/-- The summary bit of the source is set (R31). -/
theorem raise_summary (hb : bit < 32) (hp : pg % 4096 = 0) : (s.raise pg bit ev d0 d1).flag ⟨Hdr.EVT_SUMMARY pg, bit, 1⟩ = true :=
  raiseSev_summary s pg bit ev ev.sev d0 d1 hb hp

end

/-! ## Fields -/

namespace State

variable (s : State) (pg bit : Nat) (ev : EvKind) (sev : Nat) (d0 d1 : Option Word)

@[simp] theorem eventOf_pending : (s.eventOf pg ev sev d0 d1).pending = s.pending := by rw [(eventOf_frame s pg ev sev d0 d1).1]
@[simp] theorem raiseSev_pending : (s.raiseSev pg bit ev sev d0 d1).pending = s.pending := eventOf_pending _ pg ev sev d0 d1
@[simp] theorem raise_pending : (s.raise pg bit ev d0 d1).pending = s.pending := eventOf_pending _ pg ev ev.sev d0 d1
@[simp] theorem raiseBare_pending : (s.raiseBare pg ev d0 d1).pending = s.pending := eventOf_pending s pg ev ev.sev d0 d1
@[simp] theorem eventOf_out : (s.eventOf pg ev sev d0 d1).out = s.out := by rw [(eventOf_frame s pg ev sev d0 d1).1]
@[simp] theorem raiseSev_out : (s.raiseSev pg bit ev sev d0 d1).out = s.out := eventOf_out _ pg ev sev d0 d1
@[simp] theorem raise_out : (s.raise pg bit ev d0 d1).out = s.out := eventOf_out _ pg ev ev.sev d0 d1
@[simp] theorem raiseBare_out : (s.raiseBare pg ev d0 d1).out = s.out := eventOf_out s pg ev ev.sev d0 d1
@[simp] theorem eventOf_now : (s.eventOf pg ev sev d0 d1).now = s.now := by rw [(eventOf_frame s pg ev sev d0 d1).1]
@[simp] theorem raiseSev_now : (s.raiseSev pg bit ev sev d0 d1).now = s.now := eventOf_now _ pg ev sev d0 d1
@[simp] theorem raise_now : (s.raise pg bit ev d0 d1).now = s.now := eventOf_now _ pg ev ev.sev d0 d1
@[simp] theorem raiseBare_now : (s.raiseBare pg ev d0 d1).now = s.now := eventOf_now s pg ev ev.sev d0 d1
@[simp] theorem eventOf_ftime : (s.eventOf pg ev sev d0 d1).ftime = s.ftime := by rw [(eventOf_frame s pg ev sev d0 d1).1]
@[simp] theorem raiseSev_ftime : (s.raiseSev pg bit ev sev d0 d1).ftime = s.ftime := eventOf_ftime _ pg ev sev d0 d1
@[simp] theorem raise_ftime : (s.raise pg bit ev d0 d1).ftime = s.ftime := eventOf_ftime _ pg ev ev.sev d0 d1
@[simp] theorem raiseBare_ftime : (s.raiseBare pg ev d0 d1).ftime = s.ftime := eventOf_ftime s pg ev ev.sev d0 d1
@[simp] theorem eventOf_freeCtr : (s.eventOf pg ev sev d0 d1).freeCtr = s.freeCtr := by rw [(eventOf_frame s pg ev sev d0 d1).1]
@[simp] theorem raiseSev_freeCtr : (s.raiseSev pg bit ev sev d0 d1).freeCtr = s.freeCtr := eventOf_freeCtr _ pg ev sev d0 d1
@[simp] theorem raise_freeCtr : (s.raise pg bit ev d0 d1).freeCtr = s.freeCtr := eventOf_freeCtr _ pg ev ev.sev d0 d1
@[simp] theorem raiseBare_freeCtr : (s.raiseBare pg ev d0 d1).freeCtr = s.freeCtr := eventOf_freeCtr s pg ev ev.sev d0 d1
@[simp] theorem eventOf_mod : (s.eventOf pg ev sev d0 d1).mod = s.mod := by rw [(eventOf_frame s pg ev sev d0 d1).1]
@[simp] theorem raiseSev_mod : (s.raiseSev pg bit ev sev d0 d1).mod = s.mod := eventOf_mod _ pg ev sev d0 d1
@[simp] theorem raise_mod : (s.raise pg bit ev d0 d1).mod = s.mod := eventOf_mod _ pg ev ev.sev d0 d1
@[simp] theorem raiseBare_mod : (s.raiseBare pg ev d0 d1).mod = s.mod := eventOf_mod s pg ev ev.sev d0 d1
@[simp] theorem eventOf_ctx : (s.eventOf pg ev sev d0 d1).ctx = s.ctx := by rw [(eventOf_frame s pg ev sev d0 d1).1]
@[simp] theorem raiseSev_ctx : (s.raiseSev pg bit ev sev d0 d1).ctx = s.ctx := eventOf_ctx _ pg ev sev d0 d1
@[simp] theorem raise_ctx : (s.raise pg bit ev d0 d1).ctx = s.ctx := eventOf_ctx _ pg ev ev.sev d0 d1
@[simp] theorem raiseBare_ctx : (s.raiseBare pg ev d0 d1).ctx = s.ctx := eventOf_ctx s pg ev ev.sev d0 d1
@[simp] theorem eventOf_clk : (s.eventOf pg ev sev d0 d1).clk = s.clk := by rw [(eventOf_frame s pg ev sev d0 d1).1]
@[simp] theorem raiseSev_clk : (s.raiseSev pg bit ev sev d0 d1).clk = s.clk := eventOf_clk _ pg ev sev d0 d1
@[simp] theorem raise_clk : (s.raise pg bit ev d0 d1).clk = s.clk := eventOf_clk _ pg ev ev.sev d0 d1
@[simp] theorem raiseBare_clk : (s.raiseBare pg ev d0 d1).clk = s.clk := eventOf_clk s pg ev ev.sev d0 d1
@[simp] theorem eventOf_links : (s.eventOf pg ev sev d0 d1).links = s.links := by rw [(eventOf_frame s pg ev sev d0 d1).1]
@[simp] theorem raiseSev_links : (s.raiseSev pg bit ev sev d0 d1).links = s.links := eventOf_links _ pg ev sev d0 d1
@[simp] theorem raise_links : (s.raise pg bit ev d0 d1).links = s.links := eventOf_links _ pg ev ev.sev d0 d1
@[simp] theorem raiseBare_links : (s.raiseBare pg ev d0 d1).links = s.links := eventOf_links s pg ev ev.sev d0 d1
@[simp] theorem eventOf_inbox : (s.eventOf pg ev sev d0 d1).inbox = s.inbox := by rw [(eventOf_frame s pg ev sev d0 d1).1]
@[simp] theorem raiseSev_inbox : (s.raiseSev pg bit ev sev d0 d1).inbox = s.inbox := eventOf_inbox _ pg ev sev d0 d1
@[simp] theorem raise_inbox : (s.raise pg bit ev d0 d1).inbox = s.inbox := eventOf_inbox _ pg ev ev.sev d0 d1
@[simp] theorem raiseBare_inbox : (s.raiseBare pg ev d0 d1).inbox = s.inbox := eventOf_inbox s pg ev ev.sev d0 d1
@[simp] theorem eventOf_stand : (s.eventOf pg ev sev d0 d1).stand = s.stand := by rw [(eventOf_frame s pg ev sev d0 d1).1]
@[simp] theorem raiseSev_stand : (s.raiseSev pg bit ev sev d0 d1).stand = s.stand := eventOf_stand _ pg ev sev d0 d1
@[simp] theorem raise_stand : (s.raise pg bit ev d0 d1).stand = s.stand := eventOf_stand _ pg ev ev.sev d0 d1
@[simp] theorem raiseBare_stand : (s.raiseBare pg ev d0 d1).stand = s.stand := eventOf_stand s pg ev ev.sev d0 d1
@[simp] theorem eventOf_image : (s.eventOf pg ev sev d0 d1).image = s.image := by rw [(eventOf_frame s pg ev sev d0 d1).1]
@[simp] theorem raiseSev_image : (s.raiseSev pg bit ev sev d0 d1).image = s.image := eventOf_image _ pg ev sev d0 d1
@[simp] theorem raise_image : (s.raise pg bit ev d0 d1).image = s.image := eventOf_image _ pg ev ev.sev d0 d1
@[simp] theorem raiseBare_image : (s.raiseBare pg ev d0 d1).image = s.image := eventOf_image s pg ev ev.sev d0 d1
@[simp] theorem eventOf_engines : (s.eventOf pg ev sev d0 d1).engines = s.engines := by rw [(eventOf_frame s pg ev sev d0 d1).1]
@[simp] theorem raiseSev_engines : (s.raiseSev pg bit ev sev d0 d1).engines = s.engines := eventOf_engines _ pg ev sev d0 d1
@[simp] theorem raise_engines : (s.raise pg bit ev d0 d1).engines = s.engines := eventOf_engines _ pg ev ev.sev d0 d1
@[simp] theorem raiseBare_engines : (s.raiseBare pg ev d0 d1).engines = s.engines := eventOf_engines s pg ev ev.sev d0 d1
@[simp] theorem eventOf_groves : (s.eventOf pg ev sev d0 d1).groves = s.groves := by rw [(eventOf_frame s pg ev sev d0 d1).1]
@[simp] theorem raiseSev_groves : (s.raiseSev pg bit ev sev d0 d1).groves = s.groves := eventOf_groves _ pg ev sev d0 d1
@[simp] theorem raise_groves : (s.raise pg bit ev d0 d1).groves = s.groves := eventOf_groves _ pg ev ev.sev d0 d1
@[simp] theorem raiseBare_groves : (s.raiseBare pg ev d0 d1).groves = s.groves := eventOf_groves s pg ev ev.sev d0 d1
@[simp] theorem eventOf_mem : (s.eventOf pg ev sev d0 d1).mem = s.mem := by rw [(eventOf_frame s pg ev sev d0 d1).1]
@[simp] theorem raiseSev_mem : (s.raiseSev pg bit ev sev d0 d1).mem = s.mem := eventOf_mem _ pg ev sev d0 d1
@[simp] theorem raise_mem : (s.raise pg bit ev d0 d1).mem = s.mem := eventOf_mem _ pg ev ev.sev d0 d1
@[simp] theorem raiseBare_mem : (s.raiseBare pg ev d0 d1).mem = s.mem := eventOf_mem s pg ev ev.sev d0 d1
@[simp] theorem eventOf_poison : (s.eventOf pg ev sev d0 d1).poison = s.poison := by rw [(eventOf_frame s pg ev sev d0 d1).1]
@[simp] theorem raiseSev_poison : (s.raiseSev pg bit ev sev d0 d1).poison = s.poison := eventOf_poison _ pg ev sev d0 d1
@[simp] theorem raise_poison : (s.raise pg bit ev d0 d1).poison = s.poison := eventOf_poison _ pg ev ev.sev d0 d1
@[simp] theorem raiseBare_poison : (s.raiseBare pg ev d0 d1).poison = s.poison := eventOf_poison s pg ev ev.sev d0 d1
@[simp] theorem eventOf_bg : (s.eventOf pg ev sev d0 d1).bg = s.bg := by rw [(eventOf_frame s pg ev sev d0 d1).1]
@[simp] theorem raiseSev_bg : (s.raiseSev pg bit ev sev d0 d1).bg = s.bg := eventOf_bg _ pg ev sev d0 d1
@[simp] theorem raise_bg : (s.raise pg bit ev d0 d1).bg = s.bg := eventOf_bg _ pg ev ev.sev d0 d1
@[simp] theorem raiseBare_bg : (s.raiseBare pg ev d0 d1).bg = s.bg := eventOf_bg s pg ev ev.sev d0 d1
@[simp] theorem eventOf_bgNext : (s.eventOf pg ev sev d0 d1).bgNext = s.bgNext := by rw [(eventOf_frame s pg ev sev d0 d1).1]
@[simp] theorem raiseSev_bgNext : (s.raiseSev pg bit ev sev d0 d1).bgNext = s.bgNext := eventOf_bgNext _ pg ev sev d0 d1
@[simp] theorem raise_bgNext : (s.raise pg bit ev d0 d1).bgNext = s.bgNext := eventOf_bgNext _ pg ev ev.sev d0 d1
@[simp] theorem raiseBare_bgNext : (s.raiseBare pg ev d0 d1).bgNext = s.bgNext := eventOf_bgNext s pg ev ev.sev d0 d1
@[simp] theorem eventOf_reduce : (s.eventOf pg ev sev d0 d1).reduce = s.reduce := by rw [(eventOf_frame s pg ev sev d0 d1).1]
@[simp] theorem raiseSev_reduce : (s.raiseSev pg bit ev sev d0 d1).reduce = s.reduce := eventOf_reduce _ pg ev sev d0 d1
@[simp] theorem raise_reduce : (s.raise pg bit ev d0 d1).reduce = s.reduce := eventOf_reduce _ pg ev ev.sev d0 d1
@[simp] theorem raiseBare_reduce : (s.raiseBare pg ev d0 d1).reduce = s.reduce := eventOf_reduce s pg ev ev.sev d0 d1
@[simp] theorem eventOf_lpddr : (s.eventOf pg ev sev d0 d1).lpddr = s.lpddr := by rw [(eventOf_frame s pg ev sev d0 d1).1]
@[simp] theorem raiseSev_lpddr : (s.raiseSev pg bit ev sev d0 d1).lpddr = s.lpddr := eventOf_lpddr _ pg ev sev d0 d1
@[simp] theorem raise_lpddr : (s.raise pg bit ev d0 d1).lpddr = s.lpddr := eventOf_lpddr _ pg ev ev.sev d0 d1
@[simp] theorem raiseBare_lpddr : (s.raiseBare pg ev d0 d1).lpddr = s.lpddr := eventOf_lpddr s pg ev ev.sev d0 d1
@[simp] theorem eventOf_boot : (s.eventOf pg ev sev d0 d1).boot = s.boot := by rw [(eventOf_frame s pg ev sev d0 d1).1]
@[simp] theorem raiseSev_boot : (s.raiseSev pg bit ev sev d0 d1).boot = s.boot := eventOf_boot _ pg ev sev d0 d1
@[simp] theorem raise_boot : (s.raise pg bit ev d0 d1).boot = s.boot := eventOf_boot _ pg ev ev.sev d0 d1
@[simp] theorem raiseBare_boot : (s.raiseBare pg ev d0 d1).boot = s.boot := eventOf_boot s pg ev ev.sev d0 d1
@[simp] theorem eventOf_host : (s.eventOf pg ev sev d0 d1).host = s.host := by rw [(eventOf_frame s pg ev sev d0 d1).1]
@[simp] theorem raiseSev_host : (s.raiseSev pg bit ev sev d0 d1).host = s.host := eventOf_host _ pg ev sev d0 d1
@[simp] theorem raise_host : (s.raise pg bit ev d0 d1).host = s.host := eventOf_host _ pg ev ev.sev d0 d1
@[simp] theorem raiseBare_host : (s.raiseBare pg ev d0 d1).host = s.host := eventOf_host s pg ev ev.sev d0 d1
@[simp] theorem eventOf_serve : (s.eventOf pg ev sev d0 d1).serve = s.serve := by rw [(eventOf_frame s pg ev sev d0 d1).1]
@[simp] theorem raiseSev_serve : (s.raiseSev pg bit ev sev d0 d1).serve = s.serve := eventOf_serve _ pg ev sev d0 d1
@[simp] theorem raise_serve : (s.raise pg bit ev d0 d1).serve = s.serve := eventOf_serve _ pg ev ev.sev d0 d1
@[simp] theorem raiseBare_serve : (s.raiseBare pg ev d0 d1).serve = s.serve := eventOf_serve s pg ev ev.sev d0 d1
@[simp] theorem eventOf_sample : (s.eventOf pg ev sev d0 d1).sample = s.sample := by rw [(eventOf_frame s pg ev sev d0 d1).1]
@[simp] theorem raiseSev_sample : (s.raiseSev pg bit ev sev d0 d1).sample = s.sample := eventOf_sample _ pg ev sev d0 d1
@[simp] theorem raise_sample : (s.raise pg bit ev d0 d1).sample = s.sample := eventOf_sample _ pg ev ev.sev d0 d1
@[simp] theorem raiseBare_sample : (s.raiseBare pg ev d0 d1).sample = s.sample := eventOf_sample s pg ev ev.sev d0 d1
@[simp] theorem eventOf_fluid : (s.eventOf pg ev sev d0 d1).fluid = s.fluid := by rw [(eventOf_frame s pg ev sev d0 d1).1]
@[simp] theorem raiseSev_fluid : (s.raiseSev pg bit ev sev d0 d1).fluid = s.fluid := eventOf_fluid _ pg ev sev d0 d1
@[simp] theorem raise_fluid : (s.raise pg bit ev d0 d1).fluid = s.fluid := eventOf_fluid _ pg ev ev.sev d0 d1
@[simp] theorem raiseBare_fluid : (s.raiseBare pg ev d0 d1).fluid = s.fluid := eventOf_fluid s pg ev ev.sev d0 d1
@[simp] theorem eventOf_coolant : (s.eventOf pg ev sev d0 d1).coolant = s.coolant := by rw [(eventOf_frame s pg ev sev d0 d1).1]
@[simp] theorem raiseSev_coolant : (s.raiseSev pg bit ev sev d0 d1).coolant = s.coolant := eventOf_coolant _ pg ev sev d0 d1
@[simp] theorem raise_coolant : (s.raise pg bit ev d0 d1).coolant = s.coolant := eventOf_coolant _ pg ev ev.sev d0 d1
@[simp] theorem raiseBare_coolant : (s.raiseBare pg ev d0 d1).coolant = s.coolant := eventOf_coolant s pg ev ev.sev d0 d1
@[simp] theorem eventOf_therm : (s.eventOf pg ev sev d0 d1).therm = s.therm := by rw [(eventOf_frame s pg ev sev d0 d1).1]
@[simp] theorem raiseSev_therm : (s.raiseSev pg bit ev sev d0 d1).therm = s.therm := eventOf_therm _ pg ev sev d0 d1
@[simp] theorem raise_therm : (s.raise pg bit ev d0 d1).therm = s.therm := eventOf_therm _ pg ev ev.sev d0 d1
@[simp] theorem raiseBare_therm : (s.raiseBare pg ev d0 d1).therm = s.therm := eventOf_therm s pg ev ev.sev d0 d1
@[simp] theorem eventOf_canopy : (s.eventOf pg ev sev d0 d1).canopy = s.canopy := by rw [(eventOf_frame s pg ev sev d0 d1).1]
@[simp] theorem raiseSev_canopy : (s.raiseSev pg bit ev sev d0 d1).canopy = s.canopy := eventOf_canopy _ pg ev sev d0 d1
@[simp] theorem raise_canopy : (s.raise pg bit ev d0 d1).canopy = s.canopy := eventOf_canopy _ pg ev ev.sev d0 d1
@[simp] theorem raiseBare_canopy : (s.raiseBare pg ev d0 d1).canopy = s.canopy := eventOf_canopy s pg ev ev.sev d0 d1
@[simp] theorem eventOf_group : (s.eventOf pg ev sev d0 d1).group = s.group := by rw [(eventOf_frame s pg ev sev d0 d1).1]
@[simp] theorem raiseSev_group : (s.raiseSev pg bit ev sev d0 d1).group = s.group := eventOf_group _ pg ev sev d0 d1
@[simp] theorem raise_group : (s.raise pg bit ev d0 d1).group = s.group := eventOf_group _ pg ev ev.sev d0 d1
@[simp] theorem raiseBare_group : (s.raiseBare pg ev d0 d1).group = s.group := eventOf_group s pg ev ev.sev d0 d1
@[simp] theorem eventOf_rlog : (s.eventOf pg ev sev d0 d1).rlog = s.rlog := by rw [(eventOf_frame s pg ev sev d0 d1).1]
@[simp] theorem raiseSev_rlog : (s.raiseSev pg bit ev sev d0 d1).rlog = s.rlog := eventOf_rlog _ pg ev sev d0 d1
@[simp] theorem raise_rlog : (s.raise pg bit ev d0 d1).rlog = s.rlog := eventOf_rlog _ pg ev ev.sev d0 d1
@[simp] theorem raiseBare_rlog : (s.raiseBare pg ev d0 d1).rlog = s.rlog := eventOf_rlog s pg ev ev.sev d0 d1
@[simp] theorem eventOf_sec : (s.eventOf pg ev sev d0 d1).sec = s.sec := by rw [(eventOf_frame s pg ev sev d0 d1).1]
@[simp] theorem raiseSev_sec : (s.raiseSev pg bit ev sev d0 d1).sec = s.sec := eventOf_sec _ pg ev sev d0 d1
@[simp] theorem raise_sec : (s.raise pg bit ev d0 d1).sec = s.sec := eventOf_sec _ pg ev ev.sev d0 d1
@[simp] theorem raiseBare_sec : (s.raiseBare pg ev d0 d1).sec = s.sec := eventOf_sec s pg ev ev.sev d0 d1
@[simp] theorem eventOf_side : (s.eventOf pg ev sev d0 d1).side = s.side := by rw [(eventOf_frame s pg ev sev d0 d1).1]
@[simp] theorem raiseSev_side : (s.raiseSev pg bit ev sev d0 d1).side = s.side := eventOf_side _ pg ev sev d0 d1
@[simp] theorem raise_side : (s.raise pg bit ev d0 d1).side = s.side := eventOf_side _ pg ev ev.sev d0 d1
@[simp] theorem raiseBare_side : (s.raiseBare pg ev d0 d1).side = s.side := eventOf_side s pg ev ev.sev d0 d1
@[simp] theorem eventOf_dwood : (s.eventOf pg ev sev d0 d1).dwood = s.dwood := by rw [(eventOf_frame s pg ev sev d0 d1).1]
@[simp] theorem raiseSev_dwood : (s.raiseSev pg bit ev sev d0 d1).dwood = s.dwood := eventOf_dwood _ pg ev sev d0 d1
@[simp] theorem raise_dwood : (s.raise pg bit ev d0 d1).dwood = s.dwood := eventOf_dwood _ pg ev ev.sev d0 d1
@[simp] theorem raiseBare_dwood : (s.raiseBare pg ev d0 d1).dwood = s.dwood := eventOf_dwood s pg ev ev.sev d0 d1

end State

end Sys2Proof.Machine
end

