-- ==== Sys2Proof/Laws/Access.lean ====
section
/-! SUPPORT. What the arbiter's decision on one write can do: refuse it, or accept it, snoop it, and let its effect happen. -/

namespace Sys2Proof.Machine

/-! ## The decision (R475) -/

/-- A requester other than the debug port, or the debug port while debug is open. -/
def mayTry (s : State) (req : Req) : Prop := req ≠ .debug ∨ s.debugOpen = true

theorem gate_accept (s : State) (req : Req) (off : Nat) (data : Word) (eff : State → State) (hd : mayTry s req)
    (hc : off % 4096 ≠ 0x10) (hm : s.canopyMay req off = true) : s.gate req 15 off data true eff = s.accept req off data eff := by
  unfold State.gate mayTry at *
  rcases hd with hd | hd
  · have : (req == Req.debug) = false := by simpa using hd
    simp [this, hc, hm]
  · simp [hd, hc, hm]

theorem gate_partial (s : State) (req : Req) (be : BitVec 4) (off : Nat) (data : Word) (ok : Bool) (eff : State → State)
    (hd : mayTry s req) (hb : be ≠ 15) : s.gate req be off data ok eff = s.refuse req off causePartial := by
  unfold State.gate mayTry at *
  rcases hd with hd | hd
  · have : (req == Req.debug) = false := by simpa using hd
    simp [this]; exact fun h => absurd h hb
  · simp [hd]; exact fun h => absurd h hb

theorem gate_debug (s : State) (be : BitVec 4) (off : Nat) (data : Word) (ok : Bool) (eff : State → State) (hd : s.debugOpen = false) :
    s.gate .debug be off data ok eff = s.refuse .debug off causeDebug := by
  unfold State.gate; simp [hd]

theorem gate_right (s : State) (req : Req) (off : Nat) (data : Word) (eff : State → State) (hd : mayTry s req)
    (hc : off % 4096 ≠ 0x10) : s.gate req 15 off data false eff = s.refuse req off causeRight := by
  unfold State.gate mayTry at *
  rcases hd with hd | hd
  · have : (req == Req.debug) = false := by simpa using hd
    simp [this, hc]
  · simp [hd, hc]

/-- Each write is refused under one of the four causes or accepted. -/
theorem gate_cases (s : State) (req : Req) (be : BitVec 4) (off : Nat) (data : Word) (ok : Bool) (eff : State → State) :
    (∃ c, c ∈ [causeProtected, causePartial, causeRight, causeDebug] ∧ s.gate req be off data ok eff = s.refuse req off c) ∨
      (be = 15 ∧ ok = true ∧ s.canopyMay req off = true ∧ s.gate req be off data ok eff = s.accept req off data eff) := by
  unfold State.gate
  split
  · exact .inl ⟨_, by simp, rfl⟩
  · split
    · exact .inl ⟨_, by simp, rfl⟩
    · split
      · exact .inl ⟨_, by simp, rfl⟩
      · split
        · exact .inl ⟨_, by simp, rfl⟩
        · next h1 h2 h3 h4 =>
          refine .inr ⟨by simpa using h2, ?_, ?_, rfl⟩
          · by_contra hk; simp only [Bool.not_eq_true] at hk; simp [hk] at h4
          · by_contra hk; simp only [Bool.not_eq_true] at hk; simp [hk] at h4

theorem canopyMay_of_not_canopy (s : State) {req : Req} (off : Nat) (h : coreOf req = none) : s.canopyMay req off = true := by
  unfold State.canopyMay; rw [h]

@[simp] theorem canopyMay_host (s : State) (off : Nat) : s.canopyMay .host off = true := rfl
@[simp] theorem canopyMay_glade (s : State) (off : Nat) : s.canopyMay .glade off = true := rfl

/-! ## Refusal (R30) -/

theorem refuse_rd (s : State) (req : Req) (off cause : Nat) (rd : Bool) {o : Nat}
    (h : o ∉ [0x104C, 0x1050, 0x1020, 0x1014]) : (s.refuse req off cause rd).rd o = s.rd o := by
  simp only [List.mem_cons, List.not_mem_nil, or_false, not_or] at h
  unfold State.refuse State.errInc State.bump State.putB
  dsimp only
  rw [rd_put_ne _ _ _ (by simpa using h.2.2.2), rd_wr_ne _ _ (by simpa using h.2.2.1), rd_wr_ne _ _ (by simpa using h.2.1),
    rd_wr_ne _ _ (by simpa using h.1)]

/-! ## Acceptance -/

/-- Everything but the management pair, its two pages and what an event touches is as before. -/
def snoopFrame (s t : State) : Prop :=
  t = { s with regs := t.regs, canopy := t.canopy, evt := t.evt, glade := t.glade } ∧
    ∀ o, o ∉ evtOffs → ¬ (0x8000 ≤ o ∧ o < 0xA000) → t.rd o = s.rd o

theorem snoopFrame_refl (s : State) : snoopFrame s s := ⟨rfl, fun _ _ _ => rfl⟩

theorem snoopFrame_trans {s t u : State} (h1 : snoopFrame s t) (h2 : snoopFrame t u) : snoopFrame s u := by
  refine ⟨?_, fun o ho hc => (h2.2 o ho hc).trans (h1.2 o ho hc)⟩
  have a := h1.1
  have b := h2.1
  rw [a] at b
  exact b

theorem snoopFrame_of_evt {s t : State} (h : evtFrame s t) : snoopFrame s t := by
  refine ⟨?_, fun o ho _ => h.2.1 o ho⟩
  have a := h.1
  have c : t.canopy = s.canopy := by rw [a]
  rw [c]; exact a

theorem snoopFrame_canopy (s : State) (c : CanopySt) : snoopFrame s { s with canopy := c } := ⟨rfl, fun o _ _ => rd_congr rfl o⟩

theorem snoopFrame_put (s : State) (f : Fld) (x : Nat) (h : 0x8000 ≤ f.off ∧ f.off < 0xA000) : snoopFrame s (s.put f x) :=
  ⟨rfl, fun _ _ hc => rd_put_ne s f x (fun e => hc (e ▸ h))⟩

theorem raise_canopy_frame (s : State) (k bit : Nat) (ev : EvKind) (d0 d1 : Option Word) (hk : k < 2) :
    snoopFrame s (s.raise (P.CANOPY k) bit ev d0 d1) := by
  unfold State.raise State.raiseSev
  refine snoopFrame_trans (snoopFrame_put _ _ _ ?_) (snoopFrame_of_evt (eventOf_frame _ _ _ _ _ _))
  show 0x8000 ≤ 0x8000 + 0x1000 * k + 0x14 ∧ 0x8000 + 0x1000 * k + 0x14 < 0xA000
  omega

theorem snoopTo_frame (s : State) (e : SnoopEntry) (k : Nat) (hk : k < 2) : snoopFrame s (s.snoopTo e k) := by
  have hf : 0x8000 ≤ 0x8000 + 0x1000 * k + 0x54 ∧ 0x8000 + 0x1000 * k + 0x54 < 0xA000 := by omega
  unfold State.snoopTo
  dsimp only
  split
  · exact snoopFrame_trans (snoopFrame_canopy _ _) (snoopFrame_put _ _ _ hf)
  · exact snoopFrame_trans (snoopFrame_put _ _ _ hf) (snoopFrame_trans (snoopFrame_put _ _ _ hf) (raise_canopy_frame _ _ _ _ _ _ hk))

theorem foldl_snoopFrame {β : Type} (f : State → β → State) (l : List β) (h : ∀ s, ∀ b ∈ l, snoopFrame s (f s b)) (s : State) :
    snoopFrame s (l.foldl f s) := by
  induction l generalizing s with
  | nil => exact snoopFrame_refl s
  | cons b l ih =>
    exact snoopFrame_trans (h s b (by simp)) (ih (fun s b hb => h s b (by simp [hb])) _)

/-- Sending an accepted write to the snoop queues. -/
theorem snoop_frame (s : State) (off : Nat) (req : Req) (data : Word) : snoopFrame s (s.snoop off req data) := by
  unfold State.snoop
  refine snoopFrame_trans (snoopFrame_canopy s _) (foldl_snoopFrame _ _ (fun t k hk => snoopTo_frame t _ k ?_) _)
  unfold State.snoopers at hk
  have := List.mem_of_mem_filter hk
  simp only [List.mem_cons, List.not_mem_nil, or_false] at this
  omega

theorem trackWrite_frame (s : State) (req : Req) (off : Nat) (before : Word) :
    s.trackWrite req off before = { s with canopy := (s.trackWrite req off before).canopy } := by
  unfold State.trackWrite
  dsimp only
  split
  · split <;> rfl
  · split <;> rfl

@[simp] theorem trackWrite_regs (s : State) (req : Req) (off : Nat) (before : Word) : (s.trackWrite req off before).regs = s.regs := by
  rw [trackWrite_frame]

@[simp] theorem trackWrite_rd (s : State) (req : Req) (off : Nat) (before : Word) (o : Nat) :
    (s.trackWrite req off before).rd o = s.rd o := rd_congr (trackWrite_regs s req off before) o

/-- The state an accepted write's effect starts from: snooped, and the page's OWNER named. -/
def State.taken (s : State) (req : Req) (off : Nat) (data : Word) : State :=
  (s.snoop off req data).wr (Hdr.OWNER (pageOf off)) (reqIdent req)

/-- On the page of an absent unit an accepted write is only snooped. -/
theorem accept_absent (s : State) (req : Req) (off : Nat) (data : Word) (eff : State → State)
    (h : (s.snoop off req data).absent (pageOf off) = true) : s.accept req off data eff = s.snoop off req data := by
  unfold State.accept; simp [h]

/-- On the page of a present unit it has its effect, and R367's record is kept. -/
theorem accept_present (s : State) (req : Req) (off : Nat) (data : Word) (eff : State → State)
    (h : (s.snoop off req data).absent (pageOf off) = false) :
    s.accept req off data eff = (eff (s.taken req off data)).trackWrite req off ((s.snoop off req data).rd off) := by
  unfold State.accept State.taken; simp [h]

/-- What an accepted write leaves of a register, outside the pages of the management pair and the event registers. -/
theorem accept_rd (s : State) (req : Req) (off : Nat) (data : Word) (eff : State → State) (o : Nat)
    (h : (s.snoop off req data).absent (pageOf off) = false) :
    (s.accept req off data eff).rd o = (eff (s.taken req off data)).rd o := by
  rw [accept_present s req off data eff h, trackWrite_rd]

theorem taken_rd (s : State) (req : Req) (off : Nat) (data : Word) {o : Nat} (h1 : o ∉ evtOffs) (h2 : ¬ (0x8000 ≤ o ∧ o < 0xA000))
    (h3 : o ≠ Hdr.OWNER (pageOf off)) : (s.taken req off data).rd o = s.rd o := by
  unfold State.taken; rw [rd_wr_ne _ _ h3]; exact (snoop_frame s off req data).2 o h1 h2

theorem taken_owner (s : State) (req : Req) (off : Nat) (data : Word) :
    (s.taken req off data).rd (Hdr.OWNER (pageOf off)) = reqIdent req := by unfold State.taken; simp

/-- Whether a unit is absent, after a snoop: as before, but on a page of the management pair. -/
theorem snoop_absent (s : State) (off : Nat) (req : Req) (data : Word) (pg : Nat) (h1 : pg % 4096 = 0) (h2 : pg ≠ 0x8000 ∧ pg ≠ 0x9000) :
    (s.snoop off req data).absent pg = s.absent pg := by
  have h : (s.snoop off req data).rd (pg + 0x8) = s.rd (pg + 0x8) := by
    apply (snoop_frame s off req data).2
    · simp only [evtOffs, List.mem_cons, List.not_mem_nil, or_false]; omega
    · omega
  unfold State.absent State.flag State.get
  simp only [h]

/-! ## Fields -/

namespace State

variable (s : State) (off : Nat) (req : Req) (data before : Word)

@[simp] theorem snoop_pending : (s.snoop off req data).pending = s.pending := by rw [(snoop_frame s off req data).1]
@[simp] theorem taken_pending : (s.taken req off data).pending = s.pending := snoop_pending s off req data
@[simp] theorem snoop_out : (s.snoop off req data).out = s.out := by rw [(snoop_frame s off req data).1]
@[simp] theorem taken_out : (s.taken req off data).out = s.out := snoop_out s off req data
@[simp] theorem snoop_now : (s.snoop off req data).now = s.now := by rw [(snoop_frame s off req data).1]
@[simp] theorem taken_now : (s.taken req off data).now = s.now := snoop_now s off req data
@[simp] theorem snoop_ftime : (s.snoop off req data).ftime = s.ftime := by rw [(snoop_frame s off req data).1]
@[simp] theorem taken_ftime : (s.taken req off data).ftime = s.ftime := snoop_ftime s off req data
@[simp] theorem snoop_freeCtr : (s.snoop off req data).freeCtr = s.freeCtr := by rw [(snoop_frame s off req data).1]
@[simp] theorem taken_freeCtr : (s.taken req off data).freeCtr = s.freeCtr := snoop_freeCtr s off req data
@[simp] theorem snoop_mod : (s.snoop off req data).mod = s.mod := by rw [(snoop_frame s off req data).1]
@[simp] theorem taken_mod : (s.taken req off data).mod = s.mod := snoop_mod s off req data
@[simp] theorem snoop_ctx : (s.snoop off req data).ctx = s.ctx := by rw [(snoop_frame s off req data).1]
@[simp] theorem taken_ctx : (s.taken req off data).ctx = s.ctx := snoop_ctx s off req data
@[simp] theorem snoop_clk : (s.snoop off req data).clk = s.clk := by rw [(snoop_frame s off req data).1]
@[simp] theorem taken_clk : (s.taken req off data).clk = s.clk := snoop_clk s off req data
@[simp] theorem snoop_links : (s.snoop off req data).links = s.links := by rw [(snoop_frame s off req data).1]
@[simp] theorem taken_links : (s.taken req off data).links = s.links := snoop_links s off req data
@[simp] theorem snoop_inbox : (s.snoop off req data).inbox = s.inbox := by rw [(snoop_frame s off req data).1]
@[simp] theorem taken_inbox : (s.taken req off data).inbox = s.inbox := snoop_inbox s off req data
@[simp] theorem snoop_stand : (s.snoop off req data).stand = s.stand := by rw [(snoop_frame s off req data).1]
@[simp] theorem taken_stand : (s.taken req off data).stand = s.stand := snoop_stand s off req data
@[simp] theorem snoop_image : (s.snoop off req data).image = s.image := by rw [(snoop_frame s off req data).1]
@[simp] theorem taken_image : (s.taken req off data).image = s.image := snoop_image s off req data
@[simp] theorem snoop_engines : (s.snoop off req data).engines = s.engines := by rw [(snoop_frame s off req data).1]
@[simp] theorem taken_engines : (s.taken req off data).engines = s.engines := snoop_engines s off req data
@[simp] theorem snoop_groves : (s.snoop off req data).groves = s.groves := by rw [(snoop_frame s off req data).1]
@[simp] theorem taken_groves : (s.taken req off data).groves = s.groves := snoop_groves s off req data
@[simp] theorem snoop_mem : (s.snoop off req data).mem = s.mem := by rw [(snoop_frame s off req data).1]
@[simp] theorem taken_mem : (s.taken req off data).mem = s.mem := snoop_mem s off req data
@[simp] theorem snoop_poison : (s.snoop off req data).poison = s.poison := by rw [(snoop_frame s off req data).1]
@[simp] theorem taken_poison : (s.taken req off data).poison = s.poison := snoop_poison s off req data
@[simp] theorem snoop_bg : (s.snoop off req data).bg = s.bg := by rw [(snoop_frame s off req data).1]
@[simp] theorem taken_bg : (s.taken req off data).bg = s.bg := snoop_bg s off req data
@[simp] theorem snoop_bgNext : (s.snoop off req data).bgNext = s.bgNext := by rw [(snoop_frame s off req data).1]
@[simp] theorem taken_bgNext : (s.taken req off data).bgNext = s.bgNext := snoop_bgNext s off req data
@[simp] theorem snoop_reduce : (s.snoop off req data).reduce = s.reduce := by rw [(snoop_frame s off req data).1]
@[simp] theorem taken_reduce : (s.taken req off data).reduce = s.reduce := snoop_reduce s off req data
@[simp] theorem snoop_lpddr : (s.snoop off req data).lpddr = s.lpddr := by rw [(snoop_frame s off req data).1]
@[simp] theorem taken_lpddr : (s.taken req off data).lpddr = s.lpddr := snoop_lpddr s off req data
@[simp] theorem snoop_boot : (s.snoop off req data).boot = s.boot := by rw [(snoop_frame s off req data).1]
@[simp] theorem taken_boot : (s.taken req off data).boot = s.boot := snoop_boot s off req data
@[simp] theorem snoop_host : (s.snoop off req data).host = s.host := by rw [(snoop_frame s off req data).1]
@[simp] theorem taken_host : (s.taken req off data).host = s.host := snoop_host s off req data
@[simp] theorem snoop_serve : (s.snoop off req data).serve = s.serve := by rw [(snoop_frame s off req data).1]
@[simp] theorem taken_serve : (s.taken req off data).serve = s.serve := snoop_serve s off req data
@[simp] theorem snoop_sample : (s.snoop off req data).sample = s.sample := by rw [(snoop_frame s off req data).1]
@[simp] theorem taken_sample : (s.taken req off data).sample = s.sample := snoop_sample s off req data
@[simp] theorem snoop_fluid : (s.snoop off req data).fluid = s.fluid := by rw [(snoop_frame s off req data).1]
@[simp] theorem taken_fluid : (s.taken req off data).fluid = s.fluid := snoop_fluid s off req data
@[simp] theorem snoop_coolant : (s.snoop off req data).coolant = s.coolant := by rw [(snoop_frame s off req data).1]
@[simp] theorem taken_coolant : (s.taken req off data).coolant = s.coolant := snoop_coolant s off req data
@[simp] theorem snoop_therm : (s.snoop off req data).therm = s.therm := by rw [(snoop_frame s off req data).1]
@[simp] theorem taken_therm : (s.taken req off data).therm = s.therm := snoop_therm s off req data
@[simp] theorem snoop_group : (s.snoop off req data).group = s.group := by rw [(snoop_frame s off req data).1]
@[simp] theorem taken_group : (s.taken req off data).group = s.group := snoop_group s off req data
@[simp] theorem snoop_rlog : (s.snoop off req data).rlog = s.rlog := by rw [(snoop_frame s off req data).1]
@[simp] theorem taken_rlog : (s.taken req off data).rlog = s.rlog := snoop_rlog s off req data
@[simp] theorem snoop_sec : (s.snoop off req data).sec = s.sec := by rw [(snoop_frame s off req data).1]
@[simp] theorem taken_sec : (s.taken req off data).sec = s.sec := snoop_sec s off req data
@[simp] theorem snoop_side : (s.snoop off req data).side = s.side := by rw [(snoop_frame s off req data).1]
@[simp] theorem taken_side : (s.taken req off data).side = s.side := snoop_side s off req data
@[simp] theorem snoop_dwood : (s.snoop off req data).dwood = s.dwood := by rw [(snoop_frame s off req data).1]
@[simp] theorem taken_dwood : (s.taken req off data).dwood = s.dwood := snoop_dwood s off req data
@[simp] theorem trackWrite_pending : (s.trackWrite req off before).pending = s.pending := by rw [trackWrite_frame]
@[simp] theorem trackWrite_out : (s.trackWrite req off before).out = s.out := by rw [trackWrite_frame]
@[simp] theorem trackWrite_now : (s.trackWrite req off before).now = s.now := by rw [trackWrite_frame]
@[simp] theorem trackWrite_ftime : (s.trackWrite req off before).ftime = s.ftime := by rw [trackWrite_frame]
@[simp] theorem trackWrite_freeCtr : (s.trackWrite req off before).freeCtr = s.freeCtr := by rw [trackWrite_frame]
@[simp] theorem trackWrite_mod : (s.trackWrite req off before).mod = s.mod := by rw [trackWrite_frame]
@[simp] theorem trackWrite_ctx : (s.trackWrite req off before).ctx = s.ctx := by rw [trackWrite_frame]
@[simp] theorem trackWrite_evt : (s.trackWrite req off before).evt = s.evt := by rw [trackWrite_frame]
@[simp] theorem trackWrite_clk : (s.trackWrite req off before).clk = s.clk := by rw [trackWrite_frame]
@[simp] theorem trackWrite_links : (s.trackWrite req off before).links = s.links := by rw [trackWrite_frame]
@[simp] theorem trackWrite_inbox : (s.trackWrite req off before).inbox = s.inbox := by rw [trackWrite_frame]
@[simp] theorem trackWrite_stand : (s.trackWrite req off before).stand = s.stand := by rw [trackWrite_frame]
@[simp] theorem trackWrite_image : (s.trackWrite req off before).image = s.image := by rw [trackWrite_frame]
@[simp] theorem trackWrite_engines : (s.trackWrite req off before).engines = s.engines := by rw [trackWrite_frame]
@[simp] theorem trackWrite_groves : (s.trackWrite req off before).groves = s.groves := by rw [trackWrite_frame]
@[simp] theorem trackWrite_mem : (s.trackWrite req off before).mem = s.mem := by rw [trackWrite_frame]
@[simp] theorem trackWrite_poison : (s.trackWrite req off before).poison = s.poison := by rw [trackWrite_frame]
@[simp] theorem trackWrite_bg : (s.trackWrite req off before).bg = s.bg := by rw [trackWrite_frame]
@[simp] theorem trackWrite_bgNext : (s.trackWrite req off before).bgNext = s.bgNext := by rw [trackWrite_frame]
@[simp] theorem trackWrite_reduce : (s.trackWrite req off before).reduce = s.reduce := by rw [trackWrite_frame]
@[simp] theorem trackWrite_lpddr : (s.trackWrite req off before).lpddr = s.lpddr := by rw [trackWrite_frame]
@[simp] theorem trackWrite_boot : (s.trackWrite req off before).boot = s.boot := by rw [trackWrite_frame]
@[simp] theorem trackWrite_host : (s.trackWrite req off before).host = s.host := by rw [trackWrite_frame]
@[simp] theorem trackWrite_serve : (s.trackWrite req off before).serve = s.serve := by rw [trackWrite_frame]
@[simp] theorem trackWrite_sample : (s.trackWrite req off before).sample = s.sample := by rw [trackWrite_frame]
@[simp] theorem trackWrite_fluid : (s.trackWrite req off before).fluid = s.fluid := by rw [trackWrite_frame]
@[simp] theorem trackWrite_coolant : (s.trackWrite req off before).coolant = s.coolant := by rw [trackWrite_frame]
@[simp] theorem trackWrite_therm : (s.trackWrite req off before).therm = s.therm := by rw [trackWrite_frame]
@[simp] theorem trackWrite_glade : (s.trackWrite req off before).glade = s.glade := by rw [trackWrite_frame]
@[simp] theorem trackWrite_group : (s.trackWrite req off before).group = s.group := by rw [trackWrite_frame]
@[simp] theorem trackWrite_rlog : (s.trackWrite req off before).rlog = s.rlog := by rw [trackWrite_frame]
@[simp] theorem trackWrite_sec : (s.trackWrite req off before).sec = s.sec := by rw [trackWrite_frame]
@[simp] theorem trackWrite_side : (s.trackWrite req off before).side = s.side := by rw [trackWrite_frame]
@[simp] theorem trackWrite_dwood : (s.trackWrite req off before).dwood = s.dwood := by rw [trackWrite_frame]

end State

end Sys2Proof.Machine
end

