-- ==== Sys2Proof/Laws/Memory.lean ====
section
/-! SUPPORT. Module memory: every memory operation keeps the canonical form, a read after a write, and what leaves the registers'
canonical form. -/

namespace Sys2Proof.Machine

theorem cellsOf_spec (bs : List Byte) : ∀ a, (cellsOf a bs).Pairwise (fun x y => x.1 < y.1) ∧
    ∀ e ∈ cellsOf a bs, a ≤ e.1 ∧ e.1 < a + bs.length ∧ e.2 ≠ 0 := by
  induction bs with
  | nil => intro a; simp [cellsOf]
  | cons b bs ih =>
    intro a
    obtain ⟨hp, hm⟩ := ih (a + 1)
    have hlen : (b :: bs).length = bs.length + 1 := rfl
    unfold cellsOf
    split
    · refine ⟨hp, fun e he => ?_⟩
      obtain ⟨h1, h2, h3⟩ := hm e he
      exact ⟨by omega, by rw [hlen]; omega, h3⟩
    · refine ⟨List.pairwise_cons.2 ⟨fun e he => ?_, hp⟩, fun e he => ?_⟩
      · have := (hm e he).1; simp only; omega
      · rcases List.mem_cons.1 he with rfl | he
        · exact ⟨le_refl _, by rw [hlen]; simp only; omega, by assumption⟩
        · obtain ⟨h1, h2, h3⟩ := hm e he
          exact ⟨by omega, by rw [hlen]; omega, h3⟩

/-- Writing bytes keeps the canonical form. -/
theorem memWf_memWrite (m : List Host.Cell) (a : Nat) (bs : List Byte) (h : memWf m = true) : memWf (memWrite m a bs) = true := by
  unfold memWf amapWf at *
  rw [Bool.and_eq_true, keysRising_iff, List.all_eq_true] at *
  obtain ⟨hr, ha⟩ := h
  obtain ⟨cp, cm⟩ := cellsOf_spec bs a
  unfold memWrite
  constructor
  · rw [List.pairwise_append, List.pairwise_append]
    refine ⟨⟨hr.filter _, cp, fun x hx y hy => ?_⟩, hr.filter _, fun x hx y hy => ?_⟩
    · simp only [List.mem_filter, decide_eq_true_eq] at hx
      have := (cm y hy).1; omega
    · simp only [List.mem_filter, decide_eq_true_eq] at hy
      rcases List.mem_append.1 hx with hx | hx
      · simp only [List.mem_filter, decide_eq_true_eq] at hx; omega
      · have := (cm x hx).2.1; omega
  · intro e he
    simp only [List.mem_append, List.mem_filter] at he
    rcases he with (he | he) | he
    · exact ha e he.1
    · exact decide_eq_true (cm e he).2.2
    · exact ha e he.1

@[simp] theorem memWf_nil : memWf [] = true := rfl

/-- Writing a line, with or without an error, keeps memory and its error marks canonical. -/
theorem memWf_setLine (s : State) (n : Nat) (v : Line) (h : memWf s.mem = true) : memWf (s.setLine n v).mem = true :=
  memWf_memWrite _ _ _ h
theorem memWf_setLinePoisoned (s : State) (n : Nat) (v : Line) (h : memWf s.mem = true) : memWf (s.setLinePoisoned n v).mem = true :=
  memWf_memWrite _ _ _ h
theorem poisonWf_setLine (s : State) (n : Nat) (v : Line) (h : amapWf false s.poison = true) : amapWf false (s.setLine n v).poison = true :=
  amapWf_aset _ _ _ _ h
theorem poisonWf_setLinePoisoned (s : State) (n : Nat) (v : Line) (h : amapWf false s.poison = true) :
    amapWf false (s.setLinePoisoned n v).poison = true := amapWf_aset _ _ _ _ h

/-- Memory and its error marks after reset. -/
theorem memWf_reset : memWf State.reset.mem = true := rfl

/-! ## The register map -/

theorem regsWf_wr (s : State) (o : Nat) (v : Word) (h : regsWf s.regs = true) : regsWf (s.wr o v).regs = true := by
  unfold regsWf at *
  rw [Bool.and_eq_true, keysRising_iff, List.all_eq_true] at *
  obtain ⟨hr, ha⟩ := h
  simp only [State.wr, aset]
  constructor
  · rw [List.pairwise_append, List.pairwise_append]
    refine ⟨⟨hr.filter _, by split <;> simp, fun x hx y hy => ?_⟩, hr.filter _, fun x hx y hy => ?_⟩
    · simp only [List.mem_filter, decide_eq_true_eq] at hx
      split at hy <;> simp at hy
      subst hy; exact hx.2
    · simp only [List.mem_filter, decide_eq_true_eq] at hy
      rcases List.mem_append.1 hx with hx | hx
      · simp only [List.mem_filter, decide_eq_true_eq] at hx; omega
      · split at hx <;> simp at hx
        subst hx; exact hy.2
  · intro e he
    simp only [List.mem_append, List.mem_filter] at he
    rcases he with (he | he) | he
    · exact ha e he.1
    · split at he <;> simp at he
      subst he; simpa using by assumption
    · exact ha e he.1

theorem regsWf_put (s : State) (f : Fld) (x : Nat) (h : regsWf s.regs = true) : regsWf (s.put f x).regs = true := regsWf_wr s _ _ h
theorem regsWf_putB (s : State) (f : Fld) (b : Bool) (h : regsWf s.regs = true) : regsWf (s.putB f b).regs = true := regsWf_put s _ _ h

/-- Leaving registers at their reset value keeps the form. -/
theorem regsWf_filter (m : AMap Word) (p : Nat × Word → Bool) (h : regsWf m = true) : regsWf (m.filter p) = true := by
  unfold regsWf at *
  rw [Bool.and_eq_true, keysRising_iff, List.all_eq_true] at *
  exact ⟨h.1.filter _, fun e he => h.2 e (List.mem_filter.1 he).1⟩

end Sys2Proof.Machine
end

