-- ==== Sys2Proof/Laws/Norm.lean ====
section
/-! SUPPORT. A normal form for register claims: every read of a state is a read of its register map, and every update of a register an
update of that map, so that a record update of another field between the two goes away by itself. -/

namespace Sys2Proof.Machine

namespace Rg

/-- A register of a map, its update, a field of it, and the field's update. -/
def rd (m : AMap Word) (o : Nat) : Word := aget (resetOf o) m o
def wr (m : AMap Word) (o : Nat) (v : Word) : AMap Word := aset (resetOf o) m o v
def get (m : AMap Word) (f : Fld) : Nat := bitsOf (rd m f.off) f.lo f.w
def put (m : AMap Word) (f : Fld) (x : Nat) : AMap Word := wr m f.off (setBits (rd m f.off) f.lo f.w x)

theorem rd_wr_same (m : AMap Word) (o : Nat) (v : Word) : rd (wr m o v) o = v := aget_aset_same _ _ _ _

theorem rd_wr_ne (m : AMap Word) (o p : Nat) (v : Word) (h : p ≠ o) : rd (wr m o v) p = rd m p := aget_aset_ne _ _ _ _ h

theorem rd_put_ne (m : AMap Word) (f : Fld) (x o : Nat) (h : o ≠ f.off) : rd (put m f x) o = rd m o := rd_wr_ne _ _ _ _ h

theorem get_wr_ne (m : AMap Word) (f : Fld) (o : Nat) (v : Word) (h : f.off ≠ o) : get (wr m o v) f = get m f := by
  unfold get; rw [rd_wr_ne _ _ _ _ h]

theorem get_wr_same (m : AMap Word) (o lo w : Nat) (v : Word) : get (wr m o v) ⟨o, lo, w⟩ = bitsOf v lo w := by
  unfold get; rw [rd_wr_same]

theorem get_put_same (m : AMap Word) (f : Fld) (x : Nat) (h : decide (f.lo + f.w ≤ 32) = true) : get (put m f x) f = x % 2 ^ f.w := by
  unfold get put; rw [rd_wr_same, bitsOf_setBits_same _ _ _ _ (of_decide_eq_true h)]

theorem get_put_disj (m : AMap Word) (f g : Fld) (x : Nat) (hf : decide (f.lo + f.w ≤ 32) = true) (h : f.disj g = true) :
    get (put m f x) g = get m g :=
  Machine.get_put_disj { regs := m } f g x (of_decide_eq_true hf) h

end Rg

/-! ## From states to maps -/

theorem rd_norm (s : State) (o : Nat) : s.rd o = Rg.rd s.regs o := rfl
theorem get_norm (s : State) (f : Fld) : s.get f = Rg.get s.regs f := rfl
theorem flag_norm (s : State) (f : Fld) : s.flag f = (Rg.get s.regs f != 0) := rfl
theorem wr_norm (s : State) (o : Nat) (v : Word) : (s.wr o v).regs = Rg.wr s.regs o v := rfl
theorem put_norm (s : State) (f : Fld) (x : Nat) : (s.put f x).regs = Rg.put s.regs f x := rfl
theorem putB_norm (s : State) (f : Fld) (b : Bool) : (s.putB f b).regs = Rg.put s.regs f (if b then 1 else 0) := rfl
theorem bump_norm (s : State) (o n : Nat) :
    (s.bump o n).regs = Rg.wr s.regs o (BitVec.ofNat 32 (min ((Rg.rd s.regs o).toNat + n) 0xFFFFFFFF)) := rfl
theorem bumpW_norm (s : State) (o n : Nat) : (s.bumpW o n).regs = Rg.wr s.regs o (Rg.rd s.regs o + BitVec.ofNat 32 n) := rfl
theorem bumpF_norm (s : State) (f : Fld) (n : Nat) :
    (s.bumpF f n).regs = Rg.put s.regs f (min (Rg.get s.regs f + n) (2 ^ f.w - 1)) := rfl
theorem errInc_norm (s : State) (pg : Nat) :
    (s.errInc pg).regs = Rg.put (Rg.wr s.regs (Hdr.ERR_COUNT pg)
      (BitVec.ofNat 32 (min ((Rg.rd s.regs (Hdr.ERR_COUNT pg)).toNat + 1) 0xFFFFFFFF))) ⟨Hdr.EVT_SUMMARY pg, B.ERR_INC, 1⟩ 1 := rfl

section
variable (s : State) (pg bit : Nat) (ev : EvKind) (sev : Nat) (d0 d1 : Option Word)

/-- Reads after an event, from any register map. -/
theorem rd_raise_norm (o : Nat) (h : evtOffs.contains o = false) (h2 : o ≠ Hdr.EVT_SUMMARY pg) :
    Rg.rd (s.raise pg bit ev d0 d1).regs o = Rg.rd s.regs o := raise_rd s pg bit ev d0 d1 (by simpa using h) h2

theorem get_raise_norm (f : Fld) (h : evtOffs.contains f.off = false) (h2 : f.off ≠ Hdr.EVT_SUMMARY pg) :
    Rg.get (s.raise pg bit ev d0 d1).regs f = Rg.get s.regs f := raise_get s pg bit ev d0 d1 (by simpa using h) h2

theorem rd_raiseSev_norm (o : Nat) (h : evtOffs.contains o = false) (h2 : o ≠ Hdr.EVT_SUMMARY pg) :
    Rg.rd (s.raiseSev pg bit ev sev d0 d1).regs o = Rg.rd s.regs o := raiseSev_rd s pg bit ev sev d0 d1 (by simpa using h) h2

theorem get_raiseSev_norm (f : Fld) (h : evtOffs.contains f.off = false) (h2 : f.off ≠ Hdr.EVT_SUMMARY pg) :
    Rg.get (s.raiseSev pg bit ev sev d0 d1).regs f = Rg.get s.regs f := raiseSev_get s pg bit ev sev d0 d1 (by simpa using h) h2

theorem rd_raiseBare_norm (o : Nat) (h : evtOffs.contains o = false) :
    Rg.rd (s.raiseBare pg ev d0 d1).regs o = Rg.rd s.regs o := raiseBare_rd s pg ev d0 d1 (by simpa using h)

theorem get_raiseBare_norm (f : Fld) (h : evtOffs.contains f.off = false) :
    Rg.get (s.raiseBare pg ev d0 d1).regs f = Rg.get s.regs f := raiseBare_get s pg ev d0 d1 (by simpa using h)

end

end Sys2Proof.Machine
end

