-- ==== Sys2Proof/WellFormed.lean ====
section
/-! DEFINITION. Well-formed commands: operands that the rules of the row can name. Every operand whose type already admits only what its
rule names is left out here. The meanings are total on ill-formed commands too. -/

namespace Sys2Proof

open Machine (keysRising pageAt)

/-- A register offset is a multiple of 4 (R34). -/
def aligned (off : BitVec 22) : Bool := decide (off.toNat % 4 = 0)

/-- No element stands twice. -/
def noRepeats {α : Type} [DecidableEq α] : List α → Bool
  | [] => true
  | x :: xs => !xs.contains x && noRepeats xs

/-- Writes of one KCLK cycle come from different requesters (R33, R37). -/
def distinctReqs (ws : List WriteReq) : Bool := noRepeats (ws.map WriteReq.req)

/-- A page number that holds a page (Table 2.9). -/
def isPage (p : BitVec 10) : Bool := (pageAt p.toNat).isSome

/-- Observations: at rising positions below `n`. -/
def obsWf {α : Type} (n : Nat) (obs : List (Nat × α)) : Bool := keysRising obs && obs.all (fun o => decide (o.1 < n))

/-- Failed banks of a self-test, none twice (R380). -/
def bankObsWf (bs : List (BitVec 10)) : Bool := noRepeats bs

/-- A background access asks for at least one byte, and a write brings as many as it asks for (R136). -/
def bgWf (b : BgAccess) : Bool :=
  decide (0 < b.len) && (match b.write with
    | some bytes => decide (bytes.length = b.len)
    | none => true)

/-- Multicast copies: none twice and none to the line's own destination (R226). -/
def copiesWf (dst : Port) (copies : List Port) : Bool := noRepeats (dst :: copies)

/-- A chunk is 4,096 bytes (R410). -/
def chunkWf (c : Chunk) : Bool := decide (c.length = 64)

/-- A remote request: at most 31 hops in all (Table 8.11), at a register offset (R34). -/
def RegReqMsg.wf (r : RegReqMsg) : Bool := decide (r.hops.length + r.back.length ≤ 31) && aligned r.addr

/-- A service message's body. -/
def SvcBody.wf : SvcBody → Bool
  | .regReq r => r.wf
  | .regRsp r => decide (r.back.length ≤ 31)
  | .chunk _ data => chunkWf data
  | .repairReply _ data => data.all chunkWf
  | .repairReq ds => decide (0 < ds.length)
  | .manifest raw => decide (0 < raw.length)
  | .event _ | .imageEnd | .armReady .. | .armRefused .. | .release _ | .cancel | .resumeReq | .resumeAnswer _ | .unload => true

/-- A BAR2 access lies within the 16 GiB window and is not empty (R262). -/
def bar2Wf (off : BitVec 34) (len : Nat) : Bool := decide (0 < len) && decide (off.toNat + len ≤ 2 ^ 34)

/-- A completion with data brings at least one byte. -/
def cplWf : DmaCpl → Bool
  | .data _ bytes _ => decide (0 < bytes.length)
  | .desc _ | .failed => true

/-- A step of the start (Table 17.1). -/
def bootStepWf (step : BitVec 3) : Bool := decide (1 ≤ step.toNat) && decide (step.toNat ≤ 6)

/-- Width and speed codes of Table 11.9. -/
def pcieWf (width : BitVec 4) (speed : BitVec 3) : Bool :=
  [1, 2, 4, 8].contains width.toNat && decide (1 ≤ speed.toNat) && decide (speed.toNat ≤ 5)

/-- Whether a command is one that its rules can name. -/
def Instr.wf : Instr → Bool
  | .registerWrite off w same => aligned off && distinctReqs (w :: same)
  | .readClear _ off => aligned off
  | .pairLoRead _ off => aligned off
  | .debugRead off => aligned off
  | .pairLoWrite off _ => aligned off
  | .pairHiWrite off _ => aligned off
  | .fnEnable _ page => isPage page
  | .fnDisable _ page => isPage page
  | .fnReset _ page => isPage page
  | .fnResetDone page => isPage page
  | .startSeqDone page obs => isPage page && bankObsWf obs.banks && decide (obs.chans.length ≤ 8)
  | .startSeqFail page _ => isPage page
  | .internalFault page _ => isPage page
  | .syncRx first rest => noRepeats ((first :: rest).map (fun m => m.link.val))
  | .ld _ _ _ lenM1 _ _ _ _ _ obs => obsWf (lenM1.toNat + 1) obs
  | .gather _ _ _ _ _ _ _ obs => keysRising obs
  | .bgAccess b obs => bgWf b && keysRising obs
  | .bgHeldServe obs => keysRising obs
  | .xbarLineRx _ dst copies _ => copiesWf dst copies
  | .dmaComplete _ _ obs => keysRising obs
  | .gcmRx _ m => decide (m.wave.length = 32)
  | .serviceMsgRx _ _ body => body.wf
  | .regReqRx _ r => r.wf
  | .regRspRx _ r => decide (r.back.length ≤ 31)
  | .lpddrFrame _ frame obs => decide (frame < 42) && obsWf 128 obs
  | .lpddrScrub _ obs => obsWf 16 obs
  | .bar2Read off len _ obs => bar2Wf off len && keysRising obs
  | .bar2Write off bytes _ _ obs => bar2Wf off bytes.length && keysRising obs
  | .dmaCompletionRx _ cpl obs => cplWf cpl && keysRising obs
  | .tokenHarvest obs => keysRising obs
  | .katPassDone obs => noRepeats (obs.map (fun o => 9 * o.g.val + o.p.val))
  | .manifestRx _ raw => decide (0 < raw.length)
  | .chunkRx _ _ data => chunkWf data
  | .repairReplyRx _ _ data => data.all chunkWf
  | .repairReqRx _ digests => decide (0 < digests.length)
  | .eventRaise page _ _ _ _ => isPage page
  | .bootCtrlGo _ step => bootStepWf step
  | .bootCtrlDone _ step => bootStepWf step
  | .bootStepDone step => bootStepWf step
  | .pcieLinkUp width speed => pcieWf width speed
  | .rlogRead _ _ max _ => decide (0 < max.toNat)
  | .regRead _ off n => decide (off.toNat % 4 = 0) && decide (1 ≤ n.toNat) && decide (n.toNat ≤ 16)
  | .regWrite _ off _ => decide (off.toNat % 4 = 0)
  | .shutdownDone .. | .fenceTagWrite .. | .fenceDoneRead .. | .fenceDoneTimeout .. | .refLost .. | .holdoverExpired ..
  | .refAccepted .. | .refRestored .. | .pllUnlock .. | .pllRelock .. | .refclkWaitTimeout .. | .syncStart .. | .checkSend ..
  | .checkRx .. | .syncTimeout .. | .nop .. | .wait .. | .waitExpire .. | .loop .. | .endloop .. | .epochWait ..
  | .epochWaitRelease .. | .fence .. | .fenceResume .. | .seg .. | .evt .. | .halt .. | .xset .. | .tenNop .. | .mma ..
  | .loadw .. | .drain .. | .accadd .. | .vnop .. | .vadd .. | .vsub .. | .vmul .. | .vfma .. | .vmax .. | .vmin .. | .vabs ..
  | .vneg .. | .vaddi .. | .vmuli .. | .vmovi .. | .vmov .. | .vcmp .. | .vsel .. | .viadd .. | .visub .. | .vand .. | .vor ..
  | .vxor .. | .vshl .. | .vshr .. | .vshra .. | .vexp2 .. | .vlog2 .. | .vrcp .. | .vrsqrt .. | .vcvtf .. | .vcvtn ..
  | .vbmax .. | .vftoi .. | .vitof .. | .vrsum .. | .vrmax .. | .vld .. | .vst .. | .mnop .. | .st .. | .seta .. | .adda ..
  | .send .. | .recv .. | .scatter .. | .dmat .. | .opResultVisible .. | .scrubTick .. | .dmaSchedStart .. | .foldDone ..
  | .issue .. | .unload .. | .abortVote .. | .endReq .. | .groupEpochStart .. | .stepStart .. | .voteSample ..
  | .commitTick .. | .paceFaultLinkDown .. | .holdReached .. | .idleReached .. | .abortRx .. | .standDisarm .. | .marginLow ..
  | .skipFlitRx .. | .elasticOverrun .. | .laneLockLoss .. | .trainPhaseDone .. | .trainPhaseTimeout .. | .detectTimeout ..
  | .markRx .. | .echoRx .. | .flitRx .. | .serviceAckRx .. | .serviceResendTimeout .. | .rreqGo .. | .rreqTimeout ..
  | .takedownNoticeRx .. | .takedownComplete .. | .reduceAdd .. | .reduceSink .. | .lpddrRefresh .. | .refreshRateChange ..
  | .lpddrFoldDone .. | .pcieLinkDown .. | .aerError .. | .flr .. | .hotReset .. | .perstAssert .. | .perstDeassert ..
  | .configRequest .. | .bar2ReadAbort .. | .msixSend .. | .msixUnmask .. | .dmaStart .. | .dmaDescComplete .. | .dmaStop ..
  | .dmaStopDone .. | .completionTimeout .. | .submitScan .. | .cqRecordWrite .. | .cqHeadWrite .. | .hostAlive ..
  | .aliveLost .. | .coreHang .. | .generate .. | .cancel .. | .admissionPoint .. | .seqStandEnd .. | .seqFault ..
  | .sampleStream .. | .sampleResult .. | .svcHeartbeatAdvance .. | .pumpEn .. | .pumpStartOk .. | .pumpStartTimeout ..
  | .pumpRetry .. | .pumpCheck .. | .pumpDis .. | .pumpStopDone .. | .valveSet .. | .valvePeakStart .. | .valveStartLate ..
  | .valvePeakEnd .. | .valveDecayEnd .. | .bankFault .. | .bankReclose .. | .coilFault .. | .openIn .. | .closeIn ..
  | .openOut .. | .closeOut .. | .isoMoved .. | .leakSample .. | .leakPumpsOff .. | .leakCloseV24 .. | .leakCloseV25 ..
  | .coolantSample .. | .inputTimeout .. | .flowStopClear .. | .powerSample .. | .tempSample .. | .governorRun ..
  | .coolingLevelFall .. | .flowEnd .. | .runOkSet .. | .rackCapWrite .. | .hostCapWrite .. | .telemModeWrite ..
  | .telemWindowClose .. | .oscMeasure .. | .noHolderTimeout .. | .tableModeExit .. | .analogTrip .. | .shdnRelease ..
  | .islandLogForward .. | .claim .. | .release .. | .heartbeat .. | .resumed .. | .watchdogExpire .. | .selfDiag ..
  | .seizeOk .. | .overlapEnd .. | .tokenRevoke .. | .shadowRebuildDone .. | .coreRestart .. | .watchdogService ..
  | .standbyRailGood .. | .standbyRailLost .. | .pwrOkAssert .. | .staggerDone .. | .pwrOkDeassert .. | .vinUndervolt ..
  | .bootStepFail .. | .serviceReq .. | .restart .. | .hold .. | .wake .. | .dwoodSel .. | .dwoodClear .. | .rejoin ..
  | .resume .. | .resumeReqRx .. | .resumeAnswerRx .. | .resumeTimeout .. | .releaseRx .. | .releaseTick .. | .unloadMsgRx ..
  | .loadStart .. | .imageEndRx .. | .repairRetry .. | .armReadyRx .. | .armRefusedRx .. | .loadCancel .. | .cancelRx ..
  | .loadTimeout .. | .armTick .. | .eventSequence .. | .eventFwdRx .. | .inject .. | .rlogWrite .. | .rlogIndexDone ..
  | .rlogSel .. | .rlogSeek .. | .rlogClear .. | .rlogClearDone .. | .rlogStatus .. | .newNonce .. | .nonceExpire ..
  | .verify .. | .tokenVerifyDone .. | .discard .. | .tokenExpire .. | .fuseBlowDone .. | .fwUpdate .. | .fwUpdateDone ..
  | .extend .. | .reportGo .. | .reportDone .. | .entdaa .. | .setdasa .. | .rstdaa .. | .setnewda .. | .getpid ..
  | .getbcr .. | .getdcr .. | .getstatus .. | .enec .. | .disec .. | .setEndpointId .. | .getEndpointId ..
  | .getEndpointUuid .. | .getMctpVersionSupport .. | .getMessageTypeSupport .. | .getVendorDefinedMessageSupport ..
  | .mctpMsgTimeout .. | .setTid .. | .getTid .. | .getPldmVersion .. | .getPldmTypes .. | .getPldmCommands ..
  | .setEventReceiver .. | .platformEventMessage .. | .pollForPlatformEventMessage .. | .eventMessageSupported ..
  | .eventMessageBufferSize .. | .getSensorReading .. | .setNumericEffecterValue .. | .getNumericEffecterValue ..
  | .getPdrRepositoryInfo .. | .getPdr .. | .traySilent .. | .platformEventAck .. => true

end Sys2Proof
end

section
/-! SUPPORT. Unit maps: canonical maps whose every entry has a property of its key and value, and the updates that keep them so. -/

namespace Sys2Proof.Machine

variable {α : Type}

/-- Keys stay rising when every entry keeps its key and some entries go. -/
theorem keysRising_map_filter {β : Type} {m : AMap α} {f : Nat × α → Nat × β} (hf : ∀ e, (f e).1 = e.1)
    (p : Nat × β → Bool)
    (h : keysRising m = true) : keysRising ((m.map f).filter p) = true := by
  rw [keysRising_iff] at *
  refine List.Pairwise.filter _ (List.pairwise_map.2 ?_)
  simpa only [hf] using h

/-- A read answers the default or a listed entry. -/
theorem aget_eq_or_mem (d : α) (m : AMap α) (k : Nat) : aget d m k = d ∨ (k, aget d m k) ∈ m := by
  induction m with
  | nil => exact .inl rfl
  | cons e m ih =>
    obtain ⟨i, v⟩ := e
    by_cases hi : i = k
    · simp [aget, hi]
    · simpa [aget, hi, Ne.symm hi] using ih

variable [DecidableEq α]

/-- A canonical map, every entry of which has the property `ok`. -/
def UnitMap (d : α) (ok : Nat → α → Prop) (m : AMap α) : Prop := amapWf d m = true ∧ ∀ e ∈ m, ok e.1 e.2

variable {d : α} {ok : Nat → α → Prop} {m : AMap α}

theorem UnitMap.nil : UnitMap d ok [] := ⟨rfl, by simp⟩

theorem eq_or_mem_of_mem_aset {k : Nat} {v : α} {e : Nat × α} (he : e ∈ aset d m k v) :
    e ∈ m ∨ e = (k, v) ∧ v ≠ d := by
  simp only [aset, List.mem_append, List.mem_filter] at he
  rcases he with (he | he) | he
  · exact .inl he.1
  · split at he
    · simp at he
    · next hd => exact .inr ⟨List.mem_singleton.1 he, hd⟩
  · exact .inl he.1

/-- An entry that is set has the property, or is the default, which is not listed. -/
theorem UnitMap.aset {k : Nat} {v : α} (h : UnitMap d ok m) (hv : v ≠ d → ok k v) :
    UnitMap d ok (aset d m k v) := by
  refine ⟨amapWf_aset d m k v h.1, fun e he => ?_⟩
  rcases eq_or_mem_of_mem_aset he with he | ⟨rfl, hd⟩
  · exact h.2 e he
  · exact hv hd

/-- An entry that is read has the property, or is the default. -/
theorem UnitMap.aget (h : UnitMap d ok m) (k : Nat) : aget d m k = d ∨ ok k (aget d m k) :=
  (aget_eq_or_mem d m k).imp_right (h.2 _)

/-- A function applied to every entry, with the entries it makes the default left out. -/
theorem UnitMap.mapFilter {f : Nat × α → α} (h : UnitMap d ok m) (hf : ∀ e, ok e.1 e.2 → ok e.1 (f e)) :
    UnitMap d ok ((m.map (fun e => (e.1, f e))).filter (fun e => decide (e.2 ≠ d))) := by
  obtain ⟨hwf, hok⟩ := h
  simp only [amapWf, Bool.and_eq_true] at hwf
  refine ⟨?_, fun e he => ?_⟩
  · simp only [amapWf, Bool.and_eq_true]
    exact ⟨keysRising_map_filter (by simp) _ hwf.1, by simp [List.all_eq_true]⟩
  · obtain ⟨x, hx, rfl⟩ := List.mem_map.1 (List.mem_filter.1 he).1
    exact hf x (hok x hx)

theorem UnitMap.amap {f : Nat → α → α} (h : UnitMap d ok m) (hf : ∀ k v, ok k v → ok k (f k v)) :
    UnitMap d ok (amap d f m) :=
  h.mapFilter fun e => hf e.1 e.2

/-- The register map with a function applied to every entry and the values at reset left out. -/
theorem regsWf_map_filter {m : AMap Word} {f : Nat × Word → Nat × Word} (hf : ∀ e, (f e).1 = e.1)
    (h : regsWf m = true) :
    regsWf ((m.map f).filter (fun e => decide (e.2 ≠ resetOf e.1))) = true := by
  simp only [regsWf, Bool.and_eq_true] at *
  exact ⟨keysRising_map_filter hf _ h.1, by simp [List.all_eq_true]⟩

end Sys2Proof.Machine
end

section
/-! SUPPORT. What no operation of the module takes away: `Keeps s₀ s` says that `s`, reached from `s₀`, holds the same queue of commands at the
same tick, in canonical form where `s₀` is, and with its units in range where those of `s₀` are. -/

namespace Sys2Proof.Machine

/-- A grove's channels and windows are in the ranges of `State.unitsInRange`. -/
def GroveSt.ranged (x : GroveSt) : Prop := (∀ c ∈ x.chans, c.1 < 16) ∧ x.wins.length ≤ 64

/-- So are they where those of `s₀` are. -/
def GroveIn (s₀ : State) (x : GroveSt) : Prop := s₀.unitsInRange = true → x.ranged

/-- The windows of the image of a load in progress are in range. -/
def imageRanged (o : Option Image) : Prop := ∀ im, o = some im → ∀ m ∈ im.gmem, m.wins.length ≤ 64

/-- The claims that every operation keeps. -/
structure Keeps (s₀ s : State) : Prop where
  pending : s.pending = s₀.pending
  now     : s.now = s₀.now
  regs    : s₀.canonical = true → regsWf s.regs = true
  mem     : s₀.canonical = true → memWf s.mem = true
  poison  : s₀.canonical = true → amapWf false s.poison = true
  dwood   : s₀.canonical = true → amapWf 0 s.dwood = true
  engines : s₀.unitsInRange = true → UnitMap {} (fun k _ => k < 256) s.engines
  groves  : s₀.unitsInRange = true → UnitMap {} (fun k x => k < 16 ∧ x.ranged) s.groves
  reduce  : s₀.unitsInRange = true → UnitMap {} (fun k _ => k < 96) s.reduce
  links   : s₀.unitsInRange = true → UnitMap {} (fun k _ => k < 96) s.links
  image   : s₀.unitsInRange = true → imageRanged s.group.load.image

theorem canonical_iff (s : State) : s.canonical = true ↔
    regsWf s.regs = true ∧ memWf s.mem = true ∧ amapWf false s.poison = true ∧ amapWf 0 s.dwood = true := by
  simp only [State.canonical, Bool.and_eq_true, and_assoc]

theorem unitsInRange_iff (s : State) : s.unitsInRange = true ↔
    UnitMap {} (fun k _ => k < 256) s.engines ∧ UnitMap {} (fun k x => k < 16 ∧ x.ranged) s.groves ∧
    UnitMap {} (fun k _ => k < 96) s.reduce ∧ UnitMap {} (fun k _ => k < 96) s.links ∧ imageRanged
      s.group.load.image := by
  have himage : (s.group.load.image.all fun im => im.gmem.all fun m => decide (m.wins.length ≤ 64)) = true ↔
      imageRanged s.group.load.image := by
    unfold imageRanged
    cases s.group.load.image <;> simp
  simp only [State.unitsInRange, UnitMap, GroveSt.ranged, Bool.and_eq_true, List.all_eq_true,
    decide_eq_true_eq, himage]
  grind

variable {s₀ s t : State}

theorem Keeps.refl (s : State) : Keeps s s where
  pending := rfl
  now := rfl
  regs h := ((canonical_iff s).1 h).1
  mem h := ((canonical_iff s).1 h).2.1
  poison h := ((canonical_iff s).1 h).2.2.1
  dwood h := ((canonical_iff s).1 h).2.2.2
  engines h := ((unitsInRange_iff s).1 h).1
  groves h := ((unitsInRange_iff s).1 h).2.1
  reduce h := ((unitsInRange_iff s).1 h).2.2.1
  links h := ((unitsInRange_iff s).1 h).2.2.2.1
  image h := ((unitsInRange_iff s).1 h).2.2.2.2

theorem Keeps.canonical (h : Keeps s₀ s) (hc : s₀.canonical = true) : s.canonical = true :=
  (canonical_iff s).2 ⟨h.regs hc, h.mem hc, h.poison hc, h.dwood hc⟩

theorem Keeps.unitsInRange (h : Keeps s₀ s) (hr : s₀.unitsInRange = true) : s.unitsInRange = true :=
  (unitsInRange_iff s).2 ⟨h.engines hr, h.groves hr, h.reduce hr, h.links hr, h.image hr⟩

/-! ## How it is carried along -/

/-- An update of the fields that `Keeps` does not speak of. -/
theorem Keeps.same
    {out ftime freeCtr mod ctx evt clk inbox stand image bg bgNext lpddr boot host serve sample fluid coolant
      therm canopy glade
    rlog sec side} (h : Keeps s₀ s) :
    Keeps s₀ { s with
      out := out, ftime := ftime, freeCtr := freeCtr, mod := mod, ctx := ctx, evt := evt, clk := clk, inbox :=
        inbox, stand := stand,
      image := image, bg := bg, bgNext := bgNext, lpddr := lpddr, boot := boot, host := host, serve := serve,
        sample := sample,
      fluid := fluid, coolant := coolant, therm := therm, canopy := canopy, glade := glade, rlog := rlog,
        sec := sec, side := side } :=
  { h with }

/-- An update of the group's state, with an image in range. -/
theorem Keeps.setGroup {group : GroupSt} (h : Keeps s₀ s)
    (hi : s₀.unitsInRange = true → imageRanged group.load.image) :
    Keeps s₀ { s with group := group } := { h with image := hi }

/-- An update of the group's state too, that leaves the image of a load. -/
theorem Keeps.sameGroup
    {out ftime freeCtr mod ctx evt clk inbox stand image bg bgNext lpddr boot host serve sample fluid coolant
      therm canopy
    glade group rlog sec side} (h : Keeps s₀ s) (hload : group.load.image = s.group.load.image) :
    Keeps s₀ { s with
      out := out, ftime := ftime, freeCtr := freeCtr, mod := mod, ctx := ctx, evt := evt, clk := clk, inbox :=
        inbox, stand := stand,
      image := image, bg := bg, bgNext := bgNext, lpddr := lpddr, boot := boot, host := host, serve := serve,
        sample := sample,
      fluid := fluid, coolant := coolant, therm := therm, canopy := canopy, glade := glade, group := group,
        rlog := rlog, sec := sec,
      side := side } :=
  { h with image := fun c => hload ▸ h.image c }

theorem Keeps.ite {c : Prop} {_ : Decidable c} (hs : Keeps s₀ s) (ht : Keeps s₀ t) :
    Keeps s₀ (if c then s else t) := by
  split <;> assumption

/-- A branch may use its condition. -/
theorem Keeps.iteOn {c : Prop} {_ : Decidable c} (hs : c → Keeps s₀ s) (ht : ¬ c → Keeps s₀ t) :
    Keeps s₀ (if c then s else t) := by
  split
  · next hc => exact hs hc
  · next hc => exact ht hc

theorem Keeps.foldlOn {α : Type} {f : State → α → State} {l : List α} (h : Keeps s₀ s)
    (hf : ∀ x ∈ l, ∀ s, Keeps s₀ s → Keeps s₀ (f s x)) :
    Keeps s₀ (l.foldl f s) := by
  induction l generalizing s with
  | nil => exact h
  | cons x l ih => exact ih (hf x (by simp) s h) fun y hy => hf y (by simp [hy])

theorem Keeps.foldl {α : Type} {f : State → α → State} {l : List α} (h : Keeps s₀ s)
    (hf : ∀ x s, Keeps s₀ s → Keeps s₀ (f s x)) :
    Keeps s₀ (l.foldl f s) := h.foldlOn fun x _ => hf x

theorem Keeps.fold {n : Nat} {f : (i : Nat) → i < n → State → State} (h : Keeps s₀ s)
    (hf : ∀ i hi s, Keeps s₀ s → Keeps s₀ (f i hi s)) :
    Keeps s₀ (n.fold f s) := by
  induction n with
  | zero => exact h
  | succ n ih => exact hf n _ _ (ih fun i hi => hf i (by omega))

/-- One step after another, where the second has branches. -/
theorem Keeps.andThen (h : Keeps s₀ s) (k : Keeps s₀ s → Keeps s₀ t) : Keeps s₀ t := k h

theorem Keeps.onlyIf {c : Prop} {_ : Decidable c} (h : Keeps s₀ s) (k : Keeps s₀ s → Keeps s₀ t) :
    Keeps s₀ (if c then t else s) := (k h).ite h

theorem Keeps.onlyIfNot {c : Prop} {_ : Decidable c} (h : Keeps s₀ s) (k : Keeps s₀ s → Keeps s₀ t) :
    Keeps s₀ (if c then s else t) := h.ite (k h)

/-- A command's outcome is a next state that `Keeps` holds of. -/
def Goes (s₀ : State) (o : Host.Outcome State Fault Refusal) : Prop := ∃ t, o = .next t ∧ Keeps s₀ t

theorem Goes.next (h : Keeps s₀ t) : Goes s₀ (.next t) := ⟨t, rfl, h⟩

theorem Goes.ite {c : Prop} {_ : Decidable c} {o p : Host.Outcome State Fault Refusal} (ho : Goes s₀ o)
    (hp : Goes s₀ p) :
    Goes s₀ (if c then o else p) := by
  split <;> assumption

theorem Goes.andThen {o : Host.Outcome State Fault Refusal} (h : Keeps s₀ s) (k : Keeps s₀ s → Goes s₀ o) :
    Goes s₀ o := k h

/-! ## Registers -/

section
variable (h : Keeps s₀ s)
include h

theorem Keeps.wr {o : Nat} {v : Word} : Keeps s₀ (s.wr o v) :=
  { h with regs := fun c => regsWf_wr s o v (h.regs c) }
theorem Keeps.put {f : Fld} {x : Nat} : Keeps s₀ (s.put f x) := h.wr
theorem Keeps.putB {f : Fld} {b : Bool} : Keeps s₀ (s.putB f b) := h.put
theorem Keeps.bump {o n : Nat} : Keeps s₀ (s.bump o n) := h.wr
theorem Keeps.bumpW {o n : Nat} : Keeps s₀ (s.bumpW o n) := h.wr
theorem Keeps.bumpF {f : Fld} {n : Nat} : Keeps s₀ (s.bumpF f n) := h.put
theorem Keeps.wr64 {o : Nat} {v : Dword} : Keeps s₀ (s.wr64 o v) := h.wr.wr
theorem Keeps.bump64 {o n : Nat} : Keeps s₀ (s.bump64 o n) := h.wr64

/-- Some registers go back to their reset values. -/
theorem Keeps.regsFilter {p : Nat × Word → Bool} : Keeps s₀ { s with regs := s.regs.filter p } :=
  { h with regs := fun c => regsWf_filter _ _ (h.regs c) }

theorem Keeps.resetRegs {l : List Nat} : Keeps s₀ (s.resetRegs l) := h.regsFilter
theorem Keeps.resetBlock {pg : Nat} : Keeps s₀ (s.resetBlock pg) := h.regsFilter
theorem Keeps.emit {o : Out} : Keeps s₀ (s.emit o) := h.same
theorem Keeps.emitAll {os : List Out} : Keeps s₀ (s.emitAll os) := h.same
theorem Keeps.setReqCtx {r : Req} {x : ReqCtx} : Keeps s₀ (s.setReqCtx r x) := h.same
theorem Keeps.errInc {pg : Nat} : Keeps s₀ (s.errInc pg) := h.bump.putB

/-! ## Unit state -/

theorem Keeps.setLink {l : Nat} {x : LinkSt} (hl : l < 96) : Keeps s₀ (s.setLink l x) :=
  { h with links := fun c => (h.links c).aset fun _ => hl }

theorem Keeps.setRed {l : Nat} {x : ReduceSt} (hl : l < 96) : Keeps s₀ (s.setRed l x) :=
  { h with reduce := fun c => (h.reduce c).aset fun _ => hl }

theorem Keeps.setEng {i : Nat} {x : EngineSt} (hi : i < 256) : Keeps s₀ (s.setEng i x) :=
  { h with engines := fun c => (h.engines c).aset fun _ => hi }

theorem Keeps.mapEngines {f : Nat → EngineSt → EngineSt} :
    Keeps s₀ { s with engines := amap {} f s.engines } :=
  { h with engines := fun c => (h.engines c).amap fun _ _ hk => hk }

theorem Keeps.mapReduce {f : Nat → ReduceSt → ReduceSt} : Keeps s₀ { s with reduce := amap {} f s.reduce } :=
  { h with reduce := fun c => (h.reduce c).amap fun _ _ hk => hk }

theorem Keeps.mapLinks {f : Nat → LinkSt → LinkSt} : Keeps s₀ { s with links := amap {} f s.links } :=
  { h with links := fun c => (h.links c).amap fun _ _ hk => hk }

theorem Keeps.mapGroves {f : Nat → GroveSt → GroveSt} (hf : ∀ k x, x.ranged → (f k x).ranged) :
    Keeps s₀ { s with groves := amap {} f s.groves } :=
  { h with groves := fun c => (h.groves c).amap fun k x hx => ⟨hx.1, hf k x hx.2⟩ }

/-- A residue count that starts anew, at any key: there is nothing to clear of an engine that is not listed. -/
theorem Keeps.setEngOf {i : Nat} {f : EngineSt → EngineSt} (hf : f {} = {}) :
    Keeps s₀ (s.setEng i (f (s.eng i))) :=
  { h with engines := fun c => (h.engines c).aset fun hne =>
      ((h.engines c).aget i).resolve_left fun hd => hne (by unfold State.eng; rw [hd, hf]) }

/-- An update of a grove at any key that makes no state of a grove that is not listed. -/
theorem Keeps.setGroveOf {g : Nat} {f : GroveSt → GroveSt} (hf : f {} = {})
    (hr : ∀ x, x.ranged → (f x).ranged) :
    Keeps s₀ (s.setGrove g (f (s.grove g))) :=
  { h with
    groves := fun c => (h.groves c).aset fun hne => by
      rcases (h.groves c).aget g with hd | ⟨hg, hx⟩
      · exact absurd (by unfold State.grove; rw [hd, hf]) hne
      · exact ⟨hg, hr _ hx⟩ }

/-- A grove's state is in range where those of `s₀` are. -/
theorem Keeps.grove {g : Nat} : GroveIn s₀ (s.grove g) := by
  intro c
  unfold State.grove
  rcases (h.groves c).aget g with hd | ⟨_, hx⟩
  · rw [hd]; exact ⟨by simp, by simp⟩
  · exact hx

theorem Keeps.setGrove {g : Nat} {x : GroveSt} (hg : g < 16) (hx : GroveIn s₀ x) :
    Keeps s₀ (s.setGrove g x) :=
  { h with groves := fun c => (h.groves c).aset fun _ => ⟨hg, hx c⟩ }

/-- A grove that has its channels, and windows in range. -/
theorem Keeps.setGroveWins {g : Nat} {x : GroveSt} (hg : g < 16)
    (hw : s₀.unitsInRange = true → x.wins.length ≤ 64)
    (hx : x.chans = (s.grove g).chans) : Keeps s₀ (s.setGrove g x) := h.setGrove hg fun c =>
      ⟨hx ▸ (h.grove c).1, hw c⟩

/-- A grove that has its channels and windows. -/
theorem Keeps.setGroveAs {g : Nat} {x : GroveSt} (hg : g < 16)
    (hx : x.chans = (s.grove g).chans ∧ x.wins = (s.grove g).wins) :
    Keeps s₀ (s.setGrove g x) := h.setGroveWins hg (fun c => hx.2 ▸ (h.grove c).2) hx.1

end

end Sys2Proof.Machine
end

section
/-! SUPPORT. `Keeps` along the operations of Machine/Ops.lean. -/

namespace Sys2Proof.Machine

variable {s₀ s : State} (h : Keeps s₀ s)
include h

theorem Keeps.countDrop {code : Nat} : Keeps s₀ (s.countDrop code) := h.bumpF

theorem Keeps.evtStatus : Keeps s₀ s.evtStatus := (Keeps.ite h.same h).put.putB

theorem Keeps.evtDropped {code : Nat} : Keeps s₀ (s.evtDropped code) :=
  h.countDrop.errInc.onlyIfNot fun h => h.putB.same

theorem Keeps.evtEnter {e : EvEntry} : Keeps s₀ (s.evtEnter e) := by
  refine Keeps.ite h.bump.same (Keeps.ite h.same.evtStatus (Keeps.ite ?_ h.evtDropped.evtStatus))
  split
  · exact h.same.evtDropped.evtStatus
  · exact h.evtDropped.evtStatus

theorem Keeps.islandLog {e : EvEntry} : Keeps s₀ (s.islandLog e) := Keeps.ite h.same.put h.putB

theorem Keeps.eventOf {pg : Nat} {ev : EvKind} {sev : Nat} {d0 d1 : Option Word} :
    Keeps s₀ (s.eventOf pg ev sev d0 d1) :=
  Keeps.ite (Keeps.ite h.islandLog h) (Keeps.ite (Keeps.ite h.islandLog (Keeps.ite h.same h.same)) h.evtEnter)

theorem Keeps.raiseSev {pg bit : Nat} {ev : EvKind} {sev : Nat} {d0 d1 : Option Word} :
    Keeps s₀ (s.raiseSev pg bit ev sev d0 d1) := h.putB.eventOf

theorem Keeps.raiseBare {pg : Nat} {ev : EvKind} {d0 d1 : Option Word} : Keeps s₀ (s.raiseBare pg ev d0 d1) :=
  h.eventOf

theorem Keeps.raise {pg bit : Nat} {ev : EvKind} {d0 d1 : Option Word} : Keeps s₀ (s.raise pg bit ev d0 d1) :=
  h.raiseSev

end Sys2Proof.Machine
end

section
/-! SUPPORT. `Keeps` along the operations of Machine/Units.lean. -/

namespace Sys2Proof.Machine

variable {s₀ s : State} (h : Keeps s₀ s)
include h

theorem Keeps.setFn {pg st : Nat} : Keeps s₀ (s.setFn pg st) := Keeps.ite h h.put.putB

theorem Keeps.toFault {pg : Nat} : Keeps s₀ (s.toFault pg) := h.setFn.putB.errInc

theorem Keeps.retire {pg : Nat} : Keeps s₀ (s.retire pg) := h.putB.setFn.putB.putB

theorem Keeps.fuseOut {pg : Nat} : Keeps s₀ (s.fuseOut pg) := h.putB.put

theorem Keeps.readyCounts : Keeps s₀ s.readyCounts := by
  refine { h with regs := fun c => regsWf_map_filter (fun e => ?_) (h.regs c), groves := fun c =>
    (h.groves c).mapFilter fun _ hx => hx }
  dsimp only
  split <;> rfl

theorem Keeps.setMState {m : MState} : Keeps s₀ (s.setMState m) := (Keeps.ite h.readyCounts h).same.put

theorem Keeps.setPower {p : Power} : Keeps s₀ (s.setPower p) := h.same

theorem Keeps.setDwood {i : Nat} {e : BitVec 128} : Keeps s₀ { s with dwood := aset 0 s.dwood i e } :=
  { h with dwood := fun c => amapWf_aset 0 s.dwood i e (h.dwood c) }

theorem Keeps.dwCounts : Keeps s₀ s.dwCounts := h.put.put

/-- An entry is counted up or found a place; one of a bank ends its grove's repair record, and no other grove has one. -/
theorem Keeps.dwAdd {kind unit index event source : Nat} {factory : Bool} :
    Keeps s₀ (s.dwAdd kind unit index event source factory) := by
  unfold State.dwAdd
  split
  · exact h.setDwood.wr.raise
  · split
    · exact (h.setDwood.onlyIf fun h => h.setGroveOf (f := fun x => { x with repairOk := false }) rfl
        fun _ hx => hx).bumpW.wr.dwCounts.raise
    · exact h.errInc.putB.raise

end Sys2Proof.Machine
end

section
/-! SUPPORT. `Keeps` along the operations of Machine/Access.lean. -/

namespace Sys2Proof.Machine

variable {s₀ s : State} (h : Keeps s₀ s)
include h

theorem Keeps.refuse {req : Req} {off cause : Nat} {read : Bool} : Keeps s₀ (s.refuse req off cause read) :=
  h.wr.wr.errInc

theorem Keeps.setCore {k : Nat} {x : CoreSt} : Keeps s₀ (s.setCore k x) := h.same

theorem Keeps.snoopTo {e : SnoopEntry} {k : Nat} : Keeps s₀ (s.snoopTo e k) :=
  Keeps.ite h.setCore.put h.putB.putB.raise

theorem Keeps.snoop {off : Nat} {req : Req} {data : Word} : Keeps s₀ (s.snoop off req data) :=
  h.same.foldl fun _ _ h => h.snoopTo

theorem Keeps.trackWrite {req : Req} {off : Nat} {before : Word} : Keeps s₀ (s.trackWrite req off before) :=
  Keeps.ite (Keeps.ite h h.same) (Keeps.ite h.same h)

theorem Keeps.accept {req : Req} {off : Nat} {data : Word} {eff : State → State}
    (heff : ∀ s, Keeps s₀ s → Keeps s₀ (eff s)) :
    Keeps s₀ (s.accept req off data eff) := h.snoop.onlyIfNot fun h => (heff _ h.wr).trackWrite

theorem Keeps.gate {req : Req} {be : BitVec 4} {off : Nat} {data : Word} {ok : Bool} {eff : State → State}
    (heff : ∀ s, Keeps s₀ s → Keeps s₀ (eff s)) : Keeps s₀ (s.gate req be off data ok eff) :=
  Keeps.ite h.refuse (Keeps.ite h.refuse (Keeps.ite h.refuse (Keeps.ite h.refuse (h.accept heff))))

theorem Keeps.gateW {off : Nat} {w : WriteReq} {ok : Bool} {eff : State → State}
    (heff : ∀ s, Keeps s₀ s → Keeps s₀ (eff s)) :
    Keeps s₀ (s.gateW off w ok eff) := h.gate heff

theorem Keeps.dropHeldLo {pg : Nat} : Keeps s₀ (s.dropHeldLo pg) := h.same

theorem Keeps.fnResetPage {pg : Nat} : Keeps s₀ (s.fnResetPage pg) := h.resetBlock.dropHeldLo.putB.putB

theorem Keeps.drained {pg : Nat} : Keeps s₀ (s.drained pg) := Keeps.ite h.setFn.putB.setFn h.setFn

end Sys2Proof.Machine
end

section
/-! SUPPORT. `Keeps` along the operations of Machine/Canopy.lean. -/

namespace Sys2Proof.Machine

variable {s₀ s : State} (h : Keeps s₀ s)
include h

theorem Keeps.setHolder {x : Nat} : Keeps s₀ (s.setHolder x) :=
  ((h.put.put.foldl fun _ _ h => h.putB.putB.putB).foldl fun _ _ h => h.setCore).same.onlyIfNot fun h =>
    h.same

theorem Keeps.beginRestart {k : Nat} {wdog diag : Bool} {fails : BitVec 4} :
    Keeps s₀ (s.beginRestart k wdog diag fails) :=
  h.bumpW.setFn.put.putB.setCore

theorem Keeps.overlapOff : Keeps s₀ s.overlapOff := h.putB.putB.same

theorem Keeps.hardwareRelease {k : Nat} {wdog diag : Bool} {fails : BitVec 4} :
    Keeps s₀ (s.hardwareRelease k wdog diag fails) :=
  h.setHolder.overlapOff.same.beginRestart

theorem Keeps.claimAct {k : Nat} : Keeps s₀ (s.claimAct k) :=
  Keeps.ite h.setHolder.put.same h.setHolder.put.putB.putB.same.raise

theorem Keeps.releaseAct {k : Nat} : Keeps s₀ (s.releaseAct k) := h.setHolder.same.raise

theorem Keeps.heartbeatAct {k : Nat} : Keeps s₀ (s.heartbeatAct k) := Keeps.ite h.setCore.putB.same h

theorem Keeps.resumedAct {k : Nat} : Keeps s₀ (s.resumedAct k) :=
  Keeps.ite (h.putB.andThen fun h0 => Keeps.ite ((h0.wr.onlyIf fun h => h.same).raise) h0) h

theorem Keeps.tokenWrite {k : Nat} {w : WriteReq} : Keeps s₀ (s.tokenWrite k w) :=
  Keeps.ite h (h.gateW (fun _ h =>
    (((Keeps.ite h.claimAct h).onlyIf fun h => h.releaseAct).onlyIf fun h => h.heartbeatAct).onlyIf fun h =>
      h.resumedAct))

theorem Keeps.execClaim {k req other} : Goes s₀ (execClaim k req other s) :=
  Goes.ite (.next (Keeps.ite h.tokenWrite.tokenWrite h.tokenWrite.tokenWrite)) (.next h.tokenWrite)

theorem Keeps.execRelease {k req} : Goes s₀ (execRelease k req s) := .next h.tokenWrite

theorem Keeps.execHeartbeat {k req} : Goes s₀ (execHeartbeat k req s) := .next h.tokenWrite

theorem Keeps.execResumed {k req} : Goes s₀ (execResumed k req s) := .next h.tokenWrite

theorem Keeps.execSeizeOk : Goes s₀ (execSeizeOk s) := by
  unfold Machine.execSeizeOk
  split
  · exact .next h
  · exact .next h.setCore.putB.same

theorem Keeps.execTokenRevoke : Goes s₀ (execTokenRevoke s) := by
  unfold Machine.execTokenRevoke
  split
  · exact .next h
  · exact .next h.setHolder.overlapOff.same.put.beginRestart.raise

theorem Keeps.execWatchdogService {k} : Goes s₀ (execWatchdogService k s) := .next (Keeps.ite h.setCore h)

theorem Keeps.coreFails {k : Nat} {wdog diag : Bool} {fails : BitVec 4} :
    Keeps s₀ (s.coreFails k wdog diag fails) :=
  Keeps.ite h.hardwareRelease ((Keeps.ite h.overlapOff h).beginRestart)

theorem Keeps.execWatchdogExpire {k} : Goes s₀ (execWatchdogExpire k s) :=
  Goes.ite (.next (Keeps.ite h.errInc h).coreFails) (.next h)

theorem Keeps.execSelfDiag {k fails corrected} : Goes s₀ (execSelfDiag k fails corrected s) :=
  Goes.ite (.next (h.bumpW.bump.put.onlyIfNot fun h => h.errInc.coreFails)) (.next h)

theorem Keeps.execShadowRebuildDone {k} : Goes s₀ (execShadowRebuildDone k s) :=
  Goes.ite (.next h.putB.putB.setCore) (.next h)

theorem Keeps.mboxWrite {k : Nat} {w : WriteReq} : Keeps s₀ (s.mboxWrite k w) := h.gateW (fun _ h => h.wr)

end Sys2Proof.Machine
end

section
/-! SUPPORT. `Keeps` along the operations of Machine/Memory.lean. -/

namespace Sys2Proof.Machine

variable {s₀ s : State} (h : Keeps s₀ s)
include h

theorem Keeps.setLine {n : Nat} {v : Line} : Keeps s₀ (s.setLine n v) :=
  { h with
    mem := fun c => memWf_setLine s n v (h.mem c)
    poison := fun c => poisonWf_setLine s n v (h.poison c) }

theorem Keeps.setLinePoisoned {n : Nat} {v : Line} : Keeps s₀ (s.setLinePoisoned n v) :=
  { h with
    mem := fun c => memWf_setLinePoisoned s n v (h.mem c)
    poison := fun c => poisonWf_setLinePoisoned s n v (h.poison c) }

end Sys2Proof.Machine
end

section
/-! SUPPORT. `Keeps` along the operations of Machine/Windows.lean. -/

namespace Sys2Proof.Machine

variable {s₀ s : State} (h : Keeps s₀ s)
include h

theorem Keeps.groveDirty {g a : Nat} (hg : g < 16) : Keeps s₀ (s.groveDirty g a) := by
  dsimp only [State.groveDirty]
  split
  · exact h
  · exact Keeps.ite h (((h.setGroveAs hg (by simp)).bump).putB)

theorem Keeps.wbDrop {g n : Nat} (hg : g < 16) : Keeps s₀ (s.wbDrop g n) := by
  dsimp only [State.wbDrop]
  split
  · exact Keeps.ite (h.setGroveAs hg (by simp)) h
  · exact h

theorem Keeps.groveWrite {g a : Nat} {v : Line} (hg : g < 16) : Keeps s₀ (s.groveWrite g a v) :=
  ((h.wbDrop hg).setLine).groveDirty hg

theorem Keeps.groveDirtyRegs {g : Nat} : Keeps s₀ (s.groveDirtyRegs g) := (h.fold fun _ _ _ h => h.wr).putB

/-- Neither a commit nor a clearing makes state of a grove that holds none. -/
theorem Keeps.groveCommit {g : Nat} : Keeps s₀ (s.groveCommit g) :=
  have h := h.setGroveOf (g := g) (f := fun x => { x with sel := flipSel x.sel x.dirty, dirty := [] }) rfl
    fun _ hx => ⟨hx.1, hx.2⟩
  h.groveDirtyRegs.bumpW

theorem Keeps.groveClear {g : Nat} : Keeps s₀ (s.groveClear g) :=
  (h.setGroveOf (f := fun x => { x with dirty := [] }) rfl fun _ hx => ⟨hx.1, hx.2⟩).groveDirtyRegs

theorem Keeps.copyLineTo {src dst : Nat} : Keeps s₀ (s.copyLineTo src dst) :=
  Keeps.ite h.setLinePoisoned h.setLine

theorem Keeps.groveFoldStart {g : Nat} : Keeps s₀ (s.groveFoldStart g) := Keeps.ite h h.putB

theorem Keeps.groveFold {g : Nat} (hg : g < 16) : Keeps s₀ (s.groveFold g) :=
  (((h.foldl fun _ _ h => h.copyLineTo).fold fun _ _ _ h => h.wr.wr.wr.wr).setGrove hg
    (by exact fun c => ⟨(h.grove c).1, by simp⟩)).put.putB.putB.wr

theorem Keeps.lpDirty {b : Nat} : Keeps s₀ (s.lpDirty b) := by
  unfold State.lpDirty
  split
  · exact h
  · exact Keeps.ite h (h.same.andThen fun h => (by split; exacts [h, h.bump.putB]))

theorem Keeps.lpWrite {b : Nat} {v : Line} {poisoned : Bool} : Keeps s₀ (s.lpWrite b v poisoned) :=
  (Keeps.ite h.setLinePoisoned h.setLine).lpDirty

theorem Keeps.lpDirtyRegs : Keeps s₀ s.lpDirtyRegs := h.fold fun _ _ _ h => h.wr.putB

theorem Keeps.lpCommit : Keeps s₀ s.lpCommit := h.same.lpDirtyRegs

theorem Keeps.lpClear : Keeps s₀ s.lpClear := h.same.lpDirtyRegs

theorem Keeps.unloadEnd : Keeps s₀ s.unloadEnd := Keeps.ite h.put h

end Sys2Proof.Machine
end

section
/-! SUPPORT. `Keeps` along the operations of Machine/Pace.lean. -/

namespace Sys2Proof.Machine

variable {s₀ s : State} (h : Keeps s₀ s)
include h

theorem Keeps.enginesStop : Keeps s₀ s.enginesStop := (h.foldl fun _ _ h => h.putB).mapEngines

theorem Keeps.dmaStopAll : Keeps s₀ s.dmaStopAll :=
  (h.foldl fun _ _ h => h.wr.foldl fun _ _ h => h.putB).mapGroves fun _ _ hx => ⟨by simp, hx.2⟩

theorem Keeps.reduceStop : Keeps s₀ s.reduceStop := (h.foldl fun _ _ h => h.putB.putB.put.put.wr).mapReduce

theorem Keeps.stepOff : Keeps s₀ s.stepOff :=
  (h.putB.putB.fold fun _ _ _ h => h.putB).fold fun _ _ _ h => h.putB

theorem Keeps.clearDirty : Keeps s₀ s.clearDirty := (h.foldl fun _ _ h => h.groveClear).lpClear

theorem Keeps.groveUncommitted {b : Bool} : Keeps s₀ (s.groveUncommitted b) := h.fold fun _ _ _ h => h.putB

theorem Keeps.discardStep : Keeps s₀ s.discardStep :=
  h.enginesStop.dmaStopAll.reduceStop.stepOff.clearDirty.groveUncommitted.same

theorem Keeps.powerIdle : Keeps s₀ s.powerIdle := Keeps.ite h.setPower h

theorem Keeps.suspend : Keeps s₀ s.suspend := Keeps.ite h h.putB.putB.same.raise

theorem Keeps.faultInfo {cause detail origin : Nat} {local_ after : Bool} :
    Keeps s₀ (s.faultInfo cause detail origin local_ after) :=
  h.wr.put.put.put.putB.putB.wr64

theorem Keeps.sendAbort {a : AbortMsg} {n : Nat} : Keeps s₀ (s.sendAbort a n) := h.emitAll.same

theorem Keeps.resumeCancel : Keeps s₀ s.resumeCancel :=
  (h.putB.sameGroup (by rfl)).onlyIf fun h => h.raiseBare

theorem Keeps.paceFault {cause detail : Nat} : Keeps s₀ (s.paceFault cause detail) :=
  Keeps.ite h (Keeps.ite (Keeps.ite h.put.put h) (Keeps.ite
    ((h.faultInfo.errInc.raise.onlyIf fun h => h.discardStep).sendAbort.suspend.setMState.resumeCancel.andThen
      fun h => (h.powerIdle.setGroup (by exact h.image)).same)
    h))

theorem Keeps.paceFaultEoe {cause detail : Nat} : Keeps s₀ (s.paceFaultEoe cause detail) :=
  Keeps.ite h (Keeps.ite h.same h)

theorem Keeps.declareEoe : Keeps s₀ s.declareEoe := by
  unfold State.declareEoe
  split
  · exact h
  · exact h.paceFault

theorem Keeps.paceUrgent {detail : Nat} : Keeps s₀ (s.paceUrgent detail) :=
  h.raise.onlyIf fun h => h.errInc.paceFault

end Sys2Proof.Machine
end

section
/-! SUPPORT. `Keeps` along the operations of Machine/LinkOps.lean. -/

namespace Sys2Proof.Machine

variable {s₀ s : State} (h : Keeps s₀ s)
include h

omit h in
theorem lt_of_linkUp {l : Nat} (hup : s.linkUp l = true) : l < 96 := by
  simp only [State.linkUp, Bool.and_eq_true, decide_eq_true_eq] at hup
  exact hup.1

theorem Keeps.setL {l ls fn : Nat} : Keeps s₀ (s.setL l ls fn) := h.put.setFn

theorem Keeps.linkFault {l : Nat} : Keeps s₀ (s.linkFault l) := Keeps.ite h.paceFault h

theorem Keeps.returnUnsent {l : Nat} (hl : l < 96) : Keeps s₀ (s.returnUnsent l) := h.emitAll.setLink hl

theorem Keeps.linkLost {l cause : Nat} (hl : l < 96) : Keeps s₀ (s.linkLost l cause) :=
  (h.returnUnsent hl).put.put.toFault.raise.linkFault

theorem Keeps.trainFail {l cause : Nat} : Keeps s₀ (s.trainFail l cause) := h.put.put.toFault.raise

theorem Keeps.toDetect {l : Nat} (hl : l < 96) : Keeps s₀ (s.toDetect l) := (h.setLink hl).setL

theorem Keeps.linkEnable {l : Nat} (hl : l < 96) : Keeps s₀ (s.linkEnable l) := (h.put.setLink hl).toDetect hl

theorem Keeps.linkTakedown {l : Nat} (hl : l < 96) : Keeps s₀ (s.linkTakedown l) :=
  (Keeps.ite h (h.setLink hl)).emit.setL

theorem Keeps.linkOff {l : Nat} (hl : l < 96) : Keeps s₀ (s.linkOff l) := ((h.returnUnsent hl).emit).putB.setL

/-- Only a link of the module is UP. -/
theorem Keeps.sendMsg {l : Nat} {b : SvcBody} : Keeps s₀ (s.sendMsg l b) :=
  Keeps.iteOn (fun hup => (h.setLink (lt_of_linkUp hup)).emit) fun _ => h.emit

theorem Keeps.sendAll {ls : List Nat} {b : SvcBody} : Keeps s₀ (s.sendAll ls b) :=
  h.foldl fun _ _ h => h.sendMsg

theorem Keeps.takeInbox {l : Nat} {b : SvcBody} : Keeps s₀ (s.takeInbox l b) := h.same

theorem Keeps.addCredit {l pool n : Nat} : Keeps s₀ (s.addCredit l pool n) := h.put

end Sys2Proof.Machine
end


section
/-! SUPPORT. `Keeps` along the operations of Machine/Clock.lean. -/

namespace Sys2Proof.Machine

variable {s₀ s : State} (h : Keeps s₀ s)
include h

theorem Keeps.abandonSync : Keeps s₀ s.abandonSync := h.putB.putB.same

theorem Keeps.syncBegin {root : Bool} : Keeps s₀ (s.syncBegin root) :=
  h.abandonSync.putB.putB.put.put.put.wr.wr.wr

theorem Keeps.sendSync {ls : List Nat} {rootId : Word} {hops : Nat} : Keeps s₀ (s.sendSync ls rootId hops) :=
  h.emitAll

theorem Keeps.syncStart : Keeps s₀ s.syncStart := Keeps.ite h (h.syncBegin.onlyIf fun h => h.same.sendSync)

theorem Keeps.takeParent {m : SyncMsg} : Keeps s₀ (s.takeParent m) := h.same.put.put.sendSync

theorem Keeps.rootConflict : Keeps s₀ s.rootConflict := h.raise

theorem Keeps.takeFrom {m : SyncMsg} {ms : List SyncMsg} : Keeps s₀ (s.takeFrom m ms) := by
  dsimp only [State.takeFrom]
  split
  · exact (Keeps.ite h.rootConflict h)
  · exact (Keeps.ite h.rootConflict h).takeParent

theorem Keeps.syncRx {ms : List SyncMsg} : Keeps s₀ (s.syncRx ms) := by
  dsimp only [State.syncRx]
  refine Keeps.ite h (Keeps.ite ?_ (Keeps.ite h (by split; exacts [h, h.syncBegin.takeFrom])))
  split
  · split
    · exact h
    · exact h.takeFrom
  · have hconflict {c} {_ : Decidable c} : Keeps s₀ (if c then s.rootConflict else s) :=
      Keeps.ite h.rootConflict h
    split
    · exact hconflict
    · split
      · exact hconflict.syncBegin
      · exact hconflict.syncBegin.takeParent

theorem Keeps.syncEnd : Keeps s₀ s.syncEnd :=
  Keeps.ite (Keeps.ite h.abandonSync.putB.wr.putB.raise h.abandonSync.errInc.raise) h

theorem Keeps.execSyncRx {first rest} : Goes s₀ (execSyncRx first rest s) := .next h.syncRx

theorem Keeps.execCheckSend : Goes s₀ (execCheckSend s) := Goes.ite (.next h.emitAll.same.syncEnd) (.next h)

theorem Keeps.execCheckRx {link rootId time} : Goes s₀ (execCheckRx link rootId time s) := by
  refine Goes.ite ?_ (.next h)
  split
  · exact .next h
  · exact Goes.ite (Goes.ite (.next h) (.next (Keeps.ite h.putB.bumpF h).same.syncEnd))
      (Goes.ite (.next h.rootConflict.syncBegin) (.next h.rootConflict))

theorem Keeps.execSyncTimeout : Goes s₀ (execSyncTimeout s) :=
  Goes.ite (.next h.abandonSync.put.errInc.raise) (.next h)

theorem Keeps.execRefLost : Goes s₀ (execRefLost s) :=
  Goes.ite (Goes.andThen h.putB.putB.putB.wr.bump.same.abandonSync.raise fun h => .next
    (Keeps.ite h.paceFaultEoe h.paceFault)) (.next h)

theorem Keeps.holdoverLinks : Keeps s₀ s.holdoverLinks :=
  h.foldlOn fun _ hx _ h => Keeps.ite (h.put.linkOff (List.mem_range.1 hx)) h

theorem Keeps.execHoldoverExpired : Goes s₀ (execHoldoverExpired s) :=
  Goes.ite (.next h.putB.raise.holdoverLinks) (.next h)

theorem Keeps.execRefAccepted : Goes s₀ (execRefAccepted s) := Goes.ite (.next h.putB.same) (.next h)

theorem Keeps.execRefRestored : Goes s₀ (execRefRestored s) :=
  Goes.ite (.next h.wr.putB.putB.same.raise) (.next h)

theorem Keeps.execPllUnlock : Goes s₀ (execPllUnlock s) :=
  Goes.ite (.next (Keeps.ite h.wr.putB h).same.putB.abandonSync.errInc.raise.paceFault) (.next h)

theorem Keeps.execPllRelock : Goes s₀ (execPllRelock s) := Goes.ite (.next h.putB) (.next h)

theorem Keeps.execRefclkWaitTimeout : Goes s₀ (execRefclkWaitTimeout s) :=
  Goes.ite (.next h.toFault) (.next h)

theorem Keeps.clkStarted : Keeps s₀ s.clkStarted := (Keeps.ite h h.same.putB.putB).setFn

theorem Keeps.clkDisable : Keeps s₀ s.clkDisable := h.abandonSync.setFn

theorem Keeps.clkReset : Keeps s₀ s.clkReset := h.abandonSync.resetBlock.dropHeldLo.wr.putB.setFn

end Sys2Proof.Machine
end

section
/-! SUPPORT. `Keeps` along the operations of Machine/Links.lean. -/

namespace Sys2Proof.Machine

variable {s₀ s : State} (h : Keeps s₀ s)
include h

theorem Keeps.blameLanes {l : Nat} {failed loc : List Nat} {ev : Nat} :
    Keeps s₀ (s.blameLanes l failed loc ev) :=
  h.foldl fun _ _ h => Keeps.ite (Keeps.ite h h.dwAdd) h.raise

theorem Keeps.lanesFail {l : Nat} {failed loc : List Nat} : Keeps s₀ (s.lanesFail l failed loc) :=
  h.blameLanes.trainFail.onlyIf fun h => h.retire.retire

theorem Keeps.recordLanes {l : Nat} {failed loc : List Nat} {obs : PhaseObs} :
    Keeps s₀ (s.recordLanes l failed loc obs) := by
  dsimp only [State.recordLanes]
  split
  · exact h.put.put.putB
  · exact h.put.put.putB.raise.blameLanes

theorem Keeps.fitLink {l : Nat} : Keeps s₀ (s.fitLink l) := by
  unfold State.fitLink
  split
  · exact h
  · split
    · exact h
    · exact Keeps.ite h.put.put.put.putB h.putB.put.raise

theorem Keeps.linkUpNow {l rt : Nat} {rhoRx rhoTx : BitVec 4} {lamTx : Nat} (hl : l < 96) :
    Keeps s₀ (s.linkUpNow l rt rhoRx rhoTx lamTx) :=
  (((h.put.put.put.put.put.foldl fun _ _ h => h.wr).foldl fun _ _ h => h.put).put.putB.put.setLink
    hl).setL.raise.onlyIf fun h => h.fitLink

theorem Keeps.measureFail {l : Nat} (hl : l < 96) : Keeps s₀ (s.measureFail l) :=
  Keeps.ite h.trainFail (h.setLink hl)

theorem Keeps.lanePhaseEnd {l next : Nat} {obs : PhaseObs} (hl : l < 96) :
    Keeps s₀ (s.lanePhaseEnd l next obs) :=
  Keeps.ite ((h.setLink hl).toDetect hl) (Keeps.ite h.lanesFail h.setL)

theorem Keeps.detectEnd {l : Nat} {obs : PhaseObs} (hl : l < 96) : Keeps s₀ (s.detectEnd l obs) :=
  (h.wr.put.setLink hl).setL

theorem Keeps.execTrainPhaseDone {link obs} : Goes s₀ (execTrainPhaseDone link obs s) := by
  refine Goes.ite (.next (h.detectEnd link.isLt))
    (Goes.ite (.next (h.lanePhaseEnd link.isLt))
      (Goes.ite (.next (h.wr.lanePhaseEnd link.isLt))
        (Goes.ite (.next (h.lanePhaseEnd link.isLt))
          (Goes.ite (Goes.ite (.next h.lanesFail) (.next h.recordLanes.setL))
            (Goes.ite (Goes.ite (.next (h.measureFail link.isLt)) (Goes.ite (.next h) ?_)) (.next h))))))
  split
  · refine Goes.ite ?_ (.next (h.measureFail link.isLt))
    split
    · exact .next (h.linkUpNow link.isLt)
    · exact .next (h.measureFail link.isLt)
  · exact .next (h.measureFail link.isLt)

theorem Keeps.execTrainPhaseTimeout {link obs} : Goes s₀ (execTrainPhaseTimeout link obs s) :=
  Goes.ite (.next h.trainFail)
    (Goes.ite (.next (h.lanePhaseEnd link.isLt))
      (Goes.ite (.next (h.lanePhaseEnd link.isLt))
        (Goes.ite (.next (h.lanePhaseEnd link.isLt))
          (Goes.ite (.next h.trainFail) (Goes.ite (.next (h.measureFail link.isLt)) (.next h))))))

theorem Keeps.execDetectTimeout {link} : Goes s₀ (execDetectTimeout link s) :=
  Goes.ite (.next h.trainFail) (.next h)

theorem Keeps.execMarkRx {link carried phase} : Goes s₀ (execMarkRx link carried phase s) :=
  Goes.ite (.next ((h.setLink link.isLt).emit)) (.next h)

theorem Keeps.execEchoRx {link a0 a1 rhoPartner} : Goes s₀ (execEchoRx link a0 a1 rhoPartner s) :=
  Goes.ite (.next (h.setLink link.isLt)) (.next h)

theorem Keeps.execMarginLow {link} : Goes s₀ (execMarginLow link s) :=
  Goes.ite (Goes.andThen h.put.raise fun h => Goes.ite (.next h.linkFault)
    (Goes.ite (.next h) (.next ((h.setLink link.isLt).emit)))) (.next h)

theorem Keeps.execSkipFlitRx {link drop} : Goes s₀ (execSkipFlitRx link drop s) :=
  Goes.ite (.next ((h.put.put.bumpF.setLink link.isLt).raise.onlyIf fun h => h.fitLink)) (.next h)

theorem Keeps.execElasticOverrun {link} : Goes s₀ (execElasticOverrun link s) :=
  Goes.ite (.next (h.put.linkLost link.isLt)) (.next h)

theorem Keeps.execLaneLockLoss {link lane} : Goes s₀ (execLaneLockLoss link lane s) :=
  Goes.ite (.next (h.linkLost link.isLt)) (.next h)

theorem Keeps.corrBit {l i : Nat} (hl : l < 96) : Keeps s₀ (s.corrBit l i) :=
  h.bump.bump.andThen fun h => Keeps.ite ((h.setLink hl).raise.dwAdd) (h.setLink hl)

theorem Keeps.deliver {l : Nat} {slot : FlitSlot} {payload : BitVec 256} {poison : Bool} (hl : l < 96) :
    Keeps s₀ (s.deliver l slot payload poison) := by
  refine h.foldl fun _ _ h => ?_
  split
  · exact h.emit
  · exact h
  · exact h.setLink hl

theorem Keeps.uncorrFlit {l : Nat} {flit : BitVec 320} {pos : TickPos} (hl : l < 96) :
    Keeps s₀ (s.uncorrFlit l flit pos) :=
  (h.bump.errInc.setLink hl).andThen fun h1 => Keeps.onlyIf (by
    split
    · exact ((h1.deliver hl).raise).paceFaultEoe
    · exact h1.onlyIf fun h => h.paceFaultEoe) fun h => h.linkLost hl

theorem Keeps.abortReceived {l : Nat} {a : AbortMsg} : Keeps s₀ (s.abortReceived l a) :=
  Keeps.ite (Keeps.ite h.resumeCancel.sendAbort
    (Keeps.ite h (h.faultInfo.andThen fun h => Keeps.ite h.discardStep.sendAbort.suspend.powerIdle
      (Keeps.ite h.sendAbort.same h.sendAbort.suspend)))) h.raise

theorem Keeps.svcFlitRx {l : Nat} {x : Word} (hl : l < 96) : Keeps s₀ (s.svcFlitRx l x) := by
  dsimp only [State.svcFlitRx]
  split
  · exact h.addCredit
  · exact h.addCredit.setLink hl

theorem Keeps.cleanFlit {l : Nat} {f : BitVec 320} {pos : TickPos} (hl : l < 96) :
    Keeps s₀ (s.cleanFlit l f pos) := by
  refine Keeps.ite h.abortReceived ?_
  split
  · exact Keeps.ite ((Keeps.ite h.bump.raise h).deliver hl) (h.raise.linkLost hl)
  · exact Keeps.ite (h.svcFlitRx hl) (Keeps.ite h.addCredit h)

theorem Keeps.execFlitRx {link flit pos} : Goes s₀ (execFlitRx link flit pos s) := by
  refine Goes.ite ?_ (.next h)
  split
  · exact .next (h.uncorrFlit link.isLt)
  · exact .next (((h.setLink link.isLt).foldl fun _ _ h => h.corrBit link.isLt).cleanFlit link.isLt)

theorem Keeps.execAbortRx {link a} : Goes s₀ (execAbortRx link a s) := .next h.abortReceived

theorem Keeps.execServiceMsgRx {link msgno body} : Goes s₀ (execServiceMsgRx link msgno body s) :=
  Goes.ite (Goes.andThen (h.setLink link.isLt).emit fun h => Goes.ite (.next (h.setLink link.isLt))
    (.next h.same)) (.next h)

theorem Keeps.execServiceAckRx {link cls msgno} : Goes s₀ (execServiceAckRx link cls msgno s) :=
  .next (h.setLink link.isLt)

theorem Keeps.execServiceResendTimeout {link cls msgno} :
    Goes s₀ (execServiceResendTimeout link cls msgno s) := by
  dsimp only [Machine.execServiceResendTimeout]
  split
  · exact .next h
  · exact .next (((h.setLink link.isLt).bump).emit)

theorem Keeps.execTakedownNoticeRx {link} : Goes s₀ (execTakedownNoticeRx link s) :=
  Goes.ite (.next (((((h.returnUnsent link.isLt).emit).put).errInc.toDetect link.isLt).raise).linkFault)
    (Goes.ite (.next ((h.emit.put.toDetect link.isLt).raise)) (Goes.ite (.next h.emit) (.next h)))

theorem Keeps.takedownEnd {l : Nat} (hl : l < 96) : Keeps s₀ (s.takedownEnd l) :=
  ((h.returnUnsent hl).emit).andThen fun h => Keeps.ite ((h.putB.setLink hl).toDetect hl) h.setL

theorem Keeps.execTakedownComplete {link} : Goes s₀ (execTakedownComplete link s) :=
  Goes.ite (.next (h.takedownEnd link.isLt)) (.next h)

end Sys2Proof.Machine
end

section
/-! SUPPORT. `Keeps` along the operations of Machine/GroveMem.lean. -/

namespace Sys2Proof.Machine

variable {s₀ s : State} (h : Keeps s₀ s)
include h

theorem Keeps.sramWear {g b : Nat} : Keeps s₀ (s.sramWear g b) := h.raise.dwAdd

theorem Keeps.sramCorrected {g b : Nat} {d : Decoded} (hg : g < 16) : Keeps s₀ (s.sramCorrected g b d) :=
  (h.bump.onlyIf fun h => h.raise).andThen fun h1 => Keeps.ite
    (h1.bump.andThen fun h => Keeps.ite ((h.setGroveAs hg (by simp)).sramWear) (h.setGroveAs hg (by simp))) h1

theorem Keeps.sramUncorr {g n : Nat} {by_ : ReadBy} : Keeps s₀ (s.sramUncorr g n by_) := by
  cases by_ with
  | sched => exact h.wr.errInc.raise.paceFaultEoe.sramWear
  | background => exact h.wr.errInc.raise.sramWear
  | scrub => exact h.wr.errInc.sramWear

theorem Keeps.groveFetch {g n : Nat} {by_ : ReadBy} {obs : Option LineObs} (hg : g < 16) :
    Keeps s₀ (s.groveFetch g n by_ obs).1 :=
  (h.sramCorrected hg).onlyIf fun h => h.sramUncorr

theorem Keeps.groveSchedRead {g a : Nat} {obs : Option LineObs} (hg : g < 16) :
    Keeps s₀ (s.groveSchedRead g a obs).1 := h.groveFetch hg

end Sys2Proof.Machine
end

section
/-! SUPPORT. `Keeps` along the operations of Machine/Grove.lean. -/

namespace Sys2Proof.Machine

variable {s₀ s : State} (h : Keeps s₀ s)
include h

theorem Keeps.scrubBank {g b row : Nat} {obs : Option LineObs} (hg : g < 16) :
    Keeps s₀ (s.scrubBank g b row obs) := by
  refine (Keeps.groveFetch ?_ hg).onlyIf fun h => h.setGroveAs hg (by simp)
  split
  · exact h.setLine.setGroveAs hg ⟨rfl, rfl⟩
  · exact h

theorem Keeps.execScrubTick {g obs0 obs1} : Goes s₀ (execScrubTick g obs0 obs1 s) :=
  Goes.ite (Goes.andThen ((h.scrubBank g.isLt).scrubBank g.isLt) fun h0 => .next
    ((h0.setGroveAs g.isLt (by simp)).onlyIf fun h => h.bumpW)) (.next h)

theorem Keeps.setChan {g ch : Nat} {c : DmaCh} (hg : g < 16) (hch : ch < 16) : Keeps s₀ (s.setChan g ch c) :=
  h.setGrove hg fun hr => by
    refine ⟨fun e he => ?_, (h.grove hr).2⟩
    rcases eq_or_mem_of_mem_aset he with he | ⟨rfl, _⟩
    · exact (h.grove hr).1 e he
    · exact hch

theorem Keeps.readLines {g a n : Nat} (hg : g < 16) : Keeps s₀ (s.readLines g a n).1 := by
  induction n generalizing s a with
  | zero => exact h
  | succ n ih => exact ih (h.groveSchedRead hg)

theorem Keeps.writeLines {g a : Nat} {vs : List Line} (hg : g < 16) : Keeps s₀ (s.writeLines g a vs) := by
  induction vs generalizing s a with
  | nil => exact h
  | cons v vs ih => exact ih (h.groveWrite hg)

theorem Keeps.dmaTakeIn {g ch : Nat} (hg : g < 16) (hch : ch < 16) : Keeps s₀ (s.dmaTakeIn g ch) := by
  dsimp only [State.dmaTakeIn]
  split
  · exact h
  · exact Keeps.ite (((h.writeLines hg).setChan hg hch).put) h

theorem Keeps.dmaStart {g ch desc : Nat} {sched : Bool} {byEng : Option Nat} (hg : g < 16) (hch : ch < 16) :
    Keeps s₀ (s.dmaStart g ch desc sched byEng) := by
  dsimp only [State.dmaStart]
  split
  · exact h
  · exact (Keeps.setChan (by split; exacts [h, h.readLines hg]) hg hch).bumpW.putB.wr.dmaTakeIn hg hch

theorem Keeps.execDmaSchedStart {g ch desc} : Goes s₀ (execDmaSchedStart g ch desc s) :=
  Goes.ite (.next (h.dmaStart g.isLt ch.isLt)) (.next h)

theorem Keeps.dmaObs {g : Nat} {r : DmaRun} {os : List (Nat × LineObs)} (hg : g < 16) :
    Keeps s₀ (s.dmaObs g r os).1 := by
  induction os with
  | nil => exact h
  | cons o os ih => exact (ih.sramCorrected hg).onlyIf fun h => h.sramUncorr

omit h in
/-- LMAP names physical engines 0 to 14. -/
theorem lt_of_physOf {g e p : Nat} (hp : s.physOf g e = some p) : p < 16 := by
  simp only [State.physOf, Option.ite_none_left_eq_some, Option.some.injEq] at hp
  rw [← hp.2]
  exact Nat.mod_lt _ (by decide)

theorem Keeps.execDmaComplete {g ch : Fin 16} {obs : List (Nat × LineObs)} :
    Goes s₀ (execDmaComplete g ch obs s) := by
  dsimp only [Machine.execDmaComplete]
  split
  · exact .next h
  · refine Goes.ite (.next h) (.next ?_)
    have hread {c r} {_ : Decidable c} : Keeps s₀ (if c then (s, []) else s.dmaObs g.val r obs).1 :=
      by split; exacts [h, h.dmaObs g.isLt]
    refine (Keeps.setChan (Keeps.ite (hread.writeLines g.isLt) (hread.onlyIf fun h => ?_)) g.isLt
      ch.isLt).putB.putB.put.bump64
    split
    · next p hp => exact h.setEng (by have := lt_of_physOf hp; omega)
    · exact h

theorem Keeps.execFoldDone {g} : Goes s₀ (execFoldDone g s) :=
  Goes.ite (.next (((h.groveFold g.isLt).raise).unloadEnd)) (.next h)

end Sys2Proof.Machine
end


section
/-! SUPPORT. `Keeps` along the operations of Machine/EngineOps.lean. -/

namespace Sys2Proof.Machine

variable {s₀ s : State} (h : Keeps s₀ s)
include h

omit h in
theorem grove_lt {i : Nat} (hi : i < 256) : i / 16 < 16 := by omega

theorem Keeps.applyWrite {i : Nat} {op : WriteOp} (hi : i < 256) : Keeps s₀ (s.applyWrite i op).1 := by
  unfold State.applyWrite
  split
  · exact h.groveWrite (grove_lt hi)
  · exact h.foldl fun _ _ h => h.groveWrite (grove_lt hi)
  · exact h.dmaStart (grove_lt hi) (BitVec.isLt _)
  · exact h.setEng hi

theorem Keeps.applyWrites {i : Nat} {ws : List WriteOp} (hi : i < 256) : Keeps s₀ (s.applyWrites i ws).1 := by
  induction ws generalizing s with
  | nil => exact h
  | cons w ws ih => exact ih (h.applyWrite hi)

theorem Keeps.doRead {i tau : Nat} {op : ReadOp} (hi : i < 256) : Keeps s₀ (s.doRead i tau op) := by
  dsimp only [State.doRead]
  split
  · exact h.setEng hi
  · exact Keeps.ite (h.setEng hi) (h.setEng hi)
  · exact Keeps.ite (h.setEng hi) (h.setEng hi)
  · exact h.setEng hi
  · exact (h.groveSchedRead (grove_lt hi)).setEng hi
  · exact h.setEng hi
  · exact h.setEng hi
  · split
    · exact h
    · exact h.setEng hi
  · split
    · exact h.setEng hi
    · exact h.setEng hi

theorem Keeps.engineResidue {i : Nat} (hi : i < 256) : Keeps s₀ (s.engineResidue i) :=
  (h.setEng hi).errInc.raise.paceFault

theorem Keeps.engineOvf {i : Nat} : Keeps s₀ (s.engineOvf i) := h.raise.paceFault

theorem Keeps.engTick {i tau : Nat} (hi : i < 256) : Keeps s₀ (s.engTick i tau) :=
  ((((h.setEng hi).applyWrites hi).foldl fun _ _ h => h.doRead hi).onlyIf fun h => h.engineResidue hi).onlyIf
    fun h => h.engineOvf

theorem Keeps.engRun {i t n : Nat} (hi : i < 256) : Keeps s₀ (s.engRun i t n) := by
  induction n generalizing s with
  | zero => exact h
  | succ n ih =>
    unfold State.engRun
    split
    · exact h
    · exact ih (h.engTick hi)

theorem Keeps.engAdvance {i t : Nat} (hi : i < 256) : Keeps s₀ (s.engAdvance i t) := (h.engRun hi).setEng hi

omit h in
/-- A logical engine's physical engine is one of the module's. -/
theorem lt_of_engIdx {a : Eng} {i : Nat} (hi : s.engIdx a = some i) : i < 256 := by
  simp only [State.engIdx, Option.map_eq_some_iff] at hi
  obtain ⟨p, hp, rfl⟩ := hi
  have := lt_of_physOf hp
  omega

omit h in
theorem lt_of_issuing {a : Eng} {i : Nat} (hi : s.issuing a = some i) : i < 256 := by
  unfold State.issuing at hi
  split at hi
  · next j hj =>
    simp only [Option.ite_none_right_eq_some, Option.some.injEq] at hi
    exact hi.2 ▸ lt_of_engIdx hj
  · exact absurd hi nofun

theorem Keeps.slot {a : Eng} {ok : Bool} {f : Nat → EngineSt → State} (hf : ∀ i x, i < 256 → Keeps s₀ (f i x))
    : Goes s₀ (s.slot a ok f) := by
  unfold State.slot
  split
  · next i hi => exact Goes.ite (.next (hf i _ (lt_of_issuing hi))) (.next h)
  · exact .next h

theorem Keeps.countBundle {i : Nat} : Keeps s₀ (s.countBundle i) := h.bump64.wr

theorem Keeps.endBundle {i : Nat} {x' : EngineSt} (hi : i < 256) : Keeps s₀ (s.endBundle i x') :=
  (h.countBundle.setEng hi).onlyIf fun h => h.engAdvance hi

theorem Keeps.engResume {i t : Nat} (hi : i < 256) : Keeps s₀ (s.engResume i t) := (h.setEng hi).engAdvance hi

end Sys2Proof.Machine
end

section
/-! SUPPORT. `Keeps` along the operations of Machine/EngineMem.lean. -/

namespace Sys2Proof.Machine

variable {s₀ s : State} (h : Keeps s₀ s)
include h

theorem Keeps.execMnop {a slot} : Goes s₀ (execMnop a slot s) := h.slot fun _ _ _ => h

theorem Keeps.execLd {a slot rate lenM1 areg ainc off xsel osa obs} :
    Goes s₀ (execLd a slot rate lenM1 areg ainc off xsel osa obs s) :=
  h.slot fun _ _ hi => h.setEng hi

theorem Keeps.execSt {a slot rate lenM1 areg ainc off xsel osa} :
    Goes s₀ (execSt a slot rate lenM1 areg ainc off xsel osa s) :=
  h.slot fun _ _ hi => h.setEng hi

theorem Keeps.execSeta {a slot areg value} : Goes s₀ (execSeta a slot areg value s) :=
  h.slot fun _ _ hi => h.setEng hi

theorem Keeps.execAdda {a slot areg addend} : Goes s₀ (execAdda a slot areg addend s) :=
  h.slot fun _ _ hi => h.setEng hi

theorem Keeps.execSend {a slot q lenM1 xsel osa} : Goes s₀ (execSend a slot q lenM1 xsel osa s) :=
  h.slot fun _ _ hi => h.setEng hi

theorem Keeps.execRecv {a slot q lenM1 xsel osa} : Goes s₀ (execRecv a slot q lenM1 xsel osa s) :=
  h.slot fun _ _ hi => h.setEng hi

theorem Keeps.dynRange {i dreg lane : Nat} : Keeps s₀ (s.dynRange i dreg lane) := h.wr.errInc.raise.paceFault

theorem Keeps.gatherLines {g : Nat} {d : Option DynRegion} {x : EngineSt} {vs o : Nat}
    {obs : List (Nat × LineObs)} {ks : List Nat}
    (hg : g < 16) : Keeps s₀ (s.gatherLines g d x vs o obs ks).1 := by
  induction ks generalizing s with
  | nil => exact h
  | cons k ks ih =>
    unfold State.gatherLines
    split
    · exact ih h
    · exact ih (h.groveSchedRead hg)

theorem Keeps.execGather {a slot vs dreg countM1 xsel osa obs} :
    Goes s₀ (execGather a slot vs dreg countM1 xsel osa obs s) :=
  h.slot fun _ _ hi => by
    dsimp only
    split
    · exact ((h.gatherLines (grove_lt hi)).setEng hi).dynRange
    · exact (h.gatherLines (grove_lt hi)).setEng hi

theorem Keeps.execScatter {a slot vs dreg countM1 xsel osa} :
    Goes s₀ (execScatter a slot vs dreg countM1 xsel osa s) :=
  h.slot fun _ _ hi => by
    dsimp only
    split
    · exact (h.setEng hi).dynRange
    · exact h.setEng hi

theorem Keeps.execDmat {a slot ch desc} : Goes s₀ (execDmat a slot ch desc s) :=
  h.slot fun _ _ hi => h.setEng hi

end Sys2Proof.Machine
end

section
/-! SUPPORT. `Keeps` along the operations of Machine/SecOps.lean. -/

namespace Sys2Proof.Machine

variable {s₀ s : State} (h : Keeps s₀ s)
include h

theorem Keeps.setRegBytes {off n : Nat} {bs : List Byte} : Keeps s₀ (s.setRegBytes off n bs) :=
  h.foldl fun _ _ h => h.wr

theorem Keeps.extendM {i : Nat} {v : List Byte} : Keeps s₀ (s.extendM i v) := h.setRegBytes

theorem Keeps.clearM : Keeps s₀ s.clearM := h.resetRegs

theorem Keeps.fuseLoad : Keeps s₀ s.fuseLoad :=
  (h.foldl fun _ _ h => h.wr).put.putB.putB.putB.putB.wr.wr.wr.putB.putB.wr64.wr.put.put.extendM

theorem Keeps.blowEnd {b : Blow} {ok : Bool} : Keeps s₀ (s.blowEnd b ok) := by
  dsimp only [State.blowEnd]
  split
  · exact h.same.putB.putB.putB
  · exact h.same.putB

theorem Keeps.consumed {t : Token} : Keeps s₀ (s.consumed t) := h.put.put.put.extendM

theorem Keeps.consumeToken : Keeps s₀ s.consumeToken := by
  unfold State.consumeToken
  split
  · exact h
  · exact h.putB.consumed.same

end Sys2Proof.Machine
end

section
/-! SUPPORT. `Keeps` along the operations of Machine/LpddrMem.lean. -/

namespace Sys2Proof.Machine

variable {s₀ s : State} (h : Keeps s₀ s)
include h

theorem Keeps.lpWear {m pi : Nat} : Keeps s₀ (s.lpWear m pi) :=
  h.raise.andThen fun h => Keeps.ite h.raise h.dwAdd

theorem Keeps.lpLastErr {pl : LpPlace} {block : Nat} {scrub : Bool} : Keeps s₀ (s.lpLastErr pl block scrub) :=
  h.wr.wr

theorem Keeps.lpCorrected {pl : LpPlace} {d : Decoded} : Keeps s₀ (s.lpCorrected pl d) :=
  h.bump.andThen fun h0 => Keeps.ite (h0.bump.bumpF.raise.same.onlyIf fun h => h.same.lpWear) h0

theorem Keeps.lpUncorr {pl : LpPlace} {block : Nat} {by_ : ReadBy} : Keeps s₀ (s.lpUncorr pl block by_) := by
  cases by_ with
  | sched => exact h.lpLastErr.errInc.raise.paceFaultEoe.lpWear
  | background => exact h.lpLastErr.errInc.raise.lpWear
  | scrub => exact h.lpLastErr.errInc.raise.lpWear

theorem Keeps.lpFetch {b : Nat} {by_ : ReadBy} {obs : Option LineObs} : Keeps s₀ (s.lpFetch b by_ obs).1 := by
  dsimp only [State.lpFetch]
  split
  · exact h
  · exact h.lpCorrected.onlyIf fun h => h.lpUncorr

end Sys2Proof.Machine
end

section
/-! SUPPORT. `Keeps` along the operations of Machine/Lpddr.lean. -/

namespace Sys2Proof.Machine

variable {s₀ s : State} (h : Keeps s₀ s)
include h

theorem Keeps.frameRead {m b : Nat} {port : Port} {obs : Option LineObs} :
    Keeps s₀ (s.frameRead m b port obs) := h.lpFetch.same

theorem Keeps.frameWrite {m b : Nat} {port : Port} : Keeps s₀ (s.frameWrite m b port) := by
  dsimp only [State.frameWrite]
  split
  · exact h.same.lpWrite
  · exact h.same

theorem Keeps.frameEntry {m ch : Nat} {e : BitVec 64} {obs : List (Nat × LineObs)} {bs : List (Nat × Port)} :
    Keeps s₀ (s.frameEntry m ch e obs bs) := by
  induction bs generalizing s with
  | nil => exact h
  | cons b bs ih => exact ih (Keeps.ite h.frameRead (Keeps.ite h.frameWrite h))

theorem Keeps.execLpddrFrame {m frame obs} : Goes s₀ (execLpddrFrame m frame obs s) :=
  Goes.ite (.next (h.foldl fun _ _ h => h.frameEntry.onlyIfNot fun h => h.bump64)) (.next h)

theorem Keeps.lpArrive {m : Nat} {src : Port} {v : Line} {bad : Bool} : Keeps s₀ (s.lpArrive m src v bad) :=
  by
  dsimp only [State.lpArrive]
  split
  · exact h.same.lpWrite
  · exact h.same

theorem Keeps.execLpddrRefresh {m ch bank} : Goes s₀ (execLpddrRefresh m ch bank s) :=
  Goes.ite (.next h) (.next h.same)

theorem Keeps.execRefreshRateChange {m ch mult} : Goes s₀ (execRefreshRateChange m ch mult s) :=
  Goes.ite (.next h) (Goes.andThen h.put fun h0 => Goes.ite (.next (h0.raise.onlyIf fun h => h.paceUrgent))
    (.next h0))

theorem Keeps.scrubBlocks {m ch k : Nat} {obs : List (Nat × LineObs)} {is : List Nat} :
    Keeps s₀ (s.scrubBlocks m ch k obs is) := by
  induction is generalizing s with
  | nil => exact h
  | cons i is ih => exact ih (by split; exacts [h.lpFetch, h])

theorem Keeps.execLpddrScrub {m obs} : Goes s₀ (execLpddrScrub m obs s) :=
  Goes.ite (.next (h.scrubBlocks.same.wr.onlyIf fun h => h.bumpW)) (.next h)

theorem Keeps.lpFoldStart : Keeps s₀ s.lpFoldStart := Keeps.ite h ((h.foldl fun _ _ h => h.putB).same)

theorem Keeps.lpFoldCopy {m : Nat} : Keeps s₀ (s.lpFoldCopy m) := (h.foldl fun _ _ h => h.copyLineTo).same

theorem Keeps.lpClearTable {m : Nat} : Keeps s₀ (s.lpClearTable m) :=
  (h.fold fun _ _ _ h => h.wr.wr.wr).put.putB

theorem Keeps.execLpddrFoldDone {m} : Goes s₀ (execLpddrFoldDone m s) :=
  Goes.ite (.next (h.lpFoldCopy.lpClearTable.onlyIf fun h => h.same).raise.unloadEnd) (.next h)

theorem Keeps.chanTrained {m ch : Nat} {o : ChanObs} : Keeps s₀ (s.chanTrained m ch o) :=
  h.putB.putB.onlyIfNot fun h => h.same

theorem Keeps.lpddrStarted {m : Nat} {os : List ChanObs} : Keeps s₀ (s.lpddrStarted m os) :=
  (h.foldl fun _ _ h => h.chanTrained).putB.putB.putB.setFn

theorem Keeps.lpGeometry : Keeps s₀ s.lpGeometry := h.same.foldl fun _ _ h => h.put.put

theorem Keeps.lpddrStartFailed {m ch : Nat} : Keeps s₀ (s.lpddrStartFailed m ch) :=
  h.toFault.raise.dwAdd.onlyIf fun h => h.retire

theorem Keeps.lpddrSelfRefresh {m : Nat} : Keeps s₀ (s.lpddrSelfRefresh m) := h.putB.putB

end Sys2Proof.Machine
end

section
/-! SUPPORT. `Keeps` along the operations of Machine/Background.lean. -/

namespace Sys2Proof.Machine

variable {s₀ s : State} (h : Keeps s₀ s)
include h

theorem Keeps.addrInvalid : Keeps s₀ s.addrInvalid := h.raise

theorem Keeps.altAccess {t : Target} : Keeps s₀ (s.altAccess t) := by
  unfold State.altAccess
  split
  · exact h.errInc.wr.raise
  · split
    · exact h
    · exact h.wr.raise

theorem Keeps.bgCount {t : Target} : Keeps s₀ (s.bgCount t) := by
  dsimp only [State.bgCount]
  split
  · exact h.bump
  · split
    · exact h.bump.bump
    · exact h.bump

/-- A target in a grove names one of the module's. -/
def Target.inModule : Target → Prop
  | .grove g _ => g < 16
  | .lpddr _ => True

omit h in
theorem inModule_of_target {n : Nat} {t : Target} (ht : s.target n = some t) : t.inModule := by
  dsimp only [State.target] at ht
  split at ht
  · simp only [Option.ite_none_left_eq_some, Option.some.injEq] at ht
    rw [← ht.2]
    simp only [Target.inModule]
    omega
  · cases t with
    | grove g a =>
      split at ht
      · split at ht
        · split at ht <;> simp at ht
        · exact absurd ht nofun
      · exact absurd ht nofun
    | lpddr b => trivial

theorem Keeps.bgFetch {t : Target} {obs : Option LineObs} (ht : t.inModule) : Keeps s₀ (s.bgFetch t obs).1 :=
  by
  cases t with
  | grove g a => exact h.groveFetch ht
  | lpddr b => exact h.lpFetch

theorem Keeps.bgStore {t : Target} {v : Line} (ht : t.inModule) : Keeps s₀ (s.bgStore t v) := by
  cases t with
  | grove g a => exact (h.wbDrop ht).setLine
  | lpddr b => exact h.setLine

theorem Keeps.bgWritePart {t : Target} {lo : Nat} {bs : List Byte} {obs : Option LineObs} (ht : t.inModule) :
    Keeps s₀ (s.bgWritePart t lo bs obs) :=
  Keeps.ite h.altAccess (h.bgCount.andThen fun h => Keeps.ite (h.bgStore ht)
    ((h.bgFetch ht).onlyIfNot fun h => h.bgStore ht))

theorem Keeps.bgReadPart {t : Target} {lo n : Nat} {obs : Option LineObs} (ht : t.inModule) :
    Keeps s₀ (s.bgReadPart t lo n obs).1 := by
  unfold State.bgReadPart
  split
  · exact h.altAccess
  · exact h.bgCount.bgFetch ht

theorem Keeps.bgReadParts {obs : List (Nat × LineObs)} {i : Nat} {ps : List (Nat × Nat × Nat)} :
    Keeps s₀ (s.bgReadParts obs i ps).1 := by
  induction ps generalizing s i with
  | nil => exact h
  | cons p ps ih =>
    unfold State.bgReadParts
    split
    · exact ih h
    · next ht => exact ih (h.bgReadPart (inModule_of_target ht))

theorem Keeps.aerUncorr : Keeps s₀ s.aerUncorr := h.bump.errInc.raise

theorem Keeps.setHd {c : Nat} {x : HdCh} : Keeps s₀ (s.setHd c x) := h.same

theorem Keeps.hdBad {c code : Nat} : Keeps s₀ (s.hdBad c code) := Keeps.ite h.setHd h

theorem Keeps.refusedFor {b : BgAccess} : Keeps s₀ (s.refusedFor b) := by
  unfold State.refusedFor
  split
  · exact h.hdBad
  · exact h

theorem Keeps.bgAbort {b : BgAccess} : Keeps s₀ (s.bgAbort b) := by
  unfold State.bgAbort
  split
  · exact h.refusedFor
  · exact h.aerUncorr.emit
  · exact h.emit

theorem Keeps.toHost {addr : Dword} {data : List Byte} {ro ep : Bool} : Keeps s₀ (s.toHost addr data ro ep) :=
  Keeps.ite h.emit h

theorem Keeps.bgHeldFlags : Keeps s₀ s.bgHeldFlags :=
  (h.fold fun _ _ _ h => h.putB).fold fun _ _ _ h => h.putB

theorem Keeps.bgHold {b : BgAccess} : Keeps s₀ (s.bgHold b) := h.same.bgHeldFlags

theorem Keeps.bgWriteParts {b : BgAccess} {obs : List (Nat × LineObs)} {i : Nat} {bs : List Byte}
    {ps : List (Nat × Nat × Nat)} :
    Keeps s₀ (s.bgWriteParts b obs i bs ps) := by
  induction ps generalizing s i bs with
  | nil => exact h
  | cons p ps ih =>
    refine ih ?_
    split
    · exact h.addrInvalid.refusedFor
    · next ht => exact Keeps.ite h.bgHold (h.bgWritePart (inModule_of_target ht))

theorem Keeps.dmaSendParts {c : Nat} {ro : Bool} {obs : List (Nat × LineObs)} {i : Nat} {addr : Dword}
    {ps : List (Nat × Nat × Nat)} :
    Keeps s₀ (s.dmaSendParts c ro obs i addr ps) := by
  induction ps generalizing s i addr with
  | nil => exact h
  | cons p ps ih =>
    unfold State.dmaSendParts
    split
    · exact ih h
    · next ht => exact ih ((h.bgReadPart (inModule_of_target ht)).onlyIf fun h => h.hdBad).toHost

theorem Keeps.bgServeRead {b : BgAccess} {obs : List (Nat × LineObs)} : Keeps s₀ (s.bgServeRead b obs) := by
  unfold State.bgServeRead
  split
  · exact h.dmaSendParts.setHd
  · exact h.bgReadParts.emit

theorem Keeps.bgWrote {b : BgAccess} {st : BgStatus} : Keeps s₀ (s.bgWrote b st) := by
  unfold State.bgWrote
  split
  · exact h
  · exact h.emit

theorem Keeps.bgInHold {b : BgAccess} : Keeps s₀ (s.bgInHold b) :=
  h.raise.andThen fun h => Keeps.ite h.refusedFor.bgWrote h.bgAbort

theorem Keeps.bgArrive {b : BgAccess} {obs : List (Nat × LineObs)} : Keeps s₀ (s.bgArrive b obs) := by
  unfold State.bgArrive
  split
  · exact h
  · exact h.bgInHold
  · split
    · exact h.bgWriteParts.onlyIfNot fun h => h.bgWrote
    · exact Keeps.ite h.addrInvalid.bgAbort (Keeps.ite h.bgHold h.bgServeRead)

theorem Keeps.execBgAccess {b obs} : Goes s₀ (execBgAccess b obs s) := .next h.bgArrive

theorem Keeps.bgWaited {x : BgHeld} : Keeps s₀ (s.bgWaited x) := by
  unfold State.bgWaited
  split
  · exact Keeps.ite h.wr h
  · exact h

theorem Keeps.bgServeOne {x : BgHeld} {obs : List (Nat × LineObs)} : Keeps s₀ (s.bgServeOne x obs) := by
  dsimp only [State.bgServeOne]
  split
  · exact Keeps.ite h.bgWaited.same.addrInvalid.bgAbort h.bgWaited.same.bgServeRead
  · refine Keeps.onlyIfNot ?_ fun h => h.bgWrote
    split
    · exact h.bgWaited.same.addrInvalid.refusedFor
    · next ht => exact h.bgWaited.same.bgWritePart (inModule_of_target ht)

theorem Keeps.bgServeAll {obs : List (Nat × LineObs)} {xs : List BgHeld} : Keeps s₀ (s.bgServeAll obs xs) :=
  by
  induction xs generalizing s with
  | nil => exact h
  | cons x xs ih => exact ih (Keeps.ite h h.bgServeOne)

theorem Keeps.fencesDone : Keeps s₀ s.fencesDone := h.foldl fun _ _ h => Keeps.ite h.setReqCtx.emit h

theorem Keeps.bgRelease {obs : List (Nat × LineObs)} : Keeps s₀ (s.bgRelease obs) :=
  h.bgServeAll.bgHeldFlags.fencesDone

theorem Keeps.execBgHeldServe {obs} : Goes s₀ (execBgHeldServe obs s) :=
  Goes.ite (.next h.bgRelease) (.next h)

end Sys2Proof.Machine
end


section
/-! SUPPORT. `Keeps` along the operations of Machine/Host.lean. -/

namespace Sys2Proof.Machine

variable {s₀ s : State} (h : Keeps s₀ s)
include h

theorem Keeps.setMsix {m : MsixSt} : Keeps s₀ (s.setMsix m) := h.same

theorem Keeps.msixCause {v : Nat} : Keeps s₀ (s.msixCause v) := Keeps.ite h.setMsix h.setMsix

theorem Keeps.msixTry {v : Nat} : Keeps s₀ (s.msixTry v) := by
  dsimp only [State.msixTry]
  split
  · exact h
  · exact Keeps.ite h.setMsix.emit h

theorem Keeps.execMsixSend {v} : Goes s₀ (execMsixSend v s) := .next h.msixTry

theorem Keeps.msixPend {v : Nat} : Keeps s₀ (s.msixPend v) := Keeps.ite h.setMsix.msixTry h

theorem Keeps.execMsixUnmask {v addr data} : Goes s₀ (execMsixUnmask v addr data s) := by
  dsimp only [Machine.execMsixUnmask]
  split
  · exact .next h.setMsix.msixPend
  · exact .next (h.setMsix.foldl fun _ _ h => h.msixPend)

theorem Keeps.hostFetch {c : Nat} {addr : Dword} {len : Nat} : Keeps s₀ (s.hostFetch c addr len) :=
  Keeps.ite h.emit h.hdBad

theorem Keeps.hdTake {c : Nat} {addr : Dword} : Keeps s₀ (s.hdTake c addr) := h.setHd.wr64.hostFetch

theorem Keeps.hdSetBusy {c : Nat} {b : Bool} : Keeps s₀ (s.hdSetBusy c b) := h.putB.putB

theorem Keeps.hdStart {c : Nat} {addr : Dword} : Keeps s₀ (s.hdStart c addr) :=
  Keeps.ite h.hdSetBusy.putB.hdTake h

theorem Keeps.dropLo {req : Req} {loOff : Nat} : Keeps s₀ (s.dropLo req loOff) := h.setReqCtx

theorem Keeps.dmaStartWrite {c : Nat} {w : WriteReq} : Keeps s₀ (s.dmaStartWrite c w) :=
  h.gateW (fun _ h => h.dropLo.wr64.hdStart)

theorem Keeps.execDmaStart {c w} : Goes s₀ (execDmaStart c w s) := .next h.dmaStartWrite

theorem Keeps.hdDesc {c : Nat} {d : BitVec 256} {obs : List (Nat × LineObs)} : Keeps s₀ (s.hdDesc c d obs) :=
  h.setHd.andThen fun h => Keeps.ite h.hdBad (Keeps.ite h.bgArrive h.hostFetch)

theorem Keeps.hdData {c off : Nat} {bytes : List Byte} {ep : Bool} {obs : List (Nat × LineObs)} :
    Keeps s₀ (s.hdData c off bytes ep obs) := by
  unfold State.hdData
  split
  · exact h
  · exact h.setHd.andThen fun h => Keeps.ite h.hdBad h.bgArrive

theorem Keeps.execDmaCompletionRx {c cpl obs} : Goes s₀ (execDmaCompletionRx c cpl obs s) := by
  refine Goes.ite ?_ (.next h)
  split
  · exact .next (Keeps.ite h.hdDesc h)
  · exact .next h.hdData
  · exact .next h.hdBad

theorem Keeps.hdWriteStatus {c code : Nat} : Keeps s₀ (s.hdWriteStatus c code) := h.put.toHost

theorem Keeps.hdError {c code : Nat} : Keeps s₀ (s.hdError c code) :=
  h.hdWriteStatus.hdSetBusy.putB.setHd.errInc.raise.msixCause

theorem Keeps.execDmaDescComplete {c} : Goes s₀ (execDmaDescComplete c s) := by
  refine Goes.ite (Goes.ite (.next h.hdError) ?_) (.next h)
  split
  · exact .next h
  · exact Goes.ite (Goes.andThen (h.hdWriteStatus.bumpW.onlyIf fun h => h.msixCause) fun h => .next
      (Keeps.ite h.setHd.hdSetBusy h.hdTake)) (.next h)

theorem Keeps.hdStop {c : Nat} : Keeps s₀ (s.hdStop c) := Keeps.ite h.setHd h

theorem Keeps.dmaCtrlWrite {c : Nat} {w : WriteReq} : Keeps s₀ (s.dmaCtrlWrite c w) :=
  h.gateW (fun _ h => Keeps.ite h.hdStop h)

theorem Keeps.execDmaStop {c req} : Goes s₀ (execDmaStop c req s) := .next h.dmaCtrlWrite

theorem Keeps.execDmaStopDone {c} : Goes s₀ (execDmaStopDone c s) := Goes.ite (.next h.hdError) (.next h)

theorem Keeps.execCompletionTimeout {c} : Goes s₀ (execCompletionTimeout c s) := by
  dsimp only [Machine.execCompletionTimeout]
  split
  · exact .next (h.aerUncorr.onlyIf fun h => h.hdBad)
  · exact .next h.aerUncorr

theorem Keeps.execPcieLinkUp {width speed} : Goes s₀ (execPcieLinkUp width speed s) :=
  Goes.ite (.next (h.putB.put.put.onlyIfNot fun h => h.raise)) (.next h)

theorem Keeps.pcieDownRegs : Keeps s₀ s.pcieDownRegs := h.putB.put.put

theorem Keeps.execPcieLinkDown : Goes s₀ (execPcieLinkDown s) :=
  Goes.ite (.next (h.pcieDownRegs.raise.fold fun _ _ _ h => Keeps.ite h.hdError h)) (.next h)

theorem Keeps.execAerError {k} : Goes s₀ (execAerError k s) := .next (Keeps.ite h.aerUncorr h)

theorem Keeps.hostdmaReset : Keeps s₀ s.hostdmaReset := h.fnResetPage.wr.same

theorem Keeps.submitReset : Keeps s₀ s.submitReset := h.fnResetPage.same

theorem Keeps.endpointReset : Keeps s₀ s.endpointReset := h.setMsix.hostdmaReset.submitReset

theorem Keeps.execFlr : Goes s₀ (execFlr s) := .next (Keeps.ite h.endpointReset h)

theorem Keeps.execHotReset : Goes s₀ (execHotReset s) := .next (Keeps.ite h.endpointReset h)

theorem Keeps.execPerstAssert : Goes s₀ (execPerstAssert s) :=
  .next (h.same.onlyIf fun h => h.endpointReset.pcieDownRegs)

theorem Keeps.execPerstDeassert : Goes s₀ (execPerstDeassert s) := .next (h.same.onlyIf fun h => h.emit)

theorem Keeps.execConfigRequest {tag} : Goes s₀ (execConfigRequest tag s) := .next (Keeps.ite h.emit h)

theorem Keeps.execBar2Read {off len tag obs} : Goes s₀ (execBar2Read off len tag obs s) := .next h.bgArrive

theorem Keeps.execBar2Write {off bytes ep tag obs} : Goes s₀ (execBar2Write off bytes ep tag obs s) :=
  Goes.ite (.next (Keeps.ite h.aerUncorr.raise h)) (.next h.bgArrive)

theorem Keeps.execBar2ReadAbort {tag} : Goes s₀ (execBar2ReadAbort tag s) := by
  unfold Machine.execBar2ReadAbort
  split
  · exact .next h
  · exact .next h.same.bgHeldFlags.raise.bgAbort

theorem Keeps.cqEpisode {r : Nat} : Keeps s₀ (s.cqEpisode r) := Keeps.ite h.same.raise h.same

theorem Keeps.cqPost {r : Nat} {body : BitVec 480} : Keeps s₀ (s.cqPost r body) := Keeps.ite h h.same

theorem Keeps.cqWrite {r : Nat} : Keeps s₀ (s.cqWrite r) := by
  unfold State.cqWrite
  split
  · exact h
  · exact Keeps.ite h.cqEpisode
      (Keeps.ite h ((h.same.toHost.toHost.bumpW.wr.onlyIf fun h => h.msixCause).cqEpisode))

theorem Keeps.execCqRecordWrite {r} : Goes s₀ (execCqRecordWrite r s) := .next (Keeps.ite h.cqWrite h)

theorem Keeps.cqDrain {r n : Nat} : Keeps s₀ (s.cqDrain r n) := by
  induction n generalizing s with
  | zero => exact h
  | succ n ih => exact Keeps.ite h.cqEpisode (ih h.cqWrite)

theorem Keeps.cqHeadSet {r : Nat} {w : WriteReq} : Keeps s₀ (s.cqHeadSet r w) :=
  h.gateW (fun _ h => h.wr.onlyIfNot fun h => h.cqEpisode.cqDrain)

theorem Keeps.execCqHeadWrite {r w} : Goes s₀ (execCqHeadWrite r w s) := .next h.cqHeadSet

theorem Keeps.svcRoles : Keeps s₀ s.svcRoles := (h.fold fun _ _ _ h => h.put.putB).put.putB

theorem Keeps.scanSlot : Keeps s₀ s.scanSlot.1 := by
  dsimp only [State.scanSlot]
  split
  · exact h.addrInvalid
  · next ht => exact (h.bgFetch (inModule_of_target ht)).bgCount

theorem Keeps.scanReject {v : BitVec 512} : Keeps s₀ (s.scanReject v) :=
  h.bump.errInc.raise.cqPost.wr.putB.same

theorem Keeps.scanStop {v : Option (BitVec 512)} : Keeps s₀ (s.scanStop v) := by
  dsimp only [State.scanStop]
  split
  · exact h
  · exact Keeps.ite (h.putB.andThen fun h => Keeps.ite h.scanReject h.same) (h.same.putB.onlyIf fun h =>
      h.raise)

theorem Keeps.scanLoop {n : Nat} : Keeps s₀ (s.scanLoop n) := by
  induction n generalizing s with
  | zero => exact h
  | succ n ih =>
    dsimp only [State.scanLoop]
    split
    · exact Keeps.ite (ih h.scanSlot.bumpW.putB.same) h.scanSlot.scanStop
    · exact h.scanSlot.scanStop

theorem Keeps.execSubmitScan : Goes s₀ (execSubmitScan s) :=
  Goes.ite (.next (h.scanLoop.bumpW.onlyIf fun h => h.toHost)) (.next h)

theorem Keeps.submitStart : Keeps s₀ s.submitStart :=
  Keeps.ite h.toFault ((h.wr.wr.fold fun _ _ _ h => h.wr).same.setFn.svcRoles)

theorem Keeps.hostAliveWrite {w : WriteReq} : Keeps s₀ (s.hostAliveWrite w) :=
  h.gateW (fun _ h => Keeps.ite h.same.putB h)

theorem Keeps.execHostAlive {w} : Goes s₀ (execHostAlive w s) := .next h.hostAliveWrite

end Sys2Proof.Machine
end

section
/-! SUPPORT. `Keeps` along the operations of Machine/StandOps.lean. -/

namespace Sys2Proof.Machine

variable {s₀ s : State} (h : Keeps s₀ s)
include h

theorem Keeps.issueRefused : Keeps s₀ s.issueRefused := h.raise

theorem Keeps.issueCmd : Keeps s₀ s.issueCmd := Keeps.ite h.putB.same h.issueRefused

theorem Keeps.dropIssues : Keeps s₀ s.dropIssues :=
  (Keeps.ite h.putB.issueRefused h).same.onlyIf fun h => h.issueRefused

theorem Keeps.unloadStart : Keeps s₀ s.unloadStart := Keeps.ite h.same h

theorem Keeps.leadEnd : Keeps s₀ s.leadEnd := Keeps.ite h h.putB.dropIssues.same.unloadStart

theorem Keeps.endRequest : Keeps s₀ s.endRequest := Keeps.ite (h.putB.same.onlyIf fun h => h.leadEnd) h

/-- Every reduction program goes, and with it the groves' schedule of accesses. -/
theorem Keeps.clearUnits : Keeps s₀ { s with
    reduce := [], groves := amap {} (fun _ x => { x with chans := [], descs := [], dyn := [] }) s.groves } :=
  { h.mapGroves (f := fun _ x => { x with chans := [], descs := [], dyn := [] }) fun _ _ hx => ⟨by simp, hx.2⟩
    with
    reduce := fun _ => UnitMap.nil }

theorem Keeps.clearStand : Keeps s₀ s.clearStand := by
  have hlinks := h.foldl (f := fun s l => (s.putB (F.LINK_STATUS_GROUP l) false).putB (F.LINK_STATUS_SCHED l)
    false) (l := List.range 96)
    fun _ _ h => h.putB.putB
  have hgroves := hlinks.fold (n := 16)
    (f := fun g _ s => (s.putB (F.GROVE_STATUS_STAND_ARMED g) false).putB (F.GROVE_STATUS_UNCOMMITTED g)
      false) fun _ _ _ h => h.putB.putB
  have hreduce := hgroves.putB (f := F.FLOOR_STATUS_SCHED_LOADED) (b := false)|>.foldl
    (f := fun s l => (s.putB (F.REDUCE_STATUS_PROG_LOADED l) false).put (F.REDUCE_PROG_RUNS l) 0) (l :=
      List.range 96) fun _ _ h => h.putB.put
  exact hreduce.putB.putB.wr.wr.wr.clearUnits.sameGroup (by rfl)

theorem Keeps.disarm : Keeps s₀ s.disarm :=
  Keeps.ite ((((((Keeps.ite h.discardStep h.clearDirty).fold fun _ _ _ h =>
    h.groveFoldStart).lpFoldStart).clearStand.wr.put.raiseBare.onlyIf fun h => h.setMState).powerIdle.onlyIf
      fun h => h.same).onlyIf fun h => Keeps.ite h.same h.same) h

theorem Keeps.streamStart {t : EngStream} : Keeps s₀ (s.streamStart t) := by
  unfold State.streamStart
  split
  · exact h
  · next hi => exact (h.setEng (lt_of_engIdx hi)).putB.putB

/-- The buffers of the links and of the reduction units are empty. -/
theorem Keeps.emptyBuffers : Keeps s₀ { s with
    links := amap {} (fun _ x => { x with txBuf := [], rxBuf := [] }) s.links
    reduce := amap {} (fun _ x => { prog := x.prog }) s.reduce } :=
  (h.mapLinks (f := fun _ x => { x with txBuf := [], rxBuf := [] })).mapReduce

theorem Keeps.stepBegin {a : StepAt} : Keeps s₀ (s.stepBegin a) :=
  ((((h.wr64.wr64.putB.putB.putB.fold fun _ _ _ h => Keeps.ite h.putB.putB h).foldl fun _ _ h =>
    h.putB).emptyBuffers.same).foldl
    fun _ _ h => h.streamStart).onlyIf fun h => h.setPower

end Sys2Proof.Machine
end

section
/-! SUPPORT. `Keeps` along the operations of Machine/Serve.lean. -/

namespace Sys2Proof.Machine

variable {s₀ s : State} (h : Keeps s₀ s)
include h

theorem Keeps.setServe {x : ServeSt} : Keeps s₀ (s.setServe x) := h.same

theorem Keeps.takeFree : Keeps s₀ s.takeFree.1 := h.same

theorem Keeps.setSlot {i : Nat} {x : Option SlotSt} : Keeps s₀ (s.setSlot i x) := h.setServe

theorem Keeps.serveStatus : Keeps s₀ s.serveStatus := h.put.putB.putB.put.wr

theorem Keeps.rejectRec {ring reason : Nat} {seq : Word} {tag : Dword} :
    Keeps s₀ (s.rejectRec ring reason seq tag) := h.cqPost

theorem Keeps.finalRec {r : Request} {reason total reported : Nat} {last : Option (Dword × Dword)}
    {slot : Nat} : Keeps s₀ (s.finalRec r reason total reported last slot) :=
  (Keeps.ite h h.takeFree.takeFree).cqPost.bumpW

theorem Keeps.finalSlot {i : Nat} {x : SlotSt} {reason : Nat} : Keeps s₀ (s.finalSlot i x reason) :=
  h.finalRec

theorem Keeps.serveFault {cause : Nat} : Keeps s₀ (s.serveFault cause) :=
  h.toFault.put.setServe.raise.serveStatus

theorem Keeps.svcLeave {c : Nat} {f : State → State} (hf : ∀ s, Keeps s₀ s → Keeps s₀ (f s)) :
    Keeps s₀ (s.svcLeave c f) :=
  (hf s h).svcRoles.onlyIf fun h => h.serveFault

theorem Keeps.svcFault {c info ev : Nat} : Keeps s₀ (s.svcFault c info ev) :=
  h.svcLeave (fun _ h => h.toFault.wr.same.onlyIf fun h => h.dwAdd)

theorem Keeps.execSvcHeartbeatAdvance {c} : Goes s₀ (execSvcHeartbeatAdvance c s) :=
  Goes.ite (.next h.setServe.bumpW) (.next h)

theorem Keeps.execCoreHang {c} : Goes s₀ (execCoreHang c s) := Goes.ite (.next h.svcFault.raise) (.next h)

theorem Keeps.serveStart : Keeps s₀ s.serveStart := by
  unfold State.serveStart
  split
  · exact h.serveFault
  · exact h.setServe.wr.wr.wr64.wr.setFn.serveStatus

theorem Keeps.execGenerate : Goes s₀ (execGenerate s) := by
  dsimp only [Machine.execGenerate]
  split
  · refine Goes.ite (.next h) ?_
    split
    · exact .next h.same.setServe.serveStatus
    · exact .next (h.same.rejectRec.onlyIf fun h => h.raise)
  · exact .next h

theorem Keeps.execCancel : Goes s₀ (execCancel s) := by
  dsimp only [Machine.execCancel]
  split
  · refine Goes.ite (.next h) (Goes.andThen h.same fun h => Goes.ite (.next h.rejectRec)
      (Goes.ite (.next h.rejectRec) ?_))
    split
    · exact .next h.setServe.finalRec.serveStatus
    · split
      · exact .next (h.onlyIfNot fun h => h.setSlot)
      · exact .next h.rejectRec
  · exact .next h

theorem Keeps.seqWrite {off : Nat} {data : Word} {eff : State → State}
    (heff : ∀ s, Keeps s₀ s → Keeps s₀ (eff s)) :
    Keeps s₀ (s.seqWrite off data eff) := by
  unfold State.seqWrite
  split
  · exact h.accept heff
  · exact h

theorem Keeps.seqIssue {step : Dword} : Keeps s₀ (s.seqIssue step) :=
  Keeps.ite h.setServe (((((h.seqWrite (fun _ h => h.wr)).seqWrite (fun _ h => h.wr)).seqWrite (fun _ h =>
    h.issueCmd)).onlyIf fun h => h.setServe).serveStatus)

theorem Keeps.seqOnStart {step : Dword} : Keeps s₀ (s.seqOnStart step) :=
  Keeps.ite (Keeps.ite h.setServe h.seqIssue) h

theorem Keeps.seqOnCommit {step : Dword} : Keeps s₀ (s.seqOnCommit step) :=
  Keeps.ite (Keeps.ite h.setServe.serveStatus h.raise.serveFault) h

theorem Keeps.seqReissue : Keeps s₀ s.seqReissue := by
  unfold State.seqReissue
  split
  · exact h
  · exact (h.setServe.onlyIf fun h => h.bumpW).seqIssue

theorem Keeps.seqOnAbort : Keeps s₀ s.seqOnAbort :=
  Keeps.ite h.setServe.serveStatus (Keeps.ite h.seqReissue h)

theorem Keeps.seqOnResume : Keeps s₀ s.seqOnResume := Keeps.ite h.seqReissue h

theorem Keeps.coreStore {addr : Nat} {bs : List Byte} : Keeps s₀ (s.coreStore addr bs) := by
  unfold State.coreStore
  split
  · exact h.bgArrive
  · exact h

theorem Keeps.freeSlots : Keeps s₀ s.freeSlots :=
  h.foldl fun _ _ h => Keeps.ite ((Keeps.ite h h.finalSlot).setSlot.coreStore) h

theorem Keeps.admitHead {i : Nat} {r : Request} {rest : List Request} : Keeps s₀ (s.admitHead i r rest) :=
  h.setServe.setSlot.coreStore.coreStore.bumpW.onlyIf fun h => h.takeFree.cqPost

theorem Keeps.admitAll {n : Nat} : Keeps s₀ (s.admitAll n) := by
  induction n generalizing s with
  | zero => exact h
  | succ n ih =>
    unfold State.admitAll
    split
    · exact Keeps.ite (ih h.admitHead) h
    · exact h

theorem Keeps.admissionPoint : Keeps s₀ s.admissionPoint :=
  h.freeSlots.admitAll.serveStatus.andThen fun h => Keeps.ite h.setServe (Keeps.ite h.setServe h.seqIssue)

theorem Keeps.execAdmissionPoint : Goes s₀ (execAdmissionPoint s) :=
  Goes.ite (.next h.admissionPoint) (.next h)

theorem Keeps.deliverTokens {i : Nat} {x : SlotSt} {step time : Dword} {toks : List Word} :
    Keeps s₀ (s.deliverTokens i x step time toks) := by
  dsimp only [State.deliverTokens]
  split
  · exact (Keeps.ite h h.toHost).bump64.finalSlot.setSlot
  · exact Keeps.ite (Keeps.ite h h.toHost).bump64.cqPost.setSlot (Keeps.ite h h.toHost).bump64.setSlot

theorem Keeps.harvestSlots {step time : Dword} {obs : List (Nat × LineObs)} {xs : List (Nat × SlotSt)} :
    Keeps s₀ (s.harvestSlots step time obs xs) := by
  induction xs generalizing s with
  | nil => exact h
  | cons x xs ih =>
    exact Keeps.ite (ih h) (Keeps.ite h.bgReadParts.raise.serveFault (ih h.bgReadParts.deliverTokens))

theorem Keeps.execTokenHarvest {obs} : Goes s₀ (execTokenHarvest obs s) := by
  unfold Machine.execTokenHarvest
  split
  · exact Goes.ite (.next h.setServe.harvestSlots.serveStatus) (.next h)
  · exact .next h

theorem Keeps.endAll {reason : Nat} : Keeps s₀ (s.endAll reason) :=
  ((h.foldl fun _ _ h => Keeps.ite h h.finalSlot).foldl fun _ _ h => h.rejectRec).setServe.serveStatus

theorem Keeps.execSeqStandEnd : Goes s₀ (execSeqStandEnd s) :=
  Goes.ite (.next h.endAll.raise.drained) (.next h)

theorem Keeps.execSeqFault : Goes s₀ (execSeqFault s) := Goes.ite (.next h.endAll) (.next h)

end Sys2Proof.Machine
end

section
/-! SUPPORT. `Keeps` along the operations of Machine/Xbar.lean. -/

namespace Sys2Proof.Machine

variable {s₀ s : State} (h : Keeps s₀ s)
include h

theorem Keeps.lqFill {l : Nat} : Keeps s₀ (s.lqFill l) := h.put.put

theorem Keeps.lqPush {l : Nat} {q : Bool} {v : Line} {bad : Bool} (hl : l < 96) :
    Keeps s₀ (s.lqPush l q v bad) :=
  ((h.setRed hl).onlyIf fun h => h.errInc).lqFill

theorem Keeps.xbarPlace {src dst : Port} {v : Line} {bad : Bool} : Keeps s₀ (s.xbarPlace src dst v bad) := by
  cases dst with
  | queue g e q =>
    dsimp only [State.xbarPlace]
    split
    · next hi => exact h.setEng (lt_of_engIdx hi)
    · exact h
  | dma g ch => exact (h.setChan g.isLt ch.isLt).dmaTakeIn g.isLt ch.isLt
  | link l => exact h.setLink l.isLt
  | lpddr m => exact h.lpArrive
  | reduce l q => exact h.lqPush l.isLt
  | pcie => exact h.emit
  | svc c => exact h.emit
  | background => exact h.emit
  | sample => exact h.same

theorem Keeps.xbarUncorr : Keeps s₀ s.xbarUncorr := h.errInc.raise.paceFaultEoe

omit h in
theorem Keeps.xbarTake {src dst : Port} {v : Line} {b : Bool} {t : State}
    (ht : s.xbarTake src dst = some (v, b, t)) (h : Keeps s₀ s) :
    Keeps s₀ t := by
  cases src with
  | queue g e q =>
    dsimp only [State.xbarTake] at ht
    split at ht
    · exact absurd ht nofun
    · next hi =>
      split at ht
      · exact absurd ht nofun
      · cases ht
        exact h.setEng (lt_of_engIdx hi)
  | dma g ch =>
    dsimp only [State.xbarTake] at ht
    split at ht
    · exact absurd ht nofun
    · cases ht
      exact (h.setChan g.isLt ch.isLt).put
  | link l =>
    dsimp only [State.xbarTake] at ht
    split at ht
    · exact absurd ht nofun
    · split at ht
      · exact absurd ht nofun
      · cases ht
        exact h.setLink l.isLt
  | lpddr m =>
    dsimp only [State.xbarTake] at ht
    split at ht
    · exact absurd ht nofun
    · cases ht
      exact h.same
  | reduce | pcie | svc | background => exact absurd ht nofun
  | sample =>
    dsimp only [State.xbarTake] at ht
    split at ht
    · exact absurd ht nofun
    · cases ht
      exact h.same

theorem Keeps.execXbarLineRx {src dst copies obs} : Goes s₀ (execXbarLineRx src dst copies obs s) := by
  refine Goes.ite ?_ (.next h)
  split
  · exact .next h
  · next ht => exact .next (((h.xbarTake ht).andThen fun h => Keeps.ite h.xbarUncorr h).foldl fun _ _ h =>
      h.xbarPlace).bump64

end Sys2Proof.Machine
end

section
/-! SUPPORT. `Keeps` along the operations of Machine/Reduce.lean. -/

namespace Sys2Proof.Machine

variable {s₀ s : State} (h : Keeps s₀ s)
include h

theorem Keeps.reduceOvf {l run : Nat} {sink : Bool} {value : Nat} : Keeps s₀ (s.reduceOvf l run sink value) :=
  h.put.putB.put.errInc.raise

theorem Keeps.reducePoison {l : Nat} : Keeps s₀ (s.reducePoison l) := h.bump.raise

/-- The state that a reduction lane leaves. -/
theorem Keeps.laneOut {l : Nat} {sink : Bool} {x : BitVec 256} {p : Bool} {o : LaneOut}
    (ho : s.laneOut l sink x p = some o) (hl : l < 96) :
    Keeps s₀ o.s := by
  dsimp only [State.laneOut] at ho
  split at ho
  · exact absurd ho nofun
  · split at ho
    · exact absurd ho nofun
    · cases ho
      exact ((h.setRed hl).lqFill.bump64.put.put.putB.bump.onlyIf fun h => h.reduceOvf).onlyIf fun h =>
        h.reduceOvf

theorem Keeps.ovfFault {ovf : Bool} {l : Nat} : Keeps s₀ (s.ovfFault ovf l) := Keeps.ite h.paceFault h

theorem Keeps.execReduceAdd {link incoming poisoned} : Goes s₀ (execReduceAdd link incoming poisoned s) := by
  refine Goes.ite ?_ (.next h)
  split
  · exact .next h
  · next ho => exact .next ((h.laneOut ho link.isLt).emit.onlyIf fun h => h.reducePoison).ovfFault

theorem Keeps.sinkLine {l : Nat} {r : Run} {v : Line} {bad : Bool} : Keeps s₀ (s.sinkLine l r v bad) := by
  unfold State.sinkLine
  split
  · exact h
  · exact (h.bumpW.onlyIf fun h => h.reducePoison.xbarUncorr).xbarPlace.bump64

theorem Keeps.execReduceSink {link incoming poisoned} : Goes s₀ (execReduceSink link incoming poisoned s) :=
  by
  refine Goes.ite ?_ (.next h)
  split
  · exact .next h
  · next ho =>
    have ho := h.laneOut ho link.isLt
    refine .next (Keeps.ovfFault ?_)
    split
    · exact (ho.setRed link.isLt).sinkLine
    · exact Keeps.ite ho.sinkLine (ho.setRed link.isLt)

theorem Keeps.reduceStarted {l : Nat} : Keeps s₀ (s.reduceStarted l) := h.putB.setFn

theorem Keeps.reduceStartFailed {l : Nat} : Keeps s₀ (s.reduceStartFailed l) := h.putB.toFault.raise.dwAdd

end Sys2Proof.Machine
end

section
/-! SUPPORT. `Keeps` along the operations of Machine/Stand.lean. -/

namespace Sys2Proof.Machine

variable {s₀ s : State} (h : Keeps s₀ s)
include h

theorem Keeps.unloadCmd : Keeps s₀ s.unloadCmd := Keeps.ite (Keeps.ite h.sendAll.disarm h.leadEnd) h

theorem Keeps.standCommand {v : Word} : Keeps s₀ (s.standCommand v) :=
  (((Keeps.ite h.issueCmd h).onlyIf fun h => h.unloadCmd).onlyIf fun h => h.putB).onlyIf fun h => h.endRequest

theorem Keeps.standCommandWrite {w : WriteReq} : Keeps s₀ (s.standCommandWrite w) :=
  h.gateW (fun _ h => h.standCommand)

theorem Keeps.execIssue {req} : Goes s₀ (execIssue req s) := .next h.standCommandWrite

theorem Keeps.execUnload {req} : Goes s₀ (execUnload req s) := .next h.standCommandWrite

theorem Keeps.execAbortVote {req} : Goes s₀ (execAbortVote req s) := .next h.standCommandWrite

theorem Keeps.execEndReq {req} : Goes s₀ (execEndReq req s) := .next h.standCommandWrite

theorem Keeps.paceWave {k : Nat} : Keeps s₀ (s.paceWave k) :=
  h.put.andThen fun h => Keeps.ite h.wr.same h.same

theorem Keeps.paceApply {k : Nat} : Keeps s₀ (s.paceApply k) :=
  (h.put.onlyIf fun h => h.wr).same.onlyIf fun h => h.raise

theorem Keeps.voteWave {k : Nat} : Keeps s₀ (s.voteWave k) := by
  unfold State.voteWave
  split
  · exact h
  · exact h.same

theorem Keeps.takeIssue {k : Nat} : Keeps s₀ (s.takeIssue k) := Keeps.ite h.putB.wr64.same h

theorem Keeps.epochBegin {k : Nat} : Keeps s₀ (s.epochBegin k) :=
  h.wr64.same.paceWave.paceApply.voteWave.andThen fun h => (Keeps.emitAll (by
    split
    · exact h.same
    · exact h)).takeIssue

theorem Keeps.execGroupEpochStart : Goes s₀ (execGroupEpochStart s) :=
  Goes.ite (Goes.andThen h.declareEoe fun h => Goes.ite (.next h.bump64.epochBegin) (.next h)) (.next h)

theorem Keeps.takeAnnounce {m : Gcm} : Keeps s₀ (s.takeAnnounce m) :=
  Keeps.ite (Keeps.ite h.paceFault (Keeps.ite h.wr64.same h)) h

theorem Keeps.takeVote {m : Gcm} : Keeps s₀ (s.takeVote m) := h.same

theorem Keeps.takeEnd {m : Gcm} : Keeps s₀ (s.takeEnd m) :=
  (Keeps.ite h.endRequest h).onlyIf fun h => h.putB.same

theorem Keeps.execGcmRx {link m} : Goes s₀ (execGcmRx link m s) :=
  Goes.ite (.next (Keeps.ite h.paceFaultEoe h).takeVote.takeEnd.takeAnnounce) (.next h)

theorem Keeps.execStepStart : Goes s₀ (execStepStart s) := by
  unfold Machine.execStepStart
  split
  · exact Goes.ite (.next h.stepBegin.seqOnStart) (.next h)
  · exact .next h

theorem Keeps.execVoteSample : Goes s₀ (execVoteSample s) := by
  unfold Machine.execVoteSample
  split
  · exact Goes.ite (Goes.andThen h.declareEoe fun h => Goes.ite (.next h.stepOff.putB.powerIdle.same)
      (.next h)) (.next h)
  · exact .next h

theorem Keeps.publishFlags : Keeps s₀ s.publishFlags :=
  h.foldl fun _ _ h => Keeps.ite (h.wr.wr.wr.onlyIfNot fun h => h.raise) h

theorem Keeps.stepEnds {fate : VerdictState} : Keeps s₀ (s.stepEnds fate) := h.groveUncommitted.same

theorem Keeps.commitStep {step : Dword} : Keeps s₀ (s.commitStep step) :=
  (((h.foldl fun _ _ h => Keeps.ite h
    h.groveCommit).lpCommit).publishFlags).stepEnds.wr64.bumpW.same.raise.seqOnCommit

theorem Keeps.abortStep : Keeps s₀ s.abortStep :=
  (h.clearDirty.foldl fun _ _ h => Keeps.ite h h.bumpW).stepEnds.bumpW.raise.dropIssues

theorem Keeps.applyVerdict {step : Dword} {v : Verdict} : Keeps s₀ (s.applyVerdict step v) := by
  unfold State.applyVerdict
  split
  · exact h.commitStep
  · exact h.abortStep
  · exact h.putB.same

theorem Keeps.execCommitTick : Goes s₀ (execCommitTick s) := by
  unfold Machine.execCommitTick
  split
  · exact Goes.ite (.next ((h.applyVerdict.onlyIf fun h => h.suspend.same).unloadStart.onlyIf fun h =>
      h.seqOnAbort)) (.next h)
  · exact .next h

theorem Keeps.execStandDisarm : Goes s₀ (execStandDisarm s) := by
  unfold Machine.execStandDisarm
  split
  · exact .next (Keeps.ite h.disarm h)
  · exact .next h

theorem Keeps.linkDown {mark : Bool} {l : Nat} (hl : l < 96) : Keeps s₀ (s.linkDown mark l) :=
  Keeps.ite ((h.setLink hl).linkTakedown hl) h

theorem Keeps.execPaceFaultLinkDown : Goes s₀ (execPaceFaultLinkDown s) :=
  Goes.ite (.next (h.same.foldlOn fun _ hx _ h => h.linkDown (List.mem_range.1 (List.mem_filter.1 hx).1)))
    (.next h)

theorem Keeps.holdBegin {byCommand : Bool} : Keeps s₀ (s.holdBegin byCommand) :=
  ((h.foldlOn fun _ hx _ h => h.linkDown (List.mem_range.1 hx)).foldl fun _ _ h => h.svcLeave
    (fun _ h => h.setFn)).same

theorem Keeps.selfRefresh {b : Bool} : Keeps s₀ (s.selfRefresh b) := h.foldl fun _ _ h => Keeps.ite h.putB h

/-- A power state that is reached, with the rest of the module's state written too. -/
theorem Keeps.reachPower {p : Power} {m : ModSt} : Keeps s₀ { s.setPower p with mod := m } := h.setPower.same

theorem Keeps.setMod {m : ModSt} : Keeps s₀ { s with mod := m } := h.same

theorem Keeps.execHoldReached : Goes s₀ (execHoldReached s) :=
  Goes.ite (.next (((((h.foldlOn fun _ hx _ h => Keeps.ite (h.linkOff (List.mem_range.1 hx)) h).foldl
    fun _ _ h => h.svcLeave fun _ h => h.setFn).foldl
    fun _ _ h => Keeps.ite h.setFn h).selfRefresh.onlyIf fun h => h.putB).reachPower)) (.next h)

theorem Keeps.wakeBegin {byCommand : Bool} : Keeps s₀ (s.wakeBegin byCommand) :=
  ((h.foldl fun _ _ h => Keeps.ite h.setFn h).foldlOn fun _ hx _ h =>
    Keeps.ite ((h.setLink (List.mem_range.1 hx)).onlyIf fun h => h.linkEnable (List.mem_range.1 hx)) h).setMod

theorem Keeps.execIdleReached : Goes s₀ (execIdleReached s) :=
  Goes.ite (.next (h.selfRefresh.putB.foldl fun _ _ h => Keeps.ite h.setFn h).reachPower) (.next h)

end Sys2Proof.Machine
end


section
/-! SUPPORT. `Keeps` along the operations of Machine/Group.lean. -/

namespace Sys2Proof.Machine

variable {s₀ s : State} (h : Keeps s₀ s)
include h

theorem Keeps.rejoin : Keeps s₀ s.rejoin :=
  (h.foldlOn fun _ hx _ h => Keeps.ite (h.linkEnable (List.mem_range.1 (List.mem_filter.1 hx).1)) h).sameGroup
    (by rfl)

theorem Keeps.resumeRefused {member cause : Nat} {timeout : Bool} :
    Keeps s₀ (s.resumeRefused member cause timeout) := h.wr.resumeCancel

theorem Keeps.resumeRelease : Keeps s₀ s.resumeRelease := h.sendAll.sameGroup (by rfl)

theorem Keeps.resumeDecide : Keeps s₀ s.resumeDecide := by
  refine Keeps.ite h ?_
  split
  · exact h.resumeRefused
  · exact h.resumeRelease

theorem Keeps.resumeBegin : Keeps s₀ s.resumeBegin := (h.putB.wr.sameGroup (by rfl)).sendAll.resumeDecide

theorem Keeps.groupCtrlWrite {w : WriteReq} : Keeps s₀ (s.groupCtrlWrite w) :=
  h.gateW (fun _ h => (Keeps.ite h.rejoin h).onlyIf fun h => h.resumeBegin)

theorem Keeps.execRejoin {req} : Goes s₀ (execRejoin req s) := .next h.groupCtrlWrite

theorem Keeps.execResume {req} : Goes s₀ (execResume req s) := .next h.groupCtrlWrite

theorem Keeps.execResumeReqRx {link} : Goes s₀ (execResumeReqRx link s) :=
  Goes.andThen h.takeInbox fun h => Goes.ite
    (Goes.ite (.next (h.sameGroup (by rfl)).sendAll.sendMsg) (.next (h.sameGroup (by rfl)))) (.next h)

theorem Keeps.execResumeAnswerRx {link a} : Goes s₀ (execResumeAnswerRx link a s) := by
  refine Goes.andThen h.takeInbox fun h => Goes.ite
    (Goes.ite (Goes.ite (.next (h.sameGroup (by rfl)).resumeDecide) (.next h)) ?_) (.next h)
  split
  · exact .next h.sendMsg
  · exact .next h

theorem Keeps.execResumeTimeout : Goes s₀ (execResumeTimeout s) := by
  refine Goes.ite ?_ (.next h)
  split
  · exact .next h.resumeRefused
  · exact .next h.resumeRefused

theorem Keeps.resumed {r : ReleaseMsg} : Keeps s₀ (s.resumed r) :=
  (((Keeps.ite (Keeps.ite h.commitStep h.abortStep).putB h).onlyIf fun h => h.setMState).putB.putB.sameGroup
    (by rfl)).raiseBare.epochBegin.unloadStart.seqOnResume

theorem Keeps.execReleaseTick : Goes s₀ (execReleaseTick s) := by
  unfold Machine.execReleaseTick
  split
  · exact .next (Keeps.ite h.resumed h)
  · exact .next h

theorem Keeps.execUnloadMsgRx {link} : Goes s₀ (execUnloadMsgRx link s) :=
  Goes.andThen h.takeInbox fun h => Goes.ite (.next h.sendAll.disarm) (.next h)

theorem Keeps.loadState {n : Nat} : Keeps s₀ (s.loadState n) := h.wr

/-- A load's state, with an image in range. -/
theorem Keeps.setLoad {ld : LoadSt} (hi : s₀.unitsInRange = true → imageRanged ld.image) :
    Keeps s₀ (s.setLoad ld) := h.setGroup hi

/-- A load's state with the image of the state it was taken from. -/
theorem Keeps.setLoadOf {t : State} {ld : LoadSt} (ht : Keeps s₀ t) (hi : ld.image = t.group.load.image) :
    Keeps s₀ (s.setLoad ld) :=
  h.setLoad fun c => hi ▸ ht.image c

/-- A load's state with no image. -/
theorem Keeps.setLoadNew {ld : LoadSt} (hi : ld.image = none) : Keeps s₀ (s.setLoad ld) :=
  h.setLoad fun _ => by rw [hi]; exact nofun

theorem Keeps.loadCounts : Keeps s₀ s.loadCounts := h.wr.wr.onlyIfNot fun h => h.loadState

theorem Keeps.missingCount : Keeps s₀ s.missingCount := h.wr

theorem Keeps.loadDiscard : Keeps s₀ s.loadDiscard := ((Keeps.ite h.wr.put h).setLoadNew (by rfl)).loadState

theorem Keeps.loadEnd : Keeps s₀ s.loadEnd := h.raiseBare.sendAll.loadDiscard

theorem Keeps.armRefusedAtLead {member reason : Nat} : Keeps s₀ (s.armRefusedAtLead member reason) :=
  (h.sameGroup (by rfl)).missingCount.loadEnd

theorem Keeps.loadRefuse {f : LoadFail} : Keeps s₀ (s.loadRefuse f) := by
  refine h.wr.wr.raise.andThen fun h =>
    (h.setLoadOf h (by rfl)).andThen fun h => Keeps.ite h.armRefusedAtLead ?_
  split
  · exact h.sendMsg
  · exact h

theorem Keeps.armRelease : Keeps s₀ s.armRelease := by
  dsimp only [State.armRelease]
  split
  · exact h
  · exact h.sendAll.setLoadOf h (by rfl)

theorem Keeps.armReadyAtLead {member q : Nat} : Keeps s₀ (s.armReadyAtLead member q) :=
  Keeps.ite h ((h.sameGroup (by rfl)).missingCount.onlyIf fun h => h.armRelease)

theorem Keeps.placeSegments {im : Image} : Keeps s₀ (s.placeSegments im) :=
  h.foldl fun t _ h => h.foldl fun _ _ h => h.foldl fun _ _ h => (h.wbDrop t.a.g.isLt).setLine

omit h in
theorem need_eq_none {ok : Bool} {f : LoadFail} : need ok f = none ↔ ok = true := by
  cases ok <;> simp [need]

omit h in
/-- The loader checks that a grove has at most 64 windows (R140). -/
theorem wins_of_loadGroveMem {m : GroveMem} (hm : s.loadGroveMem m = none) : m.wins.length ≤ 64 := by
  simp only [State.loadGroveMem, Option.or_eq_none_iff, need_eq_none, decide_eq_true_eq] at hm
  obtain ⟨⟨⟨⟨_, hwins⟩, _⟩, _⟩, _⟩ := hm
  exact hwins

omit h in
/-- An image that passes the loader's check has its windows in range. -/
theorem imageRanged_of_loaderCheck {ld : LoadSt} {man : Manifest} {im : Image}
    (hc : s.loaderCheck ld man im = none) : imageRanged (some im) := by
  rintro _ ⟨⟩ m hm
  simp only [State.loaderCheck, Option.or_eq_none_iff] at hc
  obtain ⟨⟨⟨⟨⟨⟨_, hgmem⟩, _⟩, _⟩, _⟩, _⟩, _⟩ := hc
  exact wins_of_loadGroveMem (List.findSome?_eq_none_iff.1 hgmem m hm)

theorem Keeps.loadCheck : Keeps s₀ s.loadCheck := by
  dsimp only [State.loadCheck]
  split
  · exact h
  · refine Keeps.ite h ?_
    split
    · exact h.loadRefuse
    · split
      · exact h.loadRefuse
      · next hc =>
        have him := imageRanged_of_loaderCheck (Option.or_eq_none_iff.1 hc).2
        refine (h.placeSegments.loadState.setLoad fun _ => him).andThen fun h => Keeps.ite h.armReadyAtLead ?_
        split
        · exact h.sendMsg
        · exact h

theorem Keeps.manifestTake {raw : List Byte} {man : Manifest} {lead : Bool} {parent : Option Nat} :
    Keeps s₀ (s.manifestTake raw man lead parent) := by
  dsimp only [State.manifestTake]
  split
  · exact (h.setLoadNew (by rfl)).loadRefuse.sendAll
  · exact (h.setLoadNew (by rfl)).loadState.wr.put.wr.sendAll.loadCounts

theorem Keeps.loadBegin : Keeps s₀ s.loadBegin :=
  (h.sameGroup (by rfl)).missingCount.manifestTake.andThen fun h => Keeps.ite h
    (((h.foldl fun _ _ h => h.sendAll).sendAll.setLoadOf h (by rfl)).loadCounts.loadCheck)

theorem Keeps.loadCtrlWrite {w : WriteReq} : Keeps s₀ (s.loadCtrlWrite w) :=
  h.gateW (fun _ h => (Keeps.ite h.loadBegin h).onlyIf fun h => h.loadEnd)

theorem Keeps.execLoadStart {req} : Goes s₀ (execLoadStart req s) := .next h.loadCtrlWrite

theorem Keeps.execLoadCancel {req} : Goes s₀ (execLoadCancel req s) := .next h.loadCtrlWrite

theorem Keeps.execManifestRx {link raw} : Goes s₀ (execManifestRx link raw s) :=
  Goes.andThen h.takeInbox fun h => Goes.ite (.next h.manifestTake) (.next h)

theorem Keeps.storeChunk {d : BitVec 256} {c : Chunk} : Keeps s₀ (s.storeChunk d c) := h.setLoadOf h (by rfl)

theorem Keeps.execChunkRx {link digest data} : Goes s₀ (execChunkRx link digest data s) := by
  dsimp only [Machine.execChunkRx]
  have ht := h.takeInbox (l := link.val) (b := .chunk digest data)
  split
  · exact .next ht
  · exact Goes.ite (.next ht) (.next
      ((ht.setLoadOf ht (by rfl)).sendAll.onlyIf fun h => h.storeChunk).loadCounts.loadCheck)

theorem Keeps.repairAsk : Keeps s₀ s.repairAsk := by
  dsimp only [State.repairAsk]
  split
  · exact h
  · split
    · exact h
    · exact (h.setLoadOf h (by rfl)).sendMsg

theorem Keeps.execImageEndRx {link} : Goes s₀ (execImageEndRx link s) :=
  Goes.andThen h.takeInbox fun h0 => Goes.ite (.next h0)
    (Goes.andThen ((h0.setLoadOf h0 (by rfl)).onlyIf fun h => h.sendAll) fun h2 => Goes.ite (Goes.andThen
      h2.loadCounts fun h => .next (Keeps.ite h.loadCheck h.repairAsk)) (.next h2))

theorem Keeps.execRepairReqRx {link digests} : Goes s₀ (execRepairReqRx link digests s) :=
  Goes.andThen h.takeInbox fun h0 => Goes.ite (.next (h0.foldl fun _ _ h => h.sendMsg)) (.next h0)

theorem Keeps.execRepairReplyRx {link digest data} : Goes s₀ (execRepairReplyRx link digest data s) := by
  refine Goes.andThen h.takeInbox fun h => Goes.ite (.next h)
    (Goes.andThen (Keeps.loadCounts ?_) fun h => Goes.ite (.next h.loadCheck)
      (.next (h.onlyIf fun h => h.repairAsk)))
  split
  · exact h.storeChunk.bump
  · exact h.setLoadOf h (by rfl)

theorem Keeps.execRepairRetry : Goes s₀ (execRepairRetry s) :=
  Goes.ite (.next (h.setLoadOf h (by rfl)).repairAsk) (.next h)

theorem Keeps.execArmReadyRx {link member q} : Goes s₀ (execArmReadyRx link member q s) := by
  refine Goes.andThen h.takeInbox fun h => Goes.ite (.next h) (Goes.ite (.next h.armReadyAtLead) ?_)
  split
  · exact .next h.sendMsg
  · exact .next h

theorem Keeps.execArmRefusedRx {link member reason} : Goes s₀ (execArmRefusedRx link member reason s) := by
  refine Goes.andThen h.takeInbox fun h => Goes.ite (.next h) (Goes.ite (.next h.armRefusedAtLead) ?_)
  split
  · exact .next h.sendMsg
  · exact .next h

theorem Keeps.execCancelRx {link} : Goes s₀ (execCancelRx link s) :=
  Goes.andThen h.takeInbox fun h => Goes.ite (.next h.sendAll.disarm.loadState)
    (Goes.ite (.next h.sendAll.loadDiscard) (.next h))

theorem Keeps.execLoadTimeout : Goes s₀ (execLoadTimeout s) :=
  Goes.ite (.next (h.raiseBare.setLoadOf h (by rfl))) (.next h)

theorem Keeps.execReleaseRx {link r} : Goes s₀ (execReleaseRx link r s) := by
  refine Goes.andThen h.takeInbox fun h => Goes.ite
    (Goes.ite (.next (h.sendAll.sameGroup (by rfl))) (.next h)) ?_
  split
  · exact .next h
  · exact Goes.ite (.next h) (Goes.ite (.next h.sendAll.sendAll.loadDiscard)
      (.next (h.sendAll.setLoadOf h (by rfl))))

theorem Keeps.armStream {t : EngStream} : Keeps s₀ (s.armStream t) := by
  unfold State.armStream
  split
  · exact h
  · next hi => exact h.setEng (lt_of_engIdx hi)

theorem Keeps.armGroveMem {m : GroveMem} (hm : s₀.unitsInRange = true → m.wins.length ≤ 64) :
    Keeps s₀ (s.armGroveMem m) :=
  (h.foldl fun _ _ h => h.wr.wr.wr.wr).put.wr.wr.wr.andThen fun h => h.setGroveWins m.g.isLt hm (by simp)

theorem Keeps.armParts {im : Image} (him : s₀.unitsInRange = true → imageRanged (some im)) :
    Keeps s₀ (s.armParts im) := by
  refine Keeps.putB (Keeps.foldl (Keeps.same (Keeps.foldl ?_ fun _ _ h => h.put)) fun _ _ h => h.putB.putB)
  refine Keeps.foldl (Keeps.foldl ?_ fun _ _ h => h.putB) fun p _ h => (h.setRed p.l.isLt).putB.put
  refine Keeps.foldl ?_ fun d _ h => h.setGroveAs d.g.isLt (by simp)
  exact (h.foldl fun _ _ h => h.armStream).foldlOn fun m hm _ h => h.armGroveMem fun c => him c im rfl m hm

theorem Keeps.armRegs {im : Image} : Keeps s₀ (s.armRegs im) :=
  h.wr.putB.putB.wr.wr.put.put.wr.put.put.wr64.wr64.wr64.wr64.wr64.wr.wr.wr.wr.wr

/-- The image takes force and the group holds no image of a load any more. -/
theorem Keeps.imageInForce {im : Option Image} {st : StandSt} {group : GroupSt}
    (hload : group.load.image = none) :
    Keeps s₀ { s with image := im, stand := st, group := group } :=
  (h.setGroup (group := group) fun _ => by rw [hload]; exact nofun).same

theorem Keeps.arm {ld : LoadSt} {im : Image} {r : ReleaseMsg}
    (him : s₀.unitsInRange = true → imageRanged (some im)) :
    Keeps s₀ (s.arm ld im r) :=
  (((h.armRegs.armParts him).setMState.imageInForce rfl).foldl fun _ _ h =>
    h.fitLink).extendM.loadState.raise.epochBegin

theorem Keeps.execArmTick : Goes s₀ (execArmTick s) := by
  dsimp only [Machine.execArmTick]
  split
  · next him _ =>
    refine Goes.ite ?_ (.next h)
    split
    · exact .next (h.arm fun c => him ▸ h.image c)
    · exact .next (h.loadRefuse.onlyIfNot fun h => h.sendAll.loadDiscard)
  · exact .next h

end Sys2Proof.Machine
end

section
/-! SUPPORT. `Keeps` along the operations of Machine/SideOps.lean. -/

namespace Sys2Proof.Machine

variable {s₀ s : State} (h : Keeps s₀ s)
include h

theorem Keeps.sideTouch : Keeps s₀ s.sideTouch := h.same.onlyIf fun h => h.putB.raise

theorem Keeps.sideFallback {smbus : Bool} : Keeps s₀ (s.sideFallback smbus) := Keeps.ite h.put.raise h

theorem Keeps.sideRx {smbus : Bool} {f : State → State} (hf : ∀ s, Keeps s₀ s → Keeps s₀ (f s)) :
    Keeps s₀ (s.sideRx smbus f) :=
  Keeps.ite (h.sideTouch.sideFallback.bumpW.andThen fun h => Keeps.ite h.bump (hf _ h)) h

theorem Keeps.sideReply {smbus : Bool} {r : SideReply} : Keeps s₀ (s.sideReply smbus r) := h.bumpW.emit

theorem Keeps.sideAlert : Keeps s₀ s.sideAlert := h.putB

end Sys2Proof.Machine
end

section
/-! SUPPORT. `Keeps` along the operations of Machine/Events.lean. -/

namespace Sys2Proof.Machine

variable {s₀ s : State} (h : Keeps s₀ s)
include h

theorem Keeps.execEventRaise {page code sev d0 d1} : Goes s₀ (execEventRaise page code sev d0 d1 s) := by
  refine Goes.ite ?_ (.next h)
  split
  · exact .next h.raiseSev
  · exact .next h.eventOf

theorem Keeps.evReplace {old new : EvEntry} : Keeps s₀ (s.evReplace old new) := Keeps.ite h.same h.same

theorem Keeps.evRelease : Keeps s₀ s.evRelease := h.same.evtStatus

theorem Keeps.toPldm {e : EvEntry} : Keeps s₀ (s.toPldm e) := Keeps.ite h.same.sideAlert h.bump

theorem Keeps.canopyHeld : Keeps s₀ s.canopyHeld := h.putB

theorem Keeps.toCanopy {e : EvEntry} : Keeps s₀ (s.toCanopy e) :=
  Keeps.ite h.emit (Keeps.ite h.same.canopyHeld h.bump)

theorem Keeps.canopyDrain : Keeps s₀ s.canopyDrain := Keeps.ite h h.emitAll.same.canopyHeld

theorem Keeps.toForward {e : EvEntry} : Keeps s₀ (s.toForward e) := by
  refine Keeps.ite h.same ?_
  split
  · exact h.same
  · exact h.bump

theorem Keeps.fwdDrain : Keeps s₀ s.fwdDrain := by
  unfold State.fwdDrain
  split
  · exact Keeps.ite h.sendMsg.same h
  · exact h

theorem Keeps.evRoute {e : EvEntry} : Keeps s₀ (s.evRoute e) :=
  ((Keeps.ite h.msixCause.msixTry h).onlyIf fun h => h.toPldm).toCanopy.onlyIf fun h => h.toForward

theorem Keeps.evSequence {age : Nat} : Keeps s₀ (s.evSequence age) := by
  unfold State.evSequence
  split
  · exact h
  · exact h.evReplace.wr.evRoute.evRelease

theorem Keeps.execEventSequence : Goes s₀ (execEventSequence s) := .next h.evSequence

theorem Keeps.execEventFwdRx {link e} : Goes s₀ (execEventFwdRx link e s) := by
  refine Goes.andThen h.takeInbox fun h => Goes.ite (Goes.ite (.next h.bumpW.evtEnter) ?_) (.next h)
  split
  · exact .next h.sendMsg
  · exact .next h

theorem Keeps.injectWrite {w : WriteReq} : Keeps s₀ (s.injectWrite w) := h.gateW (fun _ h => h.raiseSev)

theorem Keeps.execInject {w} : Goes s₀ (execInject w s) := .next h.injectWrite

end Sys2Proof.Machine
end

section
/-! SUPPORT. `Keeps` along the operations of Machine/Rlog.lean. -/

namespace Sys2Proof.Machine

variable {s₀ s : State} (h : Keeps s₀ s)
include h

theorem Keeps.rlogCounts : Keeps s₀ s.rlogCounts := (h.foldl fun _ _ h => h.wr).wr.wr

theorem Keeps.rlogDrop {sev : Nat} : Keeps s₀ (s.rlogDrop sev) := h.bumpF.onlyIfNot fun h => h.putB.raiseSev

theorem Keeps.rlogPut {e : EvEntry} {eseq : Word} {xdata : Nat} : Keeps s₀ (s.rlogPut e eseq xdata) := by
  unfold State.rlogPut
  split
  · exact h.rlogDrop
  · exact (h.same.bump64.onlyIf fun h => h.bump).putB.rlogCounts

theorem Keeps.rlogTake : Keeps s₀ s.rlogTake := by
  refine Keeps.ite ?_ h
  split
  · exact h
  · exact h.evReplace.evRelease.rlogPut

theorem Keeps.execRlogWrite : Goes s₀ (execRlogWrite s) := .next h.rlogTake

theorem Keeps.clearFinish {c : RlogClear} : Keeps s₀ (s.clearFinish c) :=
  h.same.wr.andThen fun h1 =>
    (Keeps.ite (h1.foldl fun _ _ h => Keeps.ite h.put h) h1).rlogPut.putB.putB.bump.putB.evtEnter

theorem Keeps.rlogClearWrite {w : WriteReq} : Keeps s₀ (s.rlogClearWrite w) :=
  h.gateW (fun _ h => h.put.onlyIf fun h => h.consumeToken.putB.same)

theorem Keeps.execRlogClear {w} : Goes s₀ (execRlogClear w s) := .next h.rlogClearWrite

theorem Keeps.execRlogClearDone : Goes s₀ (execRlogClearDone s) := by
  unfold Machine.execRlogClearDone
  split
  · exact .next (Keeps.ite h.clearFinish h)
  · exact .next h

theorem Keeps.indexBegin : Keeps s₀ s.indexBegin := h.putB.same

theorem Keeps.releaseHeld : Keeps s₀ s.releaseHeld := h.same.foldl fun _ _ h => h.evtEnter

theorem Keeps.execRlogIndexDone : Goes s₀ (execRlogIndexDone s) := by
  refine Goes.ite (.next (Keeps.releaseHeld ?_)) (.next h)
  split
  · exact (h.same.foldl fun _ _ h => h.errInc).wr64.rlogCounts.putB.clearFinish
  · exact (h.same.foldl fun _ _ h => h.errInc).wr64.rlogCounts.putB

theorem Keeps.setRlogSel {r : Req} {x : RlogSel} : Keeps s₀ (s.setRlogSel r x) := h.same

theorem Keeps.rlogSelWrite {w : WriteReq} : Keeps s₀ (s.rlogSelWrite w) := h.gateW (fun _ h => h.setRlogSel)

theorem Keeps.rlogSeekWrite {w : WriteReq} : Keeps s₀ (s.rlogSeekWrite w) :=
  h.gateW (fun _ h => h.dropLo.setRlogSel)

theorem Keeps.execRlogSel {w} : Goes s₀ (execRlogSel w s) := .next h.rlogSelWrite

theorem Keeps.execRlogSeek {w} : Goes s₀ (execRlogSeek w s) := .next h.rlogSeekWrite

theorem Keeps.execRlogStatus {smbus} : Goes s₀ (execRlogStatus smbus s) :=
  .next (h.sideRx (fun _ h => h.sideReply))

theorem Keeps.execRlogRead {smbus start max sevMin} : Goes s₀ (execRlogRead smbus start max sevMin s) :=
  .next (h.sideRx (fun _ h => Keeps.ite h.sideReply h.sideReply))

end Sys2Proof.Machine
end

section
/-! SUPPORT. `Keeps` along the operations of Machine/Sample.lean. -/

namespace Sys2Proof.Machine

variable {s₀ s : State} (h : Keeps s₀ s)
include h

theorem Keeps.execSampleStream : Goes s₀ (execSampleStream s) := Goes.ite (.next h.same.putB) (.next h)

theorem Keeps.execSampleResult : Goes s₀ (execSampleResult s) := by
  unfold Machine.execSampleResult
  split
  · exact .next ((h.same.putB.bump64.onlyIf fun h => h.bump.raise).onlyIf fun h => h.bump.raise)
  · exact .next h

theorem Keeps.sampleStarted : Keeps s₀ s.sampleStarted := h.putB.setFn

theorem Keeps.sampleStartFailed : Keeps s₀ s.sampleStartFailed := h.putB.toFault.raise.dwAdd

end Sys2Proof.Machine
end

section
/-! SUPPORT. `Keeps` along the operations of Machine/Fluid.lean. -/

namespace Sys2Proof.Machine

variable {s₀ s : State} (h : Keeps s₀ s)
include h

theorem Keeps.pumpApply {n : Nat} : Keeps s₀ (s.pumpApply n) := by
  unfold State.pumpApply
  split
  · exact h.put.put
  · exact h.put.wr

theorem Keeps.pumpSuff : Keeps s₀ s.pumpSuff := Keeps.ite h.putB.raise h.putB

theorem Keeps.pumpSet {n st : Nat} : Keeps s₀ (s.pumpSet n st) :=
  Keeps.ite h h.same.put.putB.putB.pumpApply.wr

theorem Keeps.pumpAttempt {n : Nat} : Keeps s₀ (s.pumpAttempt n) := h.bumpW.pumpSet

theorem Keeps.pumpStart {n : Nat} : Keeps s₀ (s.pumpStart n) := Keeps.ite h h.put.pumpAttempt.pumpSuff

theorem Keeps.pumpHalt {n : Nat} : Keeps s₀ (s.pumpHalt n) := h.putB.onlyIfNot fun h => h.pumpSet

theorem Keeps.pumpEnable {n : Nat} : Keeps s₀ (s.pumpEnable n) :=
  Keeps.ite h (Keeps.ite h.pumpStart (Keeps.ite h.putB h))

theorem Keeps.pumpDisable {n : Nat} : Keeps s₀ (s.pumpDisable n) :=
  Keeps.ite h.putB.pumpSet.pumpSuff (Keeps.ite h.putB (Keeps.ite h.pumpHalt.pumpSuff h))

theorem Keeps.pumpCtlWrite {n : Nat} {w : WriteReq} : Keeps s₀ (s.pumpCtlWrite n w) :=
  h.gateW (fun _ h => Keeps.ite h.pumpDisable (Keeps.ite h.pumpEnable h))

theorem Keeps.execPumpEn {n req} : Goes s₀ (execPumpEn n req s) := .next h.pumpCtlWrite

theorem Keeps.execPumpDis {n req} : Goes s₀ (execPumpDis n req s) := .next h.pumpCtlWrite

theorem Keeps.pumpSetWrite {n : Nat} {w : WriteReq} : Keeps s₀ (s.pumpSetWrite n w) :=
  h.gateW (fun _ h => h.put.pumpApply)

theorem Keeps.pumpLimitsWrite {w : WriteReq} : Keeps s₀ (s.pumpLimitsWrite w) := h.gateW (fun _ h => h.wr)

/-- The state that an accepted sample of a pump leaves. -/
theorem Keeps.pumpSample {n : Nat} {rpm ma : BitVec 16} {t : State} (ht : s.pumpSample n rpm ma = some t) :
    Keeps s₀ t := by
  simp only [State.pumpSample, Option.ite_none_left_eq_some, Option.ite_none_right_eq_some, Option.some.injEq]
    at ht
  obtain ⟨_, _, rfl⟩ := ht
  exact h.put.put.putB

theorem Keeps.pumpSampled {n : Nat} {rpm ma : BitVec 16} : Keeps s₀ ((s.pumpSample n rpm ma).getD s) := by
  cases ht : s.pumpSample n rpm ma with
  | none => exact h
  | some t => exact h.pumpSample ht

theorem Keeps.execPumpStartOk {n rpm ma} : Goes s₀ (execPumpStartOk n rpm ma s) := by
  unfold Machine.execPumpStartOk
  split
  · next ht => exact .next ((h.pumpSample ht).onlyIf fun h => h.pumpSet)
  · exact .next h

theorem Keeps.pumpFail {n bit : Nat} {ev : EvKind} : Keeps s₀ (s.pumpFail n bit ev) :=
  h.putB.putB.pumpSet.errInc.raise.dwAdd

theorem Keeps.execPumpStartTimeout {n rpm ma} : Goes s₀ (execPumpStartTimeout n rpm ma s) :=
  Goes.andThen h.pumpSampled fun h => Goes.ite
    (Goes.ite (.next h.pumpSet.put.raise) (.next h.pumpFail.pumpSuff)) (.next h)

theorem Keeps.execPumpRetry {n} : Goes s₀ (execPumpRetry n s) := .next (Keeps.ite h.pumpAttempt h)

theorem Keeps.pumpForce {n : Nat} : Keeps s₀ (s.pumpForce n) :=
  h.foldl fun _ _ h => Keeps.ite h.putB.pumpApply h

theorem Keeps.execPumpCheck {n rpm ma} : Goes s₀ (execPumpCheck n rpm ma s) := by
  unfold Machine.execPumpCheck
  split
  · exact .next h
  · next ht =>
    exact Goes.andThen (h.pumpSample ht) fun h => Goes.ite (.next h)
      (Goes.ite (.next h.pumpFail.pumpForce.pumpSuff)
      (Goes.ite (.next (h.onlyIfNot fun h => h.putB.raise))
        (Goes.ite (.next (h.onlyIfNot fun h => h.putB.raise)) (.next h.putB.putB))))

theorem Keeps.execPumpStopDone {n rpm ma} : Goes s₀ (execPumpStopDone n rpm ma s) :=
  Goes.andThen h.pumpSampled fun h0 => Goes.ite (.next (h0.putB.pumpSet.onlyIf fun h => h.pumpStart))
    (.next h0)

theorem Keeps.pumpsDisable : Keeps s₀ s.pumpsDisable := h.foldl fun _ _ h => h.pumpDisable

theorem Keeps.pumpsHalt : Keeps s₀ s.pumpsHalt := (h.foldl fun _ _ h => h.pumpHalt).pumpSuff

theorem Keeps.pumpsApply : Keeps s₀ s.pumpsApply := h.foldl fun _ _ h => h.pumpApply

theorem Keeps.pumpReset : Keeps s₀ s.pumpReset := h.pumpsHalt.fnResetPage.wr.foldl fun _ _ h => h.put

theorem Keeps.setValve {v : Nat} {x : ValveSt} : Keeps s₀ (s.setValve v x) := h.same

theorem Keeps.bankMeas {b : Nat} : Keeps s₀ (s.bankMeas b) := (h.foldl fun _ _ h => h.put).put

theorem Keeps.rescale {b : Nat} : Keeps s₀ (s.rescale b) :=
  ((h.foldl fun _ _ h => Keeps.ite h.put h.put).onlyIf fun h => h.bump.raise).putB.bankMeas

theorem Keeps.valveWait {v : Nat} : Keeps s₀ (s.valveWait v) := h.put.same

theorem Keeps.valveUnwait {v st : Nat} : Keeps s₀ (s.valveUnwait v st) := h.put.same

theorem Keeps.valveDecay {v : Nat} : Keeps s₀ (s.valveDecay v) := h.setValve.put.putB

theorem Keeps.valveUpdate {v : Nat} : Keeps s₀ (s.valveUpdate v) :=
  (Keeps.ite (Keeps.ite h.valveWait h)
    (Keeps.ite (Keeps.ite h.valveUnwait h)
      (Keeps.ite (Keeps.ite h.valveDecay h) (Keeps.ite (Keeps.ite h.valveDecay h.setValve) h.putB)))).rescale

theorem Keeps.valvesUpdate : Keeps s₀ s.valvesUpdate := h.foldl fun _ _ h => h.valveUpdate

theorem Keeps.valveSetWrite {v : Nat} {w : WriteReq} : Keeps s₀ (s.valveSetWrite v w) :=
  h.gateW (fun _ h => h.put.valveUpdate)

theorem Keeps.execValveSet {v w} : Goes s₀ (execValveSet v w s) := .next h.valveSetWrite

theorem Keeps.valvePeak {v ma : Nat} {late : Bool} : Keeps s₀ (s.valvePeak v ma late) :=
  h.valveUnwait.setValve.putB.rescale

theorem Keeps.execValvePeakStart {v} : Goes s₀ (execValvePeakStart v s) := .next (Keeps.ite h.valvePeak h)

theorem Keeps.execValveStartLate {v} : Goes s₀ (execValveStartLate v s) :=
  .next (Keeps.ite h.valvePeak.bump.raise h)

theorem Keeps.execValvePeakEnd {v} : Goes s₀ (execValvePeakEnd v s) :=
  .next (Keeps.ite h.setValve.put.rescale h)

theorem Keeps.execValveDecayEnd {v} : Goes s₀ (execValveDecayEnd v s) :=
  .next (Keeps.ite (h.setValve.putB.andThen fun h => (Keeps.ite h.valveWait h.put).rescale) h)

theorem Keeps.valveKill {v : Nat} : Keeps s₀ (s.valveKill v) := h.setValve.valveUnwait.putB

theorem Keeps.bankKill {b : Nat} : Keeps s₀ (s.bankKill b) := (h.foldl fun _ _ h => h.valveKill).rescale

theorem Keeps.isoNext : Keeps s₀ s.isoNext := by
  unfold State.isoNext
  split
  · exact Keeps.ite h h.same.put.bankMeas
  · exact h

theorem Keeps.isoCommand {i : Nat} {close : Bool} : Keeps s₀ (s.isoCommand i close) := h.same.isoNext

theorem Keeps.isoCut : Keeps s₀ s.isoCut := by
  refine (Keeps.same ?_).bankMeas
  split
  · exact h.put
  · exact h

theorem Keeps.isoAct {v : Word} : Keeps s₀ (s.isoAct v) :=
  (Keeps.ite h h.isoCommand).onlyIfNot fun h => h.isoCommand

theorem Keeps.isoWrite {w : WriteReq} : Keeps s₀ (s.isoWrite w) := h.gateW (fun _ h => h.isoAct)

theorem Keeps.execOpenIn {req} : Goes s₀ (execOpenIn req s) := .next h.isoWrite

theorem Keeps.execCloseIn {req} : Goes s₀ (execCloseIn req s) := .next h.isoWrite

theorem Keeps.execOpenOut {req} : Goes s₀ (execOpenOut req s) := .next h.isoWrite

theorem Keeps.execCloseOut {req} : Goes s₀ (execCloseOut req s) := .next h.isoWrite

theorem Keeps.execIsoMoved : Goes s₀ (execIsoMoved s) := by
  unfold Machine.execIsoMoved
  split
  · exact .next h.put.same.raise.bankMeas.isoNext
  · exact .next h

theorem Keeps.execBankFault {b ma} : Goes s₀ (execBankFault b ma s) :=
  Goes.ite (Goes.andThen h.putB fun h => .next (Keeps.ite h.isoCut.same h.bankKill).put.same.errInc.raise)
    (.next h)

theorem Keeps.execBankReclose {b} : Goes s₀ (execBankReclose b s) :=
  Goes.ite (.next ((h.same.putB.foldl fun _ _ h => h.valveUpdate).onlyIf fun h => h.isoNext)) (.next h)

theorem Keeps.execCoilFault {v ma} : Goes s₀ (execCoilFault v ma s) :=
  Goes.ite (.next (h.put.onlyIfNot fun h => h.putB.raise)) (.next h)

theorem Keeps.valveReset : Keeps s₀ s.valveReset := by
  refine (Keeps.foldl ?_ fun _ _ h => h.valveKill).fnResetPage.wr.same.valvesUpdate
  split
  · exact h.put
  · exact h

theorem Keeps.fluidOff : Keeps s₀ s.fluidOff :=
  ((h.pumpsHalt.foldl fun _ _ h => h.valveKill).isoCut.foldl fun _ _ h => h.rescale).same

theorem Keeps.fluidApply : Keeps s₀ s.fluidApply := h.pumpsApply.valvesUpdate

end Sys2Proof.Machine
end


section
/-! SUPPORT. `Keeps` along the operations of Machine/Coolant.lean. -/

namespace Sys2Proof.Machine

variable {s₀ s : State} (h : Keeps s₀ s)
include h

theorem Keeps.takeInput {i : Nat} {raw : Option ℤ} : Keeps s₀ (s.takeInput i raw) := Keeps.ite h.putB.same h

/-- A register field takes a reading where there is one. -/
theorem Keeps.putReading {o : Option Int} {f : Fld} :
    Keeps s₀ (match o with | some x => s.put f (int16 x) | none => s) := by
  split
  · exact h.put
  · exact h

theorem Keeps.coolantRegs : Keeps s₀ s.coolantRegs :=
  ((Keeps.ite h.put h).foldl fun _ _ h => Keeps.ite h.put h).putReading.putReading.putB.putB.putB.putB.putB

theorem Keeps.pairDisagree {p : Nat} : Keeps s₀ (s.pairDisagree p) :=
  h.same.andThen fun h0 => Keeps.ite h0.putB.raise (h0.onlyIf fun h => h.putB)

theorem Keeps.tmSelect : Keeps s₀ s.tmSelect := by
  unfold State.tmSelect
  split
  · exact h.put
  · exact Keeps.ite h.put h

theorem Keeps.tmReselect : Keeps s₀ s.tmReselect := h.tmSelect.onlyIf fun h => h.fluidApply

theorem Keeps.flowCounts {o : CoolantObs} : Keeps s₀ (s.flowCounts o) := h.same.same

theorem Keeps.toHold : Keeps s₀ s.toHold := Keeps.ite h (Keeps.ite h h.holdBegin)

theorem Keeps.katAbandon : Keeps s₀ s.katAbandon := Keeps.ite h.same h.same

theorem Keeps.flowStop {rule : Nat} {value : ℤ} : Keeps s₀ (s.flowStop rule value) :=
  h.wr.put.put.putB.putB.raise.andThen fun h2 => Keeps.ite h2.paceFault
    ((h2.onlyIf fun h => h.katAbandon).toHold.same)

theorem Keeps.flowLow : Keeps s₀ s.flowLow := Keeps.ite (h.putB.onlyIf fun h => h.putB) h

theorem Keeps.winFlow : Keeps s₀ s.winFlow := Keeps.ite h.same h

theorem Keeps.execCoolantSample {o} : Goes s₀ (execCoolantSample o s) := by
  refine Goes.ite (.next h) (Goes.andThen (h.foldl fun _ _ h =>
    h.takeInput).coolantRegs.pairDisagree.pairDisagree.flowLow.winFlow.flowCounts.tmReselect fun h => Goes.ite
      (.next h) ?_)
  split
  · exact .next h.flowStop
  · exact .next h

theorem Keeps.execFlowStopClear : Goes s₀ (execFlowStopClear s) :=
  Goes.ite (Goes.andThen h.putB.same fun h1 => Goes.ite (.next (h1.same.onlyIfNot fun h => h.wakeBegin))
    (.next h1)) (.next h)

theorem Keeps.bootAbandon : Keeps s₀ s.bootAbandon := Keeps.ite h.same h

theorem Keeps.enterLeak : Keeps s₀ s.enterLeak := h.paceFault.bootAbandon.setMState.toHold

theorem Keeps.setLeakL {b : Bool} : Keeps s₀ (s.setLeakL b) := h.putB.same

theorem Keeps.leakLatch {wet : Nat} : Keeps s₀ (s.leakLatch wet) :=
  h.putB.putB.put.wr64.bump.putB.raise.andThen fun h => Keeps.ite h.setLeakL h.pumpSuff.enterLeak

theorem Keeps.leakTake {k : Nat} {raw : Option ℤ} : Keeps s₀ (s.leakTake k raw) := by
  dsimp only [State.leakTake]
  split
  · exact h.same
  · exact Keeps.ite h.same (h.putB.put.andThen fun h => Keeps.ite (Keeps.ite h.putB.same h.same)
      (Keeps.ite h.putB.raise.same h.same))

theorem Keeps.execLeakSample {l0 l1 l2 l3} : Goes s₀ (execLeakSample l0 l1 l2 l3 s) :=
  Goes.ite (.next h) (Goes.andThen (h.foldl fun _ _ h => h.leakTake) fun h0 => Goes.ite (.next h0.put)
    (.next (h0.onlyIfNot fun h => h.leakLatch)))

theorem Keeps.leakPumpsOff : Keeps s₀ s.leakPumpsOff := h.pumpsHalt.isoCut.putB.setLeakL

theorem Keeps.leakRelease : Keeps s₀ s.leakRelease := h.same.valvesUpdate.isoCommand

theorem Keeps.execLeakPumpsOff : Goes s₀ (execLeakPumpsOff s) := .next (Keeps.ite h.leakPumpsOff h)

theorem Keeps.execLeakCloseV24 : Goes s₀ (execLeakCloseV24 s) := .next (Keeps.ite h.leakRelease h)

theorem Keeps.execLeakCloseV25 : Goes s₀ (execLeakCloseV25 s) := .next (Keeps.ite h.isoCommand h)

theorem Keeps.execInputTimeout {i} : Goes s₀ (execInputTimeout i s) := by
  refine Goes.ite ?_ (.next h)
  cases i with
  | flow | tinA | tinB => exact .next h.putB.bump.errInc.raise.coolantRegs.errInc.raise
  | toutA | toutB => exact .next h.putB.bump.errInc.raise.coolantRegs.errInc.raise.tmReselect
  | pin | pout => exact .next h.putB.bump.errInc.raise.coolantRegs.errInc.raise.same
  | vin | iin | pump => exact .next h.putB.bump.errInc.raise
  | leak => exact .next h.putB.bump.errInc.raise.same.coolantRegs.errInc.raise

theorem Keeps.coolantReset : Keeps s₀ s.coolantReset := h.putB.putB.same

theorem Keeps.leakThreshWrite {w : WriteReq} : Keeps s₀ (s.leakThreshWrite w) := h.gateW (fun _ h => h.wr)

theorem Keeps.inputsOff : Keeps s₀ s.inputsOff := h.wr.putB.same.coolantRegs

end Sys2Proof.Machine
end

section
/-! SUPPORT. `Keeps` along the operations of Machine/Therm.lean. -/

namespace Sys2Proof.Machine

variable {s₀ s : State} (h : Keeps s₀ s)
include h

theorem Keeps.groveDisagree {g : Nat} : Keeps s₀ (s.groveDisagree g) :=
  h.same.andThen fun h0 => Keeps.ite h0.putB.raise (h0.onlyIf fun h => h.putB)

theorem Keeps.gsensRegs {g : Nat} : Keeps s₀ (s.gsensRegs g) := by
  unfold State.gsensRegs
  extract_lets a b s1 s2 s3 both s4
  have h4 : Keeps s₀ s4 := h.putReading.putReading.putB.putB.putB
  split
  · exact h4
  · exact (h4.put.putB.onlyIf fun h => h.put).putB.onlyIf fun h => h.paceUrgent

theorem Keeps.groveTemp {g : Nat} {a b : Option ℤ} : Keeps s₀ (s.groveTemp g a b) :=
  h.same.andThen fun h0 => Keeps.ite h0
    ((((h0.onlyIf fun h => h.errInc).onlyIf fun h => h.errInc).onlyIf fun h => Keeps.ite h.raiseSev.paceFault
      h.raise).groveDisagree.gsensRegs)

theorem Keeps.kindInvalid {new : Bool} : Keeps s₀ (s.kindInvalid new) := Keeps.ite h.raise h

theorem Keeps.execTempSample {o} : Goes s₀ (execTempSample o s) := by
  refine Goes.ite (.next h) ?_
  split
  · exact .next (Keeps.ite h h.groveTemp)
  · exact .next h.same.kindInvalid
  · exact .next (Keeps.ite h h.same.kindInvalid)
  · exact .next h.same.kindInvalid

theorem Keeps.capUpdate : Keeps s₀ s.capUpdate :=
  h.put.put.put.put.same.andThen fun h => Keeps.ite h.putB.raise h.putB

/-- A register takes the highest reading of a kind where there is one. -/
theorem Keeps.wrHottest {o : Option (Int × Nat)} {r : Nat} :
    Keeps s₀ (match o with | some (x, k) => s.wr r (BitVec.ofNat 32 (int16 x + 65536 * k)) | none => s) := by
  split
  · exact h.wr
  · exact h

theorem Keeps.maxRegs : Keeps s₀ s.maxRegs := h.wrHottest.wrHottest.wrHottest.wrHottest

theorem Keeps.riseUpdate : Keeps s₀ s.riseUpdate := h.putB.same

theorem Keeps.thermalTerms : Keeps s₀ s.thermalTerms := h.riseUpdate.putB.putB.same.wr.put

theorem Keeps.loopRun : Keeps s₀ s.loopRun := h.same.putB.putB.wr.put.put.onlyIf fun h => h.paceUrgent

theorem Keeps.coolCounts : Keeps s₀ s.coolCounts := (h.foldl fun _ _ h => h.same).foldl fun _ _ h => h.same

theorem Keeps.coolSet {l : Nat} : Keeps s₀ (s.coolSet l) := h.put.raiseSev

theorem Keeps.coolUpdate : Keeps s₀ s.coolUpdate := by
  have hput := h.coolCounts.put (f := F.THERM_DEGRADED_CAUSE) (x := s.coolCounts.coolCause)
  unfold State.coolUpdate
  exact Keeps.ite hput.coolSet hput

theorem Keeps.execCoolingLevelFall : Goes s₀ (execCoolingLevelFall s) := .next (Keeps.ite h.coolSet h)

theorem Keeps.winTemp : Keeps s₀ s.winTemp := by
  dsimp only [State.winTemp]
  split
  · exact h.put
  · exact h.put.put.same

theorem Keeps.execGovernorRun : Goes s₀ (execGovernorRun s) :=
  Goes.ite (.next h) (.next h.same.maxRegs.thermalTerms.capUpdate.loopRun.coolUpdate.winTemp)

theorem Keeps.vinRange : Keeps s₀ s.vinRange := h.same.onlyIf fun h => h.raise

theorem Keeps.powerTake {p : Nat} : Keeps s₀ (s.powerTake p) :=
  (h.put.put.same.wr64.onlyIf fun h => h.bump).andThen fun h3 => Keeps.ite
    (Keeps.ite (h3.onlyIf fun h => h.errInc.putB.paceFault) h3.raise) h3

theorem Keeps.execPowerSample {v i} : Goes s₀ (execPowerSample v i s) := by
  refine Goes.ite (.next h) ?_
  extract_lets _ _ s1 _ _ s2 vy iy s3 s4 s5
  have h1 : Keeps s₀ s1 := by
    unfold s1
    split
    · exact h.putB.same
    · exact h
  have h2 : Keeps s₀ s2 := by
    unfold s2
    split
    · exact h1.putB.same
    · exact h1
  have h5 : Keeps s₀ s5 := ((h2.onlyIf fun h => h.put).onlyIf fun h => h.put).vinRange
  exact Goes.ite (.next h5.same.powerTake) (.next (h5.onlyIfNot fun h => h.same.errInc.raise).powerTake)

theorem Keeps.execFlowEnd : Goes s₀ (execFlowEnd s) := .next (Keeps.ite h.putB.endRequest.raise h)

theorem Keeps.execRunOkSet : Goes s₀ (execRunOkSet s) := .next (Keeps.ite h.putB h)

theorem Keeps.rackCapWrite {w : WriteReq} : Keeps s₀ (s.rackCapWrite w) :=
  h.gateW (fun _ h => h.putB.same.capUpdate.raise)

theorem Keeps.execRackCapWrite {w} : Goes s₀ (execRackCapWrite w s) := .next h.rackCapWrite

theorem Keeps.hostCapWrite {w : WriteReq} : Keeps s₀ (s.hostCapWrite w) :=
  h.gateW (fun _ h => h.put.capUpdate)

theorem Keeps.execHostCapWrite {w} : Goes s₀ (execHostCapWrite w s) := .next h.hostCapWrite

theorem Keeps.telemModeWrite {w : WriteReq} : Keeps s₀ (s.telemModeWrite w) :=
  h.gateW (fun _ h => h.put.capUpdate)

theorem Keeps.execTelemModeWrite {w} : Goes s₀ (execTelemModeWrite w s) := .next h.telemModeWrite

theorem Keeps.runMin : Keeps s₀ s.runMin := h.wr

theorem Keeps.thermCfgWrite {off : Nat} {w : WriteReq} : Keeps s₀ (s.thermCfgWrite off w) :=
  h.gateW (fun _ h => h.wr.onlyIf fun h => h.runMin)

theorem Keeps.telemWindowWrite {w : WriteReq} : Keeps s₀ (s.telemWindowWrite w) := h.gateW (fun _ h => h.wr)

theorem Keeps.winRestart : Keeps s₀ s.winRestart := h.same

theorem Keeps.execTelemWindowClose : Goes s₀ (execTelemWindowClose s) :=
  Goes.ite (.next h) (.next h.bumpW.wr.wr.wr.wr.wr.winRestart)

theorem Keeps.telemReset : Keeps s₀ s.telemReset := h.resetBlock.wr.wr64.winRestart

theorem Keeps.thermDefaults : Keeps s₀ s.thermDefaults := h.resetBlock.put.put.same.runMin.capUpdate

theorem Keeps.thermReset : Keeps s₀ s.thermReset := h.thermDefaults.putB

theorem Keeps.thermPowerOn : Keeps s₀ s.thermPowerOn := h.same.resetBlock.thermDefaults.winRestart

theorem Keeps.gsensReset {g : Nat} : Keeps s₀ (s.gsensReset g) := h.same.wr

end Sys2Proof.Machine
end

section
/-! SUPPORT. `Keeps` along the operations of Machine/FnCtl.lean. -/

namespace Sys2Proof.Machine

variable {s₀ s : State} (h : Keeps s₀ s)
include h

/-- The unit number of a page is one of the module's units of the page's kind. -/
def PageIn (k : PageKind) (i : Nat) : Prop :=
  match k with
  | .link | .reduce => i < 96
  | .engine => i < 256
  | .gsram | .gdma => i < 16
  | _ => True

omit h in
theorem pageIn_ite {c : Prop} {_ : Decidable c} {k : PageKind} {i : Nat} {o : Option (PageKind × Nat)}
    (hi : c → PageIn k i)
    (ho : ∀ p ∈ o, PageIn p.1 p.2) : ∀ p ∈ (if c then some (k, i) else o), PageIn p.1 p.2 := by
  split
  · next hc => rintro _ ⟨⟩; exact hi hc
  · exact ho

omit h in
theorem pageIn_of_pageAt {n i : Nat} {k : PageKind} (hp : pageAt n = some (k, i)) : PageIn k i := by
  suffices h : ∀ p ∈ pageAt n, PageIn p.1 p.2 from h _ hp
  unfold pageAt
  iterate 23 refine pageIn_ite (fun _ => trivial) ?_
  split
  · have hg : (n - 0x100) / 16 < 16 := by omega
    refine pageIn_ite (fun _ => trivial)
      (pageIn_ite (fun _ => ?_) (pageIn_ite (fun _ => hg) (pageIn_ite (fun _ => trivial)
      (pageIn_ite (fun _ => hg) (pageIn_ite (fun _ => trivial) nofun)))))
    simp only [PageIn]
    omega
  · refine pageIn_ite (fun h => ?_)
      (pageIn_ite (fun h => ?_) (pageIn_ite (fun _ => trivial) (pageIn_ite (fun _ => trivial) nofun)))
    all_goals
      simp only [PageIn]
      omega

theorem Keeps.fnStart {pg : Nat} : Keeps s₀ (s.fnStart pg) := by
  unfold State.fnStart
  split
  · next hp => exact h.linkEnable (pageIn_of_pageAt hp)
  · exact h.beginRestart
  · exact h.setFn

theorem Keeps.fnEnable {pg : Nat} : Keeps s₀ (s.fnEnable pg) :=
  Keeps.ite h (Keeps.ite h.fnStart (Keeps.ite h.putB h))

theorem Keeps.fnCritical {pg : Nat} : Keeps s₀ (s.fnCritical pg) := Keeps.ite h.paceFault.raiseBare h

theorem Keeps.valvesDecay : Keeps s₀ s.valvesDecay :=
  h.foldl fun _ _ h => Keeps.ite h.valveDecay (Keeps.ite h.valveUnwait h)

theorem Keeps.fnDrain {pg : Nat} : Keeps s₀ (s.fnDrain pg) := by
  unfold State.fnDrain
  split
  · next hp => exact h.linkTakedown (pageIn_of_pageAt hp)
  · exact h.clkDisable
  · exact (Keeps.ite h.overlapOff h).setCore.setFn
  · exact h.svcLeave (fun _ h => h.setFn)
  · exact h.disarm.setFn
  · exact h.setFn.pumpsDisable
  · exact h.setFn.valvesDecay
  · exact h.setFn.foldl fun _ _ h => h.hdStop
  · exact h.same.setFn
  · exact h.setFn.svcRoles
  · exact h.setFn

theorem Keeps.fnDisable {pg : Nat} : Keeps s₀ (s.fnDisable pg) := by
  refine Keeps.ite h (Keeps.ite h.fnCritical.fnDrain (Keeps.ite h.fnCritical.putB (Keeps.ite ?_ h)))
  split
  · next hp => exact h.fnCritical.linkOff (pageIn_of_pageAt hp)
  · exact h.fnCritical.setFn

theorem Keeps.execShutdownDone {page} : Goes s₀ (execShutdownDone page s) := by
  refine Goes.ite ?_ (.next h)
  split
  · next hp => exact .next (h.takedownEnd (pageIn_of_pageAt hp))
  · exact .next h.drained.svcRoles
  · exact .next h.lpddrSelfRefresh.drained
  · exact .next h.drained

theorem Keeps.fnResetKeeping {k : PageKind} {pg : Nat} : Keeps s₀ (s.fnResetKeeping k pg) :=
  h.fnResetPage.foldl fun _ _ h => h.wr

theorem Keeps.secReset : Keeps s₀ s.secReset :=
  (h.putB.putB.resetRegs.onlyIf fun h => h.put.put).putB.putB.resetRegs.same

theorem Keeps.contReset {k : PageKind} : Keeps s₀ (s.contReset k) := by
  unfold State.contReset
  split
  · exact h.wr.wr
  · exact h.resetRegs
  · exact h.resetRegs.putB.same
  · exact h.thermReset
  · exact h.telemReset
  · exact h.coolantReset
  · exact h.resetRegs.same
  · exact h.resetRegs
  · exact h.resetRegs
  · exact h.fuseLoad
  · exact h.secReset
  · exact h

theorem Keeps.groveNoChans {g : Nat} : GroveIn s₀ { s.grove g with chans := [] } :=
  fun c => ⟨by simp, (h.grove c).2⟩

theorem Keeps.fnResetBody {k : PageKind} {inst pg : Nat} (hinst : PageIn k inst) :
    Keeps s₀ (s.fnResetBody k inst pg) := by
  unfold State.fnResetBody
  split
  · exact h.clkReset
  · exact h.hostdmaReset
  · exact h.submitReset.svcRoles
  · exact h.pumpReset
  · exact h.valveReset
  · exact (Keeps.ite h.overlapOff h).setCore.fnResetKeeping
  · exact h.fnResetKeeping.same.sideAlert
  · exact h.setServe.fnResetKeeping
  · exact h.same.fnResetKeeping
  · exact h.svcLeave (fun _ h => h.fnResetKeeping)
  · exact h.disarm.fnResetKeeping
  · exact ((h.returnUnsent hinst).emit).fnResetKeeping
  · exact h.fnResetKeeping.putB
  · exact (h.setEng hinst).fnResetKeeping
  · exact (h.setGrove hinst h.groveNoChans).fnResetKeeping
  · exact h.gsensReset.fnResetKeeping
  · exact (h.setRed hinst).fnResetKeeping
  · exact h.fnResetKeeping

theorem Keeps.fnReset {req : Req} {pg : Nat} : Keeps s₀ (s.fnReset req pg) := by
  unfold State.fnReset
  split
  · exact h
  · next hp =>
    exact Keeps.ite h (Keeps.ite h.contReset.putB
      ((h.fnCritical.fnResetBody (pageIn_of_pageAt hp)).onlyIf fun h => h.putB.beginRestart))

theorem Keeps.fnResetEnd {pg : Nat} : Keeps s₀ (s.fnResetEnd pg) := by
  dsimp only [State.fnResetEnd]
  split
  · exact h.putB.onlyIfNot fun h => h.setFn
  · exact h.putB

theorem Keeps.execFnResetDone {page} : Goes s₀ (execFnResetDone page s) := .next (Keeps.ite h.fnResetEnd h)

theorem Keeps.ctrlAct {req : Req} {k : PageKind} {pg : Nat} {data : Word} :
    Keeps s₀ (s.ctrlAct req k pg data) :=
  Keeps.ite h.fnReset (Keeps.ite h (Keeps.ite h.fnDisable (Keeps.ite h.fnEnable h)))

theorem Keeps.ctrlWrite {pg : Nat} {w : WriteReq} : Keeps s₀ (s.ctrlWrite pg w) := by
  unfold State.ctrlWrite
  split
  · exact h
  · exact h.gateW (fun _ h => h.ctrlAct)

theorem Keeps.execFnEnable {req page} : Goes s₀ (execFnEnable req page s) := .next h.ctrlWrite

theorem Keeps.execFnDisable {req page} : Goes s₀ (execFnDisable req page s) := .next h.ctrlWrite

theorem Keeps.execFnReset {req page} : Goes s₀ (execFnReset req page s) := .next h.ctrlWrite

theorem Keeps.groveRetire {g : Nat} : Keeps s₀ (s.groveRetire g) := h.foldl fun _ _ h => Keeps.ite h h.retire

theorem Keeps.groveFail {g : Nat} : Keeps s₀ (s.groveFail g) := h.dwAdd.groveRetire

theorem Keeps.gsramRepair {g : Nat} {o : StartObs} (hg : g < 16) : Keeps s₀ (s.gsramRepair g o) :=
  (((h.foldl fun _ _ h => h.dwAdd).wr.wr.foldl fun _ _ h => h.wr).put.onlyIfNot fun h => h.same).andThen
    fun h => h.setGroveAs hg (by simp)

theorem Keeps.startDone {k : PageKind} {inst pg : Nat} {o : StartObs} (hinst : PageIn k inst) :
    Keeps s₀ (s.startDone k inst pg o) := by
  unfold State.startDone
  split
  · exact h
  · exact h
  · exact h.clkStarted
  · exact h.lpddrStarted.lpGeometry
  · exact (Keeps.ite (h.gsramRepair hinst) h).setFn
  · exact Keeps.ite h.setFn h.putB.putB.setFn
  · exact h.reduceStarted
  · exact h.sampleStarted
  · exact h.submitStart
  · exact h.serveStart
  · exact h.wr.wr.putB.extendM.setServe.setFn.svcRoles
  · exact h.setFn.pumpsApply
  · exact h.setFn.valvesUpdate
  · exact h.setFn

theorem Keeps.execStartSeqDone {page obs} : Goes s₀ (execStartSeqDone page obs s) := by
  unfold Machine.execStartSeqDone
  split
  · next hp => exact .next (Keeps.ite (h.startDone (pageIn_of_pageAt hp)) h)
  · exact .next h

theorem Keeps.startFail {k : PageKind} {inst pg detail : Nat} : Keeps s₀ (s.startFail k inst pg detail) := by
  dsimp only [State.startFail]
  split
  · exact h
  · exact h
  · exact h.lpddrStartFailed.lpGeometry
  · exact h.reduceStartFailed
  · exact h.sampleStartFailed.onlyIf fun h => h.retire
  · exact h.submitStart
  · exact h.serveStart
  · exact (Keeps.ite h.setFn.wr.raise.svcRoles h.svcFault).onlyIf fun h => h.dwAdd.retire.svcRoles
  · exact h.putB.toFault.onlyIf fun h => h.dwAdd.retire
  · exact h.toFault.onlyIf fun h => h.groveFail
  · exact h.toFault.onlyIf fun h => h.groveFail
  · exact h.toFault

theorem Keeps.execStartSeqFail {page detail} : Goes s₀ (execStartSeqFail page detail s) := by
  unfold Machine.execStartSeqFail
  split
  · exact .next (Keeps.ite h.startFail h)
  · exact .next h

theorem Keeps.execInternalFault {page detail} : Goes s₀ (execInternalFault page detail s) := by
  dsimp only [Machine.execInternalFault]
  split
  · exact .next h
  · exact Goes.ite (.next h) (by
      split
      · exact .next h.svcFault
      · exact .next h.toFault.setServe
      · exact .next h.toFault.svcRoles
      · exact .next h.toFault)

end Sys2Proof.Machine
end

section
/-! SUPPORT. `Keeps` along the operations of Machine/Power.lean. -/

namespace Sys2Proof.Machine

variable {s₀ s : State} (h : Keeps s₀ s)
include h

theorem Keeps.applyFusing : Keeps s₀ s.applyFusing :=
  (h.foldl fun _ _ h => h.foldl fun _ _ h => h.fuseOut).andThen fun h0 =>
    (Keeps.ite (h0.foldl fun _ _ h => h.fuseOut) h0).andThen fun h1 =>
      ((Keeps.ite (h1.foldl fun _ _ h => h.fuseOut) h1).onlyIf fun h => h.fuseOut).andThen fun h3 => Keeps.ite
        (h3.foldl fun _ _ h => h.fuseOut) h3

theorem Keeps.unitsCold : Keeps s₀ s.unitsCold :=
  { h with
    mem := fun _ => rfl
    poison := fun _ => rfl
    engines := fun c => (h.engines c).mapFilter fun _ hk => hk
    groves := fun c => (h.groves c).mapFilter fun _ hk => ⟨hk.1, by simp, Nat.zero_le _⟩
    links := fun c => (h.links c).mapFilter fun _ hk => hk
    reduce := fun _ => UnitMap.nil
    image := fun _ => nofun }

theorem Keeps.volatileLost : Keeps s₀ s.volatileLost := by
  unfold State.volatileLost
  extract_lets s1 _ s2 _ s3 s4
  have h1 : Keeps s₀ s1 := by
    unfold s1
    split
    · exact h.blowEnd
    · exact h
  have h2 : Keeps s₀ s2 := h1.unitsCold.regsFilter
  have h3 : Keeps s₀ s3 := h2.same
  exact h3.put.putB.putB.putB.applyFusing

theorem Keeps.evtFlush : Keeps s₀ s.evtFlush := h.foldl fun _ _ h => h.evSequence.rlogTake

theorem Keeps.conversionOff : Keeps s₀ s.conversionOff := h.evtFlush.same.fluidOff.volatileLost.inputsOff

theorem Keeps.powerLost : Keeps s₀ s.powerLost := h.conversionOff.onlyIfNot fun h => h.setMState

theorem Keeps.conversionOn : Keeps s₀ s.conversionOn := h.same.same.putB.thermPowerOn

theorem Keeps.setShdn {b : Bool} : Keeps s₀ (s.setShdn b) := h.putB.same

theorem Keeps.tripRecord {groves : Nat} : Keeps s₀ (s.tripRecord groves) := h.setShdn.putB.put

theorem Keeps.trip {groves : Nat} : Keeps s₀ (s.trip groves) :=
  (h.tripRecord.raise.onlyIfNot fun h => h.paceFault.conversionOff).setMState.same

theorem Keeps.pwrOkGone : Keeps s₀ s.pwrOkGone := h.same.onlyIf fun h => h.powerLost

theorem Keeps.execPwrOkDeassert : Goes s₀ (execPwrOkDeassert s) := .next (Keeps.ite h.pwrOkGone h)

theorem Keeps.execVinUndervolt : Goes s₀ (execVinUndervolt s) := .next (Keeps.ite h.pwrOkGone h)

theorem Keeps.execShdnRelease : Goes s₀ (execShdnRelease s) := Goes.ite (.next h.same.setShdn.putB) (.next h)

theorem Keeps.execAnalogTrip {groves} : Goes s₀ (execAnalogTrip groves s) := .next (Keeps.ite h.trip h)

theorem Keeps.execStandbyRailGood {tripSel} : Goes s₀ (execStandbyRailGood tripSel s) :=
  Goes.ite (.next h) (.next (h.same.put.put.fuseLoad.applyFusing.inputsOff.onlyIf fun h => h.setLeakL))

theorem Keeps.execStandbyRailLost : Goes s₀ (execStandbyRailLost s) := by
  refine Goes.ite ?_ (.next h)
  extract_lets s1 s2 _ s3
  have h1 : Keeps s₀ s1 := h.onlyIf fun h => h.powerLost
  have h2 : Keeps s₀ s2 := h1.regsFilter.same
  have h3 : Keeps s₀ s3 := h2.put.same
  exact .next h3.setMState

end Sys2Proof.Machine
end

section
/-! SUPPORT. `Keeps` along the operations of Machine/Glade.lean. -/

namespace Sys2Proof.Machine

variable {s₀ s : State} (h : Keeps s₀ s)
include h

theorem Keeps.execOscMeasure {ppm} : Goes s₀ (execOscMeasure ppm s) :=
  Goes.ite (.next (h.put.same.onlyIf fun h => h.raise)) (.next h)

theorem Keeps.setTableMode {b : Bool} : Keeps s₀ (s.setTableMode b) := h.putB.putB.putB

theorem Keeps.pumpsStart {ns : List Nat} : Keeps s₀ (s.pumpsStart ns) :=
  Keeps.ite h ((h.foldl fun _ _ h => Keeps.ite h.put.pumpAttempt h).pumpSuff)

theorem Keeps.tmEval : Keeps s₀ s.tmEval :=
  Keeps.ite ((h.setTableMode.same.raise.foldl fun _ _ h => Keeps.ite h.setFn
    h).pumpsStart.tmSelect.fluidApply) h

theorem Keeps.execAliveLost : Goes s₀ (execAliveLost s) := Goes.ite (.next h.same.putB.raise.tmEval) (.next h)

theorem Keeps.execNoHolderTimeout : Goes s₀ (execNoHolderTimeout s) := .next (Keeps.ite h.same.tmEval h)

theorem Keeps.execTableModeExit : Goes s₀ (execTableModeExit s) :=
  Goes.ite (.next h.put.setTableMode.raise.fluidApply) (.next h)

theorem Keeps.tmCtrlWrite {w : WriteReq} : Keeps s₀ (s.tmCtrlWrite w) := h.gateW (fun _ h => h.wr.tmEval)

theorem Keeps.tmLoad {img : Option GladeImg} : Keeps s₀ (s.tmLoad img) := by
  dsimp only [State.tmLoad]
  split
  · exact h.resetRegs.putB.errInc.raise.tmReselect
  · exact Keeps.ite ((h.foldl fun _ _ h => h.wr.wr).putB.extendM.tmReselect)
      h.resetRegs.putB.errInc.raise.tmReselect

theorem Keeps.execIslandLogForward : Goes s₀ (execIslandLogForward s) :=
  Goes.ite (.next ((h.foldl fun _ _ h => h.evtEnter).wr.same.onlyIf fun h => h.raise)) (.next h)

end Sys2Proof.Machine
end


section
/-! SUPPORT. `Keeps` along the operations of Machine/Boot.lean. -/

namespace Sys2Proof.Machine

variable {s₀ s : State} (h : Keeps s₀ s)
include h

theorem Keeps.unretire : Keeps s₀ s.unretire := h.foldl fun _ _ h => h.putB.setFn

theorem Keeps.factoryMap : Keeps s₀ s.factoryMap := h.foldl fun _ _ h => Keeps.ite h h.dwAdd

theorem Keeps.residueMap : Keeps s₀ s.residueMap := h.foldl fun _ _ h => Keeps.ite h.dwAdd h

theorem Keeps.withdraw {ok : Bool} {pg : Nat} : Keeps s₀ (s.withdraw ok pg) := Keeps.ite h.retire h

theorem Keeps.dwApply {e : BitVec 128} : Keeps s₀ (s.dwApply e) :=
  Keeps.ite h (Keeps.ite h.withdraw
    (Keeps.ite (Keeps.ite h.groveRetire h)
      (Keeps.ite h.withdraw (Keeps.ite h.withdraw
        (Keeps.ite h.withdraw (Keeps.ite h.withdraw (Keeps.ite h.withdraw (Keeps.ite h.withdraw h))))))))

theorem Keeps.dwApplyAll : Keeps s₀ s.dwApplyAll :=
  (h.unretire.factoryMap.residueMap.foldl fun _ _ h => h.dwApply).same.lpGeometry

theorem Keeps.pumpsMark : Keeps s₀ s.pumpsMark :=
  h.foldl fun _ _ h => h.putB.andThen fun h0 => Keeps.ite h0.pumpSet (h0.onlyIf fun h => h.pumpSet)

theorem Keeps.step1Pumps : Keeps s₀ s.step1Pumps :=
  ((h.foldl fun _ _ h => Keeps.ite h.setFn h).pumpsMark.foldl fun _ _ h => h.accept fun _ h => h).pumpsStart

theorem Keeps.step1Valves : Keeps s₀ s.step1Valves := h.isoWrite.isoWrite

theorem Keeps.leakClose : Keeps s₀ s.leakClose := h.leakPumpsOff.leakRelease.isoCommand

theorem Keeps.coreBoot {k : Nat} : Keeps s₀ (s.coreBoot k) := Keeps.ite h h.setCore.setFn

theorem Keeps.katBegin : Keeps s₀ s.katBegin := h.same

theorem Keeps.stepWrites {step : Nat} : Keeps s₀ (s.stepWrites step) := by
  unfold State.stepWrites
  split
  · exact h.same
  · exact (h.foldl fun _ _ h => h.ctrlWrite).onlyIf fun h => h.same.katBegin

theorem Keeps.stepRun {step : Nat} : Keeps s₀ (s.stepRun step) :=
  h.same.andThen fun h => Keeps.ite h.same.dwApplyAll.coreBoot.coreBoot (Keeps.ite h.putB.same h.stepWrites)

theorem Keeps.bootStepBegin {step : Nat} : Keeps s₀ (s.bootStepBegin step) :=
  (h.put.same.onlyIf fun h => h.setPower).stepRun

theorem Keeps.stepAgain : Keeps s₀ s.stepAgain := Keeps.ite (h.same.onlyIfNot fun h => h.stepWrites) h

theorem Keeps.resetNow {pg : Nat} : Keeps s₀ (s.resetNow pg) := by
  unfold State.resetNow
  split
  · exact h
  · next hp => exact Keeps.ite h (Keeps.ite h.contReset (h.fnResetBody (pageIn_of_pageAt hp)).fnResetEnd)

theorem Keeps.startResets : Keeps s₀ s.startResets :=
  ((h.foldl fun _ _ h => h.resetNow).onlyIfNot fun h => h.setHolder).unitsCold.same

theorem Keeps.bootFuses : Keeps s₀ s.bootFuses := h.clearM.fuseLoad.applyFusing.onlyIfNot fun h => h.emit

theorem Keeps.bootEnter : Keeps s₀ s.bootEnter :=
  h.bump.bootFuses.putB.indexBegin.same.putB.putB.putB.resetRegs.setMState.putB.same.fnEnable.fnEnable

theorem Keeps.bootLeak : Keeps s₀ s.bootLeak := h.put.putB.bootAbandon.setMState

theorem Keeps.bootPower : Keeps s₀ s.bootPower :=
  h.conversionOn.bootEnter.andThen fun h => Keeps.ite h.leakClose.bootLeak
    h.step1Pumps.step1Valves.bootStepBegin

theorem Keeps.bootClear : Keeps s₀ s.bootClear := h.startResets.bootEnter.step1Pumps.step1Valves.bootStepBegin

theorem Keeps.bootRestart : Keeps s₀ s.bootRestart := h.startResets.bootEnter.step1Pumps.bootStepBegin

theorem Keeps.leakPower : Keeps s₀ s.leakPower := h.conversionOn.indexBegin.fnEnable.fnEnable.leakClose

theorem Keeps.execPwrOkAssert {slotId bootMode hot} : Goes s₀ (execPwrOkAssert slotId bootMode hot s) := by
  refine Goes.ite (.next h) (Goes.ite (.next h.same.put.put.put.trip) ?_)
  extract_lets _ s1
  have h1 : Keeps s₀ s1 := h.same.put.put.put.onlyIf fun h => h.putB
  split
  · exact .next h1.leakPower
  · exact .next (h1.onlyIf fun h => h.bootPower)
  · exact .next (h1.onlyIfNot fun h => h.same)
  · exact .next h1

theorem Keeps.execStaggerDone : Goes s₀ (execStaggerDone s) := .next (Keeps.ite h.bootPower h)

theorem Keeps.fwSettle {k : Nat} {verified : Bool} {fw : FwObs} : Keeps s₀ (s.fwSettle k verified fw).1 := by
  unfold State.fwSettle
  extract_lets a ok reject found s1 s2
  have hreject : ∀ s, Keeps s₀ s → Keeps s₀ (reject s) := fun _ h => h.errInc.raise
  have hfound : ∀ s c, Keeps s₀ s → Keeps s₀ (found s c) := by
    intro s c h
    dsimp only [found]
    split
    · exact h.same.extendM.tmLoad.extendM
    · exact h.same.extendM.tmLoad.errInc.raise
  have h1 : Keeps s₀ s1 := Keeps.ite h (hreject s h)
  split
  · exact hfound s a h
  · split
    · exact hfound _ _ h1.putB.raise.dwAdd
    · exact Keeps.ite h1 (hreject s1 h1)

theorem Keeps.fwNone : Keeps s₀ s.fwNone := h.foldl fun _ _ h => Keeps.ite h h.setCore.toFault

theorem Keeps.execCoreRestart {k verified version fails fw} :
    Goes s₀ (execCoreRestart k verified version fails fw s) := by
  unfold Machine.execCoreRestart
  extract_lets x first d
  split
  · have hsettled : Keeps s₀ (if first = true then s.fwSettle k.val verified fw else (s, verified)).1 := by
      split
      · exact h.fwSettle
      · exact h
    generalize (if first = true then s.fwSettle k.val verified fw else (s, verified)) = p at hsettled ⊢
    obtain ⟨t, good⟩ := p
    have ht : Keeps s₀ t := hsettled
    exact Goes.ite (.next ht.fwNone)
      (Goes.ite (.next ht.wr.wr.setCore.toFault.raise.dwAdd) (.next ht.wr.wr.put.wr.setCore.put.putB.setFn))
  · exact .next h

theorem Keeps.katEngine {g p : Nat} {o : Option KatObs} : Keeps s₀ (s.katEngine g p o) :=
  Keeps.ite (h.wr.andThen fun h => Keeps.ite h.putB.setFn h.putB.dwAdd.retire) h

theorem Keeps.groveMap {g : Nat} : Keeps s₀ (s.groveMap g) :=
  Keeps.ite h.groveRetire (h.wr.put.foldl fun _ _ h => h.put.putB.putB)

theorem Keeps.execKatPassDone {obs} : Goes s₀ (execKatPassDone obs s) :=
  Goes.ite (Goes.andThen (h.foldl fun _ _ h => h.foldl fun _ _ h => h.katEngine).same fun h1 => .next
    (Keeps.ite (h1.foldl fun _ _ h => h.groveMap) h1)) (.next h)

theorem Keeps.publishShape : Keeps s₀ s.publishShape :=
  ((h.foldl fun _ _ h => h.wr).same.onlyIf fun h => h.bumpW.raise).extendM

theorem Keeps.stepTime {step : Nat} : Keeps s₀ (s.stepTime step) := h.put

/-- The state that the time sync of step 5 leaves. -/
theorem Keeps.bootSync {t : State} (ht : s.bootSync = some t) : Keeps s₀ t := by
  dsimp only [State.bootSync] at ht
  split at ht
  · simp only [Option.ite_none_right_eq_some, Option.some.injEq] at ht
    obtain ⟨_, rfl⟩ := ht
    exact (((h.onlyIf fun h => (h.accept fun _ h => h.wr).accept fun _ h => h.wr)).accept fun _ h =>
      h.putB.syncStart).same
  · exact absurd ht nofun

theorem Keeps.bootFinish : Keeps s₀ s.bootFinish :=
  h.publishShape.stepTime.wr.putB.put.putB.same.andThen fun h => Keeps.ite h.enterLeak h.setMState.raise

theorem Keeps.stepDone {step : Nat} : Keeps s₀ (s.stepDone step) :=
  h.same.andThen fun h0 => Keeps.ite h0.bootFinish ((h0.stepTime.onlyIf fun h => h.same).putB.bootStepBegin)

theorem Keeps.stepFail : Keeps s₀ s.stepFail :=
  h.errInc.raise.andThen fun h0 => Keeps.ite h0.stepTime.putB.putB.raise.powerLost
    ((h0.same.foldl fun _ _ h => Keeps.ite h h.resetNow).putB.stepRun)

theorem Keeps.step1Done : Keeps s₀ s.step1Done := Keeps.ite h.put h

theorem Keeps.execBootStepDone {step} : Goes s₀ (execBootStepDone step s) := by
  refine Goes.ite (.next h) (Goes.ite (.next h.step1Done)
    (Goes.ite (.next h) (Goes.ite ?_ (.next h.stepDone))))
  split
  · next ht => exact .next (h.bootSync ht)
  · exact .next h.stepDone

theorem Keeps.execBootStepFail : Goes s₀ (execBootStepFail s) := .next (Keeps.ite h.stepFail h)

theorem Keeps.bootCtrlWrite {w : WriteReq} : Keeps s₀ (s.bootCtrlWrite w) :=
  h.gateW (fun _ h => h.put.andThen fun h0 =>
    (Keeps.ite (h0.same.andThen fun h3 => Keeps.onlyIf (by
      split
      · exact h3.onlyIf fun h => h.ctrlWrite
      · exact h3) fun h => h.katBegin) h0).onlyIf fun h => Keeps.ite h.stepDone h.stepFail)

theorem Keeps.execBootCtrlGo {req step} : Goes s₀ (execBootCtrlGo req step s) := .next h.bootCtrlWrite

theorem Keeps.execBootCtrlDone {req step} : Goes s₀ (execBootCtrlDone req step s) := .next h.bootCtrlWrite

theorem Keeps.lateReduce : Keeps s₀ s.lateReduce := by
  unfold State.lateReduce
  split
  · refine Keeps.ite h ?_
    split
    · exact h
    · exact h.same.ctrlWrite
  · exact h

theorem Keeps.commandWrite {w : WriteReq} : Keeps s₀ (s.commandWrite w) :=
  h.gateW (fun _ h => (((Keeps.ite h.consumeToken.setMState.raise h).onlyIf fun h => h.holdBegin).onlyIf
    fun h => h.wakeBegin).onlyIf fun h => h.bootRestart)

theorem Keeps.execServiceReq {req} : Goes s₀ (execServiceReq req s) := .next h.commandWrite

theorem Keeps.execRestart {req} : Goes s₀ (execRestart req s) := .next h.commandWrite

theorem Keeps.execHold {req} : Goes s₀ (execHold req s) := .next h.commandWrite

theorem Keeps.execWake {req} : Goes s₀ (execWake req s) := .next h.commandWrite

theorem Keeps.bootCfgWrite {w : WriteReq} : Keeps s₀ (s.bootCfgWrite w) := h.gateW (fun _ h => h.wr)

theorem Keeps.dwoodSelWrite {w : WriteReq} : Keeps s₀ (s.dwoodSelWrite w) :=
  h.gateW (fun _ h => h.wr.foldl fun _ _ h => h.wr)

theorem Keeps.execDwoodSel {w} : Goes s₀ (execDwoodSel w s) := .next h.dwoodSelWrite

theorem Keeps.dwRemove {i : Nat} : Keeps s₀ (s.dwRemove i) :=
  Keeps.ite (h.setDwood.onlyIf fun h => h.setEngOf (f := fun x => { x with residues := 0 }) rfl).bump h

theorem Keeps.dwoodClearWrite {w : WriteReq} : Keeps s₀ (s.dwoodClearWrite w) := by
  refine h.gateW (fun _ h => ?_)
  split
  · exact h
  · exact (((h.consumeToken.foldl fun _ _ h => h.dwRemove).dwCounts).onlyIf fun h => h.putB).raise

theorem Keeps.execDwoodClear {req} : Goes s₀ (execDwoodClear req s) := .next h.dwoodClearWrite

end Sys2Proof.Machine
end

section
/-! SUPPORT. `Keeps` along the operations of Machine/Sec.lean. -/

namespace Sys2Proof.Machine

variable {s₀ s : State} (h : Keeps s₀ s)
include h

theorem Keeps.newNonce {random : BitVec 128} : Keeps s₀ (s.newNonce random) := h.setRegBytes.putB

theorem Keeps.verifyBegin : Keeps s₀ s.verifyBegin := h.putB.putB.same

theorem Keeps.dropToken {result : Nat} : Keeps s₀ (s.dropToken result) := Keeps.ite h.putB.put.put.same h

theorem Keeps.tokenCtlWrite {w : WriteReq} {random : BitVec 128} : Keeps s₀ (s.tokenCtlWrite w random) :=
  h.gateW (fun _ h => ((Keeps.ite h.newNonce h).onlyIf fun h => h.verifyBegin).onlyIf fun h => h.dropToken)

theorem Keeps.execNewNonce {req random} : Goes s₀ (execNewNonce req random s) := .next h.tokenCtlWrite

theorem Keeps.execVerify {req} : Goes s₀ (execVerify req s) := .next h.tokenCtlWrite

theorem Keeps.execDiscard {req} : Goes s₀ (execDiscard req s) := .next h.tokenCtlWrite

theorem Keeps.execNonceExpire : Goes s₀ (execNonceExpire s) := .next h.putB

theorem Keeps.execTokenExpire : Goes s₀ (execTokenExpire s) := .next h.dropToken

theorem Keeps.leakClear : Keeps s₀ s.leakClear :=
  Keeps.ite h (Keeps.ite h.putB h.putB.putB.putB.setLeakL.putB.putB.same.raise.bootClear)

theorem Keeps.blowBegin {b : Blow} : Keeps s₀ (s.blowBegin b) := h.putB.same

theorem Keeps.tokenTake {t : Token} : Keeps s₀ (s.tokenTake t) :=
  h.dropToken.put.raise.andThen fun h => Keeps.ite h.consumed.leakClear
    (Keeps.ite h.consumed.putB.raise
      (Keeps.ite h.consumed.blowBegin
        (Keeps.ite h.consumed.blowBegin.same (Keeps.ite h.consumed.blowBegin h.put.putB.same))))

theorem Keeps.execTokenVerifyDone : Goes s₀ (execTokenVerifyDone s) := by
  unfold Machine.execTokenVerifyDone
  split
  · exact .next h
  · exact Goes.andThen h.putB.same fun h => Goes.ite (.next h.tokenTake) (.next h.put.put.errInc.raise)

theorem Keeps.execFuseBlowDone {ok} : Goes s₀ (execFuseBlowDone ok s) := by
  unfold Machine.execFuseBlowDone
  split
  · exact .next h
  · exact .next (h.blowEnd.putB.onlyIfNot fun h => h.errInc.put)

theorem Keeps.fwCtlWrite {w : WriteReq} : Keeps s₀ (s.fwCtlWrite w) :=
  h.gateW (fun _ h => Keeps.ite (h.put.andThen fun h => Keeps.ite h.put h.put.putB.same) h)

theorem Keeps.execFwUpdate {w} : Goes s₀ (execFwUpdate w s) := .next h.fwCtlWrite

theorem Keeps.execFwUpdateDone {flashOk} : Goes s₀ (execFwUpdateDone flashOk s) := by
  refine Goes.ite ?_ (.next h)
  extract_lets bs _ _ s1
  have h1 : Keeps s₀ s1 := h.putB.same
  cases s1.bundleKinds 4 bs [] with
  | error k => exact .next h1.put.errInc.raise
  | ok ks => exact Goes.ite (.next h1.put) (Goes.ite (.next h1.put) (.next h1.put.same))

theorem Keeps.measCtlWrite {w : WriteReq} : Keeps s₀ (s.measCtlWrite w) :=
  h.gateW (fun _ h => h.put.onlyIf fun h => h.extendM)

theorem Keeps.execExtend {w} : Goes s₀ (execExtend w s) := .next h.measCtlWrite

theorem Keeps.reportCtlWrite {w : WriteReq} : Keeps s₀ (s.reportCtlWrite w) :=
  h.gateW (fun _ h => h.put.onlyIf fun h => h.putB.putB.same)

theorem Keeps.execReportGo {w} : Goes s₀ (execReportGo w s) := .next h.reportCtlWrite

theorem Keeps.execReportDone : Goes s₀ (execReportDone s) := by
  unfold Machine.execReportDone
  split
  · exact .next h
  · exact .next h.setRegBytes.wr.putB.putB.same

end Sys2Proof.Machine
end

section
/-! SUPPORT. `Keeps` along the operations of Machine/RegFile.lean. -/

namespace Sys2Proof.Machine

variable {s₀ s : State} (h : Keeps s₀ s)
include h

theorem Keeps.readReg {req : Req} {off : Nat} : Keeps s₀ (s.readReg req off).1 := by
  unfold State.readReg
  split
  · exact h.refuse
  · split
    · dsimp only
      split
      · exact h.setReqCtx
      · split
        · split
          · exact h.setReqCtx
          · exact h
        · split
          · exact Keeps.ite h.wr h
          · exact h
    · exact h

theorem Keeps.readTo {req : Req} {off : Nat} : Keeps s₀ (s.readTo req off) := h.readReg.emit

theorem Keeps.plainWrite {k : PageKind} {off : Nat} {r : RegRow} {w : WriteReq} :
    Keeps s₀ (s.plainWrite k off r w) :=
  Keeps.ite (h.gateW (fun _ h => h.setReqCtx))
    (Keeps.ite (h.gateW (fun _ h => h.dropLo.wr64.trackWrite))
      (h.gateW (fun _ h => h.wr.onlyIf fun h => h.wr)))

theorem Keeps.fenceTagWrite {w : WriteReq} : Keeps s₀ (s.fenceTagWrite w) := h.gateW (fun _ h => h.setReqCtx)

theorem Keeps.headerWrite {k : PageKind} {off : Nat} {w : WriteReq} : Keeps s₀ (s.headerWrite k off w) :=
  Keeps.ite h.ctrlWrite (Keeps.ite (h.gateW (fun _ h => h.wr))
    (Keeps.ite h.fenceTagWrite (h.gateW (fun _ h => h.wr))))

theorem Keeps.syncCtrlWrite {w : WriteReq} : Keeps s₀ (s.syncCtrlWrite w) :=
  h.gateW (fun _ h => h.put.onlyIf fun h => h.syncStart)

theorem Keeps.rreqEnd {l result : Nat} : Keeps s₀ (s.rreqEnd l result) := h.putB.put.raise

theorem Keeps.rreqSend {l : Nat} : Keeps s₀ (s.rreqSend l) :=
  Keeps.ite h (Keeps.ite h.rreqEnd (h.putB.put.onlyIfNot fun h => h.sendMsg))

theorem Keeps.rreqCtrlWrite {l : Nat} {w : WriteReq} : Keeps s₀ (s.rreqCtrlWrite l w) :=
  h.gateW (fun _ h => h.put.onlyIf fun h => h.rreqSend)

theorem Keeps.blockWrite {k : PageKind} {inst off : Nat} {r : RegRow} {w : WriteReq} :
    Keeps s₀ (s.blockWrite k inst off r w) := by
  dsimp only [State.blockWrite]
  split
  · exact Keeps.ite h.syncCtrlWrite h.plainWrite
  · exact h.gateW (fun _ h => h.wr)
  · exact Keeps.ite h.standCommandWrite h.plainWrite
  · exact Keeps.ite h.rreqCtrlWrite h.plainWrite
  · exact Keeps.ite h.hostAliveWrite (Keeps.ite h.dmaStartWrite (Keeps.ite h.dmaCtrlWrite h.plainWrite))
  · exact Keeps.ite h.cqHeadSet h.plainWrite
  · exact Keeps.ite h.pumpLimitsWrite (Keeps.ite h.pumpSetWrite h.pumpCtlWrite)
  · exact Keeps.ite h.isoWrite h.valveSetWrite
  · exact h.leakThreshWrite
  · exact Keeps.ite h.rackCapWrite (Keeps.ite h.hostCapWrite h.thermCfgWrite)
  · exact Keeps.ite h.telemModeWrite h.telemWindowWrite
  · exact h.tmCtrlWrite
  · exact Keeps.ite h.tokenWrite h.mboxWrite
  · exact Keeps.ite h.dwoodSelWrite h.dwoodClearWrite
  · exact Keeps.ite h.commandWrite (Keeps.ite h.bootCtrlWrite h.bootCfgWrite)
  · exact Keeps.ite h.injectWrite (Keeps.ite h.loadCtrlWrite (Keeps.ite h.groupCtrlWrite h.plainWrite))
  · exact Keeps.ite h.rlogSelWrite (Keeps.ite h.rlogSeekWrite (Keeps.ite h.rlogClearWrite h.plainWrite))
  · exact Keeps.ite h.same.tokenCtlWrite
      (Keeps.ite h.fwCtlWrite (Keeps.ite h.measCtlWrite (Keeps.ite h.reportCtlWrite h.plainWrite)))
  · exact h.plainWrite

theorem Keeps.regWrite {off : Nat} {w : WriteReq} : Keeps s₀ (s.regWrite off w) := by
  refine Keeps.ite h.refuse (Keeps.ite h.refuse (Keeps.ite h ?_))
  split
  · exact Keeps.ite h.headerWrite h.blockWrite
  · exact h

end Sys2Proof.Machine
end

section
/-! SUPPORT. `Keeps` along the operations of Machine/Arb.lean. -/

namespace Sys2Proof.Machine

variable {s₀ s : State} (h : Keeps s₀ s)
include h

theorem Keeps.writeAll {off : Nat} {xs : List WriteReq} {n : Nat} : Keeps s₀ (s.writeAll off xs n).1 := by
  induction xs generalizing s n with
  | nil => exact h
  | cons w ws ih => exact ih h.regWrite

theorem Keeps.execRegisterWrite {off w same} : Goes s₀ (execRegisterWrite off w same s) :=
  .next (h.writeAll.onlyIf fun h => h.bump)

theorem Keeps.execPairLoWrite {off w} : Goes s₀ (execPairLoWrite off w s) := .next h.regWrite

theorem Keeps.execPairHiWrite {off w} : Goes s₀ (execPairHiWrite off w s) := .next h.regWrite

theorem Keeps.execFenceTagWrite {w} : Goes s₀ (execFenceTagWrite w s) := .next h.regWrite

theorem Keeps.fenceRead {req : Req} : Keeps s₀ (s.fenceRead req) :=
  Keeps.ite h.readTo (Keeps.ite h.setReqCtx h.readTo)

theorem Keeps.execFenceDoneRead {req} : Goes s₀ (execFenceDoneRead req s) := .next h.fenceRead

theorem Keeps.execFenceDoneTimeout {req} : Goes s₀ (execFenceDoneTimeout req s) :=
  .next (Keeps.ite h.setReqCtx.emit h)

theorem Keeps.busRead {req : Req} {off : Nat} : Keeps s₀ (s.busRead req off) := Keeps.ite h.fenceRead h.readTo

theorem Keeps.execReadClear {req off} : Goes s₀ (execReadClear req off s) := .next h.busRead

theorem Keeps.execPairLoRead {req off} : Goes s₀ (execPairLoRead req off s) := .next h.busRead

theorem Keeps.execDebugRead {off} : Goes s₀ (execDebugRead off s) := .next h.busRead

theorem Keeps.execSyncStart {req} : Goes s₀ (execSyncStart req s) := .next h.regWrite

theorem Keeps.fixOne {req : Req} {e : Nat × Word} {hiToo : Bool} : Keeps s₀ (s.fixOne req e hiToo) := by
  dsimp only [State.fixOne]
  split
  · exact h.regWrite.onlyIf fun h => h.regWrite
  · exact h.regWrite

theorem Keeps.execOverlapEnd : Goes s₀ (execOverlapEnd s) := by
  unfold Machine.execOverlapEnd
  split
  · exact .next h
  · exact .next (h.foldl fun _ _ h => h.fixOne).bump.overlapOff.beginRestart

theorem Keeps.execRreqGo {link w} : Goes s₀ (execRreqGo link w s) := .next h.regWrite

theorem Keeps.remoteAccess {r : RegReqMsg} : Keeps s₀ (s.remoteAccess r).1 := by
  unfold State.remoteAccess
  split
  · dsimp only
    exact h.regWrite
  · exact h.readReg

theorem Keeps.execRegReqRx {link r} : Goes s₀ (execRegReqRx link r s) := by
  dsimp only [Machine.execRegReqRx]
  split
  · exact .next h.takeInbox.sendMsg
  · exact Goes.ite (.next h.takeInbox.remoteAccess.sendMsg) (.next h.takeInbox.sendMsg)

theorem Keeps.execRegRspRx {link r} : Goes s₀ (execRegRspRx link r s) := by
  dsimp only [Machine.execRegRspRx]
  split
  · exact .next h.takeInbox.sendMsg
  · exact Goes.ite (.next (h.takeInbox.onlyIf fun h => h.wr).rreqEnd) (.next h.takeInbox)

theorem Keeps.execRreqTimeout {link} : Goes s₀ (execRreqTimeout link s) := .next (Keeps.ite h.rreqEnd h)

end Sys2Proof.Machine
end


section
/-! SUPPORT. `Keeps` along the operations of Machine/EngineCtl.lean. -/

namespace Sys2Proof.Machine

variable {s₀ s : State} (h : Keeps s₀ s)
include h

theorem Keeps.execNop {a} : Goes s₀ (execNop a s) := h.slot fun _ _ hi => h.endBundle hi

theorem Keeps.execWait {a nM1} : Goes s₀ (execWait a nM1 s) := h.slot fun _ _ hi => h.endBundle hi

theorem Keeps.execWaitExpire {a} : Goes s₀ (execWaitExpire a s) := by
  unfold Machine.execWaitExpire
  split
  · exact .next h
  · next hi =>
    split
    · exact .next (h.engResume (lt_of_engIdx hi))
    · exact .next h

theorem Keeps.execLoop {a countM1} : Goes s₀ (execLoop a countM1 s) :=
  h.slot fun _ _ hi => Keeps.ite (h.endBundle hi) h

theorem Keeps.execEndloop {a x xen xstep} : Goes s₀ (execEndloop a x xen xstep s) := by
  refine h.slot fun _ _ hi => ?_
  split
  · exact h
  · exact Keeps.ite (h.endBundle hi) (h.endBundle hi)

theorem Keeps.execEpochWait {a epoch} : Goes s₀ (execEpochWait a epoch s) :=
  h.slot fun _ _ hi => h.endBundle hi

theorem Keeps.execEpochWaitRelease {a} : Goes s₀ (execEpochWaitRelease a s) := by
  unfold Machine.execEpochWaitRelease
  split
  · exact .next h
  · next hi =>
    split
    · exact Goes.ite (.next (h.engResume (lt_of_engIdx hi))) (.next h)
    · exact .next h

theorem Keeps.execFence {a mask} : Goes s₀ (execFence a mask s) :=
  h.slot fun _ _ hi => Keeps.ite (h.endBundle hi) (h.endBundle hi)

theorem Keeps.execFenceResume {a} : Goes s₀ (execFenceResume a s) := by
  unfold Machine.execFenceResume
  split
  · exact .next h
  · next hi =>
    split
    · exact Goes.ite (.next h) (.next (h.engResume (lt_of_engIdx hi)))
    · exact .next h

theorem Keeps.execSeg {a target} : Goes s₀ (execSeg a target s) := h.slot fun _ _ hi => h.endBundle hi

theorem Keeps.execEvt {a code} : Goes s₀ (execEvt a code s) := h.slot fun _ _ hi => h.raise.endBundle hi

theorem Keeps.execHalt {a} : Goes s₀ (execHalt a s) := h.slot fun _ _ hi => h.putB.putB.endBundle hi

theorem Keeps.execXset {a x value} : Goes s₀ (execXset a x value s) := h.slot fun _ _ hi => h.endBundle hi

theorem Keeps.execOpResultVisible {a} : Goes s₀ (execOpResultVisible a s) := by
  unfold Machine.execOpResultVisible
  split
  · exact .next h
  · next i hi =>
    extract_lets x lim
    cases lim with
    | none => exact .next h
    | some t =>
      dsimp only
      split
      · exact .next (h.engTick (lt_of_engIdx hi))
      · exact .next h

end Sys2Proof.Machine
end

section
/-! SUPPORT. `Keeps` along the operations of Machine/EngineTen.lean. -/

namespace Sys2Proof.Machine

variable {s₀ s : State} (h : Keeps s₀ s)
include h

theorem Keeps.execTenNop {a} : Goes s₀ (execTenNop a s) := h.slot fun _ _ _ => h

theorem Keeps.execMma {a afmt kbM1 rowsM1 rbase buf clr wsel we xsel osa residue} :
    Goes s₀ (execMma a afmt kbM1 rowsM1 rbase buf clr wsel we xsel osa residue s) :=
  h.slot fun _ _ hi => h.setEng hi

theorem Keeps.execLoadw {a wfmt kbM1 wsel xsel osa} : Goes s₀ (execLoadw a wfmt kbM1 wsel xsel osa s) :=
  h.slot fun _ _ hi => h.setEng hi

theorem Keeps.execDrain {a fmt rm raw smode buf rowsM1 rbase os xsel osa} :
    Goes s₀ (execDrain a fmt rm raw smode buf rowsM1 rbase os xsel osa s) :=
  h.slot fun _ _ hi => h.setEng hi

theorem Keeps.execAccadd {a buf rowsM1 rbase clr we xsel osa} :
    Goes s₀ (execAccadd a buf rowsM1 rbase clr we xsel osa s) :=
  h.slot fun _ _ hi => h.setEng hi

end Sys2Proof.Machine
end

section
/-! SUPPORT. `Keeps` along the operations of Machine/EngineVec.lean. -/

namespace Sys2Proof.Machine

variable {s₀ s : State} (h : Keeps s₀ s)
include h

theorem Keeps.vecOp {a : Eng} {ok : Bool} {vd : BitVec 6} {lat : Nat} {f : Nat → EngineSt → List Word} :
    Goes s₀ (s.vecOp a ok vd lat f) :=
  h.slot fun _ _ hi => h.setEng hi

theorem Keeps.vec1 {a : Eng} {vd va : BitVec 6} {lat : Nat} {f : Word → Word} :
    Goes s₀ (s.vec1 a vd va lat f) := h.vecOp

theorem Keeps.vec2 {a : Eng} {vd va vb : BitVec 6} {lat : Nat} {f : Word → Word → Word} :
    Goes s₀ (s.vec2 a vd va vb lat f) := h.vecOp

theorem Keeps.vec3 {a : Eng} {vd va vb vc : BitVec 6} {lat : Nat} {f : Word → Word → Word → Word} :
    Goes s₀ (s.vec3 a vd va vb vc lat f) := h.vecOp

theorem Keeps.execVnop {a} : Goes s₀ (execVnop a s) := h.slot fun _ _ _ => h

theorem Keeps.execVadd {a vd va vb} : Goes s₀ (execVadd a vd va vb s) := h.vec2

theorem Keeps.execVsub {a vd va vb} : Goes s₀ (execVsub a vd va vb s) := h.vec2

theorem Keeps.execVmul {a vd va vb} : Goes s₀ (execVmul a vd va vb s) := h.vec2

theorem Keeps.execVfma {a vd va vb vc} : Goes s₀ (execVfma a vd va vb vc s) := h.vec3

theorem Keeps.execVmax {a vd va vb} : Goes s₀ (execVmax a vd va vb s) := h.vec2

theorem Keeps.execVmin {a vd va vb} : Goes s₀ (execVmin a vd va vb s) := h.vec2

theorem Keeps.execVabs {a vd va} : Goes s₀ (execVabs a vd va s) := h.vec1

theorem Keeps.execVneg {a vd va} : Goes s₀ (execVneg a vd va s) := h.vec1

theorem Keeps.execVaddi {a vd va imm} : Goes s₀ (execVaddi a vd va imm s) := h.vec1

theorem Keeps.execVmuli {a vd va imm} : Goes s₀ (execVmuli a vd va imm s) := h.vec1

theorem Keeps.execVmovi {a vd imm} : Goes s₀ (execVmovi a vd imm s) := h.vecOp

theorem Keeps.execVmov {a vd va} : Goes s₀ (execVmov a vd va s) := h.vec1

theorem Keeps.execVcmp {a vd va vb cond} : Goes s₀ (execVcmp a vd va vb cond s) := h.vecOp

theorem Keeps.execVsel {a vd va vb vc} : Goes s₀ (execVsel a vd va vb vc s) := h.vec3

theorem Keeps.execViadd {a vd va vb} : Goes s₀ (execViadd a vd va vb s) := h.vec2

theorem Keeps.execVisub {a vd va vb} : Goes s₀ (execVisub a vd va vb s) := h.vec2

theorem Keeps.execVand {a vd va vb} : Goes s₀ (execVand a vd va vb s) := h.vec2

theorem Keeps.execVor {a vd va vb} : Goes s₀ (execVor a vd va vb s) := h.vec2

theorem Keeps.execVxor {a vd va vb} : Goes s₀ (execVxor a vd va vb s) := h.vec2

theorem Keeps.execVshl {a vd va count} : Goes s₀ (execVshl a vd va count s) := h.vec1

theorem Keeps.execVshr {a vd va count} : Goes s₀ (execVshr a vd va count s) := h.vec1

theorem Keeps.execVshra {a vd va count} : Goes s₀ (execVshra a vd va count s) := h.vec1

theorem Keeps.execVexp2 {a vd va} : Goes s₀ (execVexp2 a vd va s) := h.vec1

theorem Keeps.execVlog2 {a vd va} : Goes s₀ (execVlog2 a vd va s) := h.vec1

theorem Keeps.execVrcp {a vd va} : Goes s₀ (execVrcp a vd va s) := h.vec1

theorem Keeps.execVrsqrt {a vd va} : Goes s₀ (execVrsqrt a vd va s) := h.vec1

theorem Keeps.execVcvtf {a vd va vb fmt rm} : Goes s₀ (execVcvtf a vd va vb fmt rm s) := h.vecOp

theorem Keeps.execVcvtn {a vd va vb fmt rm} : Goes s₀ (execVcvtn a vd va vb fmt rm s) := h.vecOp

theorem Keeps.execVbmax {a vd va fmt rm} : Goes s₀ (execVbmax a vd va fmt rm s) := h.vecOp

theorem Keeps.execVftoi {a vd va rm} : Goes s₀ (execVftoi a vd va rm s) := h.vecOp

theorem Keeps.execVitof {a vd va rm} : Goes s₀ (execVitof a vd va rm s) := h.vecOp

theorem Keeps.execVrsum {a vd va} : Goes s₀ (execVrsum a vd va s) := h.vecOp

theorem Keeps.execVrmax {a vd va} : Goes s₀ (execVrmax a vd va s) := h.vecOp

theorem Keeps.execVld {a vd xsel osa} : Goes s₀ (execVld a vd xsel osa s) := h.vecOp

theorem Keeps.execVst {a va xsel osa} : Goes s₀ (execVst a va xsel osa s) := h.slot fun _ _ hi => h.setEng hi

end Sys2Proof.Machine
end

section
/-! SUPPORT. `Keeps` along the operations of Machine/Side.lean. -/

namespace Sys2Proof.Machine

variable {s₀ s : State} (h : Keeps s₀ s)
include h

theorem Keeps.i3c {f : State → State} (hf : ∀ s, Keeps s₀ s → Keeps s₀ (f s)) : Keeps s₀ (s.i3c f) :=
  Keeps.ite (hf _ h.sideTouch) h

theorem Keeps.toI3c {addr : BitVec 7} : Keeps s₀ (s.toI3c addr) := h.put.put

theorem Keeps.execEntdaa {addr} : Goes s₀ (execEntdaa addr s) := .next (Keeps.ite h.sideTouch.toI3c h)

theorem Keeps.execSetdasa {static addr} : Goes s₀ (execSetdasa static addr s) :=
  .next (Keeps.ite h.sideTouch.toI3c h)

theorem Keeps.execRstdaa : Goes s₀ (execRstdaa s) := .next (Keeps.ite h.sideTouch.put.put.same h)

theorem Keeps.execSetnewda {addr} : Goes s₀ (execSetnewda addr s) := .next (Keeps.ite h.sideTouch.put h)

theorem Keeps.execGetpid : Goes s₀ (execGetpid s) := .next (h.i3c (fun _ h => h.emit))

theorem Keeps.execGetbcr : Goes s₀ (execGetbcr s) := .next (h.i3c (fun _ h => h.emit))

theorem Keeps.execGetdcr : Goes s₀ (execGetdcr s) := .next (h.i3c (fun _ h => h.emit))

theorem Keeps.execGetstatus : Goes s₀ (execGetstatus s) := .next (h.i3c (fun _ h => h.emit))

theorem Keeps.execEnec : Goes s₀ (execEnec s) := .next (h.i3c (fun _ h => h.same))

theorem Keeps.execDisec : Goes s₀ (execDisec s) := .next (h.i3c (fun _ h => h.same))

theorem Keeps.sideServe {smbus : Bool} {f : State → State × SideReply}
    (hf : ∀ s, Keeps s₀ s → Keeps s₀ (f s).1) :
    Keeps s₀ (s.sideServe smbus f) :=
  h.sideRx fun _ h => (hf _ h).sideReply

theorem Keeps.execSetEndpointId {smbus eid} : Goes s₀ (execSetEndpointId smbus eid s) :=
  .next (h.sideServe fun _ h => h.put.putB)

theorem Keeps.execGetEndpointId {smbus} : Goes s₀ (execGetEndpointId smbus s) :=
  .next (h.sideServe fun _ h => h)

theorem Keeps.execGetMctpVersionSupport {smbus type} : Goes s₀ (execGetMctpVersionSupport smbus type s) :=
  .next (h.sideServe fun _ h => h)

theorem Keeps.execGetMessageTypeSupport {smbus} : Goes s₀ (execGetMessageTypeSupport smbus s) :=
  .next (h.sideServe fun _ h => h)

theorem Keeps.execGetVendorDefinedMessageSupport {smbus selector} :
    Goes s₀ (execGetVendorDefinedMessageSupport smbus selector s) :=
  .next (h.sideServe fun _ h => h)

theorem Keeps.execMctpMsgTimeout {tag} : Goes s₀ (execMctpMsgTimeout tag s) := .next h.same

theorem Keeps.canServe {smbus : Bool} {q : CanReq} : Keeps s₀ (s.canServe smbus q) := by
  unfold State.canServe
  split
  · exact h.sideReply
  · exact h.put.sideReply
  · exact h.sideReply
  · exact h.sideReply
  · exact h.sideReply
  · exact h.sideReply
  · exact h.sideReply
  · exact h.sideReply

theorem Keeps.sideDrain : Keeps s₀ s.sideDrain := Keeps.ite h (h.same.foldl fun _ _ h => h.canServe)

theorem Keeps.sideAsk {smbus : Bool} {q : CanReq} : Keeps s₀ (s.sideAsk smbus q) :=
  h.sideRx (fun _ h => h.same.sideDrain)

theorem Keeps.execGetEndpointUuid {smbus} : Goes s₀ (execGetEndpointUuid smbus s) := .next h.sideAsk

theorem Keeps.execSetTid {smbus tid} : Goes s₀ (execSetTid smbus tid s) := .next h.sideAsk

theorem Keeps.execGetTid {smbus} : Goes s₀ (execGetTid smbus s) := .next h.sideAsk

theorem Keeps.execGetPldmVersion {smbus type} : Goes s₀ (execGetPldmVersion smbus type s) := .next h.sideAsk

theorem Keeps.execGetPldmTypes {smbus} : Goes s₀ (execGetPldmTypes smbus s) := .next h.sideAsk

theorem Keeps.execGetPldmCommands {smbus type} : Goes s₀ (execGetPldmCommands smbus type s) := .next h.sideAsk

theorem Keeps.execGetPdrRepositoryInfo {smbus} : Goes s₀ (execGetPdrRepositoryInfo smbus s) := .next h.sideAsk

theorem Keeps.execGetPdr {smbus handle} : Goes s₀ (execGetPdr smbus handle s) := .next h.sideAsk

theorem Keeps.execGetSensorReading {smbus sensor} : Goes s₀ (execGetSensorReading smbus sensor s) :=
  .next (h.sideServe fun _ h => by split <;> exact h)

theorem Keeps.effecterSet {effecter : Nat} {value : Word} : Keeps s₀ (s.effecterSet effecter value).1 := by
  dsimp only [State.effecterSet]
  split
  · split
    · dsimp only
      exact h.rackCapWrite
    · exact h
  · split
    · split
      · dsimp only
        exact h.telemModeWrite
      · exact h
    · exact h

theorem Keeps.execSetNumericEffecterValue {smbus effecter value} :
    Goes s₀ (execSetNumericEffecterValue smbus effecter value s) :=
  .next (h.sideServe fun _ h => h.effecterSet)

theorem Keeps.execGetNumericEffecterValue {smbus effecter} :
    Goes s₀ (execGetNumericEffecterValue smbus effecter s) := .next (h.sideServe fun _ h => h)

theorem Keeps.sideRegs {off n : Nat} : Keeps s₀ (s.sideRegs off n).1 := by
  induction n generalizing s off with
  | zero => exact h
  | succ n ih => exact ih h.readReg

theorem Keeps.execRegRead {smbus off n} : Goes s₀ (execRegRead smbus off n s) :=
  .next (h.sideServe fun _ h => by
    split
    · exact h
    · exact h.sideRegs)

theorem Keeps.execRegWrite {smbus off value} : Goes s₀ (execRegWrite smbus off value s) :=
  .next (h.sideServe fun _ h => by
    dsimp only
    split
    · exact h
    · dsimp only
      exact h.regWrite)

theorem Keeps.pldmAck : Keeps s₀ s.pldmAck := h.same.sideAlert

theorem Keeps.execSetEventReceiver {smbus eid} : Goes s₀ (execSetEventReceiver smbus eid s) :=
  .next (h.sideServe fun _ h => h.putB.same)

theorem Keeps.execPlatformEventMessage : Goes s₀ (execPlatformEventMessage s) := by
  unfold Machine.execPlatformEventMessage
  split
  · exact .next h
  · exact Goes.ite (.next h.emit.emit.bumpW.same) (.next h)

theorem Keeps.execPlatformEventAck : Goes s₀ (execPlatformEventAck s) :=
  .next (Keeps.ite h.sideTouch.bumpW.pldmAck h)

theorem Keeps.execPollForPlatformEventMessage {smbus ack} :
    Goes s₀ (execPollForPlatformEventMessage smbus ack s) :=
  .next (h.sideServe fun _ h => by
    split
    · split
      · exact h.pldmAck
      · exact h
    · split
      · exact h
      · exact h.same)

theorem Keeps.execEventMessageSupported {smbus} : Goes s₀ (execEventMessageSupported smbus s) :=
  .next (h.sideServe fun _ h => h)

theorem Keeps.execEventMessageBufferSize {smbus} : Goes s₀ (execEventMessageBufferSize smbus s) :=
  .next (h.sideServe fun _ h => h)

theorem Keeps.execTraySilent : Goes s₀ (execTraySilent s) := Goes.ite (.next h.same.putB.raise) (.next h)

end Sys2Proof.Machine
end

section
/-! SUPPORT. `Keeps` along the operations of Machine/Tick.lean. -/

namespace Sys2Proof.Machine

variable {s₀ s : State} (h : Keeps s₀ s)
include h

/-- A flit takes a credit of its pool, where its class has one. -/
theorem Keeps.svcTakeCredit {l : Nat} {o : Option Nat} (hl : l < 96) : Keeps s₀ (match o with
    | some p =>
      let s := s.put (creditFld l p) (s.get (creditFld l p) - 1)
      let x := s.link l
      let q : Pool := aget {} x.pools p
      s.setLink l { x with pools := aset {} x.pools p { q with txSeq := q.txSeq + 1 } }
    | none => s) := by
  split
  · exact h.put.setLink hl
  · exact h

theorem Keeps.svcSendFlit {l : Nat} {m : SvcTx} (hl : l < 96) : Keeps s₀ (s.svcSendFlit l m) :=
  (h.emit.svcTakeCredit hl).andThen fun h => Keeps.ite (h.setLink hl) (h.setLink hl)

theorem Keeps.svcTick {l : Nat} (hl : l < 96) : Keeps s₀ (s.svcTick l) := by
  unfold State.svcTick
  split
  · exact h.setLink hl
  · extract_lets ready x waited s1
    have h1 : Keeps s₀ s1 := h.setLink hl
    split
    · exact (h1.setLink hl).emit
    · split
      · exact h1.svcSendFlit hl
      · exact h1

theorem Keeps.creditTick {l : Nat} (hl : l < 96) : Keeps s₀ (s.creditTick l) := by
  dsimp only [State.creditTick]
  split
  · exact h
  · exact (h.setLink hl).emit

theorem Keeps.linkTick {l : Nat} (hl : l < 96) : Keeps s₀ (s.linkTick l) := by
  refine Keeps.ite ?_ h
  split
  · exact h.emit
  · refine Keeps.ite ?_ h
    split
    · exact (h.setLink hl).emit
    · exact h
  · exact (h.svcTick hl).creditTick hl
  · exact h.creditTick hl

theorem Keeps.linksTick : Keeps s₀ s.linksTick :=
  (h.foldlOn fun _ hx _ h => h.linkTick (List.mem_range.1 (List.mem_filter.1 hx).1)).same

theorem Keeps.snoopApply {k : Nat} : Keeps s₀ (s.snoopApply k) := by
  dsimp only [State.snoopApply]
  split
  · exact h
  · exact Keeps.ite h h.setCore.put.wr

end Sys2Proof.Machine
end


section
/-! SUPPORT. What every command and every tick keeps, and the step made of them. -/

namespace Sys2Proof.Machine

/-- Every command goes on, and its next state keeps what `Keeps` says. -/
theorem Keeps.exec {s₀ s : State} (h : Keeps s₀ s) (c : Instr) : Goes s₀ (exec c s) := by
  cases c with
  | registerWrite => exact h.execRegisterWrite
  | readClear => exact h.execReadClear
  | pairLoRead => exact h.execPairLoRead
  | pairLoWrite => exact h.execPairLoWrite
  | pairHiWrite => exact h.execPairHiWrite
  | debugRead => exact h.execDebugRead
  | fnEnable => exact h.execFnEnable
  | fnDisable => exact h.execFnDisable
  | fnReset => exact h.execFnReset
  | fnResetDone => exact h.execFnResetDone
  | startSeqDone => exact h.execStartSeqDone
  | startSeqFail => exact h.execStartSeqFail
  | internalFault => exact h.execInternalFault
  | shutdownDone => exact h.execShutdownDone
  | fenceTagWrite => exact h.execFenceTagWrite
  | fenceDoneRead => exact h.execFenceDoneRead
  | fenceDoneTimeout => exact h.execFenceDoneTimeout
  | refLost => exact h.execRefLost
  | holdoverExpired => exact h.execHoldoverExpired
  | refAccepted => exact h.execRefAccepted
  | refRestored => exact h.execRefRestored
  | pllUnlock => exact h.execPllUnlock
  | pllRelock => exact h.execPllRelock
  | refclkWaitTimeout => exact h.execRefclkWaitTimeout
  | syncStart => exact h.execSyncStart
  | syncRx => exact h.execSyncRx
  | checkSend => exact h.execCheckSend
  | checkRx => exact h.execCheckRx
  | syncTimeout => exact h.execSyncTimeout
  | marginLow => exact h.execMarginLow
  | skipFlitRx => exact h.execSkipFlitRx
  | elasticOverrun => exact h.execElasticOverrun
  | laneLockLoss => exact h.execLaneLockLoss
  | nop => exact h.execNop
  | wait => exact h.execWait
  | waitExpire => exact h.execWaitExpire
  | loop => exact h.execLoop
  | endloop => exact h.execEndloop
  | epochWait => exact h.execEpochWait
  | epochWaitRelease => exact h.execEpochWaitRelease
  | fence => exact h.execFence
  | fenceResume => exact h.execFenceResume
  | seg => exact h.execSeg
  | evt => exact h.execEvt
  | halt => exact h.execHalt
  | xset => exact h.execXset
  | tenNop => exact h.execTenNop
  | mma => exact h.execMma
  | loadw => exact h.execLoadw
  | drain => exact h.execDrain
  | accadd => exact h.execAccadd
  | vnop => exact h.execVnop
  | vadd => exact h.execVadd
  | vsub => exact h.execVsub
  | vmul => exact h.execVmul
  | vfma => exact h.execVfma
  | vmax => exact h.execVmax
  | vmin => exact h.execVmin
  | vabs => exact h.execVabs
  | vneg => exact h.execVneg
  | vaddi => exact h.execVaddi
  | vmuli => exact h.execVmuli
  | vmovi => exact h.execVmovi
  | vmov => exact h.execVmov
  | vcmp => exact h.execVcmp
  | vsel => exact h.execVsel
  | viadd => exact h.execViadd
  | visub => exact h.execVisub
  | vand => exact h.execVand
  | vor => exact h.execVor
  | vxor => exact h.execVxor
  | vshl => exact h.execVshl
  | vshr => exact h.execVshr
  | vshra => exact h.execVshra
  | vexp2 => exact h.execVexp2
  | vlog2 => exact h.execVlog2
  | vrcp => exact h.execVrcp
  | vrsqrt => exact h.execVrsqrt
  | vcvtf => exact h.execVcvtf
  | vcvtn => exact h.execVcvtn
  | vbmax => exact h.execVbmax
  | vftoi => exact h.execVftoi
  | vitof => exact h.execVitof
  | vrsum => exact h.execVrsum
  | vrmax => exact h.execVrmax
  | vld => exact h.execVld
  | vst => exact h.execVst
  | mnop a slot => exact h.execMnop (slot := slot)
  | ld a slot => exact h.execLd (slot := slot)
  | st a slot => exact h.execSt (slot := slot)
  | seta a slot => exact h.execSeta (slot := slot)
  | adda a slot => exact h.execAdda (slot := slot)
  | send a slot => exact h.execSend (slot := slot)
  | recv a slot => exact h.execRecv (slot := slot)
  | gather a slot => exact h.execGather (slot := slot)
  | scatter a slot => exact h.execScatter (slot := slot)
  | dmat a slot => exact h.execDmat (slot := slot)
  | opResultVisible => exact h.execOpResultVisible
  | scrubTick => exact h.execScrubTick
  | bgAccess => exact h.execBgAccess
  | bgHeldServe => exact h.execBgHeldServe
  | xbarLineRx => exact h.execXbarLineRx
  | dmaSchedStart => exact h.execDmaSchedStart
  | dmaComplete => exact h.execDmaComplete
  | foldDone => exact h.execFoldDone
  | issue => exact h.execIssue
  | unload => exact h.execUnload
  | abortVote => exact h.execAbortVote
  | endReq => exact h.execEndReq
  | groupEpochStart => exact h.execGroupEpochStart
  | gcmRx => exact h.execGcmRx
  | stepStart => exact h.execStepStart
  | voteSample => exact h.execVoteSample
  | commitTick => exact h.execCommitTick
  | paceFaultLinkDown => exact h.execPaceFaultLinkDown
  | holdReached => exact h.execHoldReached
  | idleReached => exact h.execIdleReached
  | abortRx => exact h.execAbortRx
  | standDisarm => exact h.execStandDisarm
  | trainPhaseDone => exact h.execTrainPhaseDone
  | trainPhaseTimeout => exact h.execTrainPhaseTimeout
  | detectTimeout => exact h.execDetectTimeout
  | markRx => exact h.execMarkRx
  | echoRx => exact h.execEchoRx
  | flitRx => exact h.execFlitRx
  | serviceMsgRx => exact h.execServiceMsgRx
  | serviceAckRx => exact h.execServiceAckRx
  | serviceResendTimeout => exact h.execServiceResendTimeout
  | rreqGo => exact h.execRreqGo
  | regReqRx => exact h.execRegReqRx
  | regRspRx => exact h.execRegRspRx
  | rreqTimeout => exact h.execRreqTimeout
  | takedownNoticeRx => exact h.execTakedownNoticeRx
  | takedownComplete => exact h.execTakedownComplete
  | reduceAdd => exact h.execReduceAdd
  | reduceSink => exact h.execReduceSink
  | lpddrFrame => exact h.execLpddrFrame
  | lpddrRefresh => exact h.execLpddrRefresh
  | refreshRateChange => exact h.execRefreshRateChange
  | lpddrScrub => exact h.execLpddrScrub
  | lpddrFoldDone => exact h.execLpddrFoldDone
  | pcieLinkUp => exact h.execPcieLinkUp
  | pcieLinkDown => exact h.execPcieLinkDown
  | aerError => exact h.execAerError
  | flr => exact h.execFlr
  | hotReset => exact h.execHotReset
  | perstAssert => exact h.execPerstAssert
  | perstDeassert => exact h.execPerstDeassert
  | configRequest => exact h.execConfigRequest
  | bar2Read => exact h.execBar2Read
  | bar2Write => exact h.execBar2Write
  | bar2ReadAbort => exact h.execBar2ReadAbort
  | msixSend => exact h.execMsixSend
  | msixUnmask => exact h.execMsixUnmask
  | dmaStart => exact h.execDmaStart
  | dmaCompletionRx => exact h.execDmaCompletionRx
  | dmaDescComplete => exact h.execDmaDescComplete
  | dmaStop => exact h.execDmaStop
  | dmaStopDone => exact h.execDmaStopDone
  | completionTimeout => exact h.execCompletionTimeout
  | submitScan => exact h.execSubmitScan
  | cqRecordWrite => exact h.execCqRecordWrite
  | cqHeadWrite => exact h.execCqHeadWrite
  | hostAlive => exact h.execHostAlive
  | aliveLost => exact h.execAliveLost
  | coreHang => exact h.execCoreHang
  | generate => exact h.execGenerate
  | cancel => exact h.execCancel
  | admissionPoint => exact h.execAdmissionPoint
  | tokenHarvest => exact h.execTokenHarvest
  | seqStandEnd => exact h.execSeqStandEnd
  | seqFault => exact h.execSeqFault
  | sampleStream => exact h.execSampleStream
  | sampleResult => exact h.execSampleResult
  | pumpEn => exact h.execPumpEn
  | pumpStartOk => exact h.execPumpStartOk
  | pumpStartTimeout => exact h.execPumpStartTimeout
  | pumpRetry => exact h.execPumpRetry
  | pumpCheck => exact h.execPumpCheck
  | pumpDis => exact h.execPumpDis
  | pumpStopDone => exact h.execPumpStopDone
  | valveSet => exact h.execValveSet
  | valvePeakStart => exact h.execValvePeakStart
  | valveStartLate => exact h.execValveStartLate
  | valvePeakEnd => exact h.execValvePeakEnd
  | valveDecayEnd => exact h.execValveDecayEnd
  | bankFault => exact h.execBankFault
  | bankReclose => exact h.execBankReclose
  | coilFault => exact h.execCoilFault
  | openIn => exact h.execOpenIn
  | closeIn => exact h.execCloseIn
  | openOut => exact h.execOpenOut
  | closeOut => exact h.execCloseOut
  | isoMoved => exact h.execIsoMoved
  | leakSample => exact h.execLeakSample
  | leakPumpsOff => exact h.execLeakPumpsOff
  | leakCloseV24 => exact h.execLeakCloseV24
  | leakCloseV25 => exact h.execLeakCloseV25
  | coolantSample => exact h.execCoolantSample
  | inputTimeout => exact h.execInputTimeout
  | flowStopClear => exact h.execFlowStopClear
  | powerSample => exact h.execPowerSample
  | tempSample => exact h.execTempSample
  | governorRun => exact h.execGovernorRun
  | coolingLevelFall => exact h.execCoolingLevelFall
  | flowEnd => exact h.execFlowEnd
  | runOkSet => exact h.execRunOkSet
  | rackCapWrite => exact h.execRackCapWrite
  | hostCapWrite => exact h.execHostCapWrite
  | telemModeWrite => exact h.execTelemModeWrite
  | telemWindowClose => exact h.execTelemWindowClose
  | oscMeasure => exact h.execOscMeasure
  | noHolderTimeout => exact h.execNoHolderTimeout
  | tableModeExit => exact h.execTableModeExit
  | analogTrip => exact h.execAnalogTrip
  | shdnRelease => exact h.execShdnRelease
  | islandLogForward => exact h.execIslandLogForward
  | claim => exact h.execClaim
  | release => exact h.execRelease
  | heartbeat => exact h.execHeartbeat
  | resumed => exact h.execResumed
  | watchdogExpire => exact h.execWatchdogExpire
  | selfDiag => exact h.execSelfDiag
  | seizeOk => exact h.execSeizeOk
  | overlapEnd => exact h.execOverlapEnd
  | tokenRevoke => exact h.execTokenRevoke
  | shadowRebuildDone => exact h.execShadowRebuildDone
  | coreRestart => exact h.execCoreRestart
  | standbyRailGood => exact h.execStandbyRailGood
  | standbyRailLost => exact h.execStandbyRailLost
  | pwrOkAssert => exact h.execPwrOkAssert
  | staggerDone => exact h.execStaggerDone
  | pwrOkDeassert => exact h.execPwrOkDeassert
  | vinUndervolt => exact h.execVinUndervolt
  | bootStepDone => exact h.execBootStepDone
  | bootStepFail => exact h.execBootStepFail
  | katPassDone => exact h.execKatPassDone
  | bootCtrlGo => exact h.execBootCtrlGo
  | bootCtrlDone => exact h.execBootCtrlDone
  | serviceReq => exact h.execServiceReq
  | restart => exact h.execRestart
  | hold => exact h.execHold
  | wake => exact h.execWake
  | dwoodSel => exact h.execDwoodSel
  | dwoodClear => exact h.execDwoodClear
  | rejoin => exact h.execRejoin
  | resume => exact h.execResume
  | resumeReqRx => exact h.execResumeReqRx
  | resumeAnswerRx => exact h.execResumeAnswerRx
  | resumeTimeout => exact h.execResumeTimeout
  | releaseRx => exact h.execReleaseRx
  | releaseTick => exact h.execReleaseTick
  | unloadMsgRx => exact h.execUnloadMsgRx
  | loadStart => exact h.execLoadStart
  | manifestRx => exact h.execManifestRx
  | chunkRx => exact h.execChunkRx
  | imageEndRx => exact h.execImageEndRx
  | repairReqRx => exact h.execRepairReqRx
  | repairReplyRx => exact h.execRepairReplyRx
  | repairRetry => exact h.execRepairRetry
  | armReadyRx => exact h.execArmReadyRx
  | armRefusedRx => exact h.execArmRefusedRx
  | loadCancel => exact h.execLoadCancel
  | cancelRx => exact h.execCancelRx
  | loadTimeout => exact h.execLoadTimeout
  | armTick => exact h.execArmTick
  | eventRaise => exact h.execEventRaise
  | eventSequence => exact h.execEventSequence
  | eventFwdRx => exact h.execEventFwdRx
  | inject => exact h.execInject
  | rlogWrite => exact h.execRlogWrite
  | rlogIndexDone => exact h.execRlogIndexDone
  | rlogSel => exact h.execRlogSel
  | rlogSeek => exact h.execRlogSeek
  | rlogClear => exact h.execRlogClear
  | rlogClearDone => exact h.execRlogClearDone
  | rlogStatus => exact h.execRlogStatus
  | rlogRead => exact h.execRlogRead
  | newNonce => exact h.execNewNonce
  | nonceExpire => exact h.execNonceExpire
  | verify => exact h.execVerify
  | tokenVerifyDone => exact h.execTokenVerifyDone
  | discard => exact h.execDiscard
  | tokenExpire => exact h.execTokenExpire
  | fuseBlowDone => exact h.execFuseBlowDone
  | fwUpdate => exact h.execFwUpdate
  | fwUpdateDone => exact h.execFwUpdateDone
  | extend => exact h.execExtend
  | reportGo => exact h.execReportGo
  | reportDone => exact h.execReportDone
  | entdaa => exact h.execEntdaa
  | setdasa => exact h.execSetdasa
  | rstdaa => exact h.execRstdaa
  | setnewda => exact h.execSetnewda
  | getpid => exact h.execGetpid
  | getbcr => exact h.execGetbcr
  | getdcr => exact h.execGetdcr
  | getstatus => exact h.execGetstatus
  | enec => exact h.execEnec
  | disec => exact h.execDisec
  | setEndpointId => exact h.execSetEndpointId
  | getEndpointId => exact h.execGetEndpointId
  | getEndpointUuid => exact h.execGetEndpointUuid
  | getMctpVersionSupport => exact h.execGetMctpVersionSupport
  | getMessageTypeSupport => exact h.execGetMessageTypeSupport
  | getVendorDefinedMessageSupport => exact h.execGetVendorDefinedMessageSupport
  | mctpMsgTimeout => exact h.execMctpMsgTimeout
  | setTid => exact h.execSetTid
  | getTid => exact h.execGetTid
  | getPldmVersion => exact h.execGetPldmVersion
  | getPldmTypes => exact h.execGetPldmTypes
  | getPldmCommands => exact h.execGetPldmCommands
  | setEventReceiver => exact h.execSetEventReceiver
  | platformEventMessage => exact h.execPlatformEventMessage
  | pollForPlatformEventMessage => exact h.execPollForPlatformEventMessage
  | eventMessageSupported => exact h.execEventMessageSupported
  | eventMessageBufferSize => exact h.execEventMessageBufferSize
  | getSensorReading => exact h.execGetSensorReading
  | setNumericEffecterValue => exact h.execSetNumericEffecterValue
  | getNumericEffecterValue => exact h.execGetNumericEffecterValue
  | getPdrRepositoryInfo => exact h.execGetPdrRepositoryInfo
  | getPdr => exact h.execGetPdr
  | regRead => exact h.execRegRead
  | regWrite => exact h.execRegWrite
  | traySilent => exact h.execTraySilent
  | svcHeartbeatAdvance => exact h.execSvcHeartbeatAdvance
  | watchdogService => exact h.execWatchdogService
  | platformEventAck => exact h.execPlatformEventAck

/-- A tick does what the module does by itself, and then time passes. -/
theorem tick_eq_timeTick (s : State) : ∃ t, s.tick = t.timeTick ∧ Keeps s t := by
  have h := Keeps.refl s
  by_cases hoff : s.mod.power = .standby
  · exact ⟨s, if_pos hoff, h⟩
  · exact ⟨_, if_neg hoff, h.linksTick.snoopApply.snoopApply.canopyDrain.fwdDrain.sideDrain.stepAgain.lateReduce⟩

theorem step_cons (s : State) (c : Instr) (rest : List Instr) :
    step { s with pending := c :: rest } = exec c { s with pending := rest } := rfl

theorem step_of_nil {s : State} (hq : s.pending = []) : step s = .next s.tick := by
  unfold step
  rw [hq]

theorem step_of_cons {s : State} {c : Instr} {rest : List Instr} (hq : s.pending = c :: rest) :
    step s = exec c { s with pending := rest } := by
  unfold step
  rw [hq]

/-! The queue of commands and the passing of time are no part of the canonical form or of the units. -/

@[simp] theorem canonical_pending (s : State) (q : List Instr) : ({ s with pending := q }).canonical =
  s.canonical := rfl
@[simp] theorem unitsInRange_pending (s : State) (q : List Instr) : ({ s with pending := q }).unitsInRange =
  s.unitsInRange := rfl
@[simp] theorem canonical_timeTick (s : State) : s.timeTick.canonical = s.canonical := rfl
@[simp] theorem unitsInRange_timeTick (s : State) : s.timeTick.unitsInRange = s.unitsInRange := rfl

/-- With no 48 V a tick passes nothing but time and the epoch's phase. -/
theorem tick_of_powerAbsent {s : State} (hoff : s.powerAbsent = true) : s.tick = { s with
    now := s.now + 1
    stand := { s.stand with phase := if s.stand.epochs then s.stand.phase + 1 else s.stand.phase } } := by
  have hpower : s.mod.power = .standby := of_decide_eq_true hoff
  simp only [State.tick, State.timeTick, hpower, if_true]

/-- A tick takes one tick and puts no command in the queue. -/
theorem tick_now_pending (s : State) : s.tick.now = s.now + 1 ∧ s.tick.pending = s.pending := by
  obtain ⟨t, ht, hk⟩ := tick_eq_timeTick s
  rw [ht]
  exact ⟨congrArg (· + 1) hk.now, hk.pending⟩

end Sys2Proof.Machine
end

section
namespace Sys2Proof.Machine

/-- Settles O1: the first part is the definition of a step; an idle step is a tick, which lets time pass once and, without 48 V, does
nothing else. -/
theorem aStepRunsTheCommandInFront : Obligations.AStepRunsTheCommandInFront := by
  unfold Obligations.AStepRunsTheCommandInFront
  refine ⟨step_cons, fun s hq hoff => ⟨s.tick, step_of_nil hq, ?_⟩, fun s hq => ⟨s.tick, step_of_nil hq, ?_⟩⟩
  · rw [tick_of_powerAbsent hoff]
    exact ⟨rfl, rfl⟩
  · obtain ⟨hnow, hpending⟩ := tick_now_pending s
    exact ⟨hnow, hpending.trans hq⟩

/-- Settles O4: every operation that a command or a tick is made of keeps `Keeps`, and `Keeps` carries the canonical form and the units in
range from the state before the step. -/
theorem everyStepKeepsTheStateCanonicalAndInRange : Obligations.EveryStepKeepsTheStateCanonicalAndInRange :=
  by
  unfold Obligations.EveryStepKeepsTheStateCanonicalAndInRange
  intro s t hstep
  cases hq : s.pending with
  | nil =>
    rw [step_of_nil hq] at hstep
    cases hstep
    obtain ⟨u, hu, hk⟩ := tick_eq_timeTick s
    rw [hu, canonical_timeTick, unitsInRange_timeTick]
    exact ⟨hk.canonical, hk.unitsInRange⟩
  | cons c rest =>
    obtain ⟨u, hu, hk⟩ := (Keeps.refl { s with pending := rest }).exec c
    rw [step_of_cons hq, hu] at hstep
    cases hstep
    exact ⟨hk.canonical, hk.unitsInRange⟩

end Sys2Proof.Machine
end

section
namespace Sys2Proof.Machine

/-- A run whose first step answers `t` goes on from `t`. -/
theorem run_succ_of_step {M : Host.Core} {s t : M.State} (hstep : M.step s = .next t) (n : Nat) : M.run (n + 1) s = M.run n t := by
  simp only [Host.Core.run, hstep]

/-- Any number of steps from any state meets neither a fault nor a refusal. -/
theorem safe_of_any (s : State) : safe s := by
  intro n
  induction n generalizing s with
  | zero => exact ⟨s, rfl⟩
  | succ n ih =>
    have hstep : ∃ t, step s = .next t := by
      cases hq : s.pending with
      | nil => exact ⟨s.tick, step_of_nil hq⟩
      | cons c rest =>
        obtain ⟨t, ht, _⟩ := (Keeps.refl { s with pending := rest }).exec c
        exact ⟨t, (step_of_cons hq).trans ht⟩
    obtain ⟨t, ht⟩ := hstep
    obtain ⟨u, hu⟩ := ih t
    exact ⟨u, (run_succ_of_step (M := core) ht n).trans hu⟩

/-- Settles O3: `Keeps.exec` answers a next state for every command, and a step is a command or a tick. -/
theorem noCommandStopsTheModule : Obligations.NoCommandStopsTheModule := by
  unfold Obligations.NoCommandStopsTheModule
  refine ⟨fun c s => ?_, safe_of_any⟩
  obtain ⟨t, ht, _⟩ := (Keeps.refl s).exec c
  exact ⟨t, ht⟩

theorem reset_rd (o : Nat) : State.reset.rd o = resetOf o := rfl

/-- The STATUS register of each of the 96 links resets with LSTATE OFF. -/
theorem reset_lstate {l : Nat} (hl : l < 96) : State.reset.lstate l = lsOff := by
  have h : ∀ l : Fin 96, bitsOf (resetOf (F.LINK_STATUS_LSTATE l.val).off) (F.LINK_STATUS_LSTATE l.val).lo
      (F.LINK_STATUS_LSTATE l.val).w = lsOff := by decide
  exact h ⟨l, hl⟩

/-- Settles O2: nothing is listed in the state after reset, so every register reads its table's reset value. -/
theorem resetStateIsAsTheTablesGive : Obligations.ResetStateIsAsTheTablesGive := by
  unfold Obligations.ResetStateIsAsTheTablesGive
  refine ⟨rfl, rfl, rfl, rfl, rfl, rfl, reset_rd, ?_, ?_, fun l hl => reset_lstate hl, rfl, rfl, rfl, ?_, ?_, ?_, ?_⟩ <;> decide

end Sys2Proof.Machine
end

section
/-! SUPPORT. `Steady s₀ s`: what the operations of the units leave of the module's own state. A loss of power and a start are made of many
of them; what such a sequence leaves follows from its few steps that are not steady. -/

namespace Sys2Proof.Machine

/-- The fields that only the module's own transitions write. -/
def steadyFlds : List Fld := [F.MODULE_MSTATE_STATE, F.MODULE_MSTATE_BOOT_STEP, F.MODULE_MSTATE_WAIT, F.MODULE_MSTATE_BOOT_FAIL,
  ⟨Reg.MODULE_BOOT_COUNT, 0, 32⟩, F.MODULE_STRAPS_TRIP_SEL, ⟨Hdr.OWNER P.MODULE, 0, 32⟩, F.ARB_TOKEN_HOLDER, F.GLADE_TRIP_STRAP,
  F.COOLANT_LEAK_INFO_LATCHED]

/-- A register that holds none of them. -/
abbrev Aside (o : Nat) : Prop := ∀ g ∈ steadyFlds, g.off ≠ o

/-- A field that overlaps none of them. -/
abbrev AsideFld (f : Fld) : Prop := f.lo + f.w ≤ 32 ∧ ∀ g ∈ steadyFlds, f.disj g = true

theorem aside_iff {o : Nat} : Aside o ↔ o ≠ 0x24 ∧ o ≠ 0x40 ∧ o ≠ 0x50 ∧ o ≠ 0x54 ∧ o ≠ 0x1044 ∧ o ≠ 0xA050 ∧ o ≠ 0xF074 := by
  simp only [Aside, steadyFlds, List.forall_mem_cons, List.not_mem_nil, false_imp_iff, implies_true]
  show (0x40 ≠ o ∧ 0x40 ≠ o ∧ 0x40 ≠ o ∧ 0x40 ≠ o ∧ 0x54 ≠ o ∧ 0x50 ≠ o ∧ 0x24 ≠ o ∧ 0x1044 ≠ o ∧ 0xA050 ≠ o ∧ 0xF074 ≠ o ∧ True) ↔ _
  grind

/-- The pages above that of the coolant inputs, whatever the unit and the register. -/
theorem aside_of_lt {o : Nat} (h : 0xF074 < o) : Aside o := aside_iff.2 (by omega)

/-- The pages between that of the arbiter and Glade's, and those between Glade's and that of the coolant inputs. -/
theorem aside_of_low {o : Nat} (h : 0x1044 < o) (h' : o < 0xA050) : Aside o := aside_iff.2 (by omega)

theorem aside_of_mid {o : Nat} (h : 0xA050 < o) (h' : o < 0xF074) : Aside o := aside_iff.2 (by omega)

/-- The header registers below OWNER, of any page. -/
theorem aside_header {pg k : Nat} (hp : pg % 4096 = 0) (hk : k < 0x24) : Aside (pg + k) := aside_iff.2 (by omega)

/-- The state `s`, reached from `s₀`, has its module state, memory, armed stand, bring-up and time, and the fields of `steadyFlds`. -/
structure Steady (s₀ s : State) : Prop where
  mod   : s.mod = s₀.mod
  mem   : s.mem = s₀.mem
  stand : s.stand = s₀.stand
  boot  : s.boot = s₀.boot
  now   : s.now = s₀.now
  flds  : ∀ f ∈ steadyFlds, s.get f = s₀.get f

variable {s₀ s t : State}

theorem Steady.refl (s : State) : Steady s s := ⟨rfl, rfl, rfl, rfl, rfl, fun _ _ => rfl⟩

theorem Steady.flag (h : Steady s₀ s) {f : Fld} (hf : f ∈ steadyFlds) : s.flag f = s₀.flag f := by
  unfold State.flag
  rw [h.flds f hf]

/-! ## How it is carried along -/

/-- An update of the fields that `Steady` does not speak of. -/
theorem Steady.same {pending out ftime freeCtr ctx evt clk links inbox image engines groves poison bg bgNext reduce lpddr host serve
      sample fluid coolant therm canopy glade group rlog sec side dwood} (h : Steady s₀ s) :
    Steady s₀ { s with
      pending := pending, out := out, ftime := ftime, freeCtr := freeCtr, ctx := ctx, evt := evt, clk := clk, links := links,
      inbox := inbox, image := image, engines := engines, groves := groves, poison := poison, bg := bg, bgNext := bgNext,
      reduce := reduce, lpddr := lpddr, host := host, serve := serve, sample := sample, fluid := fluid, coolant := coolant,
      therm := therm, canopy := canopy, glade := glade, group := group, rlog := rlog, sec := sec, side := side, dwood := dwood } :=
  { h with flds := fun f hf => (get_congr rfl f).trans (h.flds f hf) }

theorem Steady.ite {c : Prop} {_ : Decidable c} (hs : Steady s₀ s) (ht : Steady s₀ t) : Steady s₀ (if c then s else t) := by
  split <;> assumption

theorem Steady.onlyIf {c : Prop} {_ : Decidable c} (h : Steady s₀ s) (k : Steady s₀ s → Steady s₀ t) : Steady s₀ (if c then t else s) :=
  (k h).ite h

theorem Steady.onlyIfNot {c : Prop} {_ : Decidable c} (h : Steady s₀ s) (k : Steady s₀ s → Steady s₀ t) :
    Steady s₀ (if c then s else t) := h.ite (k h)

theorem Steady.andThen (h : Steady s₀ s) (k : Steady s₀ s → Steady s₀ t) : Steady s₀ t := k h

theorem Steady.foldlOn {α : Type} {f : State → α → State} {l : List α} (h : Steady s₀ s)
    (hf : ∀ x ∈ l, ∀ s, Steady s₀ s → Steady s₀ (f s x)) : Steady s₀ (l.foldl f s) :=
  List.foldlRecOn l f h fun s hs x hx => hf x hx s hs

theorem Steady.foldl {α : Type} {f : State → α → State} {l : List α} (h : Steady s₀ s)
    (hf : ∀ x s, Steady s₀ s → Steady s₀ (f s x)) : Steady s₀ (l.foldl f s) := h.foldlOn fun x _ => hf x

theorem Steady.fold {n : Nat} {f : (i : Nat) → i < n → State → State} (h : Steady s₀ s)
    (hf : ∀ i hi s, Steady s₀ s → Steady s₀ (f i hi s)) : Steady s₀ (n.fold f s) := by
  induction n with
  | zero => exact h
  | succ n ih => exact hf n _ _ (ih fun i hi => hf i (by omega))

/-! ## Registers -/

section
variable (h : Steady s₀ s)
include h

/-- An update of the register map that leaves the fields. -/
theorem Steady.setRegs {m : AMap Word} (hm : ∀ f ∈ steadyFlds, Rg.get m f = s.get f) : Steady s₀ { s with regs := m } :=
  { h with flds := fun f hf => (hm f hf).trans (h.flds f hf) }

theorem Steady.wr {o : Nat} {v : Word} (ho : Aside o) : Steady s₀ (s.wr o v) :=
  { h with flds := fun f hf => (get_wr_off s f o v (ho f hf)).trans (h.flds f hf) }

theorem Steady.put {f : Fld} {x : Nat} (ho : Aside f.off) : Steady s₀ (s.put f x) := h.wr ho
theorem Steady.putB {f : Fld} {b : Bool} (ho : Aside f.off) : Steady s₀ (s.putB f b) := h.wr ho
theorem Steady.bump {o n : Nat} (ho : Aside o) : Steady s₀ (s.bump o n) := h.wr ho
theorem Steady.bumpW {o n : Nat} (ho : Aside o) : Steady s₀ (s.bumpW o n) := h.wr ho
theorem Steady.bumpF {f : Fld} {n : Nat} (ho : Aside f.off) : Steady s₀ (s.bumpF f n) := h.wr ho
theorem Steady.wr64 {o : Nat} {v : Dword} (hlo : Aside o) (hhi : Aside (o + 4)) : Steady s₀ (s.wr64 o v) :=
  (h.wr hlo).wr hhi
theorem Steady.bump64 {o n : Nat} (hlo : Aside o) (hhi : Aside (o + 4)) : Steady s₀ (s.bump64 o n) :=
  h.wr64 hlo hhi

/-- Another field of a register that holds one of the steady fields. -/
theorem Steady.putBeside {f : Fld} {x : Nat} (hf : AsideFld f) : Steady s₀ (s.put f x) :=
  { h with flds := fun g hg => (get_put_disj s f g x hf.1 (hf.2 g hg)).trans (h.flds g hg) }

theorem Steady.putBesideB {f : Fld} {b : Bool} (hf : AsideFld f) : Steady s₀ (s.putB f b) := h.putBeside hf

/-- Some registers, none of them with a steady field, go back to their reset values. -/
theorem Steady.regsFilter {p : Nat → Bool} (hp : ∀ o, ¬ Aside o → p o = true) :
    Steady s₀ { s with regs := s.regs.filter fun e => p e.1 } :=
  h.setRegs fun f hf => congrArg (bitsOf · f.lo f.w) (aget_filter _ _ _ p (hp f.off fun ha => ha f hf rfl))

theorem Steady.resetRegs {l : List Nat} (hl : ∀ o ∈ l, Aside o) : Steady s₀ (s.resetRegs l) :=
  h.regsFilter (p := fun o => !l.contains o) fun o ho => by simpa using fun hm => ho (hl o hm)

theorem Steady.resetBlock {pg : Nat} (hp : ∀ o, pg + 0x40 ≤ o → o < pg + 0x1000 → Aside o) : Steady s₀ (s.resetBlock pg) :=
  h.regsFilter (p := fun o => !(decide (pg + 0x40 ≤ o) && decide (o < pg + 0x1000)) || keptReg o) fun o ho => by
    have hout : ¬ (pg + 0x40 ≤ o ∧ o < pg + 0x1000) := fun hin => ho (hp o hin.1 hin.2)
    simp only [← Bool.decide_and, hout, decide_false, Bool.not_false, Bool.true_or]

end
end Sys2Proof.Machine
end

section
/-! SUPPORT. `Steady` along events, page headers, the Deadwood list and the register arbiter. -/

namespace Sys2Proof.Machine

variable {s₀ s : State} (h : Steady s₀ s)
include h

theorem Steady.emit {o : Out} : Steady s₀ (s.emit o) := h.same
theorem Steady.setLink {l : Nat} {x : LinkSt} : Steady s₀ (s.setLink l x) := h.same
theorem Steady.setGrove {g : Nat} {x : GroveSt} : Steady s₀ (s.setGrove g x) := h.same
theorem Steady.setCore {k : Nat} {x : CoreSt} : Steady s₀ (s.setCore k x) := h.same

/-! ## Headers -/

/-- A field below OWNER in a page's header. -/
theorem Steady.putHeader {pg k lo w x : Nat} (hp : pg % 4096 = 0) (hk : k < 0x24) :
    Steady s₀ (s.put ⟨pg + k, lo, w⟩ x) := h.put (aside_header hp hk)

theorem Steady.errInc {pg : Nat} (hp : pg % 4096 = 0) : Steady s₀ (s.errInc pg) :=
  (h.bump (aside_header hp (by decide))).putHeader hp (by decide)

theorem Steady.setFn {pg st : Nat} (hp : pg % 4096 = 0) : Steady s₀ (s.setFn pg st) :=
  h.onlyIfNot fun h => (h.putHeader hp (by decide)).putHeader hp (by decide)

theorem Steady.toFault {pg : Nat} (hp : pg % 4096 = 0) : Steady s₀ (s.toFault pg) :=
  ((h.setFn hp).putHeader hp (by decide)).errInc hp

theorem Steady.retire {pg : Nat} (hp : pg % 4096 = 0) : Steady s₀ (s.retire pg) :=
  (((h.putHeader hp (by decide)).setFn hp).putHeader hp (by decide)).putHeader hp (by decide)

theorem Steady.fuseOut {pg : Nat} (hp : pg % 4096 = 0) : Steady s₀ (s.fuseOut pg) :=
  (h.putHeader hp (by decide)).putHeader hp (by decide)

/-! ## Events -/

theorem Steady.eventOf {pg : Nat} {ev : EvKind} {sev : Nat} {d0 d1 : Option Word} : Steady s₀ (s.eventOf pg ev sev d0 d1) := by
  have hoff : ∀ f ∈ steadyFlds, f.off ∉ evtOffs := by decide
  exact
    { mod := (State.eventOf_mod s pg ev sev d0 d1).trans h.mod
      mem := (State.eventOf_mem s pg ev sev d0 d1).trans h.mem
      stand := (State.eventOf_stand s pg ev sev d0 d1).trans h.stand
      boot := (State.eventOf_boot s pg ev sev d0 d1).trans h.boot
      now := (State.eventOf_now s pg ev sev d0 d1).trans h.now
      flds := fun f hf => (congrArg (bitsOf · f.lo f.w) (eventOf_rd s pg ev sev d0 d1 (hoff f hf))).trans (h.flds f hf) }

theorem Steady.raiseSev {pg bit : Nat} {ev : EvKind} {sev : Nat} {d0 d1 : Option Word} (hp : pg % 4096 = 0) :
    Steady s₀ (s.raiseSev pg bit ev sev d0 d1) := (h.putHeader hp (by decide)).eventOf

theorem Steady.raise {pg bit : Nat} {ev : EvKind} {d0 d1 : Option Word} (hp : pg % 4096 = 0) :
    Steady s₀ (s.raise pg bit ev d0 d1) := h.raiseSev hp

theorem Steady.evtStatus : Steady s₀ s.evtStatus := ((h.same.ite h).put (by decide)).putB (by decide)

/-! ## The Deadwood list -/

theorem Steady.dwCounts : Steady s₀ s.dwCounts := (h.put (by decide)).put (by decide)

theorem Steady.dwAdd {kind unit index event source : Nat} {factory : Bool} :
    Steady s₀ (s.dwAdd kind unit index event source factory) := by
  unfold State.dwAdd
  split
  · exact (h.same.wr (by decide)).raise (by decide)
  · split
    · exact (((h.same.onlyIf fun h => h.setGrove).bumpW (by decide)).wr (by decide)).dwCounts.raise (by decide)
    · exact ((h.errInc (by decide)).putBesideB (by decide)).raise (by decide)

/-! ## The arbiter's writes -/

theorem Steady.snoop {off : Nat} {req : Req} {data : Word} : Steady s₀ (s.snoop off req data) := by
  have hoff : ∀ f ∈ steadyFlds, f.off ∉ evtOffs ∧ ¬ (0x8000 ≤ f.off ∧ f.off < 0xA000) := by decide
  exact
    { mod := (State.snoop_mod s off req data).trans h.mod
      mem := (State.snoop_mem s off req data).trans h.mem
      stand := (State.snoop_stand s off req data).trans h.stand
      boot := (State.snoop_boot s off req data).trans h.boot
      now := (State.snoop_now s off req data).trans h.now
      flds := fun f hf => (congrArg (bitsOf · f.lo f.w) ((snoop_frame s off req data).2 f.off (hoff f hf).1 (hoff f hf).2)).trans
        (h.flds f hf) }

theorem Steady.trackWrite {req : Req} {off : Nat} {before : Word} : Steady s₀ (s.trackWrite req off before) :=
  Steady.ite (Steady.ite h h.same) (Steady.ite h.same h)

theorem Steady.accept {req : Req} {off : Nat} {data : Word} {eff : State → State} (heff : ∀ s, Steady s₀ s → Steady s₀ (eff s))
    (ho : Aside (Hdr.OWNER (pageOf off))) : Steady s₀ (s.accept req off data eff) :=
  h.snoop.onlyIfNot fun h => (heff _ (h.wr ho)).trackWrite

theorem Steady.refuse {req : Req} {off cause : Nat} {read : Bool} : Steady s₀ (s.refuse req off cause read) :=
  ((h.wr (by decide)).wr (by decide)).errInc (by decide)

theorem Steady.gateW {off : Nat} {w : WriteReq} {ok : Bool} {eff : State → State} (heff : ∀ s, Steady s₀ s → Steady s₀ (eff s))
    (ho : Aside (Hdr.OWNER (pageOf off))) : Steady s₀ (s.gateW off w ok eff) :=
  Steady.ite h.refuse (Steady.ite h.refuse (Steady.ite h.refuse (Steady.ite h.refuse (h.accept heff ho))))

end Sys2Proof.Machine
end

section
/-! SUPPORT. `Steady` along the arbiter's and Ringlog's handling of events. -/

namespace Sys2Proof.Machine

theorem aside_dropFld (sev : Nat) : Aside (dropFld sev).off := by
  unfold dropFld
  split
  · decide
  · split
    · decide
    · split <;> decide

theorem aside_rlogCnt {k : Nat} (hk : k < 4) : Aside (Reg.RLOG_CNT_INFO + 4 * k) :=
  aside_of_low (show 0x1044 < 0x6044 + 4 * k by omega) (show 0x6044 + 4 * k < 0xA050 by omega)

variable {s₀ s : State} (h : Steady s₀ s)
include h

theorem Steady.evReplace {old new : EvEntry} : Steady s₀ (s.evReplace old new) := Steady.ite h.same h.same

theorem Steady.evRelease : Steady s₀ s.evRelease := Steady.evtStatus h.same

theorem Steady.toPldm {e : EvEntry} : Steady s₀ (s.toPldm e) := Steady.ite (Steady.putB h.same (by decide)) (h.bump (by decide))

theorem Steady.toCanopy {e : EvEntry} : Steady s₀ (s.toCanopy e) := Steady.ite h.emit (Steady.ite (Steady.putB h.same (by decide)) (h.bump (by decide)))

theorem Steady.toForward {e : EvEntry} : Steady s₀ (s.toForward e) := by
  refine Steady.ite h.same ?_
  split
  · exact h.same
  · exact h.bump (by decide)

theorem Steady.msixCause {v : Nat} : Steady s₀ (s.msixCause v) := Steady.ite h.same h.same

theorem Steady.msixTry {v : Nat} : Steady s₀ (s.msixTry v) := by
  unfold State.msixTry
  dsimp only
  split
  · exact h
  · exact Steady.ite (Steady.emit h.same) h

theorem Steady.evRoute {e : EvEntry} : Steady s₀ (s.evRoute e) :=
  ((Steady.ite h.msixCause.msixTry h).onlyIf fun h => h.toPldm).toCanopy.onlyIf fun h => h.toForward

theorem Steady.evSequence {age : Nat} : Steady s₀ (s.evSequence age) := by
  unfold State.evSequence
  split
  · exact h
  · exact (h.evReplace.wr (by decide)).evRoute.evRelease

theorem Steady.rlogCounts : Steady s₀ s.rlogCounts :=
  ((h.foldlOn fun k hk _ h => h.wr (aside_rlogCnt (List.mem_range.1 hk))).wr (by decide)).wr (by decide)

theorem Steady.rlogDrop {sev : Nat} : Steady s₀ (s.rlogDrop sev) :=
  (h.bumpF (aside_dropFld sev)).onlyIfNot fun h => (h.putB (by decide)).raiseSev (by decide)

theorem Steady.rlogPut {e : EvEntry} {eseq : Word} {xdata : Nat} : Steady s₀ (s.rlogPut e eseq xdata) := by
  unfold State.rlogPut
  split
  · exact h.rlogDrop
  · exact (((Steady.bump64 h.same (by decide) (by decide)).onlyIf fun h => (h.bump (by decide))).putB (by decide)).rlogCounts

theorem Steady.rlogTake : Steady s₀ s.rlogTake := by
  refine Steady.ite ?_ h
  split
  · exact h
  · exact h.evReplace.evRelease.rlogPut

theorem Steady.evtFlush : Steady s₀ s.evtFlush := h.foldl fun _ _ h => h.evSequence.rlogTake

end Sys2Proof.Machine
end

section
/-! SUPPORT. `Steady` along the pumps and valves and the coolant inputs. -/

namespace Sys2Proof.Machine

/-! ## Their registers -/

/-- A register of the PUMP page from 0x80, of a pump that exists. -/
theorem aside_pump {n k : Nat} (hn : n < 3) (hk : k < 0x100) : Aside (P.PUMP + k + 0x20 * n) :=
  aside_of_mid (show 0xA050 < 0xD000 + k + 0x20 * n by omega) (show 0xD000 + k + 0x20 * n < 0xF074 by omega)

theorem aside_pumpStatus : Aside Reg.PUMP_STATUS := by decide

theorem aside_valveStatus : Aside Reg.VALVE_STATUS := by decide

theorem aside_valveSt {v : Nat} (hv : v < 24) : Aside (Reg.VALVE_ST v) :=
  aside_of_mid (show 0xA050 < 0xE104 + 0x8 * v by omega) (show 0xE104 + 0x8 * v < 0xF074 by omega)

theorem aside_bankI {b : Nat} (hb : b < 7) : Aside (Reg.VALVE_BANK_I b) :=
  aside_of_mid (show 0xA050 < 0xE04C + 0x4 * b by omega) (show 0xE04C + 0x4 * b < 0xF074 by omega)

theorem aside_isoPos (i : Nat) : Aside (isoPos i).off := by
  unfold isoPos
  split <;> decide

/-- The valves of a bank exist. -/
theorem lt_of_mem_bankValves {b v : Nat} (hv : v ∈ bankValves b) : v < 24 := by
  unfold bankValves at hv
  split at hv
  · simp only [List.mem_cons, List.not_mem_nil, or_false] at hv
    omega
  · exact absurd hv (List.not_mem_nil)

theorem lt_of_mem_pumps {n : Nat} (hn : n ∈ [0, 1, 2]) : n < 3 := by
  simp only [List.mem_cons, List.not_mem_nil, or_false] at hn
  omega

variable {s₀ s : State} (h : Steady s₀ s)
include h

/-! ## Pumps -/

theorem Steady.pumpApply {n : Nat} (hn : n < 3) : Steady s₀ (s.pumpApply n) := by
  unfold State.pumpApply
  split
  · exact (h.put (aside_pump hn (by decide))).put (aside_pump hn (by decide))
  · exact (h.put (aside_pump hn (by decide))).wr (aside_pump hn (by decide))

theorem Steady.pumpSuff : Steady s₀ s.pumpSuff := Steady.ite ((h.putB (by decide)).raise (by decide)) (h.putB (by decide))

theorem Steady.pumpSet {n st : Nat} (hn : n < 3) : Steady s₀ (s.pumpSet n st) :=
  h.onlyIfNot fun h => ((((Steady.put h.same (aside_pump hn (by decide))).putB aside_pumpStatus).putB aside_pumpStatus).pumpApply hn).wr (aside_pump hn (by decide))

theorem Steady.pumpAttempt {n : Nat} (hn : n < 3) : Steady s₀ (s.pumpAttempt n) := (h.bumpW (aside_pump hn (by decide))).pumpSet hn

theorem Steady.pumpHalt {n : Nat} (hn : n < 3) : Steady s₀ (s.pumpHalt n) :=
  (h.putB (aside_pump hn (by decide))).onlyIfNot fun h => h.pumpSet hn

theorem Steady.pumpsHalt : Steady s₀ s.pumpsHalt := (h.foldlOn fun _ hn _ h => h.pumpHalt (lt_of_mem_pumps hn)).pumpSuff

theorem Steady.pumpsStart {ns : List Nat} (hns : ∀ n ∈ ns, n < 3) : Steady s₀ (s.pumpsStart ns) :=
  h.onlyIfNot fun h => (h.foldlOn fun n hn _ h =>
    h.onlyIf fun h => (h.put (aside_pump (hns n hn) (by decide))).pumpAttempt (hns n hn)).pumpSuff

/-! ## Valves -/

theorem Steady.setValve {v : Nat} {x : ValveSt} : Steady s₀ (s.setValve v x) := h.same

theorem Steady.bankMeas {b : Nat} (hb : b < 7) : Steady s₀ (s.bankMeas b) :=
  (h.foldlOn fun _ hv _ h => h.put (aside_valveSt (lt_of_mem_bankValves hv))).put (aside_bankI hb)

theorem Steady.rescale {b : Nat} (hb : b < 7) : Steady s₀ (s.rescale b) :=
  (((h.foldlOn fun _ hv _ h => Steady.ite (h.put (aside_valveSt (lt_of_mem_bankValves hv)))
    (h.put (aside_valveSt (lt_of_mem_bankValves hv)))).onlyIf fun h => (h.bump (by decide)).raise (by decide)).putB
      aside_valveStatus).bankMeas hb

theorem Steady.valveWait {v : Nat} (hv : v < 24) : Steady s₀ (s.valveWait v) := (h.put (aside_valveSt hv)).same

theorem Steady.valveUnwait {v st : Nat} (hv : v < 24) : Steady s₀ (s.valveUnwait v st) := (h.put (aside_valveSt hv)).same

theorem Steady.valveDecay {v : Nat} (hv : v < 24) : Steady s₀ (s.valveDecay v) :=
  (h.setValve.put (aside_valveSt hv)).putB (aside_valveSt hv)

theorem Steady.valveUpdate {v : Nat} (hv : v < 24) : Steady s₀ (s.valveUpdate v) :=
  (Steady.ite (h.onlyIf fun h => h.valveWait hv) (Steady.ite (h.onlyIf fun h => h.valveUnwait hv)
    (Steady.ite (h.onlyIf fun h => h.valveDecay hv) (Steady.ite ((h.valveDecay hv).ite h.setValve)
      (h.putB (aside_valveSt hv)))))).rescale (by omega)

theorem Steady.valvesUpdate : Steady s₀ s.valvesUpdate := h.foldlOn fun _ hv _ h => h.valveUpdate (List.mem_range.1 hv)

theorem Steady.valveKill {v : Nat} (hv : v < 24) : Steady s₀ (s.valveKill v) :=
  (h.setValve.valveUnwait hv).putB (aside_valveSt hv)

theorem Steady.isoNext : Steady s₀ s.isoNext := by
  unfold State.isoNext
  split
  · exact h.onlyIfNot fun h => (Steady.put h.same (aside_isoPos _)).bankMeas (by decide)
  · exact h

theorem Steady.isoCommand {i : Nat} {close : Bool} : Steady s₀ (s.isoCommand i close) := Steady.isoNext h.same

theorem Steady.isoCut : Steady s₀ s.isoCut := by
  unfold State.isoCut
  extract_lets s1
  have h1 : Steady s₀ s1 := by
    unfold s1
    split
    · exact h.put (aside_isoPos _)
    · exact h
  exact Steady.bankMeas h1.same (by decide)

theorem Steady.isoAct {v : Word} : Steady s₀ (s.isoAct v) :=
  (h.onlyIfNot fun h => h.isoCommand).onlyIfNot fun h => h.isoCommand

theorem Steady.isoWrite {w : WriteReq} : Steady s₀ (s.isoWrite w) := h.gateW (fun _ h => h.isoAct) (by decide)

theorem Steady.fluidOff : Steady s₀ s.fluidOff := by
  have hkill := h.pumpsHalt.foldlOn (l := List.range 24) (f := fun s v => s.valveKill v) fun _ hv _ h =>
    h.valveKill (List.mem_range.1 hv)
  exact (hkill.isoCut.foldlOn fun b hb _ h => h.rescale (by have := List.mem_range.1 hb; omega)).same

/-! ## Coolant inputs -/

theorem Steady.coolantRegs : Steady s₀ s.coolantRegs := by
  unfold State.coolantRegs
  extract_lets s1 s2 s3 s4 s5 s6
  have h1 : Steady s₀ s1 := h.onlyIf fun h => h.put (by decide)
  have h2 : Steady s₀ s2 := by
    have hoff : ∀ e ∈ [(1, Reg.COOLANT_TIN_AB, 0), (2, Reg.COOLANT_TIN_AB, 16), (3, Reg.COOLANT_TOUT_AB, 0),
        (4, Reg.COOLANT_TOUT_AB, 16), (5, Reg.COOLANT_PIN, 0), (6, Reg.COOLANT_POUT, 0)], Aside e.2.1 := by decide
    exact h1.foldlOn fun e he _ h => h.onlyIf fun h => h.put (hoff e he)
  have h3 : Steady s₀ s3 := by
    unfold s3
    split
    · exact h2.put (by decide)
    · exact h2
  have h4 : Steady s₀ s4 := by
    unfold s4
    split
    · exact h3.put (by decide)
    · exact h3
  exact ((((h4.putB (by decide)).putB (by decide)).putB (by decide)).putB (by decide)).putB (by decide)

theorem Steady.inputsOff : Steady s₀ s.inputsOff := Steady.coolantRegs ((h.wr (by decide)).putB (by decide)).same

end Sys2Proof.Machine
end

section
/-! SUPPORT. `Steady` along measurements, fuses and the governor's power-on. -/

namespace Sys2Proof.Machine

/-- The measurement registers M0 to M7, and the words of each. -/
theorem aside_meas {i j : Nat} (hi : i < 8) (hj : j < 8) : Aside (Reg.SEC_MEAS (8 * i) + 4 * j) :=
  aside_of_low (show 0x1044 < 0x5200 + 0x4 * (8 * i) + 4 * j by omega) (show 0x5200 + 0x4 * (8 * i) + 4 * j < 0xA050 by omega)

/-! ## Pages begin at multiples of 4,096 -/

/-- A page of a kind that has one for each of its units. -/
theorem page_aligned {b k i : Nat} (hb : b % 4096 = 0) (hk : k % 4096 = 0) : (b + k * i) % 4096 = 0 := by
  obtain ⟨c, rfl⟩ := Nat.dvd_of_mod_eq_zero hk
  rw [Nat.mul_assoc, Nat.add_mul_mod_self_left]
  exact hb

theorem engine_aligned {g p : Nat} : P.ENGINE g p % 4096 = 0 := page_aligned (page_aligned (by decide) (by decide)) (by decide)
theorem link_aligned {l : Nat} : P.LINK l % 4096 = 0 := page_aligned (by decide) (by decide)
theorem reduce_aligned {l : Nat} : P.REDUCE l % 4096 = 0 := page_aligned (by decide) (by decide)
theorem svc_aligned {c : Nat} : P.SVC c % 4096 = 0 := page_aligned (by decide) (by decide)
theorem lpddr_aligned {m : Nat} : P.LPDDR m % 4096 = 0 := page_aligned (by decide) (by decide)
theorem canopy_aligned {k : Nat} : P.CANOPY k % 4096 = 0 := page_aligned (by decide) (by decide)

/-- A grove has whole pages. -/
theorem grovePages_aligned {g pg : Nat} (hpg : pg ∈ grovePages g) : pg % 4096 = 0 := by
  rcases List.mem_append.1 hpg with hunit | hengine
  · simp only [List.mem_cons, List.not_mem_nil, or_false] at hunit
    rcases hunit with rfl | rfl | rfl | rfl | rfl <;> exact page_aligned (by decide) (by decide)
  · obtain ⟨p, _, rfl⟩ := List.mem_map.1 hengine
    exact engine_aligned

variable {s₀ s : State} (h : Steady s₀ s)
include h

theorem Steady.extendM {i : Nat} {v : List Byte} (hi : i < 8) : Steady s₀ (s.extendM i v) :=
  h.foldlOn fun _ hj _ h => h.wr (aside_meas hi (List.mem_range.1 hj))

theorem Steady.clearM : Steady s₀ s.clearM :=
  h.resetRegs fun o ho => by
    obtain ⟨i, hi, rfl⟩ := List.mem_map.1 ho
    have hi := List.mem_range.1 hi
    exact aside_of_low (show 0x1044 < 0x5200 + 0x4 * i by omega) (show 0x5200 + 0x4 * i < 0xA050 by omega)

theorem Steady.fuseLoad : Steady s₀ s.fuseLoad := by
  have hwords : ∀ o ∈ fuseWords, Aside o := by decide
  have h1 := h.foldlOn (f := fun s o => s.wr o (s.fuse o)) fun o ho _ h => h.wr (hwords o ho)
  exact h1 |>.put (by decide) |>.putB (by decide) |>.putB (by decide) |>.putB (by decide) |>.putB (by decide) |>.wr (by decide)
    |>.wr (by decide) |>.wr (by decide) |>.putB (by decide) |>.putB (by decide) |>.wr64 (by decide) (by decide) |>.wr (by decide)
    |>.putBeside (by decide) |>.putBeside (by decide) |>.extendM (by decide)

theorem Steady.applyFusing : Steady s₀ s.applyFusing := by
  have hpages (s : State) (h : Steady s₀ s) {n : Nat} {pg : Nat → Nat} (hpg : ∀ i, pg i % 4096 = 0) :
      Steady s₀ ((List.range n).foldl (fun (s : State) i => s.fuseOut (pg i)) s) := h.foldl fun i _ h => h.fuseOut (hpg i)
  have hgroves := h.foldl (l := (List.range 16).filter fun g => (s.get F.HWOOD_VARIANT_GROVES_FUSED).testBit g)
    (f := fun s g => (grovePages g).foldl (fun (s : State) pg => s.fuseOut pg) s) fun g _ h =>
      h.foldlOn fun pg hpg _ h => h.fuseOut (grovePages_aligned hpg)
  exact ((hgroves.onlyIf fun h => hpages _ h fun _ => link_aligned).onlyIf fun h => hpages _ h fun _ => reduce_aligned).onlyIf
    (fun h => h.fuseOut (by decide)) |>.onlyIf fun h => hpages _ h fun _ => svc_aligned

theorem Steady.bootFuses : Steady s₀ s.bootFuses := h.clearM.fuseLoad.applyFusing.onlyIfNot fun h => h.emit

theorem Steady.blowEnd {b : Blow} {ok : Bool} : Steady s₀ (s.blowEnd b ok) := by
  dsimp only [State.blowEnd]
  split
  · exact ((Steady.putB h.same (by decide)).putB (by decide)).putB (by decide)
  · exact Steady.putB h.same (by decide)

/-- The blocks of the THERM and TELEM pages. -/
theorem Steady.resetGovernor {pg : Nat} (hp : pg = P.THERM ∨ pg = P.TELEM) : Steady s₀ (s.resetBlock pg) :=
  h.resetBlock fun o hlo hhi => by
    rcases hp with rfl | rfl
    · change 0xB000 + 0x40 ≤ o at hlo
      change o < 0xB000 + 0x1000 at hhi
      exact aside_of_mid (by omega) (by omega)
    · change 0xC000 + 0x40 ≤ o at hlo
      change o < 0xC000 + 0x1000 at hhi
      exact aside_of_mid (by omega) (by omega)

theorem Steady.capUpdate : Steady s₀ s.capUpdate :=
  (Steady.same ((((h.put (by decide)).put (by decide)).put (by decide)).put (by decide))).andThen fun h =>
    Steady.ite ((h.putB (by decide)).raise (by decide)) (h.putB (by decide))

theorem Steady.thermDefaults : Steady s₀ s.thermDefaults :=
  Steady.capUpdate (Steady.wr (Steady.same (((h.resetGovernor (.inl rfl)).put (by decide)).put (by decide))) (by decide))

theorem Steady.thermPowerOn : Steady s₀ s.thermPowerOn :=
  (Steady.thermDefaults (Steady.resetGovernor h.same (.inr rfl))).same

theorem Steady.indexBegin : Steady s₀ s.indexBegin := (h.putB (by decide)).same

end Sys2Proof.Machine
end

section
/-! SUPPORT. What the loss of the 48 V conversion leaves: `Dark`. -/

namespace Sys2Proof.Machine

/-- The module without the conversion: power state Standby, and no change of it on the way (R12). -/
def ModSt.unpowered (m : ModSt) : ModSt :=
  { m with power := .standby, v48 := false, target := none, byCommand := false, fsHold := false, svcHeld := [] }

/-- Power is lost between `s` and `t`, whose module state is `m`: memory, the stand and the bring-up step are gone, the leak latch and
BOOT_FAIL stay. -/
structure Dark (s : State) (m : ModSt) (t : State) : Prop where
  mod   : t.mod = m
  mem   : t.mem = []
  stand : t.stand = {}
  step  : t.bootStep = 0
  leak  : t.leakLatched = s.leakLatched
  fail  : t.flag F.MODULE_MSTATE_BOOT_FAIL = s.flag F.MODULE_MSTATE_BOOT_FAIL

variable {s t u : State} {m : ModSt}

theorem Steady.bootStep (h : Steady s t) : t.bootStep = s.bootStep := h.flds _ (by decide)
theorem Steady.leakLatched (h : Steady s t) : t.leakLatched = s.leakLatched := h.flag (by decide)
theorem Steady.bootFail (h : Steady s t) : t.flag F.MODULE_MSTATE_BOOT_FAIL = s.flag F.MODULE_MSTATE_BOOT_FAIL := h.flag (by decide)

theorem Dark.steady (h : Dark s m t) (hu : Steady t u) : Dark s m u where
  mod := hu.mod.trans h.mod
  mem := hu.mem.trans h.mem
  stand := hu.stand.trans h.stand
  step := hu.bootStep.trans h.step
  leak := hu.leakLatched.trans h.leak
  fail := hu.bootFail.trans h.fail

theorem Dark.from_steady (h : Steady s t) (hu : Dark t m u) : Dark s m u :=
  { hu with leak := hu.leak.trans h.leakLatched, fail := hu.fail.trans h.bootFail }

/-- The flags of `Dark` lie in registers that outlast the conversion. -/
theorem flag_outlasts {f : Fld} {m : AMap Word} (hm : m = s.regs.filter fun e => outlasts e.1) (hf : outlasts f.off = true)
    (ht : t.regs = m) : t.flag f = s.flag f := by
  have hrd : t.rd f.off = s.rd f.off := by
    unfold State.rd
    rw [ht, hm]
    exact aget_filter _ _ _ outlasts hf
  unfold State.flag State.get
  rw [hrd]

theorem volatileLost_dark (s : State) : Dark s s.mod s.volatileLost := by
  unfold State.volatileLost
  extract_lets s1 _ s2 _ s3 s4
  have h1 : Steady s s1 := by
    unfold s1
    split
    · exact (Steady.refl s).blowEnd
    · exact Steady.refl s
  have hkept {f : Fld} (hf : outlasts f.off = true) : s3.flag f = s1.flag f := flag_outlasts rfl hf rfl
  have h4 : Dark s1 s1.mod (s4.putB F.MODULE_MSTATE_HOLD false) :=
    { mod := rfl
      mem := rfl
      stand := rfl
      step := by
        simp (disch := decide) only [State.bootStep, get_norm, putB_norm, put_norm, s4, Rg.get_put_disj, Rg.get_put_same, Nat.zero_mod]
      leak := by
        refine Eq.trans ?_ (hkept (by decide))
        simp (disch := decide) only [State.leakLatched, flag_norm, putB_norm, put_norm, s4, Rg.get_put_disj]
      fail := by
        refine Eq.trans ?_ (hkept (by decide))
        simp (disch := decide) only [flag_norm, putB_norm, put_norm, s4, Rg.get_put_disj] }
  exact h1.mod ▸ (Dark.from_steady h1 h4).steady (Steady.refl _).applyFusing

theorem conversionOff_dark (s : State) : Dark s s.mod.unpowered s.conversionOff := by
  have hflush : Steady s s.evtFlush := (Steady.refl s).evtFlush
  let off : State := { s.evtFlush with mod := s.evtFlush.mod.unpowered }
  have hfluid : Steady off off.fluidOff := (Steady.refl off).fluidOff
  have hlost := Dark.from_steady hfluid (volatileLost_dark off.fluidOff)
  have hdark : Dark off off.mod s.conversionOff := hfluid.mod ▸ hlost.steady (Steady.refl _).inputsOff
  exact { hdark with
    mod := hdark.mod.trans (congrArg ModSt.unpowered hflush.mod)
    leak := hdark.leak.trans hflush.leakLatched
    fail := hdark.fail.trans hflush.bootFail }

/-- LEAK and TRIPPED stay when power is lost, and the module is in STANDBY from any other state (R15). -/
def MState.unpowered (m : MState) : MState := if m = .leak ∨ m = .tripped then m else .standby

/-- Only the entry to READY changes more than the module state and its register. -/
theorem setMState_of_ne_ready {m : MState} (hm : m ≠ .ready) (s : State) :
    s.setMState m = { s with mod := { s.mod with mstate := m } }.put F.MODULE_MSTATE_STATE (mstateCode m) := by
  unfold State.setMState
  rw [if_neg fun h => hm h.1]

theorem setMState_mod (s : State) (m : MState) : (s.setMState m).mod = { s.mod with mstate := m } := by
  unfold State.setMState
  split <;> rfl

theorem setMState_mstate (s : State) (m : MState) : (s.setMState m).get F.MODULE_MSTATE_STATE = mstateCode m := by
  unfold State.setMState
  exact (get_put_same _ _ _ (by decide)).trans (by cases m <;> rfl)

theorem flag_put_disj {f g : Fld} {x : Nat} (hf : f.lo + f.w ≤ 32) (h : f.disj g = true) : (s.put f x).flag g = s.flag g :=
  congrArg (· != 0) (get_put_disj s f g x hf h)

theorem Dark.setMState (h : Dark s m t) {k : MState} (hk : k ≠ .ready) : Dark s { m with mstate := k } (t.setMState k) := by
  rw [setMState_of_ne_ready hk]
  exact
    { mod := congrArg (fun m : ModSt => { m with mstate := k }) h.mod
      mem := h.mem
      stand := h.stand
      step := (get_put_disj _ _ _ _ (by decide) (by decide)).trans h.step
      leak := (flag_put_disj (s := { t with mod := { t.mod with mstate := k } }) (by decide) (by decide)).trans h.leak
      fail := (flag_put_disj (s := { t with mod := { t.mod with mstate := k } }) (by decide) (by decide)).trans h.fail }

theorem powerLost_dark (s : State) : Dark s { s.mod.unpowered with mstate := s.mod.mstate.unpowered } s.powerLost := by
  have hoff := conversionOff_dark s
  have hstate : s.conversionOff.mod.mstate = s.mod.mstate := by rw [hoff.mod]; rfl
  unfold State.powerLost MState.unpowered
  dsimp only
  rw [hstate]
  split
  · exact hoff
  · exact hoff.setMState (by decide)

end Sys2Proof.Machine
end

section
/-! SUPPORT. `Steady` along the operations of a start: Deadwood's pages, step 1, and the cores of step 2. -/

namespace Sys2Proof.Machine

theorem pageOf_aligned (o : Nat) : pageOf o % 4096 = 0 := Nat.mul_mod_left _ _

theorem owner_pump_aside {n : Nat} (hn : n < 3) : Aside (Hdr.OWNER (pageOf (Reg.PUMP_CTL n))) := by
  interval_cases n <;> decide

theorem fnStart_hostdma (s : State) : s.fnStart P.HOSTDMA = s.setFn P.HOSTDMA fnStarting := rfl
theorem fnStart_sideband (s : State) : s.fnStart P.SIDEBAND = s.setFn P.SIDEBAND fnStarting := rfl

variable {s₀ s t : State}

section
variable (h : Steady s₀ s)
include h

theorem Steady.enable {pg : Nat} (hp : pg % 4096 = 0) (hstart : s.fnStart pg = s.setFn pg fnStarting) : Steady s₀ (s.fnEnable pg) := by
  unfold State.fnEnable
  rw [hstart]
  exact h.onlyIfNot fun h => (h.setFn hp).ite ((h.putHeader hp (by decide)).ite h)

theorem Steady.enableHostdma : Steady s₀ (s.fnEnable P.HOSTDMA) := h.enable (by decide) (fnStart_hostdma s)
theorem Steady.enableSideband : Steady s₀ (s.fnEnable P.SIDEBAND) := h.enable (by decide) (fnStart_sideband s)

/-! ## Deadwood at a start -/

theorem Steady.unretire : Steady s₀ s.unretire :=
  h.foldlOn fun pg hpg _ h => by
    obtain ⟨e, _, he⟩ := List.mem_filterMap.1 hpg
    have hpage : pg % 4096 = 0 := by
      dsimp only at he
      split at he
      · cases he
        exact pageOf_aligned _
      · cases he
    exact (h.putHeader hpage (by decide)).setFn hpage

theorem Steady.factoryMap : Steady s₀ s.factoryMap := h.foldl fun _ _ h => h.onlyIfNot fun h => h.dwAdd

theorem Steady.residueMap : Steady s₀ s.residueMap := h.foldl fun _ _ h => h.onlyIf fun h => h.dwAdd

theorem Steady.withdraw {ok : Bool} {pg : Nat} (hp : pg % 4096 = 0) : Steady s₀ (s.withdraw ok pg) := h.onlyIf fun h => h.retire hp

theorem Steady.groveRetire {g : Nat} : Steady s₀ (s.groveRetire g) :=
  h.foldlOn fun _ hpg _ h => h.onlyIfNot fun h => h.retire (grovePages_aligned hpg)

theorem Steady.dwApply {e : BitVec 128} : Steady s₀ (s.dwApply e) :=
  h.onlyIfNot fun h => Steady.ite (h.withdraw engine_aligned) (Steady.ite (h.onlyIf fun h => h.groveRetire)
    (Steady.ite (h.withdraw link_aligned) (Steady.ite (h.withdraw reduce_aligned)
      (Steady.ite (h.withdraw lpddr_aligned) (Steady.ite (h.withdraw canopy_aligned)
        (Steady.ite (h.withdraw (by decide)) (h.onlyIf fun h => h.withdraw svc_aligned)))))))

theorem Steady.lpGeometry : Steady s₀ s.lpGeometry :=
  Steady.foldl h.same fun m _ h => by
    have hm : Aside (Reg.LPDDR_GEOMETRY m) := aside_of_lt (show 0xF074 < 0x300000 + 0x1000 * m + 0x48 by omega)
    exact (h.put hm).put hm

theorem Steady.dwApplyAll : Steady s₀ s.dwApplyAll :=
  Steady.lpGeometry (Steady.same (h.unretire.factoryMap.residueMap.foldl fun _ _ h => h.dwApply))

/-! ## Step 1 -/

theorem Steady.pumpsMark : Steady s₀ s.pumpsMark :=
  h.foldlOn fun _ hn _ h => (h.putB aside_pumpStatus).andThen fun h =>
    (h.pumpSet (lt_of_mem_pumps hn)).ite (h.onlyIf fun h => h.pumpSet (lt_of_mem_pumps hn))

theorem Steady.step1Pumps : Steady s₀ s.step1Pumps := by
  have hpages : ∀ pg ∈ [P.PUMP, P.VALVE], pg % 4096 = 0 := by decide
  have h1 := (h.foldlOn (f := fun s pg => if s.fn pg = fnOff then s.setFn pg fnReady else s) fun pg hpg _ h =>
    h.onlyIf fun h => h.setFn (hpages pg hpg)).pumpsMark
  exact (h1.foldlOn fun _ hn _ h => h.accept (fun _ h => h) (owner_pump_aside (lt_of_mem_pumps (List.mem_of_mem_filter hn)))).pumpsStart
    fun _ hn => lt_of_mem_pumps (List.mem_of_mem_filter hn)

theorem Steady.step1Valves : Steady s₀ s.step1Valves := h.isoWrite.isoWrite

theorem Steady.leakRelease : Steady s₀ s.leakRelease := (Steady.valvesUpdate h.same).isoCommand

theorem Steady.coreBoot {k : Nat} : Steady s₀ (s.coreBoot k) := h.onlyIfNot fun h => h.setCore.setFn canopy_aligned

end
end Sys2Proof.Machine
end

section
/-! SUPPORT. The entry to BRINGUP, and a start that begins at step 2, up to `Steady`. -/

namespace Sys2Proof.Machine

variable {s t : State}

/-! ## Steady states stay so under one update of both -/

theorem Steady.trans {u : State} (h : Steady s t) (h' : Steady t u) : Steady s u where
  mod := h'.mod.trans h.mod
  mem := h'.mem.trans h.mem
  stand := h'.stand.trans h.stand
  boot := h'.boot.trans h.boot
  now := h'.now.trans h.now
  flds := fun f hf => (h'.flds f hf).trans (h.flds f hf)

/-- Two steady fields are one, or share no bit. -/
theorem steadyFlds_disj : ∀ f ∈ steadyFlds, f.lo + f.w ≤ 32 ∧ ∀ g ∈ steadyFlds, g = f ∨ f.disj g = true := by decide

section
variable (h : Steady s t)
include h

theorem Steady.putBoth {f : Fld} {x : Nat} (hf : f ∈ steadyFlds) : Steady (s.put f x) (t.put f x) :=
  ⟨h.mod, h.mem, h.stand, h.boot, h.now, fun g hg => by
    obtain ⟨hw, hdisj⟩ := steadyFlds_disj f hf
    rcases hdisj g hg with rfl | hd
    · rw [get_put_same _ _ _ hw, get_put_same _ _ _ hw]
    · rw [get_put_disj _ _ _ _ hw hd, get_put_disj _ _ _ _ hw hd]
      exact h.flds g hg⟩

theorem Steady.modBoth {m : ModSt → ModSt} : Steady { s with mod := m s.mod } { t with mod := m t.mod } :=
  { h with mod := congrArg m h.mod, flds := fun g hg => h.flds g hg }

theorem Steady.bootBoth {b : BootSt → Nat → BootSt} : Steady { s with boot := b s.boot s.now } { t with boot := b t.boot t.now } :=
  { h with boot := by rw [h.boot, h.now], flds := fun g hg => h.flds g hg }

theorem Steady.setMStateBoth {m : MState} (hm : m ≠ .ready) : Steady (s.setMState m) (t.setMState m) := by
  rw [setMState_of_ne_ready hm, setMState_of_ne_ready hm]
  exact (h.modBoth (m := fun x => { x with mstate := m })).putBoth (by decide)

end

/-! ## The conversion comes on, and BRINGUP is entered -/

/-- The module with the conversion on, in Hold. -/
def State.powered (s : State) : State := { s with mod := { s.mod with power := .hold, v48 := true } }

theorem conversionOn_steady (s : State) : Steady s.powered s.conversionOn :=
  Steady.thermPowerOn (Steady.putB (Steady.same (Steady.refl s.powered)) (by decide))

/-- What the entry to BRINGUP gives the module. -/
def ModSt.entering (m : ModSt) : ModSt :=
  { m with power := .hold, target := none, byCommand := false, svcHeld := [], fsHold := false, staggering := false }

/-- The parts of the entry to BRINGUP that are not steady. -/
def State.entering (s : State) : State :=
  let s1 := s.bump Reg.MODULE_BOOT_COUNT 1
  let s2 : State := { s1 with mod := s1.mod.entering }
  let s3 := (s2.putB F.MODULE_MSTATE_BOOT_FAIL false).setMState .bringup
  { s3 with boot := { t0 := s3.now, stepT0 := s3.now, prevShape := s3.boot.prevShape } }

theorem bootEnter_steady (s : State) : Steady s.entering s.bootEnter := by
  unfold State.bootEnter State.entering
  extract_lets s1 s2 s3 t1 _ t2 t3 t4 t5 _ t6
  have h1 : Steady s1 t1 := ((Steady.refl s1).bootFuses.putB (by decide)).indexBegin
  have h2 : Steady s2 t2 := h1.modBoth (m := ModSt.entering)
  have h3 : Steady (s2.putB F.MODULE_MSTATE_BOOT_FAIL false) t3 := ((h2.putBesideB (by decide)).putBesideB (by decide)).putBoth (by decide)
  have h4 : Steady (s2.putB F.MODULE_MSTATE_BOOT_FAIL false) t4 := h3.resetRegs (by decide)
  have h5 : Steady s3 t5 := (h4.setMStateBoth (m := .bringup) (by decide)).putB (by decide)
  clear_value s3 t5
  have h6 := h5.bootBoth (b := fun b now => { t0 := now, stepT0 := now, prevShape := b.prevShape })
  have h7 : Steady { s3 with boot := { t0 := s3.now, stepT0 := s3.now, prevShape := s3.boot.prevShape } } t6 := h6.same
  exact h7.enableHostdma.enableSideband

/-- The parts of a start at step 2 that are not steady. -/
def State.atStep2 (s : State) : State :=
  let s := s.put F.MODULE_MSTATE_BOOT_STEP 2
  { s with boot := { s.boot with stepT0 := s.now, retried := false, again := false, held := false, fwDone := false } }

theorem bootStepBegin2_steady (s : State) : Steady s.atStep2 (s.bootStepBegin 2) :=
  (Steady.refl s.atStep2).dwApplyAll.coreBoot.coreBoot

theorem Steady.atStep2 (h : Steady s t) : Steady s.atStep2 t.atStep2 :=
  (h.putBoth (f := F.MODULE_MSTATE_BOOT_STEP) (x := 2) (by decide)).bootBoth
    (b := fun b now => { b with stepT0 := now, retried := false, again := false, held := false, fwDone := false })

end Sys2Proof.Machine
end

section
/-! SUPPORT. A start that begins at step 2, and one that a latched leak ends. -/

namespace Sys2Proof.Machine

variable {s t : State}

theorem rd_toNat_eq_get (s : State) (o : Nat) : (s.rd o).toNat = s.get ⟨o, 0, 32⟩ := by
  have hlt : (s.rd o).toNat < 2 ^ 32 := (s.rd o).isLt
  unfold State.get bitsOf
  rw [Nat.pow_zero, Nat.div_one, Nat.mod_eq_of_lt hlt]

theorem Steady.rd (h : Steady s t) {o : Nat} (ho : ⟨o, 0, 32⟩ ∈ steadyFlds) : t.rd o = s.rd o :=
  BitVec.eq_of_toNat_eq (by rw [rd_toNat_eq_get, rd_toNat_eq_get, h.flds _ ho])

theorem Steady.holder (h : Steady s t) : t.holder = s.holder := h.flds _ (by decide)

/-! ## BRINGUP at step 2 -/

theorem atStep2_regs (s : State) : s.entering.atStep2.regs =
    Rg.put (Rg.put (Rg.put (s.bump Reg.MODULE_BOOT_COUNT 1).regs F.MODULE_MSTATE_BOOT_FAIL 0) F.MODULE_MSTATE_STATE (mstateCode .bringup))
      F.MODULE_MSTATE_BOOT_STEP 2 := rfl

/-- A start from `s` has come to step 2. -/
structure AtStep2 (s t : State) : Prop where
  mod    : t.mod = { s.mod.entering with mstate := .bringup }
  step   : t.bootStep = 2
  count  : (t.rd Reg.MODULE_BOOT_COUNT).toNat = min ((s.rd Reg.MODULE_BOOT_COUNT).toNat + 1) 0xFFFFFFFF
  holder : t.holder = s.holder
  mem    : t.mem = s.mem
  stand  : t.stand = s.stand

theorem AtStep2.of_steady (h : Steady s.entering.atStep2 t) : AtStep2 s t where
  mod := h.mod.trans (setMState_mod _ _)
  step := h.bootStep.trans (get_put_same _ _ _ (by decide))
  count := by
    rw [h.rd (by decide), rd_norm, rd_norm]
    simp (disch := decide) only [atStep2_regs, bump_norm, Rg.rd_put_ne, Rg.rd_wr_same]
    exact Nat.mod_eq_of_lt (by omega)
  holder := by
    rw [h.holder]
    simp (disch := decide) only [State.holder, get_norm, atStep2_regs, bump_norm, Rg.get_put_disj, Rg.get_wr_ne]
  mem := h.mem
  stand := h.stand

/-- A start with 48 V, from the entry to BRINGUP to step 2. -/
theorem atStep2_of_restart (s : State) : AtStep2 s (s.bootEnter.step1Pumps.bootStepBegin 2) :=
  .of_steady ((bootEnter_steady s).step1Pumps.atStep2.trans (bootStepBegin2_steady _))

theorem atStep2_of_start (s : State) : AtStep2 s (s.bootEnter.step1Pumps.step1Valves.bootStepBegin 2) :=
  .of_steady ((bootEnter_steady s).step1Pumps.step1Valves.atStep2.trans (bootStepBegin2_steady _))

theorem Steady.setLeakL (h : Steady s t) {b : Bool} : Steady { s with mod := { s.mod with leakL := b } } (t.setLeakL b) :=
  (h.modBoth (m := fun m => { m with leakL := b })).putB (by decide)

theorem leakClose_steady (s : State) : Steady { s with mod := { s.mod with leakL := true } } s.leakClose :=
  (Steady.putB (Steady.refl s).pumpsHalt.isoCut (by decide)).setLeakL.leakRelease.isoCommand

theorem bootLeak_spec (s : State) : s.bootLeak.mod = { s.mod with mstate := .leak } ∧ s.bootLeak.bootStep = 0 := by
  have hold {t : State} : t.bootAbandon.mod = t.mod ∧ t.bootAbandon.regs = t.regs := by
    unfold State.bootAbandon
    split <;> exact ⟨rfl, rfl⟩
  unfold State.bootLeak
  refine ⟨(setMState_mod _ _).trans (congrArg (fun m : ModSt => { m with mstate := .leak }) hold.1), ?_⟩
  simp (disch := decide) only [setMState_of_ne_ready, State.bootStep, get_norm, put_norm, putB_norm, hold.2, Rg.get_put_disj, Rg.get_put_same,
    Nat.zero_mod]
end Sys2Proof.Machine
end

section
/-! The standby rail and the 48 V supply: one lemma for each part of O49. -/

namespace Sys2Proof.Machine

/-! ## The standby rail -/

/-- The rail has come up, and TRIP_SEL is latched. -/
def State.railUp (s : State) (trip : BitVec 2) : State :=
  ({ s with mod := { s.mod with sbGood := true, tripSel := trip } }.put F.GLADE_TRIP_STRAP trip.toNat).put F.MODULE_STRAPS_TRIP_SEL trip.toNat

theorem railUp_straps (s : State) (trip : BitVec 2) :
    (s.railUp trip).get F.GLADE_TRIP_STRAP = trip.toNat ∧ (s.railUp trip).get F.MODULE_STRAPS_TRIP_SEL = trip.toNat := by
  have hlt : trip.toNat % 2 ^ 2 = trip.toNat := Nat.mod_eq_of_lt trip.isLt
  simp (disch := decide) only [State.railUp, get_norm, put_norm, Rg.get_put_disj, Rg.get_put_same]
  exact ⟨hlt, hlt⟩

/-- The leak latch is restored: LEAK_L, and nothing else of the module. -/
theorem leakRestored_steady (s : State) :
    ∃ b, Steady { s with mod := { s.mod with leakL := b } } (if s.leakLatched then s.setLeakL true else s) := by
  split
  · exact ⟨true, (Steady.refl s).setLeakL⟩
  · exact ⟨s.mod.leakL, Steady.refl s⟩

theorem standbyRailGood_latches (s : State) (trip : BitVec 2) (hsb : s.mod.sbGood = false) :
    ∃ t, exec (.standbyRailGood trip) s = .next t ∧ t.mod.sbGood = true ∧ t.mod.tripSel = trip ∧ t.mod.mstate = s.mod.mstate ∧
      t.get F.GLADE_TRIP_STRAP = trip.toNat ∧ t.get F.MODULE_STRAPS_TRIP_SEL = trip.toNat ∧ t.mem = s.mem := by
  have hload := (Steady.refl (s.railUp trip)).fuseLoad.applyFusing.inputsOff
  obtain ⟨b, hleak⟩ := leakRestored_steady (s.railUp trip).fuseLoad.applyFusing.inputsOff
  have h := (hload.modBoth (m := fun m => { m with leakL := b })).trans hleak
  have hexec : exec (.standbyRailGood trip) s = .next (if (s.railUp trip).fuseLoad.applyFusing.inputsOff.leakLatched
      then (s.railUp trip).fuseLoad.applyFusing.inputsOff.setLeakL true else (s.railUp trip).fuseLoad.applyFusing.inputsOff) :=
    if_neg (by simp [hsb])
  obtain ⟨hglade, hmodule⟩ := railUp_straps s trip
  generalize (if (s.railUp trip).fuseLoad.applyFusing.inputsOff.leakLatched then _ else _ : State) = t at h hexec
  have hmod : t.mod = { s.mod with sbGood := true, tripSel := trip, leakL := b } := h.mod
  refine ⟨t, hexec, ?_, ?_, ?_, (h.flds _ (by decide)).trans hglade, (h.flds _ (by decide)).trans hmodule, h.mem⟩ <;> rw [hmod]

/-- The leak latch outlasts the rail (R315). -/
theorem leakLatched_outlastsRail {s t : State} (ht : t.regs = s.regs.filter fun e => outlastsRail e.1) : t.leakLatched = s.leakLatched := by
  have hrd : t.rd F.COOLANT_LEAK_INFO_LATCHED.off = s.rd F.COOLANT_LEAK_INFO_LATCHED.off := by
    unfold State.rd
    rw [ht]
    exact aget_filter _ _ _ outlastsRail (by decide)
  unfold State.leakLatched State.flag State.get
  rw [hrd]

/-- The island without its rail, before the module's state is set. -/
def State.railDown (s : State) : State :=
  { ({ s with regs := s.regs.filter (fun e => outlastsRail e.1), glade := {}, coolant := {}, fluid := { ran := s.fluid.ran } } : State).put
      F.COOLANT_LEAK_INFO_OPEN 0 with mod := { mstate := s.mod.mstate } }

theorem railDown_leakLatched (s : State) : s.railDown.leakLatched = s.leakLatched :=
  (flag_put_disj (by decide) (by decide)).trans (leakLatched_outlastsRail (s := s) rfl)

/-- LEAK is kept, from any other state the module is in STANDBY: the two agree with and without the loss of the conversion. -/
theorem leak_unpowered (m : MState) : m.unpowered = .leak ↔ m = .leak := by cases m <;> decide

theorem standbyRailLost_leaves (s : State) (hsb : s.mod.sbGood = true) :
    ∃ t, exec .standbyRailLost s = .next t ∧ t.glade = {} ∧ t.coolant = {} ∧ (s.mod.v48 = true → t.mem = []) ∧
      (s.mod.v48 = false → t.mem = s.mem ∧ t.dwood = s.dwood) ∧
      t.mod = { mstate := if s.leakLatched && decide (s.mod.mstate = .leak) then .leak else .standby } := by
  let off : State := if s.mod.v48 then s.powerLost else s
  have hdark := powerLost_dark s
  have hleak : off.leakLatched = s.leakLatched := by
    unfold off
    split
    · exact hdark.leak
    · rfl
  have hstate : off.mod.mstate = .leak ↔ s.mod.mstate = .leak := by
    unfold off
    split
    · rw [hdark.mod]
      exact leak_unpowered _
    · rfl
  have hmem : s.mod.v48 = true → off.mem = [] := fun h48 => (congrArg State.mem (if_pos h48)).trans hdark.mem
  have hkeep : s.mod.v48 = false → off = s := fun h48 => if_neg (by simp [h48])
  have hexec : exec .standbyRailLost s = .next (off.railDown.setMState
      (if off.railDown.leakLatched && decide (off.railDown.mod.mstate = .leak) then .leak else .standby)) := if_pos hsb
  have hnext : (if off.railDown.leakLatched && decide (off.railDown.mod.mstate = .leak) then MState.leak else .standby)
      = if s.leakLatched && decide (s.mod.mstate = .leak) then .leak else .standby := by
    rw [railDown_leakLatched, hleak, show off.railDown.mod.mstate = off.mod.mstate from rfl, decide_eq_decide.2 hstate]
  rw [hnext] at hexec
  have hne : (if s.leakLatched && decide (s.mod.mstate = .leak) then MState.leak else .standby) ≠ .ready := by split <;> decide
  rw [setMState_of_ne_ready hne] at hexec
  refine ⟨_, hexec, rfl, rfl, hmem, fun h48 => ?_, rfl⟩
  rw [← hkeep h48]
  exact ⟨rfl, rfl⟩

/-! ## PWR_OK -/

/-- The straps that PWR_OK latches. -/
def State.strapped (s : State) (slot : BitVec 6) (mode : BitVec 2) : State :=
  (({ s with mod := { s.mod with pwrOk := true, offLong := false, slotId := slot, bootMode := mode } }.put
    F.MODULE_STRAPS_SLOT_ID slot.toNat).put F.MODULE_STRAPS_BOOT_MODE mode.toNat).put F.SIDEBAND_ADDR_STATIC (0x60 + slot.toNat % 4)

/-- Without power a trip is recorded, reported to the island, and leads to TRIPPED. -/
theorem trip_of_powerAbsent {s : State} {groves : Nat} (hoff : s.powerAbsent = true) (hlatch : s.flag F.GLADE_TRIP_LATCHED = false)
    (hgroves : groves < 65536) :
    (s.trip groves).mod = { s.mod with mstate := .tripped, shdnL := true, staggering := false } ∧
      (s.trip groves).flag F.GLADE_TRIP_LATCHED = true ∧ (s.trip groves).get F.GLADE_TRIP_GROVES = groves ∧
      (s.trip groves).get F.MODULE_MSTATE_STATE = mstateCode .tripped := by
  have hoff' : ((s.tripRecord groves).raise P.GLADE B.GLADE_TRIP Evn.GLADE_TRIP).powerAbsent = true := by
    unfold State.powerAbsent
    rw [State.raise_mod]
    exact hoff
  have hregs (f : Fld) (hf : evtOffs.contains f.off = false) (h2 : f.off ≠ Hdr.EVT_SUMMARY P.GLADE)
      (hd : F.MODULE_MSTATE_STATE.disj f = true) : (s.trip groves).get f = (s.tripRecord groves).get f := by
    unfold State.trip
    dsimp only
    rw [if_pos hoff', setMState_of_ne_ready (by decide)]
    exact (get_put_disj _ _ _ _ (by decide) hd).trans (get_raise_norm _ _ _ _ _ _ _ hf h2)
  refine ⟨?_, ?_, ?_, ?_⟩
  · unfold State.trip
    dsimp only
    rw [if_pos hoff', setMState_mod, State.raise_mod]
    rfl
  · unfold State.flag
    rw [hregs _ (by decide) (by decide) (by decide)]
    simp (disch := decide) only [State.tripRecord, State.setShdn, get_norm, put_norm, putB_norm, Rg.get_put_disj, Rg.get_put_same]
    decide
  · rw [hregs _ (by decide) (by decide) (by decide)]
    unfold State.tripRecord
    rw [if_neg (by simp [hlatch])]
    dsimp only
    rw [Nat.zero_or, get_put_same _ _ _ (by decide)]
    exact Nat.mod_eq_of_lt hgroves
  · unfold State.trip
    dsimp only
    rw [if_pos hoff']
    exact setMState_mstate _ _

theorem pwrOkAssert_trips (s : State) (slot : BitVec 6) (mode : BitVec 2) (hot : BitVec 16) (hsb : s.mod.sbGood = true)
    (hpwr : s.mod.pwrOk = false) (hhot : hot ≠ 0) (hoff : s.powerAbsent = true) (hlatch : s.flag F.GLADE_TRIP_LATCHED = false) :
    ∃ t, exec (.pwrOkAssert slot mode hot) s = .next t ∧
        t.mod.mstate = .tripped ∧ t.mod.shdnL = true ∧ t.mod.staggering = false ∧ t.mod.pwrOk = true ∧ t.flag F.GLADE_TRIP_LATCHED = true ∧
        t.get F.GLADE_TRIP_GROVES = hot.toNat ∧ t.get F.MODULE_MSTATE_STATE = mstateCode .tripped := by
  have hlatch' : (s.strapped slot mode).flag F.GLADE_TRIP_LATCHED = false := by
    rw [← hlatch]
    simp (disch := decide) only [State.strapped, flag_norm, put_norm, Rg.get_put_disj]
  obtain ⟨hmod, hflag, hgroves, hcode⟩ := trip_of_powerAbsent (s := s.strapped slot mode) hoff hlatch' hot.isLt
  have hexec : exec (.pwrOkAssert slot mode hot) s = .next ((s.strapped slot mode).trip hot.toNat) := by
    show execPwrOkAssert slot mode hot s = _
    unfold execPwrOkAssert
    rw [if_neg (by simp [hsb, hpwr])]
    exact if_pos hhot
  refine ⟨_, hexec, ?_, ?_, ?_, ?_, hflag, hgroves, hcode⟩ <;> rw [hmod]
  rfl

theorem pwrOkAssert_staggers (s : State) (slot : BitVec 6) (mode : BitVec 2) (hsb : s.mod.sbGood = true)
    (hpwr : s.mod.pwrOk = false) (hstate : s.mod.mstate = .standby) (hfail : s.flag F.MODULE_MSTATE_BOOT_FAIL = false)
    (hleak : s.leakLatched = false) :
    ∃ t, exec (.pwrOkAssert slot mode 0) s = .next t ∧
        t.mod = { s.mod with pwrOk := true, offLong := false, slotId := slot, bootMode := mode, staggering := true } ∧
        t.get F.MODULE_STRAPS_SLOT_ID = slot.toNat ∧ t.get F.MODULE_STRAPS_BOOT_MODE = mode.toNat ∧ t.get F.SIDEBAND_ADDR_STATIC = 0x60 + slot.toNat % 4 ∧
        onlyRegs [F.MODULE_STRAPS_SLOT_ID.off, F.SIDEBAND_ADDR_STATIC.off] s t ∧ t = { s with regs := t.regs, mod := t.mod } := by
  have hslot := slot.isLt
  have hmode := mode.isLt
  have hexec : exec (.pwrOkAssert slot mode 0) s =
      .next { s.strapped slot mode with mod := { (s.strapped slot mode).mod with staggering := true } } := by
    show execPwrOkAssert slot mode 0 s = _
    have hfail' : (s.strapped slot mode).flag F.MODULE_MSTATE_BOOT_FAIL = false := by
      rw [← hfail]
      simp (disch := decide) only [State.strapped, flag_norm, put_norm, Rg.get_put_disj]
    have hleak' : (s.strapped slot mode).leakLatched = false := by
      rw [← hleak]
      simp (disch := decide) only [State.strapped, State.leakLatched, flag_norm, put_norm, Rg.get_put_disj]
    have hstate' : (s.strapped slot mode).mod.mstate = .standby := hstate
    unfold execPwrOkAssert
    rw [if_neg (by simp [hsb, hpwr])]
    extract_lets long _ _ _ latched s1 m1
    have hlatched : latched = s.strapped slot mode := rfl
    have h1 : s1 = s.strapped slot mode := by
      unfold s1
      rw [hlatched, hleak', Bool.and_false, if_neg Bool.false_ne_true]
    have hm1 : m1 = (s.strapped slot mode).mod := congrArg State.mod h1
    rw [if_neg (by decide), hm1, h1, hstate', hfail']
    rfl
  refine ⟨_, hexec, rfl, ?_, ?_, ?_, fun o ho => ?_, rfl⟩
  · simp (disch := decide) only [State.strapped, get_norm, put_norm, Rg.get_put_disj, Rg.get_put_same]
    exact Nat.mod_eq_of_lt hslot
  · simp (disch := decide) only [State.strapped, get_norm, put_norm, Rg.get_put_disj, Rg.get_put_same]
    exact Nat.mod_eq_of_lt hmode
  · simp (disch := decide) only [State.strapped, get_norm, put_norm, Rg.get_put_same]
    exact Nat.mod_eq_of_lt (show 0x60 + slot.toNat % 4 < 2 ^ 7 by omega)
  · obtain ⟨hstraps, haddr⟩ : o ≠ Reg.MODULE_STRAPS ∧ o ≠ Reg.SIDEBAND_ADDR := by simpa using ho
    exact (rd_put_ne _ _ _ haddr).trans ((rd_put_ne _ _ _ hstraps).trans (rd_put_ne _ _ _ hstraps))

/-! ## The stagger -/

theorem exec_staggerDone (s : State) (hwait : s.mod.staggering = true) (hstate : s.mod.mstate = .standby) :
    exec .staggerDone s = .next s.bootPower := by
  show execStaggerDone s = _
  simp only [execStaggerDone, hwait, hstate, decide_true, Bool.and_self, if_true]

theorem entering_regs (s : State) : s.entering.regs =
    Rg.put (Rg.put (s.bump Reg.MODULE_BOOT_COUNT 1).regs F.MODULE_MSTATE_BOOT_FAIL 0) F.MODULE_MSTATE_STATE (mstateCode .bringup) := rfl

theorem bootEnter_mod (s : State) : s.bootEnter.mod = { s.mod.entering with mstate := .bringup } :=
  (bootEnter_steady s).mod.trans (setMState_mod _ _)

/-- The leak latch is as it was once the conversion is on and BRINGUP is entered. -/
theorem powered_leakLatched (s : State) : s.conversionOn.bootEnter.leakLatched = s.leakLatched := by
  have hentering : s.conversionOn.entering.leakLatched = s.conversionOn.leakLatched := by
    simp (disch := decide) only [State.leakLatched, flag_norm, entering_regs, bump_norm, Rg.get_put_disj, Rg.get_wr_ne]
  exact ((bootEnter_steady _).leakLatched.trans hentering).trans (conversionOn_steady s).leakLatched

theorem staggerDone_starts (s : State) (hwait : s.mod.staggering = true) (hstate : s.mod.mstate = .standby) (hleak : s.leakLatched = false) :
    ∃ t, exec .staggerDone s = .next t ∧ t.mod.mstate = .bringup ∧ t.bootStep = 2 ∧ t.mod.v48 = true ∧ t.mod.power = .hold ∧
        (t.rd Reg.MODULE_BOOT_COUNT).toNat = min ((s.rd Reg.MODULE_BOOT_COUNT).toNat + 1) 0xFFFFFFFF := by
  have hon := conversionOn_steady s
  have hstep := atStep2_of_start s.conversionOn
  have hpower : s.bootPower = s.conversionOn.bootEnter.step1Pumps.step1Valves.bootStepBegin 2 :=
    if_neg (by simp [powered_leakLatched, hleak])
  refine ⟨_, exec_staggerDone s hwait hstate, ?_⟩
  rw [hpower, hstep.mod, hstep.count, hon.mod, hon.rd (by decide)]
  exact ⟨rfl, hstep.step, rfl, rfl, rfl⟩

theorem staggerDone_leaks (s : State) (hwait : s.mod.staggering = true) (hstate : s.mod.mstate = .standby) (hleak : s.leakLatched = true) :
    ∃ t, exec .staggerDone s = .next t ∧ t.mod.mstate = .leak ∧ t.bootStep = 0 ∧ t.mod.v48 = true := by
  have hpower : s.bootPower = s.conversionOn.bootEnter.leakClose.bootLeak := if_pos (by simp [powered_leakLatched, hleak])
  obtain ⟨hmod, hstep⟩ := bootLeak_spec s.conversionOn.bootEnter.leakClose
  have hon : s.conversionOn.bootEnter.leakClose.mod.v48 = true := by
    rw [(leakClose_steady _).mod]
    show s.conversionOn.bootEnter.mod.v48 = true
    rw [bootEnter_mod, (conversionOn_steady s).mod]
    rfl
  refine ⟨_, exec_staggerDone s hwait hstate, ?_⟩
  rw [hpower, hmod]
  exact ⟨rfl, hstep, hon⟩

/-! ## PWR_OK deasserted, or 48 V failed -/

/-- PWR_OK is low, and a stagger has ended. -/
def ModSt.pwrLow (m : ModSt) : ModSt := { m with pwrOk := false, offLong := false, staggering := false }

theorem pwrOkGone_leaves (s : State) : (s.pwrOkGone).mod.pwrOk = false ∧ s.pwrOkGone.mod.staggering = false ∧ s.pwrOkGone.mod.offLong = false ∧
    (s.mod.v48 = false → s.pwrOkGone = { s with mod := s.pwrOkGone.mod }) ∧
    (s.mod.v48 = true → s.pwrOkGone.mod.v48 = false ∧ s.pwrOkGone.mod.power = .standby ∧ s.pwrOkGone.mem = [] ∧ s.pwrOkGone.stand = {} ∧
      s.pwrOkGone.bootStep = 0 ∧
      s.pwrOkGone.mod.mstate = (if s.mod.mstate = .leak ∨ s.mod.mstate = .tripped then s.mod.mstate else .standby)) := by
  cases h48 : s.mod.v48 with
  | false =>
    have hgone : s.pwrOkGone = { s with mod := s.mod.pwrLow } := if_neg (by simp [h48])
    rw [hgone]
    exact ⟨rfl, rfl, rfl, fun _ => rfl, nofun⟩
  | true =>
    have hgone : s.pwrOkGone = State.powerLost { s with mod := s.mod.pwrLow } := if_pos h48
    have hdark := powerLost_dark { s with mod := s.mod.pwrLow }
    rw [hgone, hdark.mod]
    exact ⟨rfl, rfl, rfl, nofun, fun _ => ⟨rfl, rfl, hdark.mem, hdark.stand, hdark.step, rfl⟩⟩

theorem exec_powerFails {c : Instr} (hc : c ∈ [Instr.pwrOkDeassert, .vinUndervolt]) (s : State) :
    exec c s = .next (if s.mod.pwrOk then s.pwrOkGone else s) := by
  simp only [List.mem_cons, List.not_mem_nil, or_false] at hc
  rcases hc with rfl | rfl <;> rfl

/-- Settles O49: what a rail or PWR_OK edge does is the definition of its row; what a loss of the conversion and a start leave is
`powerLost_dark` and `atStep2_of_start`. -/
theorem standbyRailAndFortyEightVolts : Obligations.StandbyRailAndFortyEightVolts := by
  unfold Obligations.StandbyRailAndFortyEightVolts
  intro s trip slot mode hot
  refine ⟨fun hsb => if_pos hsb, standbyRailGood_latches s trip, fun hsb => if_neg (by simp [hsb]), standbyRailLost_leaves s, fun h => ?_,
    fun hsb hpwr => ⟨pwrOkAssert_trips s slot mode hot hsb hpwr, pwrOkAssert_staggers s slot mode hsb hpwr⟩, fun h => ?_,
    fun hwait hstate => ⟨staggerDone_starts s hwait hstate, staggerDone_leaks s hwait hstate⟩, fun c hc => ?_⟩
  · exact if_pos (by rcases h with h | h <;> simp [h])
  · show execStaggerDone s = _
    rcases h with h | h <;> simp [execStaggerDone, h]
  · rw [exec_powerFails hc]
    exact ⟨fun hpwr => by rw [hpwr]; rfl, fun hpwr => ⟨_, by rw [hpwr]; rfl, pwrOkGone_leaves s⟩⟩

end Sys2Proof.Machine
end

section
/-! SUPPORT. `Steady` along the way to Hold and back: links and service cores. -/

namespace Sys2Proof.Machine

variable {s₀ s : State} (h : Steady s₀ s)
include h

/-! ## Links -/

theorem Steady.setL {l ls fn : Nat} : Steady s₀ (s.setL l ls fn) := by
  have hl : Aside (F.LINK_STATUS_LSTATE l).off := aside_of_lt (show 0xF074 < 0x200000 + 0x1000 * l + 0x40 by omega)
  exact (h.put hl).setFn link_aligned

theorem Steady.linkTakedown {l : Nat} : Steady s₀ (s.linkTakedown l) := ((h.onlyIfNot fun h => h.setLink).emit).setL

theorem Steady.linkDown {mark : Bool} {l : Nat} : Steady s₀ (s.linkDown mark l) := h.onlyIf fun h => h.setLink.linkTakedown

theorem Steady.linkEnable {l : Nat} : Steady s₀ (s.linkEnable l) := by
  have hl : Aside (F.LINK_STATUS_FAIL_CAUSE l).off := aside_of_lt (show 0xF074 < 0x200000 + 0x1000 * l + 0x40 by omega)
  exact (h.put hl).setLink.setLink.setL

/-! ## Service cores -/

theorem Steady.svcRoles : Steady s₀ s.svcRoles := by
  unfold State.svcRoles
  extract_lets r role s1
  have h1 : Steady s₀ s1 := h.fold fun c _ _ h => by
    have hc : Aside (F.SVC_STATUS_ROLE c).off := aside_of_lt (show 0xF074 < 0x18000 + 0x1000 * c + 0x40 by omega)
    exact (h.put hc).putB hc
  exact (h1.put (by decide)).putB (by decide)

theorem Steady.serveStatus : Steady s₀ s.serveStatus := by
  unfold State.serveStatus
  extract_lets s1 _ s2
  have h1 : Steady s₀ s1 := (h.put (by decide)).putB (by decide)
  have h2 : Steady s₀ s2 := (h1.putB (by decide)).put (by decide)
  exact h2.wr (by decide)

theorem Steady.serveFault {cause : Nat} : Steady s₀ (s.serveFault cause) :=
  (Steady.raise (Steady.same ((h.toFault (by decide)).put (by decide))) (by decide)).serveStatus

theorem Steady.svcLeave {c : Nat} {f : State → State} (hf : ∀ s, Steady s₀ s → Steady s₀ (f s)) : Steady s₀ (s.svcLeave c f) :=
  (hf _ h).svcRoles.onlyIf fun h => h.serveFault

/-! ## Hold and Idle -/

/-- The way to Hold changes nothing of the module but its own course. -/
theorem Steady.holdBegin {byCommand : Bool} : Steady
    { s₀ with mod := { s₀.mod with target := some .hold, byCommand := byCommand, svcHeld := (s.holdBegin byCommand).mod.svcHeld } }
    (s.holdBegin byCommand) := by
  unfold State.holdBegin
  extract_lets _ s1 cores s2
  have h1 : Steady s₀ s1 := h.foldl fun _ _ h => h.linkDown
  have h2 : Steady s₀ s2 := h1.foldl fun _ _ h => h.svcLeave fun _ h => h.setFn svc_aligned
  exact h2.modBoth (m := fun m => { m with target := some .hold, byCommand := byCommand, svcHeld := cores })

theorem Steady.wakeBegin {byCommand : Bool} : Steady
    { s₀ with mod := { s₀.mod with target := some .idle, byCommand := byCommand, svcHeld := [], fsHold := false } } (s.wakeBegin byCommand) := by
  unfold State.wakeBegin
  extract_lets _ s1 s2
  have h1 : Steady s₀ s1 := h.foldl fun _ _ h => h.onlyIf fun h => h.setFn svc_aligned
  have h2 : Steady s₀ s2 := h1.foldl fun _ _ h => h.onlyIf fun h => h.setLink.onlyIf fun h => h.linkEnable
  exact h2.modBoth (m := fun m => { m with target := some .idle, byCommand := byCommand, svcHeld := [], fsHold := false })

end Sys2Proof.Machine
end

section
/-! The commands of MODULE.COMMAND and the DWOOD page: one lemma for each part of O51. -/

namespace Sys2Proof.Machine

/-! ## A host's write of MODULE or DWOOD -/

/-- The host's write of a page that is there, with the right to it, has its effect. -/
theorem gateW_host {s : State} {off : Nat} {data : Word} {ok : Bool} {eff : State → State} (hok : ok = true)
    (hoff : off % 4096 ≠ 0x10) (hpage : pageOf off ≠ 0x8000 ∧ pageOf off ≠ 0x9000) (habs : s.absent (pageOf off) = false) :
    s.gateW off { req := .host, data := data, be := 15 } ok eff =
      (eff (s.taken .host off data)).trackWrite .host off ((s.snoop off .host data).rd off) := by
  subst hok
  have hgate := gate_accept s .host off data eff (.inl (by decide)) hoff rfl
  refine hgate.trans (accept_present s .host off data eff ?_)
  rw [snoop_absent s off .host data _ (pageOf_aligned off) hpage]
  exact habs

theorem gateW_host_refused {s : State} {off : Nat} {data : Word} {ok : Bool} {eff : State → State} (hok : ok = false)
    (hoff : off % 4096 ≠ 0x10) :
    s.gateW off { req := .host, data := data, be := 15 } ok eff = s.refuse .host off causeRight := by
  subst hok
  exact gate_right s .host off data eff (.inl (by decide)) hoff

/-! ## COMMAND -/

/-- What an accepted write of COMMAND does. -/
def State.commandAct (s : State) (v : Word) : State :=
  let bit := fun (f : Fld) => decide (f.of v = 1)
  let s := if bit F.MODULE_COMMAND_SERVICE_REQ then
      (s.consumeToken.setMState .service).raise P.MODULE B.MODULE_SERVICE_ENTER Evn.MODULE_SERVICE_ENTER
    else s
  let s := if bit F.MODULE_COMMAND_HOLD then s.holdBegin true else s
  let s := if bit F.MODULE_COMMAND_WAKE then s.wakeBegin true else s
  if bit F.MODULE_COMMAND_RESTART then s.bootRestart else s

/-- The host's write of COMMAND. -/
def State.hostCommand (s : State) (v : Word) : State := s.commandWrite { req := .host, data := v, be := 15 }

theorem hostCommand_eq (s : State) (v : Word) : s.hostCommand v =
    s.gateW Reg.MODULE_COMMAND { req := .host, data := v, be := 15 } (hostOrCanopy .host && s.commandOk v) fun t => t.commandAct v := rfl

theorem commandAct_serviceReq (s : State) :
    s.commandAct 1 = (s.consumeToken.setMState .service).raise P.MODULE B.MODULE_SERVICE_ENTER Evn.MODULE_SERVICE_ENTER := by
  unfold State.commandAct
  dsimp only
  rw [if_neg (by decide), if_neg (by decide), if_neg (by decide), if_pos (by decide)]
theorem commandAct_restart (s : State) : s.commandAct 2 = s.bootRestart := by
  unfold State.commandAct
  dsimp only
  rw [if_pos (by decide), if_neg (by decide), if_neg (by decide), if_neg (by decide)]
theorem commandAct_hold (s : State) : s.commandAct 4 = s.holdBegin true := by
  unfold State.commandAct
  dsimp only
  rw [if_neg (by decide), if_neg (by decide), if_pos (by decide), if_neg (by decide)]
theorem commandAct_wake (s : State) : s.commandAct 8 = s.wakeBegin true := by
  unfold State.commandAct
  dsimp only
  rw [if_neg (by decide), if_pos (by decide), if_neg (by decide), if_neg (by decide)]

/-- READY or SERVICE, in which HOLD and WAKE are taken. -/
def State.takesHold (s : State) : Bool := decide (s.mod.mstate = .ready) || decide (s.mod.mstate = .service)

theorem commandOk_serviceReq (s : State) : s.commandOk 1 = (decide (s.mod.mstate = .ready) && s.hasToken 3 0) := by
  refine Eq.trans (b := (decide (s.mod.mstate = .ready) && s.hasToken 3 0) && true && true && true) rfl ?_
  simp only [Bool.and_true]
theorem commandOk_restart (s : State) : s.commandOk 2 = decide (s.mod.mstate = .service) := by
  refine Eq.trans (b := true && decide (s.mod.mstate = .service) && true && true) rfl ?_
  simp only [Bool.and_true, Bool.true_and]
theorem commandOk_hold (s : State) : s.commandOk 4 = (s.takesHold && !s.inHold) := by
  refine Eq.trans (b := true && true && (s.takesHold && !s.inHold) && true) rfl ?_
  simp only [Bool.and_true, Bool.true_and]
theorem commandOk_wake (s : State) :
    s.commandOk 8 = (s.takesHold && s.inHold && !(s.mod.fsHold && s.flag F.GLADE_STATUS_FLOW_STOP)) := rfl

theorem hostCommand_refused {s : State} {v : Word} (hok : s.commandOk v = false) :
    s.hostCommand v = s.refuse .host Reg.MODULE_COMMAND causeRight := by
  rw [hostCommand_eq]
  exact gateW_host_refused hok (by decide)

theorem hostCommand_accepted {s : State} {v : Word} (habs : s.absent P.MODULE = false) (hok : s.commandOk v = true) :
    s.hostCommand v = ((s.taken .host Reg.MODULE_COMMAND v).commandAct v).trackWrite .host Reg.MODULE_COMMAND
      ((s.snoop Reg.MODULE_COMMAND .host v).rd Reg.MODULE_COMMAND) := by
  rw [hostCommand_eq]
  exact gateW_host hok (by decide) (by decide) habs

end Sys2Proof.Machine
end

section
/-! The commands of MODULE.COMMAND: one lemma for each part of O51. -/

namespace Sys2Proof.Machine

/-! ## The pending token is consumed -/

/-- Registers outside the measurements. -/
theorem rd_extendM {s : State} {i : Nat} {v : List Byte} {o : Nat} (hi : i < 8) (ho : o < 0x5200 ∨ 0x5300 ≤ o) :
    (s.extendM i v).rd o = s.rd o := by
  refine List.foldlRecOn (motive := fun t : State => t.rd o = s.rd o) _ _ rfl fun t ht j hj => ?_
  have hne : o ≠ Reg.SEC_MEAS (8 * i) + 4 * j := by
    have hj := List.mem_range.1 hj
    show o ≠ 0x5200 + 4 * (8 * i) + 4 * j
    omega
  exact (rd_wr_ne t _ hne).trans ht

theorem Steady.consumeToken {s₀ s : State} (h : Steady s₀ s) : Steady s₀ s.consumeToken := by
  unfold State.consumeToken
  split
  · exact h
  · exact Steady.same (h |>.putB (by decide) |>.put (by decide) |>.put (by decide) |>.put (by decide) |>.extendM (by decide))

theorem consumeToken_token (s : State) : s.consumeToken.sec.token = none := by
  unfold State.consumeToken
  split
  · assumption
  · rfl

theorem consumed_rd {s : State} {t : Token} {o : Nat} (hmeas : o < 0x5200 ∨ 0x5300 ≤ o) (hresult : o ≠ Reg.SEC_TOKEN_RESULT) :
    (s.consumed t).rd o = s.rd o := by
  have hputs : (((s.put F.SEC_TOKEN_RESULT_RESULT 8).put F.SEC_TOKEN_RESULT_TTL 0).put F.SEC_TOKEN_RESULT_SCOPE t.scope).rd o = s.rd o := by
    rw [rd_put_ne _ _ _ hresult, rd_put_ne _ _ _ hresult, rd_put_ne _ _ _ hresult]
  unfold State.consumed
  rw [rd_extendM (by decide) hmeas]
  exact hputs

theorem consumeToken_of_some {s : State} {t : Token} (ht : s.sec.token = some t) :
    s.consumeToken = { (s.putB F.SEC_STATUS_TOKEN_PENDING false).consumed t with sec := { s.sec with token := none } } := by
  unfold State.consumeToken
  rw [ht]

theorem consumeToken_regs {s : State} {t : Token} (ht : s.sec.token = some t) :
    s.consumeToken.regs = ((s.putB F.SEC_STATUS_TOKEN_PENDING false).consumed t).regs := by
  rw [consumeToken_of_some ht]

theorem consumeToken_pending {s : State} {t : Token} (ht : s.sec.token = some t) :
    s.consumeToken.flag F.SEC_STATUS_TOKEN_PENDING = false := by
  have hrd := (rd_congr (consumeToken_regs ht) Reg.SEC_STATUS).trans (consumed_rd (by decide) (by decide))
  unfold State.flag State.get
  rw [hrd]
  exact flag_putB_same s F.SEC_STATUS_TOKEN_PENDING false (by decide) rfl

/-- The consumption of a token is confined to the page of SEC. -/
theorem consumeToken_rd {s : State} {t : Token} (ht : s.sec.token = some t) {o : Nat} (ho : o < 0x5000 ∨ 0x6000 ≤ o) :
    s.consumeToken.rd o = s.rd o := by
  have hpage {p : Nat} (hp : 0x5000 ≤ p ∧ p < 0x6000) : o ≠ p := by omega
  refine (rd_congr (consumeToken_regs ht) o).trans ((consumed_rd (by omega) (hpage (by decide))).trans ?_)
  exact rd_put_ne s _ _ (hpage (by decide))

theorem token_of_hasToken {s : State} {scope : Nat} {arg : Word} (h : s.hasToken scope arg = true) : ∃ t, s.sec.token = some t := by
  unfold State.hasToken at h
  cases ht : s.sec.token with
  | none =>
    rw [ht, Bool.and_false] at h
    cases h
  | some t => exact ⟨t, rfl⟩

/-! ## SERVICE_REQ -/

theorem serviceReq_enters {s : State} (habs : s.absent P.MODULE = false) (hready : s.mod.mstate = .ready) (htoken : s.hasToken 3 0 = true) :
    ∃ t, exec (.serviceReq .host) s = .next t ∧ t.mod = { s.mod with mstate := .service } ∧
        t.get F.MODULE_MSTATE_STATE = mstateCode .service ∧ t.sec.token = none ∧ t.flag F.SEC_STATUS_TOKEN_PENDING = false ∧
        t.summary P.MODULE B.MODULE_SERVICE_ENTER = true := by
  have hok : s.commandOk 1 = true := by rw [commandOk_serviceReq, hready, htoken]; rfl
  refine ⟨s.hostCommand 1, rfl, ?_⟩
  rw [hostCommand_accepted habs hok, commandAct_serviceReq]
  have htaken : (s.taken .host Reg.MODULE_COMMAND 1).sec.token = s.sec.token := by rw [State.taken_sec]
  obtain ⟨token, hsome⟩ := token_of_hasToken htoken
  have hmod := (Steady.refl (s.taken .host Reg.MODULE_COMMAND 1)).consumeToken.mod
  have hpending := consumeToken_pending (htaken.trans hsome)
  have hnone := consumeToken_token (s.taken .host Reg.MODULE_COMMAND 1)
  generalize (s.taken .host Reg.MODULE_COMMAND 1).consumeToken = u at hmod hpending hnone
  refine ⟨?_, ?_, ?_, ?_, ?_⟩
  · rw [State.trackWrite_mod, State.raise_mod, setMState_mod, hmod, State.taken_mod]
  · rw [get_congr (trackWrite_regs ..), raise_get _ _ _ _ _ _ (by decide) (by decide), setMState_mstate]
  · rw [State.trackWrite_sec, State.raise_sec, setMState_of_ne_ready (by decide)]
    exact hnone
  · rw [flag_congr (trackWrite_regs ..), raise_flag _ _ _ _ _ _ (by decide) (by decide), setMState_of_ne_ready (by decide)]
    exact (flag_put_disj (s := { u with mod := { u.mod with mstate := .service } }) (by decide) (by decide)).trans hpending
  · unfold State.summary
    rw [flag_congr (trackWrite_regs ..)]
    exact raise_summary _ _ _ _ _ _ (by decide) (by decide)

/-! ## RESTART -/

theorem holder_put {s : State} {f : Fld} {x : Nat} (hf : f.off ≠ F.ARB_TOKEN_HOLDER.off) : (s.put f x).holder = s.holder :=
  get_put_off s f F.ARB_TOKEN_HOLDER x hf.symm

/-- The flags of both cores that a change of holder sets. -/
theorem holder_coreFlags {s : State} (n : Nat) : (([0, 1] : List Nat).foldl (fun (s : State) k =>
    let s : State := (s.putB (F.CANOPY_STATUS_HOLDER k) (decide (n = k + 1))).putB (F.CANOPY_STATUS_SEIZE_OK k) false
    s.putB (F.CANOPY_STATUS_IN_CONTROL k) false) s).holder = s.holder := by
  have hcanopy : ∀ k ∈ [0, 1], (F.CANOPY_STATUS_HOLDER k).off ≠ F.ARB_TOKEN_HOLDER.off := by decide
  refine List.foldlRecOn (motive := fun t : State => t.holder = s.holder) _ _ rfl fun t ht k hk => ?_
  have hk := hcanopy k hk
  exact (holder_put (f := F.CANOPY_STATUS_IN_CONTROL k) hk).trans ((holder_put (f := F.CANOPY_STATUS_SEIZE_OK k) hk).trans
    ((holder_put (f := F.CANOPY_STATUS_HOLDER k) hk).trans ht))

/-- Both cores' heartbeats. -/
theorem holder_heartbeats {s : State} (n : Nat) : (([0, 1] : List Nat).foldl (fun (s : State) k =>
    s.setCore k { s.core k with hb := if n = k + 1 then { base := s.now } else {} }) s).holder = s.holder :=
  List.foldlRecOn (motive := fun t : State => t.holder = s.holder) _ _ rfl fun _ ht _ _ =>
    (get_congr (State.setCore_regs ..) F.ARB_TOKEN_HOLDER).trans ht

theorem setHolder_zero (s : State) : (s.setHolder 0).holder = 0 := by
  have hzero (x : Nat) : ((s.put F.ARB_TOKEN_HOLDER 0).put F.ARB_TOKEN_TRANSFERS x).holder = 0 :=
    (get_put_disj _ _ _ _ (by decide) (by decide)).trans (get_put_same s F.ARB_TOKEN_HOLDER 0 (by decide))
  obtain ⟨u, hu, heq⟩ : ∃ u : State, u.holder = 0 ∧ s.setHolder 0 = { u with canopy := { u.canopy with since := [] } } :=
    ⟨_, (holder_heartbeats 0).trans ((holder_coreFlags 0).trans (hzero _)), rfl⟩
  rw [heq]
  exact hu

/-- The token is vacant. -/
def State.vacated (s : State) : State := if s.holder = 0 then s else s.setHolder 0

theorem vacated_holder (s : State) : s.vacated.holder = 0 := by
  unfold State.vacated
  split
  · assumption
  · exact setHolder_zero s

theorem startResets_eq (s : State) : ∃ t : State, s.startResets =
    { t.vacated.unitsCold with canopy := { t.vacated.canopy with former := none, vacancy := swVacant, since := [] } } := ⟨_, rfl⟩

theorem startResets_leaves (s : State) : s.startResets.holder = 0 ∧ s.startResets.mem = [] ∧ s.startResets.stand = {} := by
  obtain ⟨t, heq⟩ := startResets_eq s
  rw [heq]
  exact ⟨vacated_holder t, rfl, rfl⟩

theorem restart_enters {s : State} (habs : s.absent P.MODULE = false) (hservice : s.mod.mstate = .service) :
    ∃ t, exec (.restart .host) s = .next t ∧ t.mod.mstate = .bringup ∧ t.bootStep = 2 ∧ t.holder = 0 ∧ t.mem = [] ∧
        t.stand = {} ∧ t.mod.power = .hold := by
  have hok : s.commandOk 2 = true := by rw [commandOk_restart, hservice]; rfl
  refine ⟨s.hostCommand 2, rfl, ?_⟩
  rw [hostCommand_accepted habs hok, commandAct_restart]
  have hstep := atStep2_of_restart (s.taken .host Reg.MODULE_COMMAND 2).startResets
  obtain ⟨hholder, hmem, hstand⟩ := startResets_leaves (s.taken .host Reg.MODULE_COMMAND 2)
  have h := (Steady.refl (s.taken .host Reg.MODULE_COMMAND 2).bootRestart).trackWrite (req := .host) (off := Reg.MODULE_COMMAND)
    (before := (s.snoop Reg.MODULE_COMMAND .host 2).rd Reg.MODULE_COMMAND)
  rw [h.mod, h.bootStep, h.holder, h.mem, h.stand]
  exact ⟨congrArg ModSt.mstate hstep.mod, hstep.step, hstep.holder.trans hholder, hstep.mem.trans hmem, hstep.stand.trans hstand,
    congrArg ModSt.power hstep.mod⟩

/-! ## HOLD and WAKE -/

theorem takesHold_iff {s : State} : s.takesHold = true ↔ s.mod.mstate = .ready ∨ s.mod.mstate = .service := by
  simp only [State.takesHold, Bool.or_eq_true, decide_eq_true_eq]

theorem hold_begins {s : State} (habs : s.absent P.MODULE = false) (hopen : s.mod.mstate = .ready ∨ s.mod.mstate = .service)
    (hhold : s.inHold = false) :
    ∃ t, exec (.hold .host) s = .next t ∧ t.mod = { s.mod with target := some .hold, byCommand := true, svcHeld := t.mod.svcHeld } ∧
        t.mem = s.mem ∧ t.rd (Hdr.OWNER P.MODULE) = reqIdent .host := by
  have hok : s.commandOk 4 = true := by rw [commandOk_hold, takesHold_iff.2 hopen, hhold]; rfl
  have h := ((Steady.refl (s.taken .host Reg.MODULE_COMMAND 4)).holdBegin (byCommand := true)).trackWrite (req := .host)
    (off := Reg.MODULE_COMMAND) (before := (s.snoop Reg.MODULE_COMMAND .host 4).rd Reg.MODULE_COMMAND)
  rw [← commandAct_hold, ← hostCommand_accepted habs hok] at h
  refine ⟨s.hostCommand 4, rfl, ?_, h.mem.trans (State.taken_mem _ _ _ _), (h.rd (by decide)).trans (taken_owner s .host Reg.MODULE_COMMAND 4)⟩
  rw [h.mod]
  dsimp only
  rw [State.taken_mod]

theorem wake_begins {s : State} (habs : s.absent P.MODULE = false) (hopen : s.mod.mstate = .ready ∨ s.mod.mstate = .service)
    (hhold : s.inHold = true) (hstop : ¬ (s.mod.fsHold = true ∧ s.flag F.GLADE_STATUS_FLOW_STOP = true)) :
    ∃ t, exec (.wake .host) s = .next t ∧ t.mod = { s.mod with target := some .idle, byCommand := true, svcHeld := [], fsHold := false } ∧
        t.mem = s.mem ∧ t.rd (Hdr.OWNER P.MODULE) = reqIdent .host := by
  have hok : s.commandOk 8 = true := by
    rw [commandOk_wake, takesHold_iff.2 hopen, hhold]
    simpa only [Bool.and_self, Bool.true_and, Bool.not_eq_true', Bool.and_eq_false_iff, not_and_or, Bool.not_eq_true] using hstop
  have h := ((Steady.refl (s.taken .host Reg.MODULE_COMMAND 8)).wakeBegin (byCommand := true)).trackWrite (req := .host)
    (off := Reg.MODULE_COMMAND) (before := (s.snoop Reg.MODULE_COMMAND .host 8).rd Reg.MODULE_COMMAND)
  rw [← commandAct_wake, ← hostCommand_accepted habs hok] at h
  refine ⟨s.hostCommand 8, rfl, ?_, h.mem.trans (State.taken_mem _ _ _ _), (h.rd (by decide)).trans (taken_owner s .host Reg.MODULE_COMMAND 8)⟩
  rw [h.mod]
  dsimp only
  rw [State.taken_mod]

end Sys2Proof.Machine
end

section
/-! The DWOOD page, and O51. -/

namespace Sys2Proof.Machine

/-! ## SEL -/

/-- The selected entry is copied to ENTRY0 to ENTRY3. -/
def State.dwoodSelAct (s : State) (data : Word) : State :=
  let i := bitsOf data 0 13
  let e := aget 0 s.dwood i
  (List.range 4).foldl (fun (s : State) j => s.wr (Reg.DWOOD_ENTRY j) (e.extractLsb' (32 * j) 32)) (s.wr Reg.DWOOD_SEL (BitVec.ofNat 32 i))

theorem dwoodSel_accepted {s : State} {data : Word} (habs : s.absent P.DWOOD = false) :
    ∃ before, exec (.dwoodSel { req := .host, data := data, be := 15 }) s =
      .next (((s.taken .host Reg.DWOOD_SEL data).dwoodSelAct data).trackWrite .host Reg.DWOOD_SEL before) :=
  ⟨_, congrArg Host.Outcome.next (gateW_host (eff := fun t => t.dwoodSelAct data) rfl (by decide) (by decide) habs)⟩

/-- What the selection leaves in the page's registers. -/
theorem dwoodSelAct_rd (s : State) (data : Word) :
    (s.dwoodSelAct data).rd Reg.DWOOD_SEL = BitVec.ofNat 32 (bitsOf data 0 13) ∧
      (∀ j < 4, (s.dwoodSelAct data).rd (Reg.DWOOD_ENTRY j) = (aget 0 s.dwood (bitsOf data 0 13)).extractLsb' (32 * j) 32) ∧
      ∀ o, o ∉ [Reg.DWOOD_SEL, Reg.DWOOD_ENTRY 0, Reg.DWOOD_ENTRY 1, Reg.DWOOD_ENTRY 2, Reg.DWOOD_ENTRY 3] →
        (s.dwoodSelAct data).rd o = s.rd o := by
  let e := aget 0 s.dwood (bitsOf data 0 13)
  have hact : s.dwoodSelAct data = ((((s.wr Reg.DWOOD_SEL (BitVec.ofNat 32 (bitsOf data 0 13))).wr (Reg.DWOOD_ENTRY 0) (e.extractLsb' (32 * 0) 32)).wr
      (Reg.DWOOD_ENTRY 1) (e.extractLsb' (32 * 1) 32)).wr (Reg.DWOOD_ENTRY 2) (e.extractLsb' (32 * 2) 32)).wr
      (Reg.DWOOD_ENTRY 3) (e.extractLsb' (32 * 3) 32) := rfl
  rw [hact]
  refine ⟨?_, fun j hj => ?_, fun o ho => ?_⟩
  · simp (disch := decide) only [rd_wr_ne, rd_wr_same]
  · interval_cases j <;> simp (disch := decide) only [rd_wr_ne, rd_wr_same] <;> rfl
  · simp only [List.mem_cons, List.not_mem_nil, or_false, not_or] at ho
    obtain ⟨hsel, h0, h1, h2, h3⟩ := ho
    rw [rd_wr_ne _ _ h3, rd_wr_ne _ _ h2, rd_wr_ne _ _ h1, rd_wr_ne _ _ h0, rd_wr_ne _ _ hsel]

theorem dwoodSelAct_dwood (s : State) (data : Word) : (s.dwoodSelAct data).dwood = s.dwood := rfl

theorem dwoodSel_copies {s : State} (data : Word) (habs : s.absent P.DWOOD = false) :
    ∃ t, exec (.dwoodSel { req := .host, data := data, be := 15 }) s = .next t ∧ t.rd Reg.DWOOD_SEL = BitVec.ofNat 32 (bitsOf data 0 13) ∧
        (∀ j < 4, t.rd (Reg.DWOOD_ENTRY j) = (aget 0 s.dwood (bitsOf data 0 13)).extractLsb' (32 * j) 32) ∧ t.dwood = s.dwood ∧
        onlyRegsWrite [Reg.DWOOD_SEL, Reg.DWOOD_ENTRY 0, Reg.DWOOD_ENTRY 1, Reg.DWOOD_ENTRY 2, Reg.DWOOD_ENTRY 3, Hdr.OWNER P.DWOOD] s t := by
  obtain ⟨before, hexec⟩ := dwoodSel_accepted (data := data) habs
  obtain ⟨hsel, hentry, hrest⟩ := dwoodSelAct_rd (s.taken .host Reg.DWOOD_SEL data) data
  refine ⟨_, hexec, ?_, fun j hj => ?_, ?_, fun o ho hevt hcanopy => ?_⟩
  · rw [trackWrite_rd, hsel]
  · rw [trackWrite_rd, hentry j hj, State.taken_dwood]
  · rw [State.trackWrite_dwood, dwoodSelAct_dwood, State.taken_dwood]
  · have howner : o ≠ Hdr.OWNER P.DWOOD := fun h => ho (h ▸ by simp)
    have hlist : o ∉ [Reg.DWOOD_SEL, Reg.DWOOD_ENTRY 0, Reg.DWOOD_ENTRY 1, Reg.DWOOD_ENTRY 2, Reg.DWOOD_ENTRY 3] := fun h => ho (by
      simp only [List.mem_cons, List.not_mem_nil, or_false] at h ⊢
      omega)
    rw [trackWrite_rd, hrest o hlist, taken_rd s .host Reg.DWOOD_SEL data hevt hcanopy howner]

/-! ## CLEAR -/

theorem extendM_dwood (s : State) (i : Nat) (v : List Byte) : (s.extendM i v).dwood = s.dwood :=
  List.foldlRecOn (motive := fun t : State => t.dwood = s.dwood) _ _ rfl fun _ ht _ _ => ht

theorem consumed_dwood (s : State) (t : Token) : (s.consumed t).dwood = s.dwood := by
  unfold State.consumed
  rw [extendM_dwood]
  rfl

theorem consumeToken_dwood {s : State} {t : Token} (ht : s.sec.token = some t) : s.consumeToken.dwood = s.dwood := by
  rw [consumeToken_of_some ht]
  dsimp only
  rw [consumed_dwood]
  rfl

/-- After a removal the entries are counted, and the event tells of it. -/
def State.dwoodCleared (s : State) : State :=
  let s := s.dwCounts
  let s := if s.get F.DWOOD_COUNT_GENERAL < 4096 then s.putB F.MODULE_MSTATE_DWOOD_FULL false else s
  s.raise P.DWOOD B.DWOOD_DWOOD_CLEARED Evn.MODULE_DWOOD_CLEARED

/-- The entries that the pending token names are removed. -/
def State.dwoodClearAct (s : State) (arg : Nat) : State :=
  ((if arg = 0xFFFF then s.dwood.map (fun e => e.1) else [arg]).foldl (fun (s : State) i => s.dwRemove i) s.consumeToken).dwoodCleared

/-- What an accepted CLEAR does. -/
def State.dwoodClearEff (s : State) : State :=
  match s.dwoodToken with
  | none => s
  | some arg => s.dwoodClearAct arg

theorem dwoodClearEff_of_token {s : State} {a : Nat} (h : s.dwoodToken = some a) : s.dwoodClearEff = s.dwoodClearAct a := by
  unfold State.dwoodClearEff
  rw [h]

theorem dwoodClear_eq (s : State) : exec (.dwoodClear .host) s = .next (s.gateW Reg.DWOOD_CLEAR { req := .host, data := 1, be := 15 }
    (decide (s.mod.mstate = .service) && s.dwoodToken.isSome) State.dwoodClearEff) := by
  have hgo : F.DWOOD_CLEAR_CLEAR.of 1 = 1 := by decide
  have heff : (fun t : State => match (if F.DWOOD_CLEAR_CLEAR.of 1 = 1 then t.dwoodToken else none) with
      | none => t
      | some arg => t.dwoodClearAct arg) = State.dwoodClearEff := by
    funext t
    rw [if_pos hgo]
    rfl
  rw [← heff]
  rfl

theorem dwoodClear_refused {s : State} (h : s.mod.mstate ≠ .service ∨ s.dwoodToken = none) :
    exec (.dwoodClear .host) s = .next (s.refuse .host Reg.DWOOD_CLEAR causeRight) := by
  rw [dwoodClear_eq]
  refine congrArg Host.Outcome.next (gateW_host_refused ?_ (by decide))
  rcases h with h | h
  · rw [decide_eq_false h, Bool.false_and]
  · rw [h, Option.isSome_none, Bool.and_false]

/-- A cleared engine's residue count is kept apart from the list and the registers. -/
theorem setEng_if {s : State} {c : Prop} [Decidable c] {k : Nat} {x : EngineSt} :
    ∃ engines, (if c then s.setEng k x else s) = { s with engines := engines } := by
  split
  · exact ⟨_, rfl⟩
  · exact ⟨s.engines, rfl⟩

/-- An entry that is no factory entry goes, and CLEARED counts it. -/
theorem dwRemove_of_valid {s : State} {i : Nat} (hvalid : dwValid (aget 0 s.dwood i) = true)
    (hfactory : dwFactory (aget 0 s.dwood i) = false) :
    ∃ engines, s.dwRemove i = { s with dwood := aset 0 s.dwood i 0, engines := engines }.bump Reg.DWOOD_CLEARED 1 := by
  have hentry : (dwValid (aget 0 s.dwood i) && !dwFactory (aget 0 s.dwood i)) = true := by rw [hvalid, hfactory]; rfl
  unfold State.dwRemove
  dsimp only
  rw [if_pos hentry]
  obtain ⟨engines, heq⟩ := setEng_if (s := { s with dwood := aset 0 s.dwood i 0 }) (c := dwKind (aget 0 s.dwood i) = dwEngine)
    (k := 16 * dwUnit (aget 0 s.dwood i) + dwIndex (aget 0 s.dwood i)) (x := { State.eng { s with dwood := aset 0 s.dwood i 0 }
      (16 * dwUnit (aget 0 s.dwood i) + dwIndex (aget 0 s.dwood i)) with residues := 0 })
  exact ⟨engines, congrArg (fun t : State => t.bump Reg.DWOOD_CLEARED 1) heq⟩

theorem dwCounts_rd {s : State} {o : Nat} (ho : o ≠ Reg.DWOOD_COUNT) : s.dwCounts.rd o = s.rd o :=
  (rd_put_ne _ _ _ ho).trans (rd_put_ne _ _ _ ho)

/-- Whether room was made or not. -/
theorem dwoodFull_if {s : State} {c : Prop} [Decidable c] :
    ∃ regs, (if c then s.putB F.MODULE_MSTATE_DWOOD_FULL false else s) = { s with regs := regs } ∧
      Rg.rd regs Reg.DWOOD_CLEARED = s.rd Reg.DWOOD_CLEARED := by
  split
  · exact ⟨_, rfl, rd_put_ne _ _ _ (by decide)⟩
  · exact ⟨s.regs, rfl, rfl⟩

theorem dwoodCleared_spec (s : State) : s.dwoodCleared.dwood = s.dwood ∧ s.dwoodCleared.sec = s.sec ∧
    s.dwoodCleared.rd Reg.DWOOD_CLEARED = s.rd Reg.DWOOD_CLEARED ∧ s.dwoodCleared.summary P.DWOOD B.DWOOD_DWOOD_CLEARED = true := by
  obtain ⟨regs, hfull, hcleared⟩ := dwoodFull_if (s := s.dwCounts) (c := s.dwCounts.get F.DWOOD_COUNT_GENERAL < 4096)
  unfold State.dwoodCleared
  dsimp only
  rw [hfull]
  refine ⟨State.raise_dwood .., State.raise_sec .., ?_, raise_summary _ _ _ _ _ _ (by decide) (by decide)⟩
  rw [raise_rd _ _ _ _ _ _ (by decide) (by decide)]
  exact hcleared.trans (dwCounts_rd (by decide))

/-- One entry is removed under the pending token. -/
theorem dwoodClearAct_one {s : State} {a : Nat} (ha : a ≠ 0xFFFF) : s.dwoodClearAct a = (s.consumeToken.dwRemove a).dwoodCleared := by
  unfold State.dwoodClearAct
  rw [if_neg ha]
  rfl

theorem dwoodToken_some {s : State} {a : Nat} (h : s.dwoodToken = some a) : ∃ t, s.sec.token = some t := by
  unfold State.dwoodToken at h
  split at h
  · split at h
    · exact ⟨_, by assumption⟩
    · cases h
  · cases h

theorem taken_dwoodToken {s : State} {data : Word} : (s.taken .host Reg.DWOOD_CLEAR data).dwoodToken = s.dwoodToken := by
  have hflag : (s.taken .host Reg.DWOOD_CLEAR data).flag F.SEC_STATUS_TOKEN_PENDING = s.flag F.SEC_STATUS_TOKEN_PENDING := by
    unfold State.flag State.get
    rw [taken_rd s .host _ data (by decide) (by decide) (by decide)]
  unfold State.dwoodToken
  rw [hflag, State.taken_sec]

theorem dwoodClear_accepted {s : State} (habs : s.absent P.DWOOD = false) {a : Nat} (hservice : s.mod.mstate = .service)
    (htoken : s.dwoodToken = some a) : ∃ before, exec (.dwoodClear .host) s =
      .next (((s.taken .host Reg.DWOOD_CLEAR 1).dwoodClearAct a).trackWrite .host Reg.DWOOD_CLEAR before) := by
  have hok : (decide (s.mod.mstate = .service) && s.dwoodToken.isSome) = true := by
    rw [hservice, htoken]
    rfl
  rw [dwoodClear_eq, gateW_host (off := Reg.DWOOD_CLEAR) hok (by decide) (by decide) habs, dwoodClearEff_of_token (taken_dwoodToken.trans htoken)]
  exact ⟨_, rfl⟩

theorem dwoodClear_clears {s : State} (habs : s.absent P.DWOOD = false) {a : Nat} (hservice : s.mod.mstate = .service)
    (htoken : s.dwoodToken = some a) (ha : a ≠ 0xFFFF) (hvalid : dwValid (aget 0 s.dwood a) = true)
    (hfactory : dwFactory (aget 0 s.dwood a) = false) :
    ∃ t, exec (.dwoodClear .host) s = .next t ∧ t.dwood = aset 0 s.dwood a 0 ∧ t.sec.token = none ∧
          (t.rd Reg.DWOOD_CLEARED).toNat = min ((s.rd Reg.DWOOD_CLEARED).toNat + 1) 0xFFFFFFFF ∧ t.summary P.DWOOD B.DWOOD_DWOOD_CLEARED = true := by
  obtain ⟨before, hexec⟩ := dwoodClear_accepted habs hservice htoken
  obtain ⟨u, hu⟩ : ∃ u, u = s.taken .host Reg.DWOOD_CLEAR 1 := ⟨_, rfl⟩
  rw [← hu] at hexec
  have htoken' : u.dwoodToken = some a := by rw [hu, taken_dwoodToken, htoken]
  obtain ⟨token, hsome⟩ := dwoodToken_some htoken'
  have hdwood : u.consumeToken.dwood = s.dwood := by rw [consumeToken_dwood hsome, hu, State.taken_dwood]
  have hrd : u.consumeToken.rd Reg.DWOOD_CLEARED = s.rd Reg.DWOOD_CLEARED := by
    rw [consumeToken_rd hsome (by decide), hu, taken_rd s .host Reg.DWOOD_CLEAR 1 (by decide) (by decide) (by decide)]
  have hnone := consumeToken_token u
  rw [dwoodClearAct_one ha] at hexec
  generalize u.consumeToken = v at hdwood hrd hnone hexec
  obtain ⟨engines, hremove⟩ := dwRemove_of_valid (s := v) (i := a) (by rw [hdwood]; exact hvalid) (by rw [hdwood]; exact hfactory)
  obtain ⟨hlist, hsec, hcleared, hsummary⟩ := dwoodCleared_spec (v.dwRemove a)
  refine ⟨_, hexec, ?_, ?_, ?_, (flag_congr (trackWrite_regs ..) _).trans hsummary⟩
  · rw [State.trackWrite_dwood, hlist, hremove, State.bump_dwood, hdwood]
  · rw [State.trackWrite_sec, hsec, hremove]
    exact hnone
  · rw [trackWrite_rd, hcleared, hremove, ← hrd]
    unfold State.bump
    rw [rd_wr_same]
    exact Nat.mod_eq_of_lt (by omega)

/-- Settles O51: each command of MODULE.COMMAND is one branch of its write, and what it makes of the module is `AtStep2` for RESTART and
`Steady` for HOLD and WAKE. -/
theorem moduleCommandsAndDeadwood : Obligations.ModuleCommandsAndDeadwood := by
  unfold Obligations.ModuleCommandsAndDeadwood
  intro s data no open_ i
  refine ⟨fun h => ?_, fun h => ?_, fun h => ?_, fun h => ?_, dwoodClear_refused, fun habs => ⟨serviceReq_enters habs, restart_enters habs,
    hold_begins habs, wake_begins habs⟩, fun habs => ⟨dwoodSel_copies data habs, fun a => dwoodClear_clears habs⟩⟩
  · refine congrArg Host.Outcome.next (hostCommand_refused ?_)
    rw [commandOk_serviceReq]
    rcases h with h | h
    · rw [decide_eq_false h, Bool.false_and]
    · rw [h, Bool.and_false]
  · refine congrArg Host.Outcome.next (hostCommand_refused ?_)
    rw [commandOk_restart]
    exact decide_eq_false h
  · refine congrArg Host.Outcome.next (hostCommand_refused ?_)
    rw [commandOk_hold, Bool.and_eq_false_iff]
    exact h.imp (fun h => Bool.eq_false_iff.2 fun hopen => h (takesHold_iff.1 hopen)) fun h => by rw [h]; rfl
  · refine congrArg Host.Outcome.next (hostCommand_refused ?_)
    rw [commandOk_wake]
    rcases h with h | h | ⟨hfs, hstop⟩
    · rw [Bool.eq_false_iff.2 fun hopen => h (takesHold_iff.1 hopen)]
      rfl
    · rw [h, Bool.and_false, Bool.false_and]
    · rw [hfs, hstop]
      exact Bool.and_false _

end Sys2Proof.Machine
end

section
/-! The bring-up steps: one lemma for each part of O50. Which commands have no effect, and what begins when a step ends. -/

namespace Sys2Proof.Machine

variable {s : State} {n : BitVec 3}

/-! ## No effect -/

theorem bootCommands_outside_bringup (hstate : s.mod.mstate ≠ .bringup) (obs : List KatObs) :
    exec (.bootStepDone n) s = .next s ∧ exec .bootStepFail s = .next s ∧ exec (.katPassDone obs) s = .next s :=
  ⟨if_pos hstate, congrArg _ (if_neg fun h => hstate h.1), if_neg fun h => hstate h.1⟩

theorem bootStepDone_early (hone : n.toNat ≠ 1) (hearly : n.toNat ≠ s.bootStep ∨ s.boot.held = true ∨
    s.flag F.MODULE_MSTATE_WAIT = true ∨ s.stepOk n.toNat = false) : exec (.bootStepDone n) s = .next s := by
  by_cases hstate : s.mod.mstate = .bringup
  · refine (if_neg fun h => h hstate).trans ((if_neg hone).trans (if_pos ?_))
    rw [Bool.not_eq_true']
    exact hearly.imp_right .inr
  · exact if_pos hstate

/-! ## Step 1 -/

theorem bootStepDone_one (hstate : s.mod.mstate = .bringup) (hiso : s.fluid.iso = none) (hqueue : s.fluid.isoQ = []) :
    ∃ t, exec (.bootStepDone 1) s = .next t ∧ t.get ⟨Reg.MODULE_STEP_TIME 1, 0, 16⟩ = min (s.msSince s.boot.t0) 65535 ∧
      onlyRegs [Reg.MODULE_STEP_TIME 1] s t ∧ t = { s with regs := t.regs } := by
  have hdone : exec (.bootStepDone 1) s = .next s.step1Done := by
    refine (if_neg fun h => h hstate).trans (if_pos ?_)
    decide
  have hput : s.step1Done = s.put ⟨Reg.MODULE_STEP_TIME 1, 0, 16⟩ (min (s.msSince s.boot.t0) 65535) :=
    if_pos ⟨by rw [hiso]; rfl, hqueue⟩
  refine ⟨_, hdone.trans (congrArg _ hput), ?_, fun o ho => ?_, rfl⟩
  · rw [get_put_same _ _ _ (by decide)]
    exact Nat.mod_eq_of_lt (show _ < 65536 by omega)
  · exact rd_put_ne s _ _ (List.ne_of_not_mem_cons ho)

/-! ## The present step ends -/

/-- The present step of BRINGUP, neither waiting nor to start again, meets its condition. -/
structure StepEnds (s : State) (k : Nat) : Prop where
  state : s.mod.mstate = .bringup
  step  : s.bootStep = k
  again : s.boot.again = false
  held  : s.boot.held = false
  wait  : s.flag F.MODULE_MSTATE_WAIT = false
  ok    : s.stepOk k = true

theorem StepEnds.exec (h : StepEnds s n.toNat) (hone : n.toNat ≠ 1) (hsync : n.toNat = 5 → s.bootSync = none) :
    exec (.bootStepDone n) s = .next (s.stepDone n.toNat) := by
  have hready : ¬ (n.toNat ≠ s.bootStep ∨ (s.boot.again && decide (n.toNat ≠ 2)) = true ∨ s.boot.held = true ∨
      s.flag F.MODULE_MSTATE_WAIT = true ∨ (!s.stepOk n.toNat) = true) := by
    rw [h.step, h.again, h.held, h.wait, h.ok]
    simp only [ne_eq, not_true_eq_false, Bool.false_and, Bool.false_eq_true, Bool.not_true, or_self, not_false_eq_true]
  show execBootStepDone n s = _
  unfold execBootStepDone
  dsimp only
  rw [if_neg fun hs => hs h.state, if_neg hone, if_neg hready]
  split
  · next hfive =>
    rw [hsync hfive, hfive]
  · rfl

/-- The registers at the end of a step but the last: its time, and the next step's number. -/
def State.stepCounted (s : State) (k : Nat) : State := ((s.stepTime k).putB F.MODULE_MSTATE_WAIT false).put F.MODULE_MSTATE_BOOT_STEP (k + 1)

/-- The next step has begun, and is to run. -/
def State.stepBegun (s : State) (k : Nat) : State :=
  { s with
    regs := (s.stepCounted k).regs
    boot := { s.boot with going := false, stepT0 := s.now, retried := false }
    host := if k = 2 then { s.host with cfgOk := true } else s.host
    mod := if k + 1 = 3 then { s.mod with power := .idle } else s.mod }

theorem stepDone_eq {k : Nat} (hk : k ≠ 6) : s.stepDone k = (s.stepBegun k).stepRun (k + 1) := by
  refine (if_neg hk).trans ?_
  unfold State.bootStepBegin State.stepBegun
  dsimp only
  by_cases htwo : k = 2
  · subst htwo
    rfl
  · have hthree : k + 1 ≠ 3 := by omega
    rw [if_neg htwo, if_neg hthree, if_neg htwo, if_neg hthree]
    rfl

/-- In host-driven mode a step after the second waits for GO (R383). -/
theorem stepRun_hostDriven {k : Nat} (hk : k ≠ 2) (hmode : s.mod.bootMode = 1) : s.stepRun k =
    { s.putB F.MODULE_MSTATE_WAIT true with boot := { s.boot with again := false, held := false, going := false } } :=
  (if_neg hk).trans (if_pos hmode)

theorem holderReq_of_vacant (hholder : s.holder = 0) : s.holderReq = none := by
  unfold State.holderReq
  rw [if_neg (by omega), if_neg (by omega)]

/-- With no holder the step is to start again (R379). -/
theorem stepRun_noHolder {k : Nat} (hk : k ≠ 2) (hmode : s.mod.bootMode ≠ 1) (hholder : s.holder = 0) : s.stepRun k =
    { s with boot := { s.boot with again := true, held := false } } := by
  have hreq : ({ s with boot := { s.boot with again := false, held := false } } : State).holderReq = none := holderReq_of_vacant hholder
  refine ((if_neg hk).trans (if_neg hmode)).trans ?_
  unfold State.stepWrites
  rw [hreq]

/-! ## Registers of the steps -/

theorem stepTime_off_ne (k : Nat) : Reg.MODULE_STEP_TIME k ≠ Reg.MODULE_MSTATE := by
  show 0 + 0x60 + 4 * k ≠ 0 + 0x40
  omega

/-- The time of a step that has ended, in ms. -/
theorem stepTime_time (s : State) (k : Nat) :
    (s.stepTime k).get ⟨Reg.MODULE_STEP_TIME k, 0, 16⟩ = min (s.msSince s.boot.stepT0) 65535 := by
  refine (get_put_same _ _ _ (by decide : 0 + 16 ≤ 32)).trans (Nat.mod_eq_of_lt (show _ < 65536 from ?_))
  omega

theorem get_stepTime_of_mstate (s : State) (k : Nat) {f : Fld} {x : Nat} (hf : f.off = Reg.MODULE_MSTATE) :
    (s.put f x).get ⟨Reg.MODULE_STEP_TIME k, 0, 16⟩ = s.get ⟨Reg.MODULE_STEP_TIME k, 0, 16⟩ :=
  get_put_off _ _ _ _ (hf ▸ stepTime_off_ne k)

theorem stepCounted_time (s : State) (k : Nat) :
    (s.stepCounted k).get ⟨Reg.MODULE_STEP_TIME k, 0, 16⟩ = min (s.msSince s.boot.stepT0) 65535 :=
  (get_stepTime_of_mstate _ k rfl).trans ((get_stepTime_of_mstate _ k rfl).trans (stepTime_time s k))

theorem stepCounted_step {k : Nat} (s : State) (hk : k < 7) : (s.stepCounted k).bootStep = k + 1 :=
  (get_put_same _ F.MODULE_MSTATE_BOOT_STEP _ (by decide)).trans (Nat.mod_eq_of_lt (show k + 1 < 8 by omega))

theorem stepCounted_rd (s : State) (k : Nat) : onlyRegs [Reg.MODULE_MSTATE, Reg.MODULE_STEP_TIME k] s (s.stepCounted k) := fun o ho => by
  obtain ⟨hmstate, htime⟩ : o ≠ Reg.MODULE_MSTATE ∧ o ≠ Reg.MODULE_STEP_TIME k := by simpa using ho
  exact (rd_put_ne _ _ _ hmstate).trans ((rd_put_ne _ _ _ hmstate).trans (rd_put_ne _ _ _ htime))

/-! ## The next step begins -/

/-- The end of a step but the last in host-driven mode: the next waits for GO. -/
structure NextWaits (s : State) (k : Nat) (t : State) : Prop where
  regs  : t.regs = ((s.stepCounted k).putB F.MODULE_MSTATE_WAIT true).regs
  mod   : t.mod = if k + 1 = 3 then { s.mod with power := .idle } else s.mod
  host  : t.host = if k = 2 then { s.host with cfgOk := true } else s.host
  boot  : t.boot = { s.boot with going := false, stepT0 := s.now, retried := false, again := false, held := false }

theorem stepDone_hostDriven {k : Nat} (hk : k ≠ 6) (hone : k ≠ 1) (hmode : s.mod.bootMode = 1) : NextWaits s k (s.stepDone k) := by
  have hmode' : (s.stepBegun k).mod.bootMode = 1 := by
    unfold State.stepBegun
    dsimp only
    split <;> exact hmode
  rw [stepDone_eq hk, stepRun_hostDriven (by omega) hmode']
  exact ⟨rfl, rfl, rfl, rfl⟩

section
variable {k : Nat} {t : State} (h : NextWaits s k t)
include h

theorem NextWaits.step (hk : k < 7) : t.bootStep = k + 1 :=
  (get_congr h.regs _).trans ((get_put_disj _ _ _ _ (by decide) (by decide)).trans (stepCounted_step s hk))

theorem NextWaits.time : t.get ⟨Reg.MODULE_STEP_TIME k, 0, 16⟩ = min (s.msSince s.boot.stepT0) 65535 :=
  (get_congr h.regs _).trans ((get_stepTime_of_mstate _ k rfl).trans (stepCounted_time s k))

theorem NextWaits.wait : t.flag F.MODULE_MSTATE_WAIT = true := (flag_congr h.regs _).trans (flag_putB_same _ _ true (by decide) rfl)

theorem NextWaits.rd : onlyRegs [Reg.MODULE_MSTATE, Reg.MODULE_STEP_TIME k] s t := fun o ho =>
  (rd_congr h.regs o).trans ((rd_put_ne _ _ _ (List.ne_of_not_mem_cons ho)).trans (stepCounted_rd s k o ho))

end

theorem bootStepDone_two (h : StepEnds s n.toNat) (hk : n.toNat = 2) (hmode : s.mod.bootMode = 1) :
    ∃ t, exec (.bootStepDone n) s = .next t ∧ t.bootStep = 3 ∧
      t.get ⟨Reg.MODULE_STEP_TIME n.toNat, 0, 16⟩ = min (s.msSince s.boot.stepT0) 65535 ∧ t.flag F.MODULE_MSTATE_WAIT = true ∧
      t.mod = { s.mod with power := .idle } ∧ t.host.cfgOk = true ∧ t.boot.stepT0 = s.now ∧
      onlyRegs [Reg.MODULE_MSTATE, Reg.MODULE_STEP_TIME 2] s t := by
  have hexec := h.exec (by omega) (by omega)
  rw [hk] at hexec ⊢
  have hnext := stepDone_hostDriven (k := 2) (by decide) (by decide) hmode
  exact ⟨_, hexec, hnext.step (by decide), hnext.time, hnext.wait, hnext.mod, congrArg HostSt.cfgOk hnext.host,
    congrArg BootSt.stepT0 hnext.boot, hnext.rd⟩

theorem bootSync_of_vacant (hholder : s.holder = 0) : s.bootSync = none := by
  unfold State.bootSync
  rw [holderReq_of_vacant hholder]

theorem bootStepDone_noHolder (h : StepEnds s n.toNat) (hlo : 3 ≤ n.toNat) (hhi : n.toNat ≤ 5) (hholder : s.holder = 0)
    (hmode : s.mod.bootMode ≠ 1) : ∃ t, exec (.bootStepDone n) s = .next t ∧ t.bootStep = n.toNat + 1 ∧
      t.get ⟨Reg.MODULE_STEP_TIME n.toNat, 0, 16⟩ = min (s.msSince s.boot.stepT0) 65535 ∧ t.boot.again = true ∧ t.boot.stepT0 = s.now ∧
      t.mod.mstate = .bringup := by
  have htime : Reg.MODULE_STEP_TIME n.toNat ≠ F.ARB_TOKEN_HOLDER.off := by
    show 0 + 0x60 + 4 * n.toNat ≠ 0x1000 + 0x44
    omega
  have hvacant : (s.stepBegun n.toNat).holder = 0 :=
    ((holder_put (by decide)).trans ((holder_put (by decide)).trans (holder_put htime))).trans hholder
  have hmod : (s.stepBegun n.toNat).mod = s.mod := if_neg (by omega)
  have hdone := (stepDone_eq (s := s) (k := n.toNat) (by omega)).trans
    (stepRun_noHolder (by omega) (by rw [hmod]; exact hmode) hvacant)
  refine ⟨_, (h.exec (by omega) fun _ => bootSync_of_vacant hholder).trans (congrArg _ hdone), stepCounted_step s (by omega),
    stepCounted_time s _, rfl, rfl, ?_⟩
  show (s.stepBegun n.toNat).mod.mstate = _
  rw [hmod]
  exact h.state

end Sys2Proof.Machine
end

section
/-! Bring-up ends: READY. -/

namespace Sys2Proof.Machine

/-! ## The counts of the entry to READY leave the other registers -/

/-- Every entry of a register lists the register's value. -/
def OneValue (m : AMap Word) (o : Nat) : Prop := ∀ e ∈ m, e.1 = o → e.2 = aget (resetOf o) m o

theorem oneValue_wr_same (s : State) (o : Nat) (v : Word) : OneValue (s.wr o v).regs o := fun e he ho => by
  have hv : aget (resetOf o) (s.wr o v).regs o = v := aget_aset_same _ _ _ _
  rw [hv]
  simp only [State.wr, aset, List.mem_append, List.mem_filter, decide_eq_true_eq] at he
  rcases he with (⟨_, hlt⟩ | hnew) | ⟨_, hgt⟩
  · omega
  · split at hnew
    · cases hnew
    · rw [List.mem_singleton.1 hnew]
  · omega

theorem oneValue_wr_ne {s : State} {o p : Nat} (hp : o ≠ p) (v : Word) (h : OneValue s.regs o) : OneValue (s.wr p v).regs o := fun e he ho => by
  have hv : aget (resetOf o) (s.wr p v).regs o = aget (resetOf o) s.regs o := aget_aset_ne _ _ _ _ hp
  rw [hv]
  rcases eq_or_mem_of_mem_aset he with hold | ⟨rfl, _⟩
  · exact h e hold ho
  · exact absurd ho.symm hp

theorem aget_mem {α : Type} (d : α) {m : AMap α} {k : Nat} (h : ∃ e ∈ m, e.1 = k) : (k, aget d m k) ∈ m := by
  induction m with
  | nil => simp at h
  | cons e m ih =>
    obtain ⟨i, v⟩ := e
    by_cases hi : i = k
    · simp [aget, hi]
    · simp only [List.mem_cons, exists_eq_or_imp, hi, false_or] at h
      simpa [aget, hi, Ne.symm hi] using ih h

/-- Only the channels' counts change, and what then reads its reset value is no longer listed. -/
theorem readyCounts_rd {s : State} {o : Nat} (ho : o < 0x300000) (hone : OneValue s.regs o) : s.readyCounts.rd o = s.rd o := by
  have hmem (v : Word) : (o, v) ∈ s.readyCounts.regs ↔ (o, v) ∈ s.regs ∧ v ≠ resetOf o := by
    have hlow : decide (0x300000 ≤ o) = false := decide_eq_false (by omega)
    simp only [State.readyCounts, List.mem_filter, List.mem_map, decide_eq_true_eq]
    refine and_congr_left fun _ => ⟨fun ⟨e, he, heq⟩ => ?_, fun hv => ⟨_, hv, if_neg ?_⟩⟩
    · split at heq
      · next hch =>
        rw [show e.1 = o from congrArg Prod.fst heq, hlow] at hch
        exact absurd hch Bool.false_ne_true
      · exact heq ▸ he
    · rw [hlow]
      exact Bool.false_ne_true
  show aget _ _ _ = aget _ _ _
  rcases aget_eq_or_mem (resetOf o) s.readyCounts.regs o with hnew | hnew
  · rcases aget_eq_or_mem (resetOf o) s.regs o with hold | hold
    · rw [hnew, hold]
    · by_contra hne
      have hlisted := (hmem _).2 ⟨hold, fun h => hne (hnew.trans h.symm)⟩
      exact ((hmem _).1 (aget_mem (resetOf o) ⟨_, hlisted, rfl⟩)).2 hnew
  · exact hone _ ((hmem _).1 hnew).1 rfl

theorem setMState_ready_get {s : State} {f : Fld} (hf : f.off < 0x300000) (hone : OneValue s.regs f.off)
    (hdisj : F.MODULE_MSTATE_STATE.disj f = true) : (s.setMState .ready).get f = s.get f := by
  have hcounts (t : State) (ht : t.regs = s.regs ∨ t.regs = s.readyCounts.regs) : t.get f = s.get f := by
    rcases ht with ht | ht
    · exact get_congr ht f
    · refine (get_congr ht f).trans ?_
      unfold State.get
      rw [readyCounts_rd hf hone]
  unfold State.setMState
  refine (get_put_disj _ _ _ _ (by decide) hdisj).trans (hcounts _ ?_)
  dsimp only
  split
  · exact .inr rfl
  · exact .inl rfl

/-! ## The shape is published -/

theorem publishShape_steady (s : State) : Steady { s with boot := { s.boot with prevShape := s.shapeWords } } s.publishShape := by
  unfold State.publishShape
  extract_lets _ words s1 _ _ s2 s3
  have h1 : Steady s s1 := (Steady.refl s).foldlOn fun e he _ h => by
    have hlt : e.2 < 20 := List.snd_lt_of_mem_zipIdx he
    have hoff : Reg.MODULE_SHAPE + 4 * e.2 = 0x100 + 4 * e.2 := rfl
    exact h.wr (aside_iff.2 (by omega))
  have h2 : Steady { s with boot := { s.boot with prevShape := words } } s2 := h1.bootBoth (b := fun b _ => { b with prevShape := words })
  have h3 : Steady { s with boot := { s.boot with prevShape := words } } s3 :=
    h2.onlyIf fun h => (h.bumpW (by decide)).raise (by decide)
  exact h3.extendM (by decide)

/-! ## READY -/

/-- What the end of bring-up leaves before the module enters READY: step 6's time, the whole time, and no step. -/
def State.bootEnded (s : State) : State :=
  let s := s.stepTime 6
  let s := (s.wr Reg.MODULE_BOOT_TIME (BitVec.ofNat 32 (s.msSince s.boot.t0))).putB F.MODULE_MSTATE_WARM s.startWarm
  let s := (s.put F.MODULE_MSTATE_BOOT_STEP 0).putB F.MODULE_MSTATE_WAIT false
  { s with boot := { prevShape := s.boot.prevShape, svcFaults := s.boot.svcFaults, reduced := s.boot.reduced } }

theorem bootFinish_eq (s : State) : s.bootFinish = if s.publishShape.bootEnded.leakLatched then s.publishShape.bootEnded.enterLeak
    else (s.publishShape.bootEnded.setMState .ready).raise P.MODULE B.MODULE_BOOT_DONE Evn.MODULE_BOOT_DONE := rfl

/-- The registers of `bootEnded` in their order. -/
theorem bootEnded_regs (s : State) : ∃ total warm, s.bootEnded.regs =
    (((((s.stepTime 6).wr Reg.MODULE_BOOT_TIME total).putB F.MODULE_MSTATE_WARM warm).put F.MODULE_MSTATE_BOOT_STEP 0).putB
      F.MODULE_MSTATE_WAIT false).regs := ⟨_, _, rfl⟩

theorem bootEnded_leakLatched (s : State) : s.bootEnded.leakLatched = s.leakLatched := by
  obtain ⟨total, warm, hregs⟩ := bootEnded_regs s
  refine (flag_congr hregs _).trans (congrArg (· != 0) ?_)
  exact (get_put_off _ _ _ _ (by decide)).trans ((get_put_off _ _ _ _ (by decide)).trans ((get_put_off _ _ _ _ (by decide)).trans
    ((get_wr_off _ _ _ _ (by decide)).trans (get_put_off _ _ _ _ (by decide)))))

theorem bootEnded_step (s : State) : s.bootEnded.bootStep = 0 := by
  obtain ⟨total, warm, hregs⟩ := bootEnded_regs s
  exact (get_congr hregs _).trans ((get_put_disj _ _ _ _ (by decide) (by decide)).trans (get_put_same _ _ _ (by decide)))

theorem bootEnded_time (s : State) : s.bootEnded.get ⟨Reg.MODULE_STEP_TIME 6, 0, 16⟩ = min (s.msSince s.boot.stepT0) 65535 := by
  obtain ⟨total, warm, hregs⟩ := bootEnded_regs s
  refine (get_congr hregs _).trans (Eq.trans ?_ (stepTime_time s 6))
  exact (get_put_off _ _ _ _ (by decide)).trans ((get_put_off _ _ _ _ (by decide)).trans ((get_put_off _ _ _ _ (by decide)).trans
    (get_wr_off _ _ _ _ (by decide))))

theorem bootEnded_oneValue (s : State) : OneValue s.bootEnded.regs Reg.MODULE_MSTATE ∧ OneValue s.bootEnded.regs (Reg.MODULE_STEP_TIME 6) := by
  obtain ⟨total, warm, hregs⟩ := bootEnded_regs s
  rw [hregs]
  refine ⟨oneValue_wr_same _ _ _, ?_⟩
  exact oneValue_wr_ne (by decide) _ (oneValue_wr_ne (by decide) _ (oneValue_wr_ne (by decide) _ (oneValue_wr_ne (by decide) _
    (oneValue_wr_same s _ _))))

theorem bootStepDone_last {s : State} {n : BitVec 3} (h : StepEnds s n.toNat) (hk : n.toNat = 6) (hleak : s.leakLatched = false) :
    ∃ t, exec (.bootStepDone n) s = .next t ∧ t.mod.mstate = .ready ∧ t.bootStep = 0 ∧
      t.get ⟨Reg.MODULE_STEP_TIME n.toNat, 0, 16⟩ = min (s.msSince s.boot.stepT0) 65535 ∧
      t.get F.MODULE_MSTATE_STATE = mstateCode .ready ∧ t.summary P.MODULE B.MODULE_BOOT_DONE = true := by
  have hexec := h.exec (by omega) (by omega)
  rw [hk] at hexec ⊢
  let v : State := { s with boot := { s.boot with going := false } }
  have hshape := publishShape_steady v
  have hdone : s.stepDone 6 = v.bootFinish := rfl
  have hclear : v.publishShape.leakLatched = false := hshape.leakLatched.trans hleak
  rw [bootFinish_eq, bootEnded_leakLatched, hclear, if_neg Bool.false_ne_true] at hdone
  have htime : min (v.publishShape.msSince v.publishShape.boot.stepT0) 65535 = min (s.msSince s.boot.stepT0) 65535 := by
    unfold State.msSince
    rw [hshape.boot, hshape.now]
  generalize v.publishShape = u at hdone htime
  obtain ⟨hmstate, hsteptime⟩ := bootEnded_oneValue u
  refine ⟨_, hexec.trans (congrArg _ hdone), ?_, ?_, ?_, ?_, raise_summary _ _ _ _ _ _ (by decide) (by decide)⟩
  · rw [State.raise_mod, setMState_mod]
  · refine (raise_get _ _ _ _ _ _ (by decide) (by decide)).trans ((setMState_ready_get (by decide) hmstate (by decide)).trans ?_)
    exact bootEnded_step u
  · refine (raise_get _ _ _ _ _ _ (by decide) (by decide)).trans ((setMState_ready_get (by decide) hsteptime (by decide)).trans ?_)
    exact (bootEnded_time u).trans htime
  · exact (raise_get _ _ _ _ _ _ (by decide) (by decide)).trans (setMState_mstate _ _)

end Sys2Proof.Machine
end

section
/-! A bring-up step fails. -/

namespace Sys2Proof.Machine

theorem bootStepFail_unfailing {s : State} (h : s.bootStep = 0 ∨ s.bootStep = 1 ∨ s.bootStep = 5 ∨ s.bootStep = 7) :
    exec .bootStepFail s = .next s :=
  congrArg _ (if_neg fun hn => by omega)

theorem bootStepFail_fails {s : State} (hstate : s.mod.mstate = .bringup) (hstep : s.bootStep ∈ [2, 3, 4, 6]) :
    exec .bootStepFail s = .next s.stepFail :=
  congrArg _ (if_pos ⟨hstate, by simpa using hstep⟩)

/-- The failure is counted and told of. -/
def State.stepFaulted (s : State) : State :=
  (s.errInc P.MODULE).raise P.MODULE B.MODULE_BOOT_STEP_FAIL Evn.MODULE_BOOT_STEP_FAIL

theorem stepFaulted_steady (s : State) : Steady s s.stepFaulted := ((Steady.refl s).errInc (by decide)).raise (by decide)

/-! ## For good -/

/-- The step's registers, and BOOT_FAIL with its event, before power goes. -/
def State.bootFailed (s : State) (step : Nat) : State :=
  (((s.stepTime step).putB (F.MODULE_STEP_TIME_FAILED step) true).putB F.MODULE_MSTATE_BOOT_FAIL true).raise P.MODULE B.MODULE_BOOT_FAIL
    Evn.MODULE_BOOT_FAIL

theorem stepFail_retried {s : State} (h : s.boot.retried = true) : s.stepFail = (s.stepFaulted.bootFailed s.bootStep).powerLost := by
  have hretried : s.stepFaulted.boot.retried = true := (congrArg BootSt.retried (stepFaulted_steady s).boot).trans h
  exact if_pos hretried

theorem bootStepFail_final {s : State} (hstate : s.mod.mstate = .bringup) (hstep : s.bootStep ∈ [2, 3, 4, 6])
    (hretried : s.boot.retried = true) : ∃ t, exec .bootStepFail s = .next t ∧ t.mod.mstate = .standby ∧ t.mod.power = .standby ∧
      t.mod.v48 = false ∧ t.flag F.MODULE_MSTATE_BOOT_FAIL = true ∧ t.bootStep = 0 ∧ t.mem = [] := by
  have hdark := powerLost_dark (s.stepFaulted.bootFailed s.bootStep)
  have hmod : (s.stepFaulted.bootFailed s.bootStep).mod = s.mod := (State.raise_mod _ _ _ _ _ _).trans (stepFaulted_steady s).mod
  rw [hmod] at hdark
  refine ⟨_, (bootStepFail_fails hstate hstep).trans (congrArg _ (stepFail_retried hretried)), ?_, ?_, ?_, ?_, hdark.step, hdark.mem⟩
  · rw [hdark.mod, hstate]
    rfl
  · rw [hdark.mod]
    rfl
  · rw [hdark.mod]
    rfl
  · rw [hdark.fail]
    exact (raise_flag _ _ _ _ _ _ (by decide) (by decide)).trans (flag_putB_same _ _ true (by decide) rfl)

/-! ## The reset of a page keeps BOOT_MODE -/

/-- The state `s`, reached from `s₀`, has its BOOT_MODE. -/
def ModeKept (s₀ s : State) : Prop := s.mod.bootMode = s₀.mod.bootMode

section
variable {s₀ s t : State} (h : ModeKept s₀ s)
include h

/-- An update of anything but the module's state. -/
theorem ModeKept.same (hmod : t.mod = s.mod) : ModeKept s₀ t := (congrArg ModSt.bootMode hmod).trans h

theorem ModeKept.ite {c : Prop} {_ : Decidable c} (ht : ModeKept s₀ t) : ModeKept s₀ (if c then s else t) := by
  split <;> assumption

theorem ModeKept.onlyIf {c : Prop} {_ : Decidable c} (k : ModeKept s₀ s → ModeKept s₀ t) : ModeKept s₀ (if c then t else s) := (k h).ite h

theorem ModeKept.foldl {α : Type} {f : State → α → State} {l : List α} (hf : ∀ x s, ModeKept s₀ s → ModeKept s₀ (f s x)) :
    ModeKept s₀ (l.foldl f s) :=
  List.foldlRecOn l f h fun s hs x _ => hf x s hs

theorem ModeKept.fold {n : Nat} {f : (i : Nat) → i < n → State → State} (hf : ∀ i hi s, ModeKept s₀ s → ModeKept s₀ (f i hi s)) :
    ModeKept s₀ (n.fold f s) := by
  induction n with
  | zero => exact h
  | succ n ih => exact hf n _ _ (ih fun i hi => hf i (by omega))

theorem ModeKept.wr {o : Nat} {v : Word} : ModeKept s₀ (s.wr o v) := h
theorem ModeKept.put {f : Fld} {x : Nat} : ModeKept s₀ (s.put f x) := h
theorem ModeKept.putB {f : Fld} {b : Bool} : ModeKept s₀ (s.putB f b) := h
theorem ModeKept.setFn {pg st : Nat} : ModeKept s₀ (s.setFn pg st) := h.ite h.put.putB
theorem ModeKept.setMState {m : MState} : ModeKept s₀ (s.setMState m) := (congrArg ModSt.bootMode (setMState_mod s m)).trans h

/-! ## A stand is disarmed -/

theorem ModeKept.groveClear {g : Nat} : ModeKept s₀ (s.groveClear g) :=
  (ModeKept.fold (s := s.setGrove g { s.grove g with dirty := [] }) (h.same rfl) fun _ _ _ h => h.wr).putB

theorem ModeKept.lpClear : ModeKept s₀ s.lpClear :=
  ModeKept.fold (s := { s with lpddr := { s.lpddr with dirty := [] } }) (h.same rfl) fun _ _ _ h => h.wr.putB

theorem ModeKept.clearDirty : ModeKept s₀ s.clearDirty := (h.foldl fun _ _ h => h.groveClear).lpClear

theorem ModeKept.enginesStop : ModeKept s₀ s.enginesStop := by
  unfold State.enginesStop
  extract_lets s1
  have h1 : ModeKept s₀ s1 := h.foldl fun _ _ h => h.putB
  exact h1.same rfl

theorem ModeKept.dmaStopAll : ModeKept s₀ s.dmaStopAll := by
  unfold State.dmaStopAll
  extract_lets s1
  have h1 : ModeKept s₀ s1 := h.foldl fun _ _ h => h.wr.foldl fun _ _ h => h.putB
  exact h1.same rfl

theorem ModeKept.reduceStop : ModeKept s₀ s.reduceStop := by
  unfold State.reduceStop
  extract_lets s1
  have h1 : ModeKept s₀ s1 := h.foldl fun _ _ h => h.putB.putB.put.put.wr
  exact h1.same rfl

theorem ModeKept.stepOff : ModeKept s₀ s.stepOff := (h.putB.putB.fold fun _ _ _ h => h.putB).fold fun _ _ _ h => h.putB

theorem ModeKept.groveUncommitted {b : Bool} : ModeKept s₀ (s.groveUncommitted b) := h.fold fun _ _ _ h => h.putB

theorem ModeKept.discardStep : ModeKept s₀ s.discardStep := by
  unfold State.discardStep
  extract_lets s1 s2
  have h2 : ModeKept s₀ s2 := h.enginesStop.dmaStopAll.reduceStop.stepOff.clearDirty.groveUncommitted
  clear_value s2
  exact h2.same rfl

theorem ModeKept.lpFoldStart : ModeKept s₀ s.lpFoldStart := by
  unfold State.lpFoldStart
  extract_lets ms s1
  have h1 : ModeKept s₀ s1 := h.foldl fun _ _ h => h.putB
  exact h.ite (h1.same rfl)

theorem ModeKept.clearStand : ModeKept s₀ s.clearStand := by
  unfold State.clearStand
  extract_lets s1 s2 s3 s4 s5 s6 s7
  have h1 : ModeKept s₀ s1 := h.foldl fun _ _ h => h.putB.putB
  have h2 : ModeKept s₀ s2 := h1.fold fun _ _ _ h => h.putB.putB
  have h4 : ModeKept s₀ s4 := h2.putB.foldl fun _ _ h => h.putB.put
  have h6 : ModeKept s₀ s6 := h4.putB.putB.wr.wr.wr
  clear_value s6
  exact h6.same rfl

theorem ModeKept.powerIdle : ModeKept s₀ s.powerIdle := h.onlyIf fun h => h

theorem ModeKept.disarm : ModeKept s₀ s.disarm := by
  unfold State.disarm
  extract_lets s1 s2 s3 s4 s5 halted s6 s7 _ s8
  have h1 : ModeKept s₀ s1 := h.discardStep.ite h.clearDirty
  have h2 : ModeKept s₀ s2 := (h1.fold fun _ _ _ h => h.ite h.putB).lpFoldStart
  have h4 : ModeKept s₀ s4 := h2.clearStand.wr.put
  have h5 : ModeKept s₀ s5 := h4.same (State.raiseBare_mod ..)
  have h6 : ModeKept s₀ s6 := h5.onlyIf fun h => h.setMState
  have h7 : ModeKept s₀ s7 := h6.powerIdle
  clear_value halted s7
  have h8 : ModeKept s₀ s8 := h7.onlyIf fun h => h.same rfl
  clear_value s8
  refine ModeKept.ite ?_ h
  exact h8.onlyIf fun h => ModeKept.ite (by exact h) (by exact h)

/-! ## The reset of a page -/

theorem ModeKept.fnResetPage {pg : Nat} : ModeKept s₀ (s.fnResetPage pg) := h.same rfl

theorem ModeKept.fnResetKeeping {k : PageKind} {pg : Nat} : ModeKept s₀ (s.fnResetKeeping k pg) :=
  h.fnResetPage.foldl fun _ _ h => h.wr

theorem ModeKept.pumpReset : ModeKept s₀ s.pumpReset := by
  unfold State.pumpReset
  extract_lets s1 _ _ s2
  have h1 : ModeKept s₀ s1 := h.same (Steady.refl s).pumpsHalt.mod
  clear_value s1
  have h2 : ModeKept s₀ s2 := h1.fnResetPage.wr
  exact h2.foldl fun _ _ h => h.put

theorem ModeKept.valveReset : ModeKept s₀ s.valveReset := by
  unfold State.valveReset
  extract_lets cut s1 st s2 _ s3
  have hcut : ModeKept s₀ cut := by
    unfold cut
    split
    · exact h.same rfl
    · exact h
  have h1 : ModeKept s₀ s1 := hcut.foldl fun _ _ h => h.same rfl
  have h2 : ModeKept s₀ s2 := h1.fnResetPage.wr
  clear_value s2
  have h3 : ModeKept s₀ s3 := h2.same rfl
  exact h3.same (Steady.refl s3).valvesUpdate.mod

theorem ModeKept.secReset : ModeKept s₀ s.secReset := by
  unfold State.secReset
  extract_lets s1 s2 s3
  have h1 : ModeKept s₀ s1 := h.same rfl
  have h2 : ModeKept s₀ s2 := h1.onlyIf fun h => h.same rfl
  exact h2.same rfl

theorem ModeKept.svcLeave {c : Nat} {f : State → State} (hf : ∀ s, ModeKept s₀ s → ModeKept s₀ (f s)) : ModeKept s₀ (s.svcLeave c f) :=
  ((hf s h).same (Steady.refl _).svcRoles.mod).onlyIf fun h => h.same (Steady.refl _).serveFault.mod

theorem ModeKept.contReset {k : PageKind} : ModeKept s₀ (s.contReset k) := by
  have htherm : Steady s s.thermReset := (Steady.refl s).thermDefaults.putB (by decide)
  unfold State.contReset
  split
  case h_4 => exact h.same htherm.mod
  case h_10 => exact h.same (Steady.refl s).fuseLoad.mod
  case h_11 => exact h.secReset
  all_goals exact h.same rfl

theorem ModeKept.clkReset : ModeKept s₀ s.clkReset :=
  (ModeKept.wr (s := (s.abandonSync.resetBlock P.CLK).dropHeldLo P.CLK) (h.same rfl)).putB.setFn

theorem ModeKept.hostdmaReset : ModeKept s₀ s.hostdmaReset :=
  ModeKept.same (s := (s.fnResetPage P.HOSTDMA).wr Reg.HOSTDMA_STATUS (s.rd Reg.HOSTDMA_STATUS &&& 0x7F30)) h.fnResetPage.wr rfl

theorem ModeKept.submitReset : ModeKept s₀ s.submitReset := ModeKept.same (s := s.fnResetPage P.SUBMIT) h.fnResetPage rfl

theorem ModeKept.fnResetBody {k : PageKind} {inst pg : Nat} : ModeKept s₀ (s.fnResetBody k inst pg) := by
  unfold State.fnResetBody
  cases k <;> dsimp only
  case clk => exact h.clkReset
  case hostdma => exact h.hostdmaReset
  case submit => exact h.submitReset.same (Steady.refl _).svcRoles.mod
  case pump => exact h.pumpReset
  case valve => exact h.valveReset
  case canopy =>
    have hoverlap : ModeKept s₀ (if s.canopy.former.map (·.val) = some inst then s.overlapOff else s) := h.onlyIf fun h => h.same rfl
    exact (hoverlap.same (State.setCore_mod ..)).fnResetKeeping
  case sideband =>
    have hreset : ModeKept s₀ (s.fnResetKeeping .sideband pg) := h.fnResetKeeping
    exact hreset.same rfl
  case svc => exact h.svcLeave fun _ h => h.fnResetKeeping
  case stand => exact h.disarm.fnResetKeeping
  case lpddr => exact h.fnResetKeeping.putB
  all_goals
    refine ModeKept.fnResetKeeping ?_
    exact h.same rfl

theorem ModeKept.fnResetEnd {pg : Nat} : ModeKept s₀ (s.fnResetEnd pg) := by
  unfold State.fnResetEnd
  extract_lets s1
  split
  · exact h.putB.ite h.putB.setFn
  · exact h.putB

theorem ModeKept.resetNow {pg : Nat} : ModeKept s₀ (s.resetNow pg) := by
  unfold State.resetNow
  split
  · exact h
  · exact h.ite (h.contReset.ite h.fnResetBody.fnResetEnd)

end

/-! ## Once more, in host-driven mode -/

/-- The failed step's units are reset. -/
def State.stepReset (s : State) (step : Nat) : State :=
  let s : State := { s with boot := { s.boot with retried := true, katLeft := [], katOn := false, katDone := false, going := false } }
  (s.stepPages step).foldl (fun (s : State) pg => if s.fn pg = fnOff then s else s.resetNow pg) s

theorem stepReset_bootMode (s : State) (step : Nat) : (s.stepReset step).mod.bootMode = s.mod.bootMode := by
  unfold State.stepReset
  extract_lets _ s1
  have h1 : ModeKept s s1 := rfl
  exact h1.foldl fun _ _ h => h.ite h.resetNow

theorem stepFail_first {s : State} (h : s.boot.retried = false) : s.stepFail =
    ((s.stepFaulted.stepReset s.bootStep).putB (F.MODULE_STEP_TIME_RETRIED s.bootStep) true).stepRun s.bootStep := by
  have hretried : s.stepFaulted.boot.retried = false := (congrArg BootSt.retried (stepFaulted_steady s).boot).trans h
  exact if_neg (hretried ▸ Bool.false_ne_true)

theorem bootStepFail_hostDriven {s : State} (hstate : s.mod.mstate = .bringup) (hstep : s.bootStep ∈ [2, 3, 4, 6])
    (hretried : s.boot.retried = false) (htwo : s.bootStep ≠ 2) (hmode : s.mod.bootMode = 1) :
    ∃ t, exec .bootStepFail s = .next t ∧ t.flag (F.MODULE_STEP_TIME_RETRIED s.bootStep) = true ∧ t.flag F.MODULE_MSTATE_WAIT = true ∧
      t.boot.going = false := by
  obtain ⟨u, hu⟩ : ∃ u, u = (s.stepFaulted.stepReset s.bootStep).putB (F.MODULE_STEP_TIME_RETRIED s.bootStep) true := ⟨_, rfl⟩
  have hfail : s.stepFail = u.stepRun s.bootStep := hu ▸ stepFail_first hretried
  have hmode' : u.mod.bootMode = 1 := by
    rw [hu, State.putB_mod, stepReset_bootMode, (stepFaulted_steady s).mod]
    exact hmode
  have hset : u.flag (F.MODULE_STEP_TIME_RETRIED s.bootStep) = true := by
    rw [hu]
    exact flag_putB_same _ _ true (show 16 + 1 ≤ 32 by decide) rfl
  have hregs (f : Fld) : (u.stepRun s.bootStep).flag f = (u.putB F.MODULE_MSTATE_WAIT true).flag f := by
    rw [stepRun_hostDriven htwo hmode']
    exact flag_congr rfl f
  refine ⟨u.stepRun s.bootStep, (bootStepFail_fails hstate hstep).trans (congrArg _ hfail), ?_, ?_, ?_⟩
  · rw [hregs]
    exact (congrArg (· != 0) (get_put_off u F.MODULE_MSTATE_WAIT _ 1 (stepTime_off_ne s.bootStep))).trans hset
  · rw [hregs]
    exact flag_putB_same u _ true (by decide) rfl
  · rw [stepRun_hostDriven htwo hmode']

end Sys2Proof.Machine
end

section
/-! A pass of the known-answer run ends. -/

namespace Sys2Proof.Machine

/-- Every register of a grove, or of one of its engines. -/
theorem aside_grove {g k : Nat} : Aside (P.GROVE g + k) := aside_of_lt (show 0xF074 < 0x100000 + 0x10000 * g + k by omega)
theorem aside_engine {g p k : Nat} : Aside (P.ENGINE g p + k) :=
  aside_of_lt (show 0xF074 < 0x101000 + 0x10000 * g + 0x1000 * p + k by omega)

theorem Steady.groveMap {s₀ s : State} (h : Steady s₀ s) {g : Nat} : Steady s₀ (s.groveMap g) := by
  have hshape := (h.wr (o := Reg.GROVE_LMAP g) (v := BitVec.ofNat 32 (lmapOf (s.goodEngines g))) aside_grove).put
    (f := F.GROVE_SHAPE_LENGINES g) (x := min (s.goodEngines g).length 8) aside_grove
  exact h.groveRetire.ite (hshape.foldl fun _ _ h => ((h.put aside_engine).putB aside_engine).putB aside_engine)

theorem katPassDone_idle {s : State} {obs : List KatObs} (h : s.bootStep ≠ 6 ∨ s.boot.katLeft = []) : exec (.katPassDone obs) s = .next s :=
  if_neg fun ⟨_, hstep, hleft, _⟩ => h.elim (fun hne => hne hstep) hleft

/-- The engines of a pass are tested. -/
def State.katPass (s : State) (obs : List KatObs) : State :=
  (s.boot.katLeft.take s.katGroves).foldl (fun (s : State) g => (List.range 9).foldl (fun (s : State) p =>
    s.katEngine g p (obs.find? (fun o => decide (o.g.val = g) && decide (o.p.val = p)))) s) s

/-- The groves of the pass are no longer to run, and after the last the groves are mapped. -/
def State.katPassed (s : State) (left : List Nat) : State :=
  let s : State := { s with boot := { s.boot with katLeft := left, katOn := !left.isEmpty, katDone := left.isEmpty } }
  if left.isEmpty then s.presentGroves.foldl (fun (s : State) g => s.groveMap g) s else s

theorem katPassed_boot (s : State) (left : List Nat) : (s.katPassed left).boot =
    { s.boot with katLeft := left, katOn := !left.isEmpty, katDone := left.isEmpty } := by
  unfold State.katPassed
  extract_lets _ s1
  exact ((Steady.refl s1).onlyIf fun h => h.foldl fun _ _ h => h.groveMap).boot

theorem katPassDone_runs {s : State} {obs : List KatObs} (hstate : s.mod.mstate = .bringup) (hstep : s.bootStep = 6)
    (hleft : s.boot.katLeft ≠ []) (hon : s.boot.katOn = true) :
    exec (.katPassDone obs) s = .next ((s.katPass obs).katPassed (s.boot.katLeft.drop s.katGroves)) :=
  if_pos ⟨hstate, hstep, hleft, by rw [hon]; rfl⟩

theorem isEmpty_drop {α : Type} (l : List α) (n : Nat) : (l.drop n).isEmpty = decide (l.length ≤ n) := by
  rw [Bool.eq_iff_iff, List.isEmpty_iff, decide_eq_true_iff, List.drop_eq_nil_iff]

theorem katPassDone_leaves {s : State} {obs : List KatObs} (hstate : s.mod.mstate = .bringup) (hstep : s.bootStep = 6)
    (hleft : s.boot.katLeft ≠ []) (hon : s.boot.katOn = true) : ∃ t, exec (.katPassDone obs) s = .next t ∧
      t.boot.katLeft = s.boot.katLeft.drop s.katGroves ∧ t.boot.katDone = decide (s.boot.katLeft.length ≤ s.katGroves) ∧
      t.boot.katOn = decide (s.katGroves < s.boot.katLeft.length) := by
  refine ⟨_, katPassDone_runs hstate hstep hleft hon, ?_⟩
  rw [katPassed_boot, isEmpty_drop]
  refine ⟨rfl, rfl, ?_⟩
  rw [← decide_not, decide_eq_decide, Nat.not_le]

end Sys2Proof.Machine
end

section
/-! BOOT_CTRL, and O50. -/

namespace Sys2Proof.Machine

/-! ## A write of BOOT_CTRL -/

/-- The host may give GO and DONE of the present step in host-driven mode. -/
def State.bootCtrlOk (s : State) (req : Req) (step : Nat) : Bool :=
  req == .host && decide (s.mod.bootMode = 1) && decide (s.mod.mstate = .bringup) && decide (3 ≤ step) && decide (step = s.bootStep)

/-- GO of a step that has not begun. -/
def State.bootGo (s : State) (step : Nat) : State :=
  let s : State := { s with boot := { s.boot with going := true } }
  let s := match s.holderReq with
    | some r => if step = 3 then s.ctrlWrite P.CLK { req := r, data := 1, be := 15 } else s
    | none => s
  if step = 6 then s.katBegin else s

/-- DONE of a step that has begun. -/
def State.bootDone (s : State) (step : Nat) : State :=
  let left := (s.stepPages step).all (fun pg => decide (step = 5) || decide (s.fn pg ≠ fnOff))
  if s.stepOk step && left then s.stepDone step else s.stepFail

/-- What an accepted write of BOOT_CTRL does. -/
def State.bootCtrlAct (s : State) (step go done : Nat) : State :=
  let s := s.put F.MODULE_BOOT_CTRL_STEP step
  let s := if go = 1 ∧ !s.boot.going then s.bootGo step else s
  if done = 1 ∧ s.boot.going then s.bootDone step else s

theorem bootCtrlWrite_eq (s : State) (w : WriteReq) : s.bootCtrlWrite w =
    s.gateW Reg.MODULE_BOOT_CTRL w (s.bootCtrlOk w.req (F.MODULE_BOOT_CTRL_STEP.of w.data))
      fun t => t.bootCtrlAct (F.MODULE_BOOT_CTRL_STEP.of w.data) (F.MODULE_BOOT_CTRL_GO.of w.data) (F.MODULE_BOOT_CTRL_DONE.of w.data) := rfl

/-- The fields of GO's word and of DONE's. -/
theorem bootCtrlGo_of : ∀ n : BitVec 3, F.MODULE_BOOT_CTRL_STEP.of (BitVec.ofNat 32 (n.toNat + 8)) = n.toNat ∧
    F.MODULE_BOOT_CTRL_GO.of (BitVec.ofNat 32 (n.toNat + 8)) = 1 ∧ F.MODULE_BOOT_CTRL_DONE.of (BitVec.ofNat 32 (n.toNat + 8)) = 0 := by decide
theorem bootCtrlDone_of : ∀ n : BitVec 3, F.MODULE_BOOT_CTRL_STEP.of (BitVec.ofNat 32 (n.toNat + 16)) = n.toNat ∧
    F.MODULE_BOOT_CTRL_GO.of (BitVec.ofNat 32 (n.toNat + 16)) = 0 ∧ F.MODULE_BOOT_CTRL_DONE.of (BitVec.ofNat 32 (n.toNat + 16)) = 1 := by
  decide

variable {s : State} {req : Req} {n : BitVec 3}

theorem bootCtrlGo_eq : exec (.bootCtrlGo req n) s = .next (s.gateW Reg.MODULE_BOOT_CTRL
    { req := req, data := BitVec.ofNat 32 (n.toNat + 8), be := 15 } (s.bootCtrlOk req n.toNat) fun t => t.bootCtrlAct n.toNat 1 0) := by
  obtain ⟨hstep, hgo, hdone⟩ := bootCtrlGo_of n
  refine congrArg Host.Outcome.next ((bootCtrlWrite_eq s _).trans ?_)
  dsimp only
  rw [hstep, hgo, hdone]

theorem bootCtrlDone_eq : exec (.bootCtrlDone req n) s = .next (s.gateW Reg.MODULE_BOOT_CTRL
    { req := req, data := BitVec.ofNat 32 (n.toNat + 16), be := 15 } (s.bootCtrlOk req n.toNat) fun t => t.bootCtrlAct n.toNat 0 1) := by
  obtain ⟨hstep, hgo, hdone⟩ := bootCtrlDone_of n
  refine congrArg Host.Outcome.next ((bootCtrlWrite_eq s _).trans ?_)
  dsimp only
  rw [hstep, hgo, hdone]

/-! ## What it does -/

theorem bootGo_of_enabled {k : Nat} (hk : k = 4 ∨ k = 5) : s.bootGo k = { s with boot := { s.boot with going := true } } := by
  have hthree : k ≠ 3 := by omega
  have hsix : k ≠ 6 := by omega
  unfold State.bootGo
  dsimp only
  rw [if_neg hsix]
  split
  · exact if_neg hthree
  · rfl

theorem zero_ne_one_and {b : Prop} : ¬ ((0 : Nat) = 1 ∧ b) := fun h => Nat.zero_ne_one h.1

theorem bootCtrlAct_go {k : Nat} (hk : k = 4 ∨ k = 5) (hgoing : s.boot.going = false) :
    s.bootCtrlAct k 1 0 = { s.put F.MODULE_BOOT_CTRL_STEP k with boot := { s.boot with going := true } } := by
  have hgo : (1 : Nat) = 1 ∧ (!(s.put F.MODULE_BOOT_CTRL_STEP k).boot.going) = true := ⟨rfl, congrArg not hgoing⟩
  unfold State.bootCtrlAct
  dsimp only
  rw [if_pos hgo, bootGo_of_enabled hk]
  exact if_neg zero_ne_one_and

/-- DONE before GO only names the step. -/
theorem bootCtrlAct_done_early {k : Nat} (hgoing : s.boot.going = false) : s.bootCtrlAct k 0 1 = s.put F.MODULE_BOOT_CTRL_STEP k := by
  have hnot : ¬ ((1 : Nat) = 1 ∧ (s.put F.MODULE_BOOT_CTRL_STEP k).boot.going = true) := fun h => Bool.false_ne_true (hgoing.symm.trans h.2)
  unfold State.bootCtrlAct
  dsimp only
  rw [if_neg zero_ne_one_and, if_neg hnot]

theorem bootCtrlAct_done_going {k : Nat} (hgoing : s.boot.going = true) :
    s.bootCtrlAct k 0 1 = (s.put F.MODULE_BOOT_CTRL_STEP k).bootDone k := by
  have hdone : (1 : Nat) = 1 ∧ (s.put F.MODULE_BOOT_CTRL_STEP k).boot.going = true := ⟨rfl, hgoing⟩
  unfold State.bootCtrlAct
  dsimp only
  rw [if_neg zero_ne_one_and, if_pos hdone]

/-- Step 5 ends as it is, its links up or not (R381). -/
theorem bootDone_five (s : State) : s.bootDone 5 = s.stepDone 5 :=
  if_pos (by simp [State.stepOk])

/-! ## Refused -/

theorem bootCtrl_refused (hreq : req ≠ .debug) (h : req ≠ .host ∨ s.mod.bootMode ≠ 1 ∨ s.mod.mstate ≠ .bringup ∨ n.toNat < 3 ∨
    n.toNat ≠ s.bootStep) : ∀ c ∈ [Instr.bootCtrlGo req n, .bootCtrlDone req n], exec c s =
      .next (s.refuse req Reg.MODULE_BOOT_CTRL causeRight) := by
  have hok : s.bootCtrlOk req n.toNat = false := by
    rw [← Bool.not_eq_true]
    simp only [State.bootCtrlOk, Bool.and_eq_true, beq_iff_eq, decide_eq_true_eq]
    rintro ⟨⟨⟨⟨hhost, hmode⟩, hstate⟩, hlo⟩, hstep⟩
    rcases h with h | h | h | h | h
    · exact h hhost
    · exact h hmode
    · exact h hstate
    · omega
    · exact h hstep
  have hgate (data : Word) (eff : State → State) : s.gateW Reg.MODULE_BOOT_CTRL { req := req, data := data, be := 15 }
      (s.bootCtrlOk req n.toNat) eff = s.refuse req Reg.MODULE_BOOT_CTRL causeRight := by
    rw [hok]
    exact gate_right s req _ data eff (.inl hreq) (by decide)
  intro c hc
  simp only [List.mem_cons, List.not_mem_nil, or_false] at hc
  rcases hc with rfl | rfl
  · rw [bootCtrlGo_eq, hgate]
  · rw [bootCtrlDone_eq, hgate]

/-! ## Accepted -/

/-- The host may drive the present step. -/
structure HostDrives (s : State) (k : Nat) : Prop where
  here  : s.absent P.MODULE = false
  mode  : s.mod.bootMode = 1
  state : s.mod.mstate = .bringup
  step  : k = s.bootStep

theorem HostDrives.accepted {k : Nat} (h : HostDrives s k) (hk : 3 ≤ k) (data : Word) (eff : State → State) : ∃ before,
    s.gateW Reg.MODULE_BOOT_CTRL { req := .host, data := data, be := 15 } (s.bootCtrlOk .host k) eff =
      (eff (s.taken .host Reg.MODULE_BOOT_CTRL data)).trackWrite .host Reg.MODULE_BOOT_CTRL before := by
  have hok : s.bootCtrlOk .host k = true := by
    simp only [State.bootCtrlOk, beq_self_eq_true, h.mode, h.state, hk, ← h.step, decide_true, Bool.and_self]
  exact ⟨_, gateW_host (off := Reg.MODULE_BOOT_CTRL) hok (by decide) (by decide) h.here⟩

/-- A write of BOOT_CTRL that leaves of the registers all but its own and OWNER. -/
theorem named_leaves {k : Nat} {data before : Word} {t : State} (hk : k < 8)
    (ht : t.regs = ((s.taken .host Reg.MODULE_BOOT_CTRL data).put F.MODULE_BOOT_CTRL_STEP k).regs) :
    (t.trackWrite .host Reg.MODULE_BOOT_CTRL before).get F.MODULE_BOOT_CTRL_STEP = k ∧
      onlyRegsWrite [Reg.MODULE_BOOT_CTRL, Hdr.OWNER P.MODULE] s (t.trackWrite .host Reg.MODULE_BOOT_CTRL before) := by
  refine ⟨?_, fun o ho hevt hcanopy => ?_⟩
  · rw [get_congr (trackWrite_regs ..), get_congr ht, get_put_same _ _ _ (by decide)]
    exact Nat.mod_eq_of_lt hk
  · obtain ⟨hctrl, howner⟩ : o ≠ Reg.MODULE_BOOT_CTRL ∧ o ≠ Hdr.OWNER P.MODULE := by simpa using ho
    rw [trackWrite_rd, rd_congr ht, rd_put_ne _ _ _ hctrl]
    exact taken_rd s .host Reg.MODULE_BOOT_CTRL data hevt hcanopy howner

theorem taken_going {data : Word} {b : Bool} (h : s.boot.going = b) : (s.taken .host Reg.MODULE_BOOT_CTRL data).boot.going = b :=
  (congrArg BootSt.going (State.taken_boot ..)).trans h

theorem bootCtrlGo_begins (h : HostDrives s n.toNat) (hk : n.toNat = 4 ∨ n.toNat = 5) (hgoing : s.boot.going = false) :
    ∃ t, exec (.bootCtrlGo .host n) s = .next t ∧ t.boot = { s.boot with going := true } ∧ t.get F.MODULE_BOOT_CTRL_STEP = n.toNat ∧
      onlyRegsWrite [Reg.MODULE_BOOT_CTRL, Hdr.OWNER P.MODULE] s t := by
  let data : Word := BitVec.ofNat 32 (n.toNat + 8)
  obtain ⟨before, hgate⟩ := h.accepted (by omega) data fun t => t.bootCtrlAct n.toNat 1 0
  rw [bootCtrlAct_go hk (taken_going hgoing)] at hgate
  refine ⟨_, bootCtrlGo_eq.trans (congrArg _ hgate), ?_, named_leaves (data := data) n.isLt rfl⟩
  rw [State.trackWrite_boot]
  exact congrArg (fun b : BootSt => { b with going := true }) (State.taken_boot ..)

theorem bootCtrlDone_names (h : HostDrives s n.toNat) (hk : 3 ≤ n.toNat) (hgoing : s.boot.going = false) :
    ∃ t, exec (.bootCtrlDone .host n) s = .next t ∧ t.boot = s.boot ∧ t.get F.MODULE_BOOT_CTRL_STEP = n.toNat ∧
      onlyRegsWrite [Reg.MODULE_BOOT_CTRL, Hdr.OWNER P.MODULE] s t := by
  let data : Word := BitVec.ofNat 32 (n.toNat + 16)
  obtain ⟨before, hgate⟩ := h.accepted hk data fun t => t.bootCtrlAct n.toNat 0 1
  rw [bootCtrlAct_done_early (taken_going hgoing)] at hgate
  refine ⟨_, bootCtrlDone_eq.trans (congrArg _ hgate), ?_, named_leaves (data := data) n.isLt rfl⟩
  rw [State.trackWrite_boot]
  exact State.taken_boot ..

theorem bootCtrlDone_five (h : HostDrives s n.toNat) (hk : n.toNat = 5) (hgoing : s.boot.going = true) :
    ∃ t, exec (.bootCtrlDone .host n) s = .next t ∧ t.bootStep = 6 ∧ t.flag F.MODULE_MSTATE_WAIT = true ∧ t.boot.going = false := by
  let data : Word := BitVec.ofNat 32 (n.toNat + 16)
  obtain ⟨before, hgate⟩ := h.accepted (by omega) data fun t => t.bootCtrlAct n.toNat 0 1
  rw [bootCtrlAct_done_going (taken_going hgoing)] at hgate
  have hexec := bootCtrlDone_eq.trans (congrArg Host.Outcome.next hgate)
  have hmode : ((s.taken .host Reg.MODULE_BOOT_CTRL data).put F.MODULE_BOOT_CTRL_STEP n.toNat).mod.bootMode = 1 :=
    (congrArg ModSt.bootMode (State.taken_mod ..)).trans h.mode
  generalize (s.taken .host Reg.MODULE_BOOT_CTRL data).put F.MODULE_BOOT_CTRL_STEP n.toNat = u at hexec hmode
  have hnext := stepDone_hostDriven (k := 5) (by decide) (by decide) hmode
  rw [hk, bootDone_five] at hexec
  refine ⟨_, hexec, ?_, ?_, ?_⟩
  · exact (get_congr (trackWrite_regs ..) _).trans (hnext.step (by decide))
  · exact (flag_congr (trackWrite_regs ..) _).trans hnext.wait
  · rw [State.trackWrite_boot, hnext.boot]

/-- Settles O50: which commands have no effect, then the ends, the failures, the known-answer passes and BOOT_CTRL. -/
theorem bringUpStepsEndAndFail : Obligations.BringUpStepsEndAndFail := by
  unfold Obligations.BringUpStepsEndAndFail
  intro s n obs req k
  refine ⟨fun h => bootCommands_outside_bringup h obs, bootStepDone_early, bootStepDone_one, ?_, bootStepFail_unfailing, ?_, katPassDone_idle,
    katPassDone_leaves, bootCtrl_refused, ?_⟩
  · intro hstate hstep hagain hheld hwait hok time
    have hends : StepEnds s n.toNat := ⟨hstate, hstep, hagain, hheld, hwait, hok⟩
    exact ⟨bootStepDone_two hends, bootStepDone_noHolder hends, bootStepDone_last hends⟩
  · intro hstate hstep
    exact ⟨bootStepFail_final hstate hstep, bootStepFail_hostDriven hstate hstep⟩
  · intro hhere hmode hstate hstep
    have hdrives : HostDrives s n.toNat := ⟨hhere, hmode, hstate, hstep⟩
    exact ⟨bootCtrlGo_begins hdrives, bootCtrlDone_names hdrives, bootCtrlDone_five hdrives⟩

end Sys2Proof.Machine
end

section
/-! LO/HI pairs (R35): a read of NAME_LO captures NAME_HI, a write of NAME_LO waits for NAME_HI; and O9. -/

namespace Sys2Proof.Machine

/-! ## What the arbiter keeps for a requester -/

theorem reqCtx_setReqCtx (s : State) (req : Req) (x : ReqCtx) : (s.setReqCtx req x).reqCtx req = x := aget_aset_same _ _ _ _

theorem reqCtx_congr {s t : State} (h : t.ctx = s.ctx) (req : Req) : t.reqCtx req = s.reqCtx req := by
  unfold State.reqCtx
  rw [h]

/-! ## A present page -/

/-- A unit's absence stands in its page's CAPS register (R20). -/
theorem absent_of_rd {s t : State} {pg : Nat} (h : t.rd (pg + 0x8) = s.rd (pg + 0x8)) : t.absent pg = s.absent pg := by
  unfold State.absent State.flag State.get
  simp only [h]

/-- A block register of a present page reads as its page gives. -/
theorem live_block {s : State} {req : Req} {off inst : Nat} {k : PageKind} {row : RegRow} (hpage : pageAt (off / 4096) = some (k, inst))
    (hrow : rowAt off = some row) (hblock : 0x40 ≤ off % 4096) (habs : s.absent (pageOf off) = false) :
    s.live req off = s.liveBlock req k inst (off % 4096) off := by
  have hcaps : off % 4096 ≠ 8 := by omega
  have hfence : off % 4096 ≠ 0x1C := by omega
  simp only [State.live, hpage, hrow, hcaps, hfence, false_and, if_false, Nat.not_lt.2 hblock, habs, Bool.false_eq_true]

/-! ## Reads of a pair -/

section
variable {s : State} {req : Req} {off inst : Nat} {k : PageKind} {row : RegRow}

theorem readTo_of_readReg {t : State} {v : Word} (h : s.readReg req off = (t, v)) : s.readTo req off = t.emit (.readData req off v) := by
  rw [State.readTo, h]

theorem readReg_pairLo (hreq : req ≠ .debug) (hpage : pageAt (off / 4096) = some (k, inst)) (hrow : rowAt off = some row)
    (hlo : isPairLo k (off % 4096) = true) : s.readReg req off =
      (s.setReqCtx req { s.reqCtx req with snap := aset none (s.reqCtx req).snap (off + 4) (some (s.live req (off + 4))) },
        s.live req off) := by
  have hdebug : (req == Req.debug) = false := by simpa using hreq
  simp only [State.readReg, hdebug, Bool.false_and, Bool.false_eq_true, if_false, hpage, hrow, hlo, if_true]

/-- The captured half is delivered whatever the register holds. -/
theorem readReg_pairHi {v : Word} (hreq : req ≠ .debug) (hpage : pageAt (off / 4096) = some (k, inst)) (hrow : rowAt off = some row)
    (hlo : isPairLo k (off % 4096) = false) (hhi : isPairHi k (off % 4096) = true) (hsnap : aget none (s.reqCtx req).snap off = some v) :
    s.readReg req off = (s.setReqCtx req { s.reqCtx req with snap := aset none (s.reqCtx req).snap off none }, v) := by
  have hdebug : (req == Req.debug) = false := by simpa using hreq
  simp only [State.readReg, hdebug, Bool.false_and, Bool.false_eq_true, if_false, hpage, hrow, hlo, hhi, if_true, hsnap]

end

/-! ## Writes of a pair -/

section
variable {s : State} {off inst : Nat} {k : PageKind} {row : RegRow} {w : WriteReq}

/-- A whole write of a writable block register, by any requester but the debug port, goes to the page's own decision. -/
theorem regWrite_block (hreq : w.req ≠ .debug) (hbe : w.be = 15) (hwritable : writableAt off = true)
    (hpage : pageAt (off / 4096) = some (k, inst)) (hrow : rowAt off = some row) (hblock : 0x40 ≤ off % 4096) :
    s.regWrite off w = s.blockWrite k inst off row w := by
  have hdebug : (w.req == Req.debug) = false := by simpa using hreq
  simp only [State.regWrite, hdebug, Bool.false_and, Bool.false_eq_true, if_false, hbe, ne_eq, not_true_eq_false, hwritable, Bool.not_true,
    hpage, hrow, Nat.not_lt.2 hblock]

/-- On the page CLK every register but SYNC_CTRL is a plain one. -/
theorem blockWrite_clk (hctrl : off % 4096 ≠ 0x44) : s.blockWrite .clk inst off row w = s.plainWrite .clk off row w := if_neg hctrl

/-- The requester's NAME_LO write is held. -/
def State.holdLo (s : State) (req : Req) (off : Nat) (v : Word) : State :=
  s.setReqCtx req { s.reqCtx req with heldLo := aset none (s.reqCtx req).heldLo off (some v) }

/-- The requester's NAME_HI write puts both halves in force, and R367's record of NAME_LO is kept. -/
def State.putPair (s : State) (req : Req) (lo : Nat) (v : Dword) : State := ((s.dropLo req lo).wr64 lo v).trackWrite req lo (s.rd lo)

theorem plainWrite_pairLo (hlo : isPairLo k (off % 4096) = true) :
    s.plainWrite k off row w = s.gateW off w (s.plainOk w.req k (off % 4096) none) fun t => t.holdLo w.req off w.data := by
  simp only [State.plainWrite, hlo, if_true, State.holdLo]

theorem plainWrite_pairHi (hlo : isPairLo k (off % 4096) = false) (hhi : isPairHi k (off % 4096) = true) :
    s.plainWrite k off row w = s.gateW off w (s.plainOk w.req k (off % 4096) (some (s.pairValue w.req off w.data).toNat))
      fun t => t.putPair w.req (off - 4) (s.pairValue w.req off w.data) := by
  simp only [State.plainWrite, hlo, hhi, Bool.false_eq_true, if_false, if_true, State.putPair]

end

/-- The value that NAME_HI completes, after the same requester's NAME_LO. -/
theorem pairValue_held {s : State} {req : Req} {off : Nat} {lo : Word} (hi : Word)
    (hheld : aget none (s.reqCtx req).heldLo (off - 4) = some lo) : s.pairValue req off hi = hi ++ lo := by
  simp only [State.pairValue, hheld, Option.getD_some]

theorem wr64_halves (s : State) (lo : Nat) (a b : Word) : (s.wr64 lo (b ++ a)).rd lo = a ∧ (s.wr64 lo (b ++ a)).rd (lo + 4) = b := by
  have hlo : (b ++ a : Dword).setWidth 32 = a := by rw [BitVec.setWidth_append, dif_pos (Nat.le_refl _), BitVec.setWidth_eq]
  have hhi : ((b ++ a : Dword) >>> 32).setWidth 32 = b := by
    ext i hi
    rw [BitVec.getElem_setWidth, BitVec.getLsbD_ushiftRight, BitVec.getLsbD_append]
    simp [hi]
  unfold State.wr64
  rw [rd_wr_ne _ _ (by omega), rd_wr_same, rd_wr_same]
  exact ⟨hlo, hhi⟩

theorem putPair_halves (s : State) (req : Req) (lo : Nat) (a b : Word) :
    (s.putPair req lo (b ++ a)).rd lo = a ∧ (s.putPair req lo (b ++ a)).rd (lo + 4) = b := by
  unfold State.putPair
  rw [trackWrite_rd, trackWrite_rd]
  exact wr64_halves ..

/-! ## SYNC_BASE -/

theorem rowAt_syncBase : (∃ row, rowAt 0x3054 = some row) ∧ ∃ row, rowAt 0x3058 = some row :=
  ⟨Option.isSome_iff_exists.1 (by decide), Option.isSome_iff_exists.1 (by decide)⟩

theorem syncBaseHi_read {s : State} {req : Req} {v : Word} (hreq : req ≠ .debug) (hsnap : aget none (s.reqCtx req).snap 0x3058 = some v) :
    ∃ t, exec (.readClear req 0x3058) s = .next t ∧ t.out = .readData req 0x3058 v :: s.out := by
  obtain ⟨_, row, hrow⟩ := rowAt_syncBase
  have hread := readReg_pairHi (k := .clk) (inst := 0) hreq (by decide) hrow (by decide) (by decide) hsnap
  exact ⟨_, congrArg Host.Outcome.next (readTo_of_readReg hread), rfl⟩

theorem syncBase_write (s : State) {off : Nat} (hoff : off = 0x3054 ∨ off = 0x3058) (data : Word) : ∃ row,
    s.regWrite off ⟨.host, data, 15⟩ = s.plainWrite .clk off row ⟨.host, data, 15⟩ := by
  obtain ⟨⟨row, hrow⟩, row', hrow'⟩ := rowAt_syncBase
  obtain rfl | rfl := hoff
  · exact ⟨row, regWrite_block (k := .clk) (inst := 0) Req.noConfusion rfl (by decide) (by decide) hrow (by decide)
      |>.trans (blockWrite_clk (by decide))⟩
  · exact ⟨row', regWrite_block (k := .clk) (inst := 0) Req.noConfusion rfl (by decide) (by decide) hrow' (by decide)
      |>.trans (blockWrite_clk (by decide))⟩

theorem clkPlain_host (s : State) (o : Nat) (v : Option Nat) : s.plainOk .host .clk o v = true := rfl

section
variable {s : State} (habs : s.absent P.CLK = false)
include habs

/-- Both halves of SYNC_BASE read what they hold. -/
theorem syncBase_live (req : Req) : s.live req 0x3054 = s.rd 0x3054 ∧ s.live req 0x3058 = s.rd 0x3058 := by
  obtain ⟨⟨_, hlo⟩, _, hhi⟩ := rowAt_syncBase
  exact ⟨live_block (k := .clk) (inst := 0) (by decide) hlo (by decide) habs,
    live_block (k := .clk) (inst := 0) (by decide) hhi (by decide) habs⟩

theorem syncBaseLo_read {req : Req} (hreq : req ≠ .debug) : ∃ t, exec (.pairLoRead req 0x3054) s = .next t ∧
    t.out = .readData req 0x3054 (s.rd 0x3054) :: s.out ∧ t.regs = s.regs ∧ aget none (t.reqCtx req).snap 0x3058 = some (s.rd 0x3058) := by
  obtain ⟨⟨row, hrow⟩, _⟩ := rowAt_syncBase
  have hread := readReg_pairLo (s := s) (k := .clk) (inst := 0) hreq (by decide) hrow (by decide)
  obtain ⟨hlo, hhi⟩ := syncBase_live habs req
  rw [hlo, hhi] at hread
  refine ⟨_, congrArg Host.Outcome.next (readTo_of_readReg hread), rfl, rfl, ?_⟩
  rw [reqCtx_congr (State.emit_ctx ..), reqCtx_setReqCtx]
  exact aget_aset_same ..

/-- The host's write of NAME_LO is held, and leaves both halves and the page's CAPS. -/
theorem syncBaseLo_write (a : Word) : ∃ t, exec (.pairLoWrite 0x3054 ⟨.host, a, 15⟩) s = .next t ∧
    (∀ o ∈ [0x3008, 0x3054, 0x3058], t.rd o = s.rd o) ∧ aget none (t.reqCtx .host).heldLo 0x3054 = some a := by
  obtain ⟨row, hwrite⟩ := syncBase_write s (.inl rfl) a
  have hgate := (hwrite.trans (plainWrite_pairLo (by decide))).trans (gateW_host (clkPlain_host ..) (by decide) (by decide) habs)
  refine ⟨_, congrArg Host.Outcome.next hgate, fun o ho => ?_, ?_⟩
  · have hother : ∀ o ∈ [0x3008, 0x3054, 0x3058], o ∉ evtOffs ∧ ¬ (0x8000 ≤ o ∧ o < 0xA000) ∧ o ≠ Hdr.OWNER (pageOf 0x3054) := by
      decide
    obtain ⟨hevt, hcanopy, howner⟩ := hother o ho
    rw [trackWrite_rd]
    exact taken_rd s .host 0x3054 a hevt hcanopy howner
  · rw [reqCtx_congr (State.trackWrite_ctx ..), State.holdLo, reqCtx_setReqCtx]
    exact aget_aset_same ..

theorem syncBaseHi_write {a : Word} (b : Word) (hheld : aget none (s.reqCtx .host).heldLo 0x3054 = some a) :
    ∃ u, exec (.pairHiWrite 0x3058 ⟨.host, b, 15⟩) s = .next u ∧ u.rd 0x3054 = a ∧ u.rd 0x3058 = b := by
  obtain ⟨row, hwrite⟩ := syncBase_write s (.inr rfl) b
  have hgate := (hwrite.trans (plainWrite_pairHi (by decide) (by decide))).trans
    (gateW_host (clkPlain_host ..) (by decide) (by decide) habs)
  dsimp only at hgate
  rw [pairValue_held b hheld] at hgate
  refine ⟨_, congrArg Host.Outcome.next hgate, ?_⟩
  rw [trackWrite_rd, trackWrite_rd]
  exact putPair_halves ..

end

/-- Settles O9: what a pair's reads and writes do, taken to SYNC_BASE. -/
theorem registerPairsAreOneValue : Obligations.RegisterPairsAreOneValue := by
  unfold Obligations.RegisterPairsAreOneValue
  intro s habs
  refine ⟨fun r hreq => ?_, fun a => ?_⟩
  · obtain ⟨t, hexec, hout, hregs, hsnap⟩ := syncBaseLo_read habs hreq
    exact ⟨t, hexec, hout, hregs, fun u hctx => syncBaseHi_read hreq (by rw [reqCtx_congr hctx, hsnap])⟩
  · obtain ⟨t, hexec, hregs, hheld⟩ := syncBaseLo_write habs a
    have hthere : t.absent P.CLK = false := (absent_of_rd (hregs 0x3008 (by decide))).trans habs
    exact ⟨t, hexec, hregs _ (by decide), hregs _ (by decide), fun b => syncBaseHi_write hthere b hheld⟩

end Sys2Proof.Machine
end

section
/-! SUPPORT. The arbiter's queue (R417, R418): what an event does that enters it, as one equation for each case. -/

namespace Sys2Proof.Machine

/-! ## STATUS -/

/-- STATUS follows the queue, and below 256 entries the overflow latch opens. -/
theorem evtStatus_eq (s : State) : s.evtStatus =
    ({ s with evt := { s.evt with ovfLatch := s.evt.ovfLatch && decide (256 ≤ s.evt.queue.length) } }.put F.EVT_STATUS_FILL
      s.evt.queue.length).putB F.EVT_STATUS_OVERFLOW_PENDING s.evt.ovfSlot.isSome := by
  unfold State.evtStatus
  split
  · next h => rw [decide_eq_false (Nat.not_le.2 h), Bool.and_false]
  · next h => rw [decide_eq_true (Nat.not_lt.1 h), Bool.and_true]

theorem evtStatus_evt (s : State) :
    s.evtStatus.evt = { s.evt with ovfLatch := s.evt.ovfLatch && decide (256 ≤ s.evt.queue.length) } := by rw [evtStatus_eq]; rfl

theorem evtStatus_rd (s : State) {o : Nat} (ho : o ≠ Reg.EVT_STATUS) : s.evtStatus.rd o = s.rd o := by
  rw [evtStatus_eq, State.putB, rd_put_ne _ _ _ ho, rd_put_ne _ _ _ ho]
  exact rd_congr rfl o

theorem evtStatus_fill (s : State) : s.evtStatus.get F.EVT_STATUS_FILL = s.evt.queue.length % 1024 := by
  rw [evtStatus_eq, State.putB, get_put_disj _ _ _ _ (by decide) (by decide), get_put_same _ _ _ (by decide)]
  rfl

/-! ## An event is dropped -/

/-- A saturating count of one. -/
theorem bump_one_toNat (s : State) (o : Nat) : ((s.bump o 1).rd o).toNat = min ((s.rd o).toNat + 1) 0xFFFFFFFF := by
  rw [State.bump, rd_wr_same, BitVec.toNat_ofNat, Nat.mod_eq_of_lt (by omega)]

theorem countDrop_rd (s : State) (code : Nat) {o : Nat} (h0 : o ≠ Reg.EVT_DROP0) (h1 : o ≠ Reg.EVT_DROP1) :
    (s.countDrop code).rd o = s.rd o := by
  unfold State.countDrop State.bumpF
  dsimp only
  split
  · exact rd_put_ne _ _ _ h0
  · exact rd_put_ne _ _ _ h1

/-- A drop is counted in its class and as an error of the page EVT. -/
def State.dropCounted (s : State) (code : Nat) : State := (s.countDrop code).errInc P.EVT

theorem dropCounted_only (s : State) (code : Nat) : s.dropCounted code = { s with regs := (s.dropCounted code).regs } := by
  unfold State.dropCounted State.countDrop
  dsimp only
  split <;> rfl

theorem dropCounted_errCount (s : State) (code : Nat) : ((s.dropCounted code).rd (Hdr.ERR_COUNT P.EVT)).toNat =
    min ((s.rd (Hdr.ERR_COUNT P.EVT)).toNat + 1) 0xFFFFFFFF := by
  have herr : (s.dropCounted code).rd (Hdr.ERR_COUNT P.EVT) = ((s.countDrop code).bump (Hdr.ERR_COUNT P.EVT) 1).rd (Hdr.ERR_COUNT P.EVT) :=
    rd_put_ne _ _ _ (by decide)
  rw [herr, bump_one_toNat, countDrop_rd s code (by decide) (by decide)]

/-- EVT.OVERFLOW takes its slot at the first drop of an episode. -/
def State.overflowPlaced (s : State) : State :=
  if s.evt.ovfLatch then s
  else
    let e : EvEntry := { stamp := s.ftime, last := s.ftime.setWidth 32, code := Evn.EVT_OVERFLOW.code, sev := 2, page := P.EVT,
                         data0 := Config.eventFill Evn.EVT_OVERFLOW.code 0 s.ftime, data1 := Config.eventFill Evn.EVT_OVERFLOW.code 1 s.ftime }
    let s := s.putB ⟨Hdr.EVT_SUMMARY P.EVT, B.EVT_OVERFLOW, 1⟩ true
    { s with evt := { s.evt with ovfSlot := some e, ovfLatch := true } }

theorem evtDropped_eq (s : State) (code : Nat) : s.evtDropped code = (s.dropCounted code).overflowPlaced := rfl

/-- The latch is then closed, the queue as before, and of the registers at most the summary of the page EVT has changed. -/
theorem overflowPlaced_latched (s : State) : s.overflowPlaced.evt = { s.evt with ovfSlot := s.overflowPlaced.evt.ovfSlot, ovfLatch := true } ∧
    s.overflowPlaced = { s with regs := s.overflowPlaced.regs, evt := s.overflowPlaced.evt } ∧
    ∀ o, o ≠ Hdr.EVT_SUMMARY P.EVT → s.overflowPlaced.rd o = s.rd o := by
  unfold State.overflowPlaced
  dsimp only
  split
  · next hlatch => exact ⟨by rw [← hlatch], rfl, fun _ _ => rfl⟩
  · exact ⟨rfl, rfl, fun o ho => rd_put_ne _ _ _ ho⟩

theorem evtDropped_evt (s : State) (code : Nat) :
    (s.evtDropped code).evt = { s.evt with ovfSlot := (s.evtDropped code).evt.ovfSlot, ovfLatch := true } := by
  have h := (overflowPlaced_latched (s.dropCounted code)).1
  rw [← evtDropped_eq] at h
  rw [h, dropCounted_only]

theorem evtDropped_only (s : State) (code : Nat) :
    s.evtDropped code = { s with regs := (s.evtDropped code).regs, evt := (s.evtDropped code).evt } := by
  have h := (overflowPlaced_latched (s.dropCounted code)).2.1
  rw [← evtDropped_eq] at h
  rw [h, dropCounted_only]

theorem evtDropped_errCount (s : State) (code : Nat) : ((s.evtDropped code).rd (Hdr.ERR_COUNT P.EVT)).toNat =
    min ((s.rd (Hdr.ERR_COUNT P.EVT)).toNat + 1) 0xFFFFFFFF := by
  obtain ⟨_, _, hrd⟩ := overflowPlaced_latched (s.dropCounted code)
  rw [evtDropped_eq, hrd _ (by decide), dropCounted_errCount]

/-! ## An event enters -/

section
variable {s : State} {e : EvEntry}

theorem evtEnter_coalesces (h : s.evt.queue.any (fun x => x.matches e) = true) :
    s.evtEnter e = { s.bump Reg.EVT_COALESCED 1 with evt := { s.evt with queue := coalesceIn e s.evt.queue } } := if_pos h

theorem evtEnter_placed (h : s.evt.queue.any (fun x => x.matches e) = false) (hroom : s.evt.queue.length < 512) :
    s.evtEnter e = { s with evt := { s.evt with queue := s.evt.queue ++ [e] } }.evtStatus := by
  rw [State.evtEnter, h, if_neg Bool.false_ne_true, if_pos hroom]

theorem evtEnter_dropped (h : s.evt.queue.any (fun x => x.matches e) = false) (hfull : 512 ≤ s.evt.queue.length) (hsev : e.sev < 2) :
    s.evtEnter e = (s.evtDropped e.code).evtStatus := by
  rw [State.evtEnter, h, if_neg Bool.false_ne_true, if_neg (Nat.not_lt.2 hfull), if_neg (Nat.not_le.2 hsev)]

theorem evtEnter_placed_queue (h : s.evt.queue.any (fun x => x.matches e) = false) (hroom : s.evt.queue.length < 512) :
    (s.evtEnter e).evt.queue = s.evt.queue ++ [e] := by rw [evtEnter_placed h hroom, evtStatus_evt]

end

/-- An event that enters changes the event arbiter and registers. -/
theorem evtEnter_only (s : State) (e : EvEntry) :
    s.evtEnter e = { s with regs := (s.evtEnter e).regs, evt := (s.evtEnter e).evt } := by
  have hstatus (t : State) (ht : t = { s with regs := t.regs, evt := t.evt }) :
      t.evtStatus = { s with regs := t.evtStatus.regs, evt := t.evtStatus.evt } := by
    rw [evtStatus_eq, ht]
    rfl
  unfold State.evtEnter
  dsimp only
  split
  · rfl
  · split
    · exact hstatus _ rfl
    · split
      · split
        · exact hstatus _ (by rw [evtDropped_only])
        · exact hstatus _ (evtDropped_only ..)
      · exact hstatus _ (evtDropped_only ..)

theorem length_coalesceIn (n : EvEntry) (l : List EvEntry) : (coalesceIn n l).length = l.length := by
  induction l with
  | nil => rfl
  | cons x l ih =>
    unfold coalesceIn
    split
    · rfl
    · simp only [List.length_cons, ih]

/-- Coalescing changes no entry's code, nor whether Ringlog has taken it. -/
theorem mem_coalesceIn {n x : EvEntry} {l : List EvEntry} (h : x ∈ coalesceIn n l) :
    ∃ y ∈ l, x.code = y.code ∧ x.rlogTaken = y.rlogTaken := by
  induction l with
  | nil => cases h
  | cons y l ih =>
    unfold coalesceIn at h
    split at h
    · obtain rfl | hx := List.mem_cons.1 h
      · exact ⟨y, List.mem_cons_self, rfl, rfl⟩
      · exact ⟨x, List.mem_cons_of_mem _ hx, rfl, rfl⟩
    · obtain rfl | hx := List.mem_cons.1 h
      · exact ⟨x, List.mem_cons_self, rfl, rfl⟩
      · obtain ⟨z, hz, hsame⟩ := ih hx
        exact ⟨z, List.mem_cons_of_mem _ hz, hsame⟩

/-! ## An event is raised -/

/-- The arbiter is powered and the index is built, so an event enters the queue at once (R419). -/
def Listens (s : State) : Prop := s.mod.power ≠ .standby ∧ s.evt.building = false

/-- The entry of an event that is raised now. -/
def State.entryOf (s : State) (pg code sev : Nat) (d0 d1 : Word) : EvEntry :=
  { stamp := s.ftime, last := s.ftime.setWidth 32, code := code, sev := sev, page := pg, data0 := d0, data1 := d1 }

theorem eventOf_enters {s : State} (h : Listens s) (pg : Nat) (ev : EvKind) (sev : Nat) (d0 d1 : Option Word) :
    s.eventOf pg ev sev d0 d1 = s.evtEnter (s.entryOf pg ev.code sev (d0.getD (Config.eventFill ev.code 0 s.ftime))
      (d1.getD (Config.eventFill ev.code 1 s.ftime))) := by
  obtain ⟨hpower, hbuilt⟩ := h
  rw [State.eventOf, if_neg hpower, hbuilt, if_neg Bool.false_ne_true]
  rfl

end Sys2Proof.Machine
end

section
/-! EVENT_RAISE: an event enters, coalesces or is dropped (R31, R417, R418). -/

namespace Sys2Proof.Machine

/-! ## The summary bit -/

theorem summaryBits_lt (k : PageKind) : ∀ e ∈ summaryBits k, e.2 < 32 := by cases k <;> decide

theorem bitOfEvent_lt {page code sev b : Nat} (h : bitOfEvent page code sev = some b) : b < 32 := by
  unfold bitOfEvent at h
  split at h
  · cases h
  · next k _ _ =>
    split at h
    · cases h
      decide
    · obtain ⟨e, hfind, rfl⟩ := Option.map_eq_some_iff.1 h
      exact summaryBits_lt k e (List.mem_of_find?_eq_some hfind)

section
variable {s : State} {page : BitVec 10} {code : BitVec 16} {sev : BitVec 2} {d0 d1 : Word}

theorem eventRaise_reserved (h : ((pageAt page.toNat).isSome && knownCode code.toNat) = false) :
    exec (.eventRaise page code sev d0 d1) s = .next s := if_neg (ne_true_of_eq_false h)

/-- A known event sets its summary bit and then enters. -/
theorem eventRaise_known (h : ((pageAt page.toNat).isSome && knownCode code.toNat) = true) (hl : Listens s) :
    ∃ u : State, exec (.eventRaise page code sev d0 d1) s =
        .next (u.evtEnter (s.entryOf (4096 * page.toNat) code.toNat sev.toNat d0 d1)) ∧
      u = { s with regs := u.regs } ∧ (∀ o, o % 4096 ≠ 0x14 → u.rd o = s.rd o) ∧
      ∀ b, bitOfEvent (4096 * page.toNat) code.toNat sev.toNat = some b → u.summary (4096 * page.toNat) b = true := by
  let pg := 4096 * page.toNat
  have hexec : exec (.eventRaise page code sev d0 d1) s = match bitOfEvent pg code.toNat sev.toNat with
    | some b => .next (s.raiseSev pg b ⟨code.toNat, sev.toNat⟩ sev.toNat (some d0) (some d1))
    | none => .next (s.eventOf pg ⟨code.toNat, sev.toNat⟩ sev.toNat (some d0) (some d1)) := if_pos h
  cases hbit : bitOfEvent pg code.toNat sev.toNat with
  | none =>
    rw [hbit] at hexec
    dsimp only at hexec
    rw [eventOf_enters hl] at hexec
    exact ⟨s, hexec, rfl, fun _ _ => rfl, fun _ hb => nomatch hb⟩
  | some b =>
    rw [hbit] at hexec
    dsimp only [State.raiseSev] at hexec
    rw [eventOf_enters (s := s.putB _ true) hl] at hexec
    refine ⟨_, hexec, rfl, fun o ho => rd_put_ne _ _ _ fun heq => ho ?_, fun b' hb => ?_⟩
    · have heq' : o = pg + 0x14 := heq
      omega
    · obtain rfl : b = b' := Option.some.inj hb
      have hb32 := bitOfEvent_lt hbit
      exact flag_putB_same s _ true (by simp; omega) rfl

/-- What the raising of a known event leaves: its summary bit, and its entry placed, coalesced or dropped. -/
theorem eventRaise_enters (h : ((pageAt page.toNat).isSome && knownCode code.toNat) = true) (hl : Listens s) {e : EvEntry}
    (he : e = s.entryOf (4096 * page.toNat) code.toNat sev.toNat d0 d1) : ∃ t, exec (.eventRaise page code sev d0 d1) s = .next t ∧
      (∀ b, bitOfEvent (4096 * page.toNat) code.toNat sev.toNat = some b → t.summary (4096 * page.toNat) b = true) ∧
      (s.evt.queue.any (fun x => x.matches e) = false → s.evt.queue.length < 512 →
        t.evt.queue = s.evt.queue ++ [e] ∧ t.get F.EVT_STATUS_FILL = (s.evt.queue.length + 1) % 1024) ∧
      (s.evt.queue.any (fun x => x.matches e) = true → t.evt.queue.length = s.evt.queue.length ∧ t.evt.queue = coalesceIn e s.evt.queue ∧
        (t.rd Reg.EVT_COALESCED).toNat = min ((s.rd Reg.EVT_COALESCED).toNat + 1) 0xFFFFFFFF) ∧
      (s.evt.queue.any (fun x => x.matches e) = false → 512 ≤ s.evt.queue.length → sev.toNat < 2 →
        t.evt.queue = s.evt.queue ∧ t.evt.ovfLatch = true ∧
        (t.rd (Hdr.ERR_COUNT P.EVT)).toNat = min ((s.rd (Hdr.ERR_COUNT P.EVT)).toNat + 1) 0xFFFFFFFF) ∧
      t = { s with regs := t.regs, evt := t.evt } := by
  obtain ⟨u, hexec, hu, hrd, hbit⟩ := eventRaise_known (sev := sev) (d0 := d0) (d1 := d1) h hl
  rw [← he] at hexec
  have hevt : u.evt = s.evt := by rw [hu]
  refine ⟨_, hexec, fun b hb => ?_, fun hnew hroom => ?_, fun hold => ?_, fun hnew hfull hsev => ?_, ?_⟩
  · exact (evtEnter_frame u e).2.2 _ b (Nat.mul_mod_right ..) (hbit b hb)
  · rw [← hevt] at hnew hroom ⊢
    rw [evtEnter_placed hnew hroom, evtStatus_evt, evtStatus_fill]
    exact ⟨rfl, by rw [List.length_append, List.length_singleton]⟩
  · rw [← hevt] at hold ⊢
    rw [evtEnter_coalesces hold]
    refine ⟨length_coalesceIn .., rfl, ?_⟩
    rw [← hrd Reg.EVT_COALESCED (by decide)]
    exact bump_one_toNat ..
  · rw [← hevt] at hnew hfull ⊢
    have hopen : 256 ≤ u.evt.queue.length := by omega
    rw [evtEnter_dropped hnew hfull (he ▸ hsev), evtStatus_rd _ (by decide), evtDropped_errCount, hrd _ (by decide), evtStatus_evt,
      evtDropped_evt]
    exact ⟨rfl, decide_eq_true hopen, rfl⟩
  · rw [evtEnter_only, hu]

end
end Sys2Proof.Machine
end

section
/-! EVENT_SEQUENCE: an entry is numbered and goes to its destinations (R416, R419). -/

namespace Sys2Proof.Machine

/-! ## What the destinations leave -/

/-- The entries, the next sequence number, Canopy's buffer and the token holder are as before. -/
structure Beside (s t : State) : Prop where
  evAll  : t.evAll = s.evAll
  seq    : t.rd Reg.EVT_SEQ = s.rd Reg.EVT_SEQ
  canopy : t.evt.canopy = s.evt.canopy
  holder : t.holder = s.holder

theorem Beside.refl (s : State) : Beside s s := ⟨rfl, rfl, rfl, rfl⟩

theorem Beside.trans {s t u : State} (h : Beside s t) (h' : Beside t u) : Beside s u :=
  ⟨h'.evAll.trans h.evAll, h'.seq.trans h.seq, h'.canopy.trans h.canopy, h'.holder.trans h.holder⟩

theorem Beside.ite {s t u : State} {c : Prop} {_ : Decidable c} (ht : Beside s t) (hu : Beside s u) : Beside s (if c then t else u) := by
  split <;> assumption

theorem Beside.wr {s t : State} (h : Beside s t) {o : Nat} {v : Word} (hseq : Reg.EVT_SEQ ≠ o) (hholder : F.ARB_TOKEN_HOLDER.off ≠ o) :
    Beside s (t.wr o v) :=
  h.trans ⟨rfl, rd_wr_ne t v hseq, rfl, get_wr_off t F.ARB_TOKEN_HOLDER o v hholder⟩

theorem beside_msix (s : State) (v : Nat) : Beside s ((s.msixCause v).msixTry v) := by
  have hcause : Beside s (s.msixCause v) := Beside.ite ⟨rfl, rfl, rfl, rfl⟩ ⟨rfl, rfl, rfl, rfl⟩
  refine hcause.trans ?_
  unfold State.msixTry
  dsimp only
  split
  · exact Beside.refl _
  · exact Beside.ite ⟨rfl, rfl, rfl, rfl⟩ (Beside.refl _)

theorem beside_toPldm (s : State) (e : EvEntry) : Beside s (s.toPldm e) := by
  have hbuffered : Beside s { s with evt := { s.evt with pldm := s.evt.pldm ++ [e] } } := ⟨rfl, rfl, rfl, rfl⟩
  exact Beside.ite (hbuffered.wr (by decide) (by decide)) ((Beside.refl s).wr (by decide) (by decide))

theorem beside_toForward (s : State) (e : EvEntry) : Beside s (s.toForward e) := by
  refine Beside.ite ⟨rfl, rfl, rfl, rfl⟩ ?_
  split
  · exact ⟨rfl, rfl, rfl, rfl⟩
  · exact (Beside.refl s).wr (by decide) (by decide)

theorem toCanopy_leaves (s : State) (e : EvEntry) : (s.toCanopy e).evAll = s.evAll ∧ (s.toCanopy e).rd Reg.EVT_SEQ = s.rd Reg.EVT_SEQ := by
  unfold State.toCanopy
  split
  · exact ⟨rfl, rfl⟩
  · split
    · exact ⟨rfl, rd_put_ne _ _ _ (by decide)⟩
    · exact ⟨rfl, rd_wr_ne _ _ (by decide)⟩

/-- With no token holder an entry waits (R365). -/
theorem toCanopy_waits {s : State} (e : EvEntry) (hholder : s.holder = 0) (hroom : s.evt.canopy.length < 256) :
    (s.toCanopy e).evt.canopy = s.evt.canopy ++ [e] := by
  rw [State.toCanopy, if_neg fun h => h.1 hholder, if_pos hroom]
  rfl

/-- An entry's way is by the MSI-X router and the PLDM buffer to Canopy, and on to the forwarding buffer. -/
theorem evRoute_passes (s : State) (e : EvEntry) : ∃ u, Beside s u ∧ Beside (u.toCanopy e) (s.evRoute e) :=
  ⟨_, .trans (Beside.ite (beside_msix ..) (.refl s)) (Beside.ite (beside_toPldm ..) (.refl _)), Beside.ite (beside_toForward ..) (.refl _)⟩

theorem evRoute_leaves (s : State) (e : EvEntry) : (s.evRoute e).evAll = s.evAll ∧ (s.evRoute e).rd Reg.EVT_SEQ = s.rd Reg.EVT_SEQ := by
  obtain ⟨u, hbefore, hafter⟩ := evRoute_passes s e
  obtain ⟨hall, hseq⟩ := toCanopy_leaves u e
  exact ⟨hafter.evAll.trans (hall.trans hbefore.evAll), hafter.seq.trans (hseq.trans hbefore.seq)⟩

theorem evRoute_waits {s : State} (e : EvEntry) (hholder : s.holder = 0) (hroom : s.evt.canopy.length < 256) :
    (s.evRoute e).evt.canopy = s.evt.canopy ++ [e] := by
  obtain ⟨u, hbefore, hafter⟩ := evRoute_passes s e
  rw [hafter.canopy, toCanopy_waits e (hbefore.holder.trans hholder) (hbefore.canopy ▸ hroom), hbefore.canopy]

/-! ## The queue around it -/

theorem mem_evReplace {s : State} {x : EvEntry} (hx : x ∈ s.evAll) (y : EvEntry) : y ∈ (s.evReplace x y).evAll := by
  unfold State.evReplace
  split
  · exact List.mem_append_right _ (List.mem_singleton.2 rfl)
  · next hslot =>
    have hqueue : x ∈ s.evt.queue := (List.mem_append.1 hx).resolve_right fun h => hslot (Option.mem_toList.1 h)
    exact List.mem_append_left _ (List.mem_map.2 ⟨x, hqueue, if_pos rfl⟩)

theorem evReplace_leaves (s : State) (x y : EvEntry) : (s.evReplace x y).regs = s.regs ∧ (s.evReplace x y).evt.canopy = s.evt.canopy := by
  unfold State.evReplace
  split <;> exact ⟨rfl, rfl⟩

/-- An entry that Ringlog has not taken stays. -/
theorem mem_evRelease {s : State} {x : EvEntry} (hx : x ∈ s.evAll) (hkept : x.rlogTaken = false) : x ∈ s.evRelease.evAll := by
  have hnot : (!(x.rlogTaken && x.msiTaken)) = true := by rw [hkept]; rfl
  unfold State.evRelease State.evAll
  rw [evtStatus_evt]
  refine List.mem_append.2 ((List.mem_append.1 hx).imp (fun h => List.mem_filter.2 ⟨h, hnot⟩) fun h => ?_)
  exact Option.mem_toList.2 (Option.mem_filter_iff.2 ⟨Option.mem_toList.1 h, hnot⟩)

theorem evRelease_leaves (s : State) : s.evRelease.rd Reg.EVT_SEQ = s.rd Reg.EVT_SEQ ∧ s.evRelease.evt.canopy = s.evt.canopy := by
  unfold State.evRelease
  rw [evtStatus_rd _ (by decide), evtStatus_evt]
  exact ⟨rfl, rfl⟩

/-! ## EVENT_SEQUENCE -/

/-- An entry without a number whose stamp is 64 ticks old. -/
def State.isDue (s : State) (x : EvEntry) : Bool := x.seq.isNone && decide (x.stamp.toNat + 64 ≤ s.ftime.toNat)

/-- The entry as it is once numbered: the MSI-X router takes it at once, and Ringlog wants it from RLOG_MIN up. -/
def State.numbered (s : State) (x : EvEntry) : EvEntry :=
  { x with seq := some (s.rd Reg.EVT_SEQ), msiTaken := true, rlogTaken := x.rlogTaken || decide (x.sev < s.get F.EVT_ROUTE_RLOG_MIN) }

/-- An entry is numbered, goes to its destinations, and leaves the queue where both takers have it. -/
def State.sequenced (s : State) (x : EvEntry) : State :=
  (((s.evReplace x (s.numbered x)).wr Reg.EVT_SEQ (s.rd Reg.EVT_SEQ + 1)).evRoute (s.numbered x)).evRelease

theorem eventSequence_eq (s : State) : exec .eventSequence s = .next ((evFirst (s.evAll.filter s.isDue)).elim s s.sequenced) := by
  show Host.Outcome.next (s.evSequence 64) = _
  unfold State.evSequence
  split
  · next hfirst => rw [show evFirst (s.evAll.filter s.isDue) = none from hfirst]; rfl
  · next x hfirst => rw [show evFirst (s.evAll.filter s.isDue) = some x from hfirst]; rfl

theorem eventSequence_idle {s : State} (h : ∀ x ∈ s.evAll, s.isDue x = false) : exec .eventSequence s = .next s := by
  have hnone : s.evAll.filter s.isDue = [] := List.filter_eq_nil_iff.2 fun x hx => ne_true_of_eq_false (h x hx)
  rw [eventSequence_eq, hnone]
  rfl

theorem evFirst_mem {l : List EvEntry} {x : EvEntry} (h : evFirst l = some x) : x ∈ l := by
  cases l with
  | nil => cases h
  | cons y l =>
    obtain rfl := Option.some.inj h
    refine List.foldlRecOn l _ List.mem_cons_self fun m hm x hx => ?_
    split
    · exact List.mem_cons_of_mem _ hx
    · exact hm

theorem eventSequence_numbers {s : State} {x : EvEntry} (h : evFirst (s.evAll.filter s.isDue) = some x) : ∃ t, exec .eventSequence s = .next t ∧
    t.rd Reg.EVT_SEQ = s.rd Reg.EVT_SEQ + 1 ∧
    (x.rlogTaken = false → s.get F.EVT_ROUTE_RLOG_MIN ≤ x.sev → s.numbered x ∈ t.evAll) ∧
    (s.holder = 0 → s.evt.canopy.length < 256 → t.evt.canopy = s.evt.canopy ++ [s.numbered x]) := by
  have hexec := eventSequence_eq s
  rw [h] at hexec
  refine ⟨s.sequenced x, hexec, ?_, fun hkept hsev => ?_, fun hholder hroom => ?_⟩
  · rw [State.sequenced, (evRelease_leaves _).1, (evRoute_leaves ..).2, rd_wr_same]
  · refine mem_evRelease ?_ ?_
    · rw [(evRoute_leaves ..).1]
      exact mem_evReplace (List.mem_of_mem_filter (evFirst_mem h)) _
    · show (x.rlogTaken || decide _) = false
      rw [hkept, Bool.false_or]
      exact decide_eq_false (Nat.not_lt.2 hsev)
  · obtain ⟨hregs, hcanopy⟩ := evReplace_leaves s x (s.numbered x)
    have hholder' : ((s.evReplace x (s.numbered x)).wr Reg.EVT_SEQ (s.rd Reg.EVT_SEQ + 1)).holder = 0 := by
      rw [State.holder, get_wr_off _ _ _ _ (by decide), get_congr hregs]
      exact hholder
    rw [State.sequenced, (evRelease_leaves _).2, evRoute_waits _ hholder' (hcanopy ▸ hroom)]
    exact congrArg (· ++ _) hcanopy

end Sys2Proof.Machine
end

section
/-! EVENT_FWD_RX: a forwarded event is relayed, or enters at the lead (R419). -/

namespace Sys2Proof.Machine

/-- A message goes out on a link that is UP, and is returned by any other (R205); only the link and the outputs change. -/
theorem sendMsg_leaves (s : State) (l : Nat) (b : SvcBody) :
    (if s.linkUp l then ∃ k, (s.sendMsg l b).out = .svcSend l k b :: s.out else (s.sendMsg l b).out = .undelivered l b :: s.out) ∧
      s.sendMsg l b = { s with links := (s.sendMsg l b).links, out := (s.sendMsg l b).out } := by
  unfold State.sendMsg
  split
  · exact ⟨⟨_, rfl⟩, rfl⟩
  · exact ⟨rfl, rfl⟩

/-- The entry of a forwarded event at the lead: its own code, severity and stamp, with REMOTE and its origin. -/
def fwdEntry (f : FwdEvent) : EvEntry :=
  { stamp := f.stamp, last := f.stamp.setWidth 32, code := f.code.toNat, sev := f.sev.toNat, page := 4096 * f.page.toNat, remote := true,
    origin := f.origin.toNat, data0 := f.data0, data1 := f.data1 }

variable {s : State} {l : Fin 96} {f : FwdEvent}

theorem eventFwdRx_unarmed (harmed : s.armed = false) : exec (.eventFwdRx l f) s = .next (s.takeInbox l.val (.event f)) :=
  if_neg (ne_true_of_eq_false harmed)

theorem eventFwdRx_enters (harmed : s.armed = true) (hlead : s.isLead = true) (hnew : s.evt.queue.any (fun x => x.matches (fwdEntry f)) = false)
    (hroom : s.evt.queue.length < 512) : ∃ t, exec (.eventFwdRx l f) s = .next t ∧ t.evt.queue = s.evt.queue ++ [fwdEntry f] ∧
      t.rd Reg.EVT_FWD_RX = s.rd Reg.EVT_FWD_RX + 1 ∧ onlyRegsEvt [Reg.EVT_FWD_RX] s t ∧
      t = { s.takeInbox l.val (.event f) with regs := t.regs, evt := t.evt } := by
  let u := (s.takeInbox l.val (.event f)).bumpW Reg.EVT_FWD_RX 1
  have hexec : exec (.eventFwdRx l f) s = .next (u.evtEnter (fwdEntry f)) := (if_pos harmed).trans (if_pos hlead)
  have hleaves (o : Nat) (ho : o ∉ evtOffs) : (u.evtEnter (fwdEntry f)).rd o = u.rd o := (evtEnter_frame u (fwdEntry f)).2.1 o ho
  refine ⟨_, hexec, evtEnter_placed_queue hnew hroom, ?_, fun o ho hevt => ?_, evtEnter_only u (fwdEntry f)⟩
  · rw [hleaves _ (by decide)]
    exact rd_wr_same ..
  · rw [hleaves o hevt]
    exact rd_wr_ne _ _ fun h => ho (List.mem_singleton.2 h)

theorem eventFwdRx_relays (harmed : s.armed = true) (hlead : s.isLead = false) {p : Nat} (hparent : s.group.parent = some p) :
    exec (.eventFwdRx l f) s = .next ((s.takeInbox l.val (.event f)).sendMsg p (.event f)) := by
  refine (if_pos harmed).trans ((if_neg (ne_true_of_eq_false hlead)).trans ?_)
  rw [show (s.takeInbox l.val (.event f)).group.parent = some p from hparent]

end Sys2Proof.Machine
end

section
/-! INJECT (R421), and O55. -/

namespace Sys2Proof.Machine

/-! ## The snoop of a write leaves room in the queue -/

/-- With room in the queue an entry coalesces or is placed. -/
theorem evtEnter_room {s : State} (e : EvEntry) (hroom : s.evt.queue.length < 512) : ∃ q latch,
    (s.evtEnter e).evt = { s.evt with queue := q, ovfLatch := latch } ∧ (q = coalesceIn e s.evt.queue ∨ q = s.evt.queue ++ [e]) := by
  cases h : s.evt.queue.any (fun x => x.matches e) with
  | true => exact ⟨_, _, by rw [evtEnter_coalesces h], .inl rfl⟩
  | false => exact ⟨_, _, by rw [evtEnter_placed h hroom, evtStatus_evt], .inr rfl⟩

/-- The arbiter listens, its queue holds at most `n` entries, and Ringlog has taken each EVT.TEST among them. -/
structure TestFree (s : State) (n : Nat) : Prop where
  listens : Listens s
  room    : s.evt.queue.length ≤ n
  taken   : ∀ x ∈ s.evt.queue, x.code = Evn.EVT_TEST.code → x.rlogTaken = true

section
variable {s : State} {n : Nat} (h : TestFree s n)
include h

theorem TestFree.congr {t : State} (hmod : t.mod = s.mod) (hevt : t.evt = s.evt) : TestFree t n :=
  ⟨⟨hmod ▸ h.listens.1, hevt ▸ h.listens.2⟩, hevt ▸ h.room, hevt ▸ h.taken⟩

theorem TestFree.mono {m : Nat} (hm : n ≤ m) : TestFree s m := ⟨h.listens, h.room.trans hm, h.taken⟩

theorem TestFree.evtEnter {e : EvEntry} (hn : n < 512) (hcode : e.code ≠ Evn.EVT_TEST.code) : TestFree (s.evtEnter e) (n + 1) := by
  obtain ⟨q, latch, hevt, hq⟩ := evtEnter_room e (Nat.lt_of_le_of_lt h.room hn)
  have hmod : (s.evtEnter e).mod = s.mod := by rw [evtEnter_only]
  refine ⟨⟨hmod ▸ h.listens.1, by rw [hevt]; exact h.listens.2⟩, ?_, ?_⟩ <;> rw [hevt] <;> dsimp only
  · obtain rfl | rfl := hq
    · rw [length_coalesceIn]
      exact h.room.trans (Nat.le_succ n)
    · rw [List.length_append]
      exact Nat.add_le_add_right h.room 1
  · intro x hx hx'
    obtain rfl | rfl := hq
    · obtain ⟨y, hy, hsame, htaken⟩ := mem_coalesceIn hx
      rw [htaken]
      exact h.taken y hy (hsame.symm.trans hx')
    · obtain hx | hx := List.mem_append.1 hx
      · exact h.taken x hx hx'
      · exact absurd (List.mem_singleton.1 hx ▸ hx') hcode

/-- One core's snoop queue raises at most one event, CANOPY.SNOOP_OVERFLOW (R363). -/
theorem TestFree.snoopTo {e : SnoopEntry} {k : Nat} (hn : n < 512) : TestFree (s.snoopTo e k) (n + 1) := by
  unfold State.snoopTo
  dsimp only
  split
  · exact (h.mono (Nat.le_succ n)).congr rfl rfl
  · rw [State.raise, State.raiseSev]
    have hfull (t : State) (ht : TestFree t n) :
        TestFree (t.eventOf (P.CANOPY k) Evn.CANOPY_SNOOP_OVERFLOW Evn.CANOPY_SNOOP_OVERFLOW.sev none none) (n + 1) := by
      rw [eventOf_enters ht.listens]
      exact ht.evtEnter hn (show Evn.CANOPY_SNOOP_OVERFLOW.code ≠ Evn.EVT_TEST.code by decide)
    exact hfull _ (h.congr rfl rfl)

end

theorem TestFree.snoops {e : SnoopEntry} {l : List Nat} {s : State} {n : Nat} (h : TestFree s n) (hn : n + l.length ≤ 512) :
    TestFree (l.foldl (fun s k => s.snoopTo e k) s) (n + l.length) := by
  induction l generalizing s n with
  | nil => exact h
  | cons k l ih =>
    rw [List.length_cons] at hn ⊢
    rw [show n + (l.length + 1) = n + 1 + l.length by omega]
    exact ih (h.snoopTo (by omega)) (by omega)

/-- A write is snooped by at most two cores. -/
theorem TestFree.snoop {s : State} {n : Nat} (h : TestFree s n) (hn : n + 2 ≤ 512) (off : Nat) (req : Req) (data : Word) :
    TestFree (s.snoop off req data) (n + 2) := by
  have hcores : n + s.snoopers.length ≤ n + 2 := Nat.add_le_add_left (List.length_filter_le ..) n
  have hcounted : TestFree { s with canopy := { s.canopy with seq := s.canopy.seq + 1 } } n := h.congr rfl rfl
  exact (hcounted.snoops (hcores.trans hn)).mono hcores

/-! ## INJECT -/

theorem any_matches_eq_false {l : List EvEntry} {e : EvEntry} (h : ∀ x ∈ l, x.code = e.code → x.rlogTaken = true) :
    l.any (fun x => x.matches e) = false := by
  refine List.any_eq_false.2 fun x hx hmatch => ?_
  simp only [EvEntry.matches, Bool.and_eq_true, Bool.not_eq_true', decide_eq_true_eq] at hmatch
  obtain ⟨⟨⟨⟨hwaits, _⟩, hcode⟩, _⟩, _⟩ := hmatch
  exact Bool.noConfusion (hwaits.symm.trans (h x hx hcode))

/-- EVT.TEST is raised with the value written. -/
def State.testRaised (s : State) (data : Word) : State := s.raiseSev P.EVT B.EVT_TEST Evn.EVT_TEST Evn.EVT_TEST.sev (some data) none

theorem inject_refused (s : State) (data : Word) :
    exec (.inject { req := .sideband, data := data, be := 15 }) s = .next (s.refuse .sideband Reg.EVT_INJECT causeRight) :=
  congrArg Host.Outcome.next (gate_right s .sideband Reg.EVT_INJECT data (fun t => t.testRaised data) (.inl (by decide)) (by decide))

theorem raiseTest_enters {s : State} {n : Nat} (h : TestFree s n) (hn : n < 512) (data : Word) :
    ∃ x ∈ (s.testRaised data).evt.queue, x.code = Evn.EVT_TEST.code ∧
      x.page = P.EVT ∧ x.sev = Evn.EVT_TEST.sev ∧ x.data0 = data ∧ x.stamp = s.ftime := by
  have hmarked : TestFree (s.putB ⟨Hdr.EVT_SUMMARY P.EVT, B.EVT_TEST, 1⟩ true) n := h.congr rfl rfl
  rw [State.testRaised, State.raiseSev, eventOf_enters hmarked.listens,
    evtEnter_placed_queue (any_matches_eq_false hmarked.taken) (Nat.lt_of_le_of_lt hmarked.room hn)]
  exact ⟨_, List.mem_append_right _ (List.mem_singleton.2 rfl), rfl, rfl, rfl, rfl, rfl⟩

theorem inject_enters {s : State} (habs : s.absent P.EVT = false) (h : TestFree s 508) (data : Word) :
    ∃ t, exec (.inject { req := .host, data := data, be := 15 }) s = .next t ∧ t.summary P.EVT B.EVT_TEST = true ∧
      (∃ x ∈ t.evt.queue, x.code = Evn.EVT_TEST.code ∧ x.page = P.EVT ∧ x.sev = Evn.EVT_TEST.sev ∧ x.data0 = data ∧ x.stamp = s.ftime) ∧
      t.rd (Hdr.OWNER P.EVT) = reqIdent .host := by
  have hgate := gateW_host (off := Reg.EVT_INJECT) (data := data) (eff := fun t => t.testRaised data) (ok := hostOrCanopy .host) rfl
    (by decide) (by decide) habs
  have htaken : TestFree (s.taken .host Reg.EVT_INJECT data) 510 := (h.snoop (by decide) Reg.EVT_INJECT .host data).congr rfl rfl
  refine ⟨_, congrArg Host.Outcome.next hgate, ?_, ?_, ?_⟩
  · exact (flag_congr (trackWrite_regs ..) _).trans (raiseSev_summary _ _ _ _ _ _ _ (by decide) (by decide))
  · rw [State.trackWrite_evt, ← State.taken_ftime s Reg.EVT_INJECT .host data]
    exact raiseTest_enters htaken (by decide) data
  · rw [trackWrite_rd, State.testRaised, raiseSev_rd _ _ _ _ _ _ _ (by decide) (by decide)]
    exact taken_owner s .host Reg.EVT_INJECT data

/-- Settles O55: an event's ways into the queue, its numbering, its forwarding, and INJECT. -/
theorem eventsEnterAreNumberedAndForwarded : Obligations.EventsEnterAreNumberedAndForwarded := by
  unfold Obligations.EventsEnterAreNumberedAndForwarded
  intro s page code sev d0 d1 data l f
  refine ⟨eventRaise_reserved, fun hknown hl => eventRaise_enters hknown hl rfl, eventSequence_idle, fun x hx => eventSequence_numbers hx,
    eventFwdRx_unarmed, eventFwdRx_enters, fun harmed hlead p hparent => ?_, inject_refused s data, fun habs hl hroom htaken => ?_⟩
  · exact ⟨_, eventFwdRx_relays harmed hlead hparent, sendMsg_leaves (s.takeInbox l.val (.event f)) p (.event f)⟩
  · exact inject_enters habs ⟨hl, Nat.le_of_lt_succ hroom, htaken⟩ data

end Sys2Proof.Machine
end

section
/-! START of a time sync (R50, R53): the way from the arbiter to the clock block, and O5. -/

namespace Sys2Proof.Machine

/-! ## A write of SYNC_CTRL -/

/-- A whole write of SYNC_CTRL, by any requester that debug does not refuse, goes to the clock block's own decision. -/
theorem regWrite_syncCtrl {s : State} {w : WriteReq} (hreq : mayTry s w.req) (hbe : w.be = 15) :
    s.regWrite Reg.CLK_SYNC_CTRL w = s.syncCtrlWrite w := by
  obtain ⟨row, hrow⟩ : ∃ row, rowAt Reg.CLK_SYNC_CTRL = some row := Option.isSome_iff_exists.1 (by decide)
  have hdebug : (w.req == Req.debug && !s.debugOpen) = false := by
    rcases hreq with hreq | hopen
    · rw [beq_eq_false_iff_ne.2 hreq, Bool.false_and]
    · rw [hopen, Bool.not_true, Bool.and_false]
  have hwritable : writableAt Reg.CLK_SYNC_CTRL = true := by decide
  have hpage : pageAt (Reg.CLK_SYNC_CTRL / 4096) = some (.clk, 0) := by decide
  have hblock : ¬ Reg.CLK_SYNC_CTRL % 4096 < 0x40 := by decide
  simp only [State.regWrite, hdebug, Bool.false_eq_true, if_false, hbe, ne_eq, not_true_eq_false, hwritable, Bool.not_true, hpage, hrow,
    hblock]
  rfl

/-- A refused write takes no snoop number. -/
theorem wasAccepted_refuse (s : State) (req : Req) (off cause : Nat) : wasAccepted s (s.refuse req off cause) = false :=
  decide_eq_false (fun h => h rfl)

/-- One write of a register in a cycle, where it is refused. -/
theorem registerWrite_refused {s : State} {off : BitVec 22} {w : WriteReq} {cause : Nat}
    (h : s.regWrite off.toNat w = s.refuse w.req off.toNat cause) :
    exec (.registerWrite off w []) s = .next (s.refuse w.req off.toNat cause) := by
  show execRegisterWrite off w [] s = _
  simp only [execRegisterWrite, State.byRank, List.foldl_cons, List.foldl_nil, List.filter_nil, List.nil_append, List.append_nil,
    State.writeAll, h, wasAccepted_refuse, Bool.false_eq_true, if_false, show ¬ 2 ≤ 0 by decide]

/-- START with ROOT as it stands, as SYNC_START writes it. -/
def syncStartWord (root : Nat) : Word := BitVec.ofNat 32 (2 + root)

theorem syncStartWord_of {root : Nat} (h : root < 2) :
    F.CLK_SYNC_CTRL_START.of (syncStartWord root) = 1 ∧ F.CLK_SYNC_CTRL_ROOT.of (syncStartWord root) = root := by
  interval_cases root <;> decide

theorem syncRoot_lt (s : State) : s.get F.CLK_SYNC_CTRL_ROOT < 2 := bitsOf_lt _ _ _

theorem syncStart_eq {s : State} {req : Req} (hreq : mayTry s req) : exec (.syncStart req) s =
    .next (s.syncCtrlWrite { req := req, data := syncStartWord (s.get F.CLK_SYNC_CTRL_ROOT), be := 15 }) :=
  congrArg Host.Outcome.next (regWrite_syncCtrl hreq rfl)

/-! ## With a stand armed -/

theorem syncCtrlWrite_armed {s : State} {req : Req} {data : Word} (hreq : mayTry s req) (harmed : s.armed = true)
    (hstart : F.CLK_SYNC_CTRL_START.of data = 1) :
    s.syncCtrlWrite { req := req, data := data, be := 15 } = s.refuse req Reg.CLK_SYNC_CTRL causeRight := by
  have hrefused : s.syncStartRefused = true := by rw [State.syncStartRefused, harmed, Bool.true_or]
  have hok : ((hostOrCanopy req || req == .glade) && !(decide (F.CLK_SYNC_CTRL_START.of data = 1) && s.syncStartRefused)) = false := by
    rw [hstart, hrefused, decide_eq_true rfl, Bool.and_self, Bool.not_true, Bool.and_false]
  unfold State.syncCtrlWrite State.gateW
  dsimp only
  rw [hok]
  exact gate_right s req Reg.CLK_SYNC_CTRL data _ hreq (by decide)

theorem syncStart_armed {s : State} {req : Req} (hreq : mayTry s req) (harmed : s.armed = true) :
    exec (.syncStart req) s = .next (s.refuse req Reg.CLK_SYNC_CTRL causeRight) :=
  (syncStart_eq hreq).trans (congrArg _ (syncCtrlWrite_armed hreq harmed (syncStartWord_of (syncRoot_lt s)).1))

theorem syncRx_armed {s : State} (harmed : s.armed = true) (m : SyncMsg) (ms : List SyncMsg) : exec (.syncRx m ms) s = .next s :=
  congrArg Host.Outcome.next (if_pos harmed)

/-- Settles O5: START, written or commanded, is refused at the clock block's right, and SYNC is not looked at. -/
theorem noTimeSyncWhileAStandIsArmed : Obligations.NoTimeSyncWhileAStandIsArmed := by
  unfold Obligations.NoTimeSyncWhileAStandIsArmed
  intro s r data m ms harmed
  refine ⟨fun hdebug => ?_, syncRx_armed harmed m ms⟩
  have hreq : mayTry s r := not_or_of_imp hdebug
  refine ⟨fun hstart => ?_, syncStart_armed hreq harmed⟩
  exact registerWrite_refused ((regWrite_syncCtrl hreq rfl).trans (syncCtrlWrite_armed hreq harmed hstart))

end Sys2Proof.Machine
end

section
/-! SUPPORT. The clock block's shared operations (R50, R51): what they leave of its registers, and the frame of a clock command. -/

namespace Sys2Proof.Machine

/-! ## The frame -/

/-- Everything but the registers, the event arbiter, Glade's island log and the clock block's own state is as before. -/
def ClockFrame (s t : State) : Prop := t = { s with regs := t.regs, evt := t.evt, glade := t.glade, clk := t.clk }

theorem ClockFrame.refl (s : State) : ClockFrame s s := rfl

section
variable {s t : State} (h : ClockFrame s t)
include h

theorem ClockFrame.stand : t.stand = s.stand := by
  rw [show t = _ from h]

theorem ClockFrame.setRegs (m : AMap Word) : ClockFrame s { t with regs := m } := by
  unfold ClockFrame
  rw [h]

theorem ClockFrame.setClk (c : ClkSt) : ClockFrame s { t with clk := c } := by
  unfold ClockFrame
  rw [h]

theorem ClockFrame.wr (o : Nat) (v : Word) : ClockFrame s (t.wr o v) := h.setRegs _
theorem ClockFrame.put (f : Fld) (x : Nat) : ClockFrame s (t.put f x) := h.setRegs _
theorem ClockFrame.putB (f : Fld) (b : Bool) : ClockFrame s (t.putB f b) := h.setRegs _
theorem ClockFrame.bump (o n : Nat) : ClockFrame s (t.bump o n) := h.setRegs _
theorem ClockFrame.errInc (pg : Nat) : ClockFrame s (t.errInc pg) := (h.bump _ _).putB _ _
theorem ClockFrame.abandonSync : ClockFrame s t.abandonSync := ((h.putB _ _).putB _ _).setClk _

theorem ClockFrame.raise (pg bit : Nat) (ev : EvKind) : ClockFrame s (t.raise pg bit ev) := by
  have hraise := (eventOf_frame (t.putB ⟨Hdr.EVT_SUMMARY pg, bit, 1⟩ true) pg ev ev.sev none none).1
  have hclk : (t.raise pg bit ev).clk = t.clk := State.raise_clk ..
  unfold ClockFrame
  rw [hclk]
  refine Eq.trans hraise ?_
  rw [h]
  rfl

end

/-- A pair holds what its halves hold. -/
theorem rd64_congr {s t : State} {lo : Nat} (hlo : t.rd lo = s.rd lo) (hhi : t.rd (lo + 4) = s.rd (lo + 4)) :
    t.rd64 lo = s.rd64 lo := by
  unfold State.rd64
  rw [hlo, hhi]

/-! ## The trained links -/

/-- Which links are trained stands in the link pages. -/
theorem upLinks_congr {s t : State} (h : ∀ o, 0x200000 ≤ o → t.rd o = s.rd o) : t.upLinks = s.upLinks := by
  have hup : ∀ l, t.linkUp l = s.linkUp l := fun l => by
    have hstatus : t.rd (Reg.LINK_STATUS l) = s.rd (Reg.LINK_STATUS l) :=
      h (0x200000 + 0x1000 * l + 0x40) (by omega)
    unfold State.linkUp State.lstate State.get
    rw [hstatus]
  simp only [State.upLinks, hup]

/-! ## An error of the page CLK, counted and raised -/

theorem errRaised_rd (s : State) (bit : Nat) (ev : EvKind) {o : Nat} (ho : o ∉ Hdr.ERR_COUNT P.CLK :: Hdr.EVT_SUMMARY P.CLK :: evtOffs) :
    ((s.errInc P.CLK).raise P.CLK bit ev).rd o = s.rd o := by
  obtain ⟨hcount, hsummary, hevt⟩ : o ≠ Hdr.ERR_COUNT P.CLK ∧ o ≠ Hdr.EVT_SUMMARY P.CLK ∧ o ∉ evtOffs := by simpa only [List.mem_cons, not_or] using ho
  rw [raise_rd _ _ _ _ _ _ hevt hsummary, State.errInc, State.putB, rd_put_ne _ _ _ hsummary]
  exact rd_wr_ne s _ hcount

theorem errRaised_get (s : State) (bit : Nat) (ev : EvKind) {f : Fld} (hf : f.off ∉ Hdr.ERR_COUNT P.CLK :: Hdr.EVT_SUMMARY P.CLK :: evtOffs) :
    ((s.errInc P.CLK).raise P.CLK bit ev).get f = s.get f := by
  rw [State.get, errRaised_rd s bit ev hf, State.get]

theorem errRaised_flag (s : State) (bit : Nat) (ev : EvKind) {f : Fld} (hf : f.off ∉ Hdr.ERR_COUNT P.CLK :: Hdr.EVT_SUMMARY P.CLK :: evtOffs) :
    ((s.errInc P.CLK).raise P.CLK bit ev).flag f = s.flag f := by
  rw [State.flag, errRaised_get s bit ev hf, State.flag]

/-! ## A sync is abandoned, or begins -/

theorem abandonSync_norm (s : State) :
    s.abandonSync.regs = Rg.put (Rg.put s.regs F.CLK_STATUS_SYNC_BUSY 0) F.CLK_STATUS_TIME_VALID 0 := rfl

theorem abandonSync_rd (s : State) {o : Nat} (ho : o ≠ Reg.CLK_STATUS) : s.abandonSync.rd o = s.rd o := by
  rw [rd_norm, abandonSync_norm, Rg.rd_put_ne _ _ _ _ ho, Rg.rd_put_ne _ _ _ _ ho, rd_norm]

theorem abandonSync_idle (s : State) : s.abandonSync.flag F.CLK_STATUS_SYNC_BUSY = false :=
  (flag_putB_disj (s.putB F.CLK_STATUS_SYNC_BUSY false) _ _ _ (by decide) (by decide)).trans (flag_putB_same s _ _ (by decide) rfl)

theorem abandonSync_invalid (s : State) : s.abandonSync.flag F.CLK_STATUS_TIME_VALID = false :=
  flag_putB_same (s.putB F.CLK_STATUS_SYNC_BUSY false) _ _ (by decide) rfl

theorem syncBegin_norm (s : State) (root : Bool) : (s.syncBegin root).regs =
    Rg.wr (Rg.wr (Rg.wr (Rg.put (Rg.put (Rg.put (Rg.put (Rg.put s.abandonSync.regs F.CLK_STATUS_SYNC_BUSY 1) F.CLK_STATUS_IS_ROOT
      (if root then 1 else 0)) F.CLK_SYNC_INFO_HOPS 0) F.CLK_SYNC_INFO_PARENT_LINK (if root then 0xFE else 0xFF))
      F.CLK_SYNC_INFO_MISMATCH_COUNT 0) Reg.CLK_SYNC_MISM0 0) Reg.CLK_SYNC_MISM1 0) Reg.CLK_SYNC_MISM2 0 := rfl

/-- The registers that the beginning of a sync changes. -/
def syncOffs : List Nat := [Reg.CLK_STATUS, Reg.CLK_SYNC_INFO, Reg.CLK_SYNC_MISM0, Reg.CLK_SYNC_MISM1, Reg.CLK_SYNC_MISM2]

theorem syncBegin_rd (s : State) (root : Bool) : onlyRegs syncOffs s (s.syncBegin root) := fun o ho => by
  simp only [syncOffs, List.mem_cons, List.not_mem_nil, or_false, not_or] at ho
  obtain ⟨hstatus, hinfo, h0, h1, h2⟩ := ho
  rw [rd_norm, syncBegin_norm, abandonSync_norm, Rg.rd_wr_ne _ _ _ _ h2, Rg.rd_wr_ne _ _ _ _ h1, Rg.rd_wr_ne _ _ _ _ h0,
    Rg.rd_put_ne _ _ _ _ hinfo, Rg.rd_put_ne _ _ _ _ hinfo, Rg.rd_put_ne _ _ _ _ hinfo, Rg.rd_put_ne _ _ _ _ hstatus,
    Rg.rd_put_ne _ _ _ _ hstatus, Rg.rd_put_ne _ _ _ _ hstatus, Rg.rd_put_ne _ _ _ _ hstatus, rd_norm]

theorem syncBegin_upLinks (s : State) (root : Bool) : (s.syncBegin root).upLinks = s.upLinks :=
  upLinks_congr fun o ho => syncBegin_rd s root o fun hsync => by
    have hlow : ∀ o ∈ syncOffs, o < 0x200000 := by decide
    exact absurd (hlow o hsync) (Nat.not_lt.2 ho)

theorem syncBegin_syncId (s : State) (root : Bool) : (s.syncBegin root).clk.syncId = none := by
  simp only [State.syncBegin, State.abandonSync, State.wr_clk, State.put_clk, State.putB_clk]

theorem syncBegin_ftime (s : State) (root : Bool) : (s.syncBegin root).ftime = s.ftime := by
  simp only [State.syncBegin, State.abandonSync, State.wr_ftime, State.put_ftime, State.putB_ftime]

theorem syncBegin_out (s : State) (root : Bool) : (s.syncBegin root).out = s.out := by
  simp only [State.syncBegin, State.abandonSync, State.wr_out, State.put_out, State.putB_out]

/-- A sync in progress whose counter is not set. -/
structure SyncBegun (root : Bool) (t : State) : Prop where
  busy   : t.flag F.CLK_STATUS_SYNC_BUSY = true
  isRoot : t.flag F.CLK_STATUS_IS_ROOT = root
  valid  : t.flag F.CLK_STATUS_TIME_VALID = false
  hops   : t.get F.CLK_SYNC_INFO_HOPS = 0
  parent : t.get F.CLK_SYNC_INFO_PARENT_LINK = if root then 0xFE else 0xFF

theorem syncBegin_begun (s : State) (root : Bool) : SyncBegun root (s.syncBegin root) := by
  constructor <;>
    simp (disch := decide) only [flag_norm, get_norm, syncBegin_norm, abandonSync_norm, Rg.get_wr_ne, Rg.get_put_disj, Rg.get_put_same]
  all_goals cases root <;> rfl

/-- What it says stands in the registers. -/
theorem SyncBegun.congr {root : Bool} {t u : State} (h : SyncBegun root t) (hregs : u.regs = t.regs) : SyncBegun root u where
  busy := (flag_congr hregs _).trans h.busy
  isRoot := (flag_congr hregs _).trans h.isRoot
  valid := (flag_congr hregs _).trans h.valid
  hops := (get_congr hregs _).trans h.hops
  parent := (get_congr hregs _).trans h.parent

end Sys2Proof.Machine
end

section
/-! START of a time sync by the host (R50): as root and as member. -/

namespace Sys2Proof.Machine

/-! ## The clock block's part -/

/-- The root's counter is set, and its time goes out. -/
def State.rootSends (s : State) (id : Word) (base : Dword) : State :=
  let s := { s with ftime := base, clk := { s.clk with syncId := some id, counterSet := true } }
  s.sendSync s.upLinks id 0

theorem rootSends_out (s : State) (id : Word) (base : Dword) :
    (s.rootSends id base).out = (s.upLinks.map fun l => Out.sync l id 0 base).reverse ++ s.out := by
  have hup : { s with ftime := base, clk := { s.clk with syncId := some id, counterSet := true } }.upLinks = s.upLinks :=
    upLinks_congr fun o _ => rd_congr rfl o
  unfold State.rootSends
  dsimp only
  rw [hup]
  rfl

theorem rootSends_leaves (s : State) (id : Word) (base : Dword) : (s.rootSends id base).regs = s.regs ∧ (s.rootSends id base).ftime = base ∧
    (s.rootSends id base).clk.syncId = some id := ⟨rfl, rfl, rfl⟩

section
variable {s : State} (hidle : s.flag F.CLK_STATUS_SYNC_BUSY = false)
include hidle

theorem syncStart_asMember (hroot : s.flag F.CLK_SYNC_CTRL_ROOT = false) : s.syncStart = s.syncBegin false := by
  simp only [State.syncStart, hidle, hroot, Bool.false_eq_true, if_false]

/-- The root takes SYNC_BASE as its time and sends it on every trained link. -/
theorem syncStart_asRoot (hroot : s.flag F.CLK_SYNC_CTRL_ROOT = true) :
    s.syncStart = (s.syncBegin true).rootSends (s.rd Reg.CLK_SYNC_ROOT_ID) (s.rd64 Reg.CLK_SYNC_BASE_LO) := by
  have hid : (s.syncBegin true).rd Reg.CLK_SYNC_ROOT_ID = s.rd Reg.CLK_SYNC_ROOT_ID := syncBegin_rd s true _ (by decide)
  have hbase : (s.syncBegin true).rd64 Reg.CLK_SYNC_BASE_LO = s.rd64 Reg.CLK_SYNC_BASE_LO :=
    rd64_congr (syncBegin_rd s true _ (by decide)) (syncBegin_rd s true _ (by decide))
  simp only [State.syncStart, State.rootSends, hidle, hroot, Bool.false_eq_true, if_false, if_true, hid, hbase]

end

/-! ## The host's write -/

/-- The state that the host's START finds at the clock block: the write is taken, and ROOT is as it was. -/
def State.starting (s : State) : State :=
  (s.taken .host Reg.CLK_SYNC_CTRL (syncStartWord (s.get F.CLK_SYNC_CTRL_ROOT))).put F.CLK_SYNC_CTRL_ROOT (s.get F.CLK_SYNC_CTRL_ROOT)

theorem starting_rd (s : State) {o : Nat} (ho : 0x3040 ≤ o ∧ (o < 0x8000 ∨ 0x100000 ≤ o)) (hctrl : o ≠ Reg.CLK_SYNC_CTRL) :
    s.starting.rd o = s.rd o := by
  have hevt : o ∉ evtOffs := by
    simp only [evtOffs, List.mem_cons, List.not_mem_nil, or_false]
    omega
  have howner : o ≠ Hdr.OWNER (pageOf Reg.CLK_SYNC_CTRL) := by
    have : Hdr.OWNER (pageOf Reg.CLK_SYNC_CTRL) < 0x3040 := by decide
    omega
  exact (rd_put_ne _ _ _ hctrl).trans (taken_rd s .host Reg.CLK_SYNC_CTRL _ hevt (by omega) howner)

theorem starting_flag (s : State) {f : Fld} (hf : f.off = Reg.CLK_STATUS) : s.starting.flag f = s.flag f := by
  simp only [State.flag, State.get, hf, starting_rd s (o := Reg.CLK_STATUS) (by decide) (by decide)]

theorem starting_root (s : State) : s.starting.flag F.CLK_SYNC_CTRL_ROOT = s.flag F.CLK_SYNC_CTRL_ROOT := by
  have hget : s.starting.get F.CLK_SYNC_CTRL_ROOT = s.get F.CLK_SYNC_CTRL_ROOT :=
    (get_put_same _ _ _ (by decide)).trans (Nat.mod_eq_of_lt (syncRoot_lt s))
  rw [State.flag, hget, State.flag]

theorem starting_out (s : State) : s.starting.out = s.out := State.taken_out ..
theorem starting_ftime (s : State) : s.starting.ftime = s.ftime := State.taken_ftime ..

theorem starting_upLinks (s : State) : s.starting.upLinks = s.upLinks :=
  upLinks_congr fun o ho => starting_rd s ⟨by omega, .inr (by omega)⟩ fun hctrl => by
    rw [hctrl] at ho
    exact absurd ho (by decide)

variable {s : State}

/-- Accepted outside OFF with no stand armed. -/
theorem syncStart_host (habs : s.absent P.CLK = false) (harmed : s.armed = false) (hon : s.fn P.CLK ≠ fnOff) :
    ∃ before, exec (.syncStart .host) s = .next (s.starting.syncStart.trackWrite .host Reg.CLK_SYNC_CTRL before) := by
  obtain ⟨hstart, hroot⟩ := syncStartWord_of (syncRoot_lt s)
  have hok : ((hostOrCanopy .host || Req.host == .glade) && !(decide (F.CLK_SYNC_CTRL_START.of (syncStartWord
      (s.get F.CLK_SYNC_CTRL_ROOT)) = 1) && s.syncStartRefused)) = true := by
    rw [State.syncStartRefused, harmed, decide_eq_false hon, Bool.or_false, Bool.and_false]
    rfl
  have hgate := gateW_host (s := s) (off := Reg.CLK_SYNC_CTRL) (data := syncStartWord (s.get F.CLK_SYNC_CTRL_ROOT)) (eff := fun t =>
    let t := t.put F.CLK_SYNC_CTRL_ROOT (F.CLK_SYNC_CTRL_ROOT.of (syncStartWord (s.get F.CLK_SYNC_CTRL_ROOT)))
    if F.CLK_SYNC_CTRL_START.of (syncStartWord (s.get F.CLK_SYNC_CTRL_ROOT)) = 1 then t.syncStart else t) hok (by decide) (by decide) habs
  dsimp only at hgate
  rw [hroot, if_pos hstart] at hgate
  exact ⟨_, (syncStart_eq (.inl Req.noConfusion)).trans (congrArg _ (by unfold State.syncCtrlWrite; rw [hroot]; exact hgate))⟩

theorem syncStart_root (habs : s.absent P.CLK = false) (harmed : s.armed = false) (hon : s.fn P.CLK ≠ fnOff)
    (hidle : s.flag F.CLK_STATUS_SYNC_BUSY = false) (hroot : s.flag F.CLK_SYNC_CTRL_ROOT = true) :
    ∃ t, exec (.syncStart .host) s = .next t ∧ SyncBegun true t ∧ t.ftime = s.rd64 Reg.CLK_SYNC_BASE_LO ∧
      t.clk.syncId = some (s.rd Reg.CLK_SYNC_ROOT_ID) ∧
      t.out = (s.upLinks.map fun l => Out.sync l (s.rd Reg.CLK_SYNC_ROOT_ID) 0 (s.rd64 Reg.CLK_SYNC_BASE_LO)).reverse ++ s.out := by
  obtain ⟨before, hexec⟩ := syncStart_host habs harmed hon
  have hbase : s.starting.rd64 Reg.CLK_SYNC_BASE_LO = s.rd64 Reg.CLK_SYNC_BASE_LO :=
    rd64_congr (starting_rd s (by decide) (by decide)) (starting_rd s (by decide) (by decide))
  rw [syncStart_asRoot ((starting_flag s rfl).trans hidle) ((starting_root s).trans hroot), hbase,
    starting_rd s (o := Reg.CLK_SYNC_ROOT_ID) (by decide) (by decide)] at hexec
  have hbegun := syncBegin_begun s.starting true
  have hup := (syncBegin_upLinks s.starting true).trans (starting_upLinks s)
  have hout := (syncBegin_out s.starting true).trans (starting_out s)
  generalize s.starting.syncBegin true = u at hexec hbegun hup hout
  obtain ⟨hregs, hftime, hid⟩ := rootSends_leaves u (s.rd Reg.CLK_SYNC_ROOT_ID) (s.rd64 Reg.CLK_SYNC_BASE_LO)
  refine ⟨_, hexec, hbegun.congr ((trackWrite_regs ..).trans hregs), ?_, ?_, ?_⟩
  · rw [State.trackWrite_ftime, hftime]
  · rw [State.trackWrite_clk, hid]
  · rw [State.trackWrite_out, rootSends_out, hup, hout]

theorem syncStart_member (habs : s.absent P.CLK = false) (harmed : s.armed = false) (hon : s.fn P.CLK ≠ fnOff)
    (hidle : s.flag F.CLK_STATUS_SYNC_BUSY = false) (hroot : s.flag F.CLK_SYNC_CTRL_ROOT = false) :
    ∃ t, exec (.syncStart .host) s = .next t ∧ SyncBegun false t ∧ t.clk.syncId = none ∧ t.ftime = s.ftime ∧ t.out = s.out := by
  obtain ⟨before, hexec⟩ := syncStart_host habs harmed hon
  rw [syncStart_asMember ((starting_flag s rfl).trans hidle) ((starting_root s).trans hroot)] at hexec
  refine ⟨_, hexec, (syncBegin_begun s.starting false).congr (trackWrite_regs ..), ?_, ?_, ?_⟩
  · rw [State.trackWrite_clk, syncBegin_syncId]
  · rw [State.trackWrite_ftime, syncBegin_ftime, starting_ftime]
  · rw [State.trackWrite_out, syncBegin_out, starting_out]

/-- The record of the refusal names the host and CAUSE 3. -/
theorem syncStart_refusal (harmed : s.armed = true) : ∃ t, exec (.syncStart .host) s = .next t ∧
    t.rd Reg.ARB_REFUSED_INFO = BitVec.ofNat 32 (3 + 65536 * 3) ∧ t = { s with regs := t.regs } := by
  refine ⟨_, syncStart_armed (.inl Req.noConfusion) harmed, ?_, rfl⟩
  unfold State.refuse
  rw [rd_norm, errInc_norm]
  simp (disch := decide) only [wr_norm, Rg.rd_put_ne, Rg.rd_wr_ne, Rg.rd_wr_same]
  rfl

end Sys2Proof.Machine
end

section
/-! SYNC, CHECK and the end of a time sync (R50, R51): one lemma for each part of O12. -/

namespace Sys2Proof.Machine

/-! ## SYNC -/

/-- The parent's message gives the member its time. -/
def State.parentTaken (s : State) (m : SyncMsg) : State :=
  ({ s with ftime := m.time + BitVec.ofNat 64 (s.get (F.LINK_LAT_LAMBDA_RX m.link.val)),
            clk := { s.clk with syncId := some m.rootId, counterSet := true } }.put F.CLK_SYNC_INFO_HOPS (m.hops.toNat + 1)).put
    F.CLK_SYNC_INFO_PARENT_LINK m.link.val

theorem takeParent_eq (s : State) (m : SyncMsg) : s.takeParent m =
    (s.parentTaken m).sendSync ((s.parentTaken m).upLinks.filter fun k => k ≠ m.link.val) m.rootId (m.hops.toNat + 1) := rfl

theorem parentTaken_rd (s : State) (m : SyncMsg) : onlyRegs [Reg.CLK_SYNC_INFO] s (s.parentTaken m) := fun o ho => by
  have hinfo : o ≠ Reg.CLK_SYNC_INFO := by simpa using ho
  exact (rd_put_ne _ _ _ hinfo).trans ((rd_put_ne _ _ _ hinfo).trans (rd_congr rfl o))

theorem parentTaken_upLinks (s : State) (m : SyncMsg) : (s.parentTaken m).upLinks = s.upLinks :=
  upLinks_congr fun o ho => parentTaken_rd s m o fun hinfo => by
    rw [List.mem_singleton.1 hinfo] at ho
    exact absurd ho (by decide)

theorem parentTaken_info (s : State) {m : SyncMsg} (hhops : m.hops.toNat < 63) :
    (s.parentTaken m).get F.CLK_SYNC_INFO_HOPS = m.hops.toNat + 1 ∧ (s.parentTaken m).get F.CLK_SYNC_INFO_PARENT_LINK = m.link.val := by
  have hlink := m.link.isLt
  unfold State.parentTaken
  rw [get_put_disj _ _ _ _ (by decide) (by decide), get_put_same _ _ _ (by decide), get_put_same _ _ _ (by decide)]
  exact ⟨Nat.mod_eq_of_lt (show m.hops.toNat + 1 < 64 by omega), Nat.mod_eq_of_lt (show m.link.val < 256 by omega)⟩

variable {s : State}

/-- A member that waits takes its parent from the one message that came. -/
theorem syncRx_waiting {m : SyncMsg} (hbusy : s.flag F.CLK_STATUS_SYNC_BUSY = true) (hwait : s.clk.syncId = none)
    (harmed : s.armed = false) (hup : s.linkUp m.link.val = true) : exec (.syncRx m []) s = .next (s.takeParent m) := by
  show Host.Outcome.next (s.syncRx [m]) = _
  simp [State.syncRx, State.takeFrom, lowestRoot, bestSync, hbusy, hwait, harmed, hup]

theorem syncRx_takes {m : SyncMsg} (hbusy : s.flag F.CLK_STATUS_SYNC_BUSY = true) (hwait : s.clk.syncId = none)
    (harmed : s.armed = false) (hup : s.linkUp m.link.val = true) (hhops : m.hops.toNat < 63) :
    ∃ t, exec (.syncRx m []) s = .next t ∧ t.ftime = m.time + BitVec.ofNat 64 (s.get (F.LINK_LAT_LAMBDA_RX m.link.val)) ∧
      t.clk = { s.clk with syncId := some m.rootId, counterSet := true } ∧
      t.get F.CLK_SYNC_INFO_HOPS = m.hops.toNat + 1 ∧ t.get F.CLK_SYNC_INFO_PARENT_LINK = m.link.val ∧
      t.out = ((s.upLinks.filter (fun k => k ≠ m.link.val)).map (fun l => Out.sync l m.rootId (m.hops.toNat + 1) t.ftime)).reverse ++ s.out ∧
      onlyRegs [Reg.CLK_SYNC_INFO] s t ∧ t = { s with regs := t.regs, ftime := t.ftime, clk := t.clk, out := t.out } := by
  obtain ⟨hhop, hparent⟩ := parentTaken_info s hhops
  refine ⟨_, (syncRx_waiting hbusy hwait harmed hup).trans (congrArg _ (takeParent_eq s m)), rfl, rfl, hhop, hparent, ?_,
    parentTaken_rd s m, rfl⟩
  rw [parentTaken_upLinks]
  rfl

/-! ## CHECK -/

/-- The sync goes on while CHECK is not sent, or a trained link is not compared. -/
theorem syncEnd_goesOn (h : s.clk.checkSent = false ∨ s.upLinks.all (fun l => s.clk.compared.contains l) = false) : s.syncEnd = s := by
  refine if_neg (Bool.eq_false_iff.1 ?_)
  rcases h with h | h
  · rw [h, Bool.false_and]
  · rw [h, Bool.and_false]

theorem upLinks_setClk (s : State) (c : ClkSt) (o : List Out) : { s with out := o, clk := c }.upLinks = s.upLinks :=
  upLinks_congr fun o _ => rd_congr rfl o

theorem checkSend_sends {id : Word} (hbusy : s.flag F.CLK_STATUS_SYNC_BUSY = true) (hset : s.clk.counterSet = true)
    (hunsent : s.clk.checkSent = false) (hid : s.clk.syncId = some id)
    (hleft : s.upLinks.all (fun l => s.clk.compared.contains l) = false) :
    exec .checkSend s = .next { s with out := (s.upLinks.map (fun l => Out.check l id s.ftime)).reverse ++ s.out,
                                       clk := { s.clk with checkSent := true } } := by
  have hdue : (s.flag F.CLK_STATUS_SYNC_BUSY && s.clk.counterSet && !s.clk.checkSent) = true := by rw [hbusy, hset, hunsent]; rfl
  refine (if_pos hdue).trans ?_
  rw [hid, syncEnd_goesOn (.inr ?_)]
  · rfl
  · rw [State.emitAll, upLinks_setClk]
    exact hleft

/-- A link's CHECK is compared. -/
def State.compare (s : State) (l : Nat) : State := { s with clk := { s.clk with compared := l :: s.clk.compared } }

/-- A CHECK that differs from this module's time: the link's bit, and the count. -/
def State.mismatch (s : State) (l : Nat) : State := (s.putB (mismFld l) true).bumpF F.CLK_SYNC_INFO_MISMATCH_COUNT 1

theorem mismatch_flag (s : State) (l : Nat) : (s.mismatch l).flag (mismFld l) = true := by
  have hinfo : (mismFld l).off ≠ Reg.CLK_SYNC_INFO := by
    show 0x306C + 4 * (l / 32) ≠ 0x3050
    omega
  have hbit : (mismFld l).lo + (mismFld l).w ≤ 32 := by
    show l % 32 + 1 ≤ 32
    omega
  unfold State.mismatch State.bumpF State.flag
  rw [get_put_off _ _ _ _ hinfo]
  exact flag_putB_same s (mismFld l) true hbit rfl

theorem mismatch_count {l : Nat} (h : s.get F.CLK_SYNC_INFO_MISMATCH_COUNT < 127) :
    (s.mismatch l).get F.CLK_SYNC_INFO_MISMATCH_COUNT = s.get F.CLK_SYNC_INFO_MISMATCH_COUNT + 1 := by
  have hother : F.CLK_SYNC_INFO_MISMATCH_COUNT.off ≠ (mismFld l).off := by
    show 0x3050 ≠ 0x306C + 4 * (l / 32)
    omega
  unfold State.mismatch State.bumpF
  rw [get_put_same _ _ _ (by decide), State.putB, get_put_off _ _ _ _ hother]
  show min _ 127 % 128 = _
  omega

section
variable {l : Fin 96} {id : Word} {time : Dword} (hbusy : s.flag F.CLK_STATUS_SYNC_BUSY = true) (hup : s.linkUp l.val = true)
  (hid : s.clk.syncId = some id) (hnew : s.clk.compared.contains l.val = false)
include hbusy hup hid hnew

/-- The first CHECK of this root on a link is compared, and may end the sync. -/
theorem checkRx_compares : exec (.checkRx l id time) s = .next
    ((if time + BitVec.ofNat 64 (s.get (F.LINK_LAT_LAMBDA_RX l.val)) ≠ s.ftime then s.mismatch l.val else s).compare l.val).syncEnd := by
  show execCheckRx l id time s = _
  have hhere : (s.flag F.CLK_STATUS_SYNC_BUSY && s.linkUp l.val) = true := by rw [hbusy, hup]; rfl
  simp only [execCheckRx, hhere, hid, hnew, if_true, Bool.false_eq_true, if_false, decide_eq_true_eq]
  rfl

theorem checkRx_equal (heq : time + BitVec.ofNat 64 (s.get (F.LINK_LAT_LAMBDA_RX l.val)) = s.ftime) (hunsent : s.clk.checkSent = false) :
    exec (.checkRx l id time) s = .next { s with clk := { s.clk with compared := l.val :: s.clk.compared } } := by
  rw [checkRx_compares hbusy hup hid hnew, if_neg (not_not.2 heq)]
  exact congrArg _ (syncEnd_goesOn (.inl hunsent))

theorem checkRx_differs (hne : time + BitVec.ofNat 64 (s.get (F.LINK_LAT_LAMBDA_RX l.val)) ≠ s.ftime) (hunsent : s.clk.checkSent = false)
    (hroom : s.get F.CLK_SYNC_INFO_MISMATCH_COUNT < 127) :
    ∃ t, exec (.checkRx l id time) s = .next t ∧ t.flag (mismFld l.val) = true ∧
      t.get F.CLK_SYNC_INFO_MISMATCH_COUNT = s.get F.CLK_SYNC_INFO_MISMATCH_COUNT + 1 ∧ t = { s with regs := t.regs, clk := t.clk } := by
  refine ⟨(s.mismatch l.val).compare l.val, ?_, mismatch_flag s l.val, mismatch_count hroom, rfl⟩
  rw [checkRx_compares hbusy hup hid hnew, if_pos hne]
  exact congrArg _ (syncEnd_goesOn (.inl hunsent))

end

/-! ## The end -/

/-- The sync is over, with none mismatched. -/
def State.synced (s : State) (id : Word) : State :=
  ((s.abandonSync.putB F.CLK_STATUS_TIME_VALID true).wr Reg.CLK_SYNC_RESULT id).putB F.CLK_STATUS_HOLDOVER_EXPIRED false

theorem syncEnd_synced {id : Word} (hsent : s.clk.checkSent = true) (hall : s.upLinks.all (fun l => s.clk.compared.contains l) = true)
    (hid : s.clk.syncId = some id) (hnone : s.get F.CLK_SYNC_INFO_MISMATCH_COUNT = 0) :
    s.syncEnd = (s.synced id).raise P.CLK B.CLK_SYNC_DONE Evn.CLK_SYNC_DONE := by
  have hdone : (s.clk.checkSent && s.upLinks.all (fun l => s.clk.compared.contains l)) = true := by rw [hsent, hall]; rfl
  simp only [State.syncEnd, hdone, hnone, hid, if_true, Option.getD_some, State.synced]

theorem synced_norm (s : State) (id : Word) : (s.synced id).regs =
    Rg.put (Rg.wr (Rg.put s.abandonSync.regs F.CLK_STATUS_TIME_VALID 1) Reg.CLK_SYNC_RESULT id) F.CLK_STATUS_HOLDOVER_EXPIRED 0 := rfl

theorem checkRx_last {l : Fin 96} {id : Word} {time : Dword} (hbusy : s.flag F.CLK_STATUS_SYNC_BUSY = true)
    (hup : s.linkUp l.val = true) (hid : s.clk.syncId = some id) (hnew : s.clk.compared.contains l.val = false)
    (heq : time + BitVec.ofNat 64 (s.get (F.LINK_LAT_LAMBDA_RX l.val)) = s.ftime) (hsent : s.clk.checkSent = true)
    (hnone : s.get F.CLK_SYNC_INFO_MISMATCH_COUNT = 0) (hall : s.upLinks.all (fun k => (l.val :: s.clk.compared).contains k) = true) :
    ∃ t, exec (.checkRx l id time) s = .next t ∧ t.flag F.CLK_STATUS_TIME_VALID = true ∧ t.flag F.CLK_STATUS_SYNC_BUSY = false ∧
      t.rd Reg.CLK_SYNC_RESULT = id ∧ t.clk.syncId = none ∧ t.summary P.CLK B.CLK_SYNC_DONE = true ∧
      t = { s with regs := t.regs, evt := t.evt, glade := t.glade, clk := t.clk } := by
  have hup' : (s.compare l.val).upLinks = s.upLinks := upLinks_setClk s _ _
  have hend := syncEnd_synced (s := s.compare l.val) hsent (by rw [hup']; exact hall) hid hnone
  have hframe : ClockFrame s ((s.compare l.val).synced id) := ((((ClockFrame.refl s).setClk _).abandonSync.putB _ _).wr _ _).putB _ _
  refine ⟨((s.compare l.val).synced id).raise P.CLK B.CLK_SYNC_DONE Evn.CLK_SYNC_DONE, ?_, ?_, ?_, ?_, ?_,
    raise_summary _ _ _ _ _ _ (by decide) (by decide), hframe.raise ..⟩
  · rw [checkRx_compares hbusy hup hid hnew, if_neg (not_not.2 heq), hend]
  · simp (disch := decide) only [flag_norm, get_raise_norm, synced_norm, Rg.get_put_disj, Rg.get_wr_ne, Rg.get_put_same]
    rfl
  · simp (disch := decide) only [flag_norm, get_raise_norm, synced_norm, abandonSync_norm, Rg.get_put_disj, Rg.get_wr_ne, Rg.get_put_same]
    rfl
  · simp (disch := decide) only [rd_norm, rd_raise_norm, synced_norm, Rg.rd_put_ne, Rg.rd_wr_same]
  · rw [State.raise_clk]
    rfl

/-- A sync that fails. -/
def State.syncFailed (s : State) : State := (s.abandonSync.put F.CLK_SYNC_INFO_PARENT_LINK 0xFF).errInc P.CLK

theorem syncTimeout_fails (hbusy : s.flag F.CLK_STATUS_SYNC_BUSY = true) :
    ∃ t, exec .syncTimeout s = .next t ∧ t.flag F.CLK_STATUS_SYNC_BUSY = false ∧ t.flag F.CLK_STATUS_TIME_VALID = false ∧
      t.get F.CLK_SYNC_INFO_PARENT_LINK = 0xFF ∧ t.clk.syncId = none ∧ t.summary P.CLK B.CLK_SYNC_MISMATCH = true ∧
      t = { s with regs := t.regs, evt := t.evt, glade := t.glade, clk := t.clk } := by
  have hframe : ClockFrame s s.syncFailed := ((ClockFrame.refl s).abandonSync.put _ _).errInc _
  refine ⟨s.syncFailed.raise P.CLK B.CLK_SYNC_MISMATCH Evn.CLK_SYNC_MISMATCH, if_pos hbusy, ?_, ?_, ?_, ?_,
    raise_summary _ _ _ _ _ _ (by decide) (by decide), hframe.raise ..⟩
  · exact (errRaised_flag _ _ _ (by decide)).trans ((flag_put_disj (by decide) (by decide)).trans (abandonSync_idle s))
  · exact (errRaised_flag _ _ _ (by decide)).trans ((flag_put_disj (by decide) (by decide)).trans (abandonSync_invalid s))
  · exact (errRaised_get _ _ _ (by decide)).trans (get_put_same _ _ _ (by decide))
  · rw [State.raise_clk]
    rfl

theorem syncCommands_idle (hidle : s.flag F.CLK_STATUS_SYNC_BUSY = false) : exec .syncTimeout s = .next s ∧ exec .checkSend s = .next s := by
  refine ⟨if_neg (ne_true_of_eq_false hidle), if_neg (ne_true_of_eq_false ?_)⟩
  rw [hidle, Bool.false_and, Bool.false_and]

/-- Settles O12: START, SYNC, CHECK, the last comparison and the timeout. -/
theorem timeSyncCommands : Obligations.TimeSyncCommands := by
  unfold Obligations.TimeSyncCommands
  intro s
  refine ⟨fun habs harmed hon hidle => ⟨fun hroot => ?_, fun hroot => ?_⟩, syncStart_refusal, fun m => syncRx_takes,
    fun m harmed => syncRx_armed harmed m [], fun id => checkSend_sends, fun l id time hbusy hup hid hnew =>
      ⟨checkRx_equal hbusy hup hid hnew, checkRx_differs hbusy hup hid hnew, checkRx_last hbusy hup hid hnew⟩,
    syncTimeout_fails, syncCommands_idle⟩
  · obtain ⟨t, hexec, hbegun, hftime, hid, hout⟩ := syncStart_root habs harmed hon hidle hroot
    exact ⟨t, hexec, hbegun.busy, hbegun.isRoot, hbegun.valid, hftime, hid, hbegun.hops, hout⟩
  · obtain ⟨t, hexec, hbegun, hid, hftime, hout⟩ := syncStart_member habs harmed hon hidle hroot
    exact ⟨t, hexec, hbegun.busy, hbegun.isRoot, hbegun.valid, hbegun.parent, hid, hftime, hout⟩

end Sys2Proof.Machine
end

section
/-! SUPPORT. Function states, pace faults and links in take-down, as the clock commands meet them (R23, R57, R175). -/

namespace Sys2Proof.Machine

/-! ## STATE -/

theorem setFn_rd (s : State) {pg st o : Nat} (hstate : o ≠ pg + 0xC) (hsummary : o ≠ pg + 0x14) : (s.setFn pg st).rd o = s.rd o := by
  unfold State.setFn
  split
  · rfl
  · rw [State.putB, rd_put_ne _ _ _ hsummary, rd_put_ne _ _ _ hstate]

theorem setFn_get_disj (s : State) {pg st : Nat} {f : Fld} (hdisj : (Hdr.FNSTATE pg).disj f = true) (hsummary : f.off ≠ pg + 0x14) :
    (s.setFn pg st).get f = s.get f := by
  unfold State.setFn
  split
  · rfl
  · rw [State.putB, get_put_off _ _ _ _ hsummary, get_put_disj _ (Hdr.FNSTATE pg) _ _ (show 0 + 3 ≤ 32 by decide) hdisj]

theorem setFn_fnReg (s : State) {pg st : Nat} (hst : st < 8) : (s.setFn pg st).fnReg pg = st := by
  unfold State.setFn
  split
  · assumption
  · have hoff : (Hdr.FNSTATE pg).off ≠ Hdr.EVT_SUMMARY pg := by
      show pg + 0xC ≠ pg + 0x14
      omega
    rw [State.fnReg, State.putB, get_put_off _ _ _ _ hoff, get_put_same _ _ _ (show 0 + 3 ≤ 32 by decide)]
    exact Nat.mod_eq_of_lt hst

theorem setFn_only (s : State) (pg st : Nat) : s.setFn pg st = { s with regs := (s.setFn pg st).regs } := by
  unfold State.setFn
  split <;> rfl

/-! ## Pace faults -/

theorem paceFault_unarmed {s : State} (harmed : s.armed = false) (cause detail : Nat) : s.paceFault cause detail = s :=
  if_pos (congrArg not harmed)

/-- With a stand armed and group epochs running the fault is held for the end of the epoch. -/
def State.eoeHeld (s : State) (cause : Nat) : State :=
  { s with stand := if s.armed && s.stand.epochs then { s.stand with eoe := s.stand.eoe ++ [⟨cause, 0⟩] } else s.stand }

theorem paceFaultEoe_eq (s : State) (cause : Nat) : s.paceFaultEoe cause = s.eoeHeld cause := by
  unfold State.paceFaultEoe State.eoeHeld
  cases s.armed <;> cases s.stand.epochs <;> rfl

theorem eoeHeld_unarmed {s : State} (harmed : s.armed = false) (cause : Nat) : s.eoeHeld cause = s := by
  rw [State.eoeHeld, harmed, Bool.false_and, if_neg Bool.false_ne_true]

/-! ## A link goes off -/

/-- The registers of a link's page. -/
def LinkPage (l o : Nat) : Prop := 0x200000 + 0x1000 * l ≤ o ∧ o < 0x201000 + 0x1000 * l

theorem linkPage_mem {l k : Nat} (hk : k < 0x1000) : LinkPage l (P.LINK l + k) := by
  show 0x200000 + 0x1000 * l ≤ 0x200000 + 0x1000 * l + k ∧ 0x200000 + 0x1000 * l + k < 0x201000 + 0x1000 * l
  omega

theorem linkOff_rd (s : State) {l o : Nat} (ho : ¬ LinkPage l o) : (s.linkOff l).rd o = s.rd o := by
  have hne : ∀ k < 0x1000, o ≠ P.LINK l + k := fun k hk heq => ho (heq ▸ linkPage_mem hk)
  unfold State.linkOff State.setL
  rw [setFn_rd _ (hne _ (by decide)) (hne _ (by decide)), rd_put_ne _ _ _ (hne 0x40 (by decide)), State.putB,
    rd_put_ne _ _ _ (hne 0xC (by decide))]
  rfl

theorem linkOff_off (s : State) (l : Nat) : (s.linkOff l).lstate l = lsOff ∧ (s.linkOff l).fnReg (P.LINK l) = fnOff ∧
    (s.linkOff l).get (F.LINK_STATUS_FAIL_CAUSE l) = s.get (F.LINK_STATUS_FAIL_CAUSE l) := by
  have hstate : Reg.LINK_STATUS l ≠ (Hdr.FNSTATE (P.LINK l)).off := by
    show P.LINK l + 0x40 ≠ P.LINK l + 0xC
    omega
  have hsummary : Reg.LINK_STATUS l ≠ P.LINK l + 0x14 := by
    show P.LINK l + 0x40 ≠ P.LINK l + 0x14
    omega
  have hfn : ∀ lo w, (Hdr.FNSTATE (P.LINK l)).disj ⟨Reg.LINK_STATUS l, lo, w⟩ = true := fun lo w => by
    rw [Fld.disj, decide_eq_true (Ne.symm hstate), Bool.true_or, Bool.true_or]
  have hbits : 0 + 4 ≤ 32 := by decide
  have hcause : (F.LINK_STATUS_LSTATE l).disj (F.LINK_STATUS_FAIL_CAUSE l) = true := by
    have hapart : decide (0 + 4 ≤ 8) = true := by decide
    rw [Fld.disj, hapart, Bool.or_true, Bool.true_or]
  unfold State.linkOff State.setL
  refine ⟨?_, setFn_fnReg _ (by decide), ?_⟩
  · rw [State.lstate, setFn_get_disj _ (hfn 0 4) hsummary, get_put_same _ _ _ hbits]
    rfl
  · rw [setFn_get_disj _ (hfn 8 4) hsummary, get_put_disj _ _ _ _ hbits hcause, State.putB, get_put_off _ _ _ _ hstate]
    rfl

/-! ## Every link in turn -/

/-- What the links' turns leave, when a link's turn touches its own page alone: each page is as its own turn made it from what it was. -/
theorem foldl_linkPages {f : State → Nat → State} (hf : ∀ s l o, ¬ LinkPage l o → (f s l).rd o = s.rd o) (s : State) (n : Nat) :
    (∀ o, (∀ l < n, ¬ LinkPage l o) → ((List.range n).foldl f s).rd o = s.rd o) ∧
      ∀ l < n, ∃ u, (∀ o, LinkPage l o → u.rd o = s.rd o) ∧ ∀ o, LinkPage l o → ((List.range n).foldl f s).rd o = (f u l).rd o := by
  induction n with
  | zero => exact ⟨fun o _ => rfl, fun l hl => absurd hl (Nat.not_lt_zero l)⟩
  | succ n ih =>
    obtain ⟨hout, hpages⟩ := ih
    rw [List.range_succ, List.foldl_append, List.foldl_cons, List.foldl_nil]
    have hother : ∀ k l o, k ≠ l → LinkPage k o → ¬ LinkPage l o := by
      unfold LinkPage
      omega
    refine ⟨fun o ho => ?_, fun l hl => ?_⟩
    · rw [hf _ _ _ (ho n (Nat.lt_succ_self n))]
      exact hout o fun l hl => ho l (Nat.lt_succ_of_lt hl)
    · rcases Nat.lt_succ_iff_lt_or_eq.1 hl with hl | rfl
      · obtain ⟨u, hu, hturn⟩ := hpages l hl
        exact ⟨u, hu, fun o ho => (hf _ _ _ (hother l n o (Nat.ne_of_lt hl) ho)).trans (hturn o ho)⟩
      · exact ⟨_, fun o ho => hout o fun k hk => hother l k o (Nat.ne_of_gt hk) ho, fun o _ => rfl⟩

end Sys2Proof.Machine
end

section
/-! The reference and the root PLL (R54 to R61): one lemma for each part of O11. -/

namespace Sys2Proof.Machine

variable {s : State}

/-! ## REF_LOST -/

/-- The module runs on from the root PLL alone. -/
def State.holdoverBegins (s : State) : State :=
  let s := ((s.putB F.CLK_STATUS_HOLDOVER true).putB F.CLK_STATUS_PLL_LOCK false).putB F.CLK_STATUS_REF_PRESENT false
  let s := (s.wr Reg.CLK_HOLDOVER_TIME 0).bump Reg.CLK_REF_LOSS_COUNT 1
  { s with clk := { s.clk with holdStart := s.now, slewing := false } }.abandonSync

theorem holdoverBegins_norm (s : State) : s.holdoverBegins.regs =
    Rg.put (Rg.put ((((((s.putB F.CLK_STATUS_HOLDOVER true).putB F.CLK_STATUS_PLL_LOCK false).putB F.CLK_STATUS_REF_PRESENT false).wr
      Reg.CLK_HOLDOVER_TIME 0).bump Reg.CLK_REF_LOSS_COUNT 1).regs) F.CLK_STATUS_SYNC_BUSY 0) F.CLK_STATUS_TIME_VALID 0 := rfl

theorem holdoverBegins_rd (s : State) : onlyRegs [Reg.CLK_STATUS, Reg.CLK_HOLDOVER_TIME, Reg.CLK_REF_LOSS_COUNT] s s.holdoverBegins :=
  fun o ho => by
    simp only [List.mem_cons, List.not_mem_nil, or_false, not_or] at ho
    obtain ⟨hstatus, htime, hcount⟩ := ho
    rw [rd_norm, holdoverBegins_norm, Rg.rd_put_ne _ _ _ _ hstatus, Rg.rd_put_ne _ _ _ _ hstatus, bump_norm, Rg.rd_wr_ne _ _ _ _ hcount,
      wr_norm, Rg.rd_wr_ne _ _ _ _ htime, putB_norm, Rg.rd_put_ne _ _ _ _ hstatus, putB_norm, Rg.rd_put_ne _ _ _ _ hstatus, putB_norm,
      Rg.rd_put_ne _ _ _ _ hstatus, rd_norm]

theorem holdoverBegins_frame (s : State) : ClockFrame s s.holdoverBegins :=
  (((((((ClockFrame.refl s).putB _ _).putB _ _).putB _ _).wr _ _).bump _ _).setClk _).abandonSync

/-- With no stand armed there is no fault; with a step executing it waits for the end of the epoch. -/
theorem refLostFault_eq (h : s.armed = false ∨ s.stepActive = true) :
    (if s.stepActive then s.paceFaultEoe causeRefLost else s.paceFault causeRefLost) = s.eoeHeld causeRefLost := by
  rcases h with harmed | hstep
  · rw [paceFaultEoe_eq, eoeHeld_unarmed harmed, paceFault_unarmed harmed, ite_self]
  · rw [if_pos hstep, paceFaultEoe_eq]

/-- Holdover begins and is raised. -/
def State.refLost (s : State) : State := s.holdoverBegins.raise P.CLK B.CLK_REF_LOST Evn.CLK_REF_LOST

theorem refLost_rd (s : State) : onlyRegsEvt [Reg.CLK_STATUS, Reg.CLK_HOLDOVER_TIME, Reg.CLK_REF_LOSS_COUNT, Hdr.EVT_SUMMARY P.CLK] s
    s.refLost := fun o ho hevt => by
  simp only [List.mem_cons, List.not_mem_nil, or_false, not_or] at ho
  obtain ⟨hstatus, htime, hcount, hsummary⟩ := ho
  rw [State.refLost, raise_rd _ _ _ _ _ _ hevt hsummary]
  exact holdoverBegins_rd s o (by simp only [List.mem_cons, List.not_mem_nil, or_false, not_or]; exact ⟨hstatus, htime, hcount⟩)

theorem refLost_frame (s : State) : ClockFrame s s.refLost := (holdoverBegins_frame s).raise ..

/-- No stand and no step comes or goes. -/
theorem refLost_stand (s : State) : s.refLost.armed = s.armed ∧ s.refLost.stepActive = s.stepActive ∧ s.refLost.stand = s.stand := by
  have hstatus : s.refLost.rd Reg.STAND_STATUS = s.rd Reg.STAND_STATUS := refLost_rd s _ (by decide) (by decide)
  refine ⟨?_, ?_, (refLost_frame s).stand⟩
  · simp only [State.armed, State.flag, State.get, hstatus]
  · simp only [State.stepActive, State.flag, State.get, hstatus]

theorem refLost_eq (hpll : s.clk.pllUp = true) (hlocked : s.flag F.CLK_STATUS_HOLDOVER = false)
    (hstep : s.armed = false ∨ s.stepActive = true) : exec .refLost s = .next (s.refLost.eoeHeld causeRefLost) := by
  have hdue : (s.clk.pllUp && !s.flag F.CLK_STATUS_HOLDOVER) = true := by rw [hpll, hlocked]; rfl
  obtain ⟨harmed, hactive, _⟩ := refLost_stand s
  refine (if_pos hdue).trans (congrArg Host.Outcome.next ?_)
  show (if s.refLost.stepActive then s.refLost.paceFaultEoe causeRefLost else s.refLost.paceFault causeRefLost) = s.refLost.eoeHeld causeRefLost
  exact refLostFault_eq (by rw [harmed, hactive]; exact hstep)

theorem refLost_leaves (hpll : s.clk.pllUp = true) (hlocked : s.flag F.CLK_STATUS_HOLDOVER = false)
    (hstep : s.armed = false ∨ s.stepActive = true) :
    ∃ t, exec .refLost s = .next t ∧ t.flag F.CLK_STATUS_HOLDOVER = true ∧ t.flag F.CLK_STATUS_PLL_LOCK = false ∧
      t.flag F.CLK_STATUS_REF_PRESENT = false ∧ t.flag F.CLK_STATUS_SYNC_BUSY = false ∧ t.flag F.CLK_STATUS_TIME_VALID = false ∧
      t.rd Reg.CLK_HOLDOVER_TIME = 0 ∧ t.summary P.CLK B.CLK_REF_LOST = true ∧ t.clk.holdStart = s.now ∧ t.clk.syncId = none ∧
      t.stand = (if s.armed && s.stand.epochs then { s.stand with eoe := s.stand.eoe ++ [⟨0x0F, 0⟩] } else s.stand) ∧
      onlyRegsEvt [Reg.CLK_STATUS, Reg.CLK_HOLDOVER_TIME, Reg.CLK_REF_LOSS_COUNT, Hdr.EVT_SUMMARY P.CLK] s t ∧
      t = { s with regs := t.regs, evt := t.evt, glade := t.glade, clk := t.clk, stand := t.stand } := by
  have hclk : s.refLost.clk = s.holdoverBegins.clk := State.raise_clk ..
  have hraised : s.refLost.summary P.CLK B.CLK_REF_LOST = true := raise_summary _ _ _ _ _ _ (by decide) (by decide)
  have hflags : s.refLost.flag F.CLK_STATUS_HOLDOVER = true ∧ s.refLost.flag F.CLK_STATUS_PLL_LOCK = false ∧
      s.refLost.flag F.CLK_STATUS_REF_PRESENT = false ∧ s.refLost.flag F.CLK_STATUS_SYNC_BUSY = false ∧
      s.refLost.flag F.CLK_STATUS_TIME_VALID = false ∧ s.refLost.rd Reg.CLK_HOLDOVER_TIME = 0 := by
    refine ⟨?_, ?_, ?_, ?_, ?_, ?_⟩ <;>
      simp (disch := decide) only [State.refLost, flag_norm, rd_norm, get_raise_norm, rd_raise_norm, holdoverBegins_norm, bump_norm, wr_norm,
        putB_norm, Rg.get_put_disj, Rg.get_wr_ne, Rg.get_put_same, Rg.rd_put_ne, Rg.rd_wr_ne, Rg.rd_wr_same]
    all_goals rfl
  obtain ⟨hhold, hlock, hpresent, hbusy, hvalid, htime⟩ := hflags
  obtain ⟨harmed, _, hstand⟩ := refLost_stand s
  refine ⟨_, refLost_eq hpll hlocked hstep, hhold, hlock, hpresent, hbusy, hvalid, htime, hraised, ?_, ?_, ?_, refLost_rd s, ?_⟩
  · exact congrArg ClkSt.holdStart hclk
  · exact congrArg ClkSt.syncId hclk
  · rw [State.eoeHeld, harmed, hstand]
  · exact congrArg (fun t : State => { t with stand := (s.refLost.eoeHeld causeRefLost).stand }) (refLost_frame s)

theorem refLost_none (h : s.clk.pllUp = false ∨ s.flag F.CLK_STATUS_HOLDOVER = true) : exec .refLost s = .next s := by
  refine if_neg (ne_true_of_eq_false ?_)
  rcases h with h | h
  · rw [h, Bool.false_and]
  · rw [h, Bool.not_true, Bool.and_false]

/-! ## HOLDOVER_EXPIRED -/

/-- A link's turn when holdover expires. -/
def State.holdoverLink (s : State) (l : Nat) : State :=
  if s.lstate l = lsUp ∨ s.lstate l = lsTakedown then (s.put (F.LINK_STATUS_FAIL_CAUSE l) fcHoldover).linkOff l else s

theorem holdoverLink_rd (s : State) (l o : Nat) (ho : ¬ LinkPage l o) : (s.holdoverLink l).rd o = s.rd o := by
  have hstatus : o ≠ Reg.LINK_STATUS l := fun heq => ho (heq ▸ linkPage_mem (by decide))
  unfold State.holdoverLink
  split
  · rw [linkOff_rd _ ho, rd_put_ne _ _ _ hstatus]
  · rfl

theorem holdoverLink_off {l : Nat} (h : s.lstate l = lsUp ∨ s.lstate l = lsTakedown) : (s.holdoverLink l).lstate l = lsOff ∧
    (s.holdoverLink l).get (F.LINK_STATUS_FAIL_CAUSE l) = 9 ∧ (s.holdoverLink l).fnReg (P.LINK l) = fnOff := by
  have hcause : (s.put (F.LINK_STATUS_FAIL_CAUSE l) fcHoldover).get (F.LINK_STATUS_FAIL_CAUSE l) = 9 :=
    get_put_same s _ _ (show 8 + 4 ≤ 32 by decide)
  obtain ⟨hstate, hfn, hkept⟩ := linkOff_off (s.put (F.LINK_STATUS_FAIL_CAUSE l) fcHoldover) l
  rw [State.holdoverLink, if_pos h]
  exact ⟨hstate, hkept.trans hcause, hfn⟩

/-- Registers below the link pages stay. -/
theorem holdoverLinks_rd (s : State) {o : Nat} (ho : o < 0x200000) : s.holdoverLinks.rd o = s.rd o :=
  (foldl_linkPages holdoverLink_rd s 96).1 o fun l _ hpage => absurd ho (by unfold LinkPage at hpage; omega)

theorem holdoverLinks_off {l : Nat} (hl : l < 96) (h : s.lstate l = lsUp ∨ s.lstate l = lsTakedown) :
    s.holdoverLinks.lstate l = lsOff ∧ s.holdoverLinks.get (F.LINK_STATUS_FAIL_CAUSE l) = 9 ∧ s.holdoverLinks.fnReg (P.LINK l) = fnOff := by
  obtain ⟨u, hu, hturn⟩ := (foldl_linkPages holdoverLink_rd s 96).2 l hl
  have hstatus : LinkPage l (Reg.LINK_STATUS l) := linkPage_mem (by decide)
  have hheader : LinkPage l (P.LINK l + 0xC) := linkPage_mem (by decide)
  have hstate : u.lstate l = s.lstate l := congrArg (bitsOf · 0 4) (hu _ hstatus)
  obtain ⟨hoff, hcause, hfn⟩ := holdoverLink_off (s := u) (l := l) (by rw [hstate]; exact h)
  exact ⟨(congrArg (bitsOf · 0 4) (hturn _ hstatus)).trans hoff, (congrArg (bitsOf · 8 4) (hturn _ hstatus)).trans hcause,
    (congrArg (bitsOf · 0 3) (hturn _ hheader)).trans hfn⟩

/-- Holdover has expired, and is raised. -/
def State.holdoverExpired (s : State) : State :=
  (s.putB F.CLK_STATUS_HOLDOVER_EXPIRED true).raise P.CLK B.CLK_HOLDOVER_EXPIRED Evn.CLK_HOLDOVER_EXPIRED

theorem holdoverExpired_flags (s : State) : s.holdoverExpired.flag F.CLK_STATUS_HOLDOVER_EXPIRED = true ∧
    s.holdoverExpired.summary P.CLK B.CLK_HOLDOVER_EXPIRED = true :=
  ⟨(raise_flag _ _ _ _ _ _ (by decide) (by decide)).trans (flag_putB_same s _ _ (by decide) rfl),
    raise_summary _ _ _ _ _ _ (by decide) (by decide)⟩

theorem holdoverExpired_lstate (s : State) (l : Nat) : s.holdoverExpired.lstate l = s.lstate l := by
  have hstatus : s.holdoverExpired.rd (0x200000 + 0x1000 * l + 0x40) = s.rd (0x200000 + 0x1000 * l + 0x40) := by
    have hevt : 0x200000 + 0x1000 * l + 0x40 ∉ evtOffs := by
      simp only [evtOffs, List.mem_cons, List.not_mem_nil, or_false]
      omega
    have hother : ∀ o, o < 0x200000 → 0x200000 + 0x1000 * l + 0x40 ≠ o := by omega
    exact (raise_rd _ _ _ _ _ _ hevt (hother _ (by decide))).trans (rd_put_ne _ _ _ (hother _ (by decide)))
  exact congrArg (bitsOf · 0 4) hstatus

theorem holdoverExpired_leaves (hhold : s.flag F.CLK_STATUS_HOLDOVER = true) (hfirst : s.flag F.CLK_STATUS_HOLDOVER_EXPIRED = false) :
    ∃ t, exec .holdoverExpired s = .next t ∧ t.flag F.CLK_STATUS_HOLDOVER_EXPIRED = true ∧ t.summary P.CLK B.CLK_HOLDOVER_EXPIRED = true ∧
      ∀ l, l < 96 → (s.lstate l = lsUp ∨ s.lstate l = lsTakedown) →
        t.lstate l = lsOff ∧ t.get (F.LINK_STATUS_FAIL_CAUSE l) = 9 ∧ t.fnReg (P.LINK l) = fnOff := by
  have hdue : (s.flag F.CLK_STATUS_HOLDOVER && !s.flag F.CLK_STATUS_HOLDOVER_EXPIRED) = true := by rw [hhold, hfirst]; rfl
  obtain ⟨hexpired, hraised⟩ := holdoverExpired_flags s
  refine ⟨s.holdoverExpired.holdoverLinks, if_pos hdue, ?_, ?_, fun l hl h => holdoverLinks_off hl ?_⟩
  · rw [State.flag, State.get, holdoverLinks_rd _ (by decide)]
    exact hexpired
  · rw [State.summary, State.flag, State.get, holdoverLinks_rd _ (by decide)]
    exact hraised
  · rw [holdoverExpired_lstate]
    exact h

/-! ## REF_ACCEPTED and REF_RESTORED -/

theorem holdoverCommands_none (h : s.flag F.CLK_STATUS_HOLDOVER = false) :
    exec .holdoverExpired s = .next s ∧ exec .refAccepted s = .next s ∧ exec .refRestored s = .next s := by
  refine ⟨if_neg (ne_true_of_eq_false ?_), if_neg (ne_true_of_eq_false h), if_neg (ne_true_of_eq_false ?_)⟩
  · rw [h, Bool.false_and]
  · rw [h, Bool.false_and]

/-- Holdover is over, and its length is held. -/
def State.holdoverEnds (s : State) : State := (s.wr Reg.CLK_HOLDOVER_TIME s.holdoverUs).putB F.CLK_STATUS_HOLDOVER false

/-- The root PLL has locked to REFCLK. -/
def State.refRestored (s : State) : State :=
  { s.holdoverEnds.putB F.CLK_STATUS_PLL_LOCK true with clk := { s.clk with slewing := false } }

theorem refRestored_frame (s : State) : ClockFrame s s.refRestored :=
  ((((ClockFrame.refl s).wr _ _).putB _ _).putB _ _).setClk _

theorem refRestored_leaves (hhold : s.flag F.CLK_STATUS_HOLDOVER = true) (hslew : s.clk.slewing = true) :
    ∃ t, exec .refRestored s = .next t ∧ t.flag F.CLK_STATUS_HOLDOVER = false ∧ t.flag F.CLK_STATUS_PLL_LOCK = true ∧
      t.rd Reg.CLK_HOLDOVER_TIME = s.holdoverUs ∧ t.clk = { s.clk with slewing := false } ∧ t.summary P.CLK B.CLK_REF_RESTORED = true ∧
      onlyRegsEvt [Reg.CLK_STATUS, Reg.CLK_HOLDOVER_TIME, Hdr.EVT_SUMMARY P.CLK] s t ∧
      t = { s with regs := t.regs, evt := t.evt, glade := t.glade, clk := t.clk } := by
  have hdue : (s.flag F.CLK_STATUS_HOLDOVER && s.clk.slewing) = true := by rw [hhold, hslew]; rfl
  refine ⟨s.refRestored.raise P.CLK B.CLK_REF_RESTORED Evn.CLK_REF_RESTORED, if_pos hdue, ?_, ?_, ?_, State.raise_clk ..,
    raise_summary _ _ _ _ _ _ (by decide) (by decide), fun o ho hevt => ?_, (refRestored_frame s).raise ..⟩
  · rw [raise_flag _ _ _ _ _ _ (by decide) (by decide), State.refRestored]
    exact (flag_putB_disj _ _ _ _ (by decide) (by decide)).trans (flag_putB_same _ _ _ (by decide) rfl)
  · rw [raise_flag _ _ _ _ _ _ (by decide) (by decide), State.refRestored]
    exact flag_putB_same _ _ _ (by decide) rfl
  · rw [raise_rd _ _ _ _ _ _ (by decide) (by decide), State.refRestored]
    exact (rd_put_ne _ _ _ (by decide)).trans ((rd_put_ne _ _ _ (by decide)).trans (rd_wr_same ..))
  · simp only [List.mem_cons, List.not_mem_nil, or_false, not_or] at ho
    obtain ⟨hstatus, htime, hsummary⟩ := ho
    rw [raise_rd _ _ _ _ _ _ hevt hsummary, State.refRestored]
    exact (rd_put_ne _ _ _ hstatus).trans ((rd_put_ne _ _ _ hstatus).trans (rd_wr_ne _ _ htime))

/-! ## PLL_UNLOCK and PLL_RELOCK -/

/-- The root PLL has lost lock, in holdover or not. -/
def State.pllLost (s : State) : State :=
  let u := if s.flag F.CLK_STATUS_HOLDOVER then s.holdoverEnds else s
  ({ u with clk := { u.clk with slewing := false } }.putB F.CLK_STATUS_PLL_LOCK false).abandonSync

theorem pllLost_flags (s : State) : s.pllLost.flag F.CLK_STATUS_PLL_LOCK = false ∧ s.pllLost.flag F.CLK_STATUS_HOLDOVER = false := by
  have hover : (if s.flag F.CLK_STATUS_HOLDOVER then s.holdoverEnds else s).flag F.CLK_STATUS_HOLDOVER = false := by
    split
    · exact flag_putB_same _ _ _ (by decide) rfl
    · next h => exact Bool.eq_false_iff.2 h
  unfold State.pllLost
  generalize (if s.flag F.CLK_STATUS_HOLDOVER then s.holdoverEnds else s) = u at hover
  rw [flag_norm] at hover
  constructor
  · simp (disch := decide) only [flag_norm, abandonSync_norm, putB_norm, Rg.get_put_disj, Rg.get_put_same]
    rfl
  · simp (disch := decide) only [flag_norm, abandonSync_norm, putB_norm, Rg.get_put_disj]
    exact hover

theorem pllLost_frame (s : State) : ClockFrame s s.pllLost := by
  have hu : ClockFrame s (if s.flag F.CLK_STATUS_HOLDOVER then s.holdoverEnds else s) := by
    split
    · exact ((ClockFrame.refl s).wr _ _).putB _ _
    · exact ClockFrame.refl s
  exact ((hu.setClk _).putB _ _).abandonSync

theorem pllLost_rd (s : State) : onlyRegs [Reg.CLK_STATUS, Reg.CLK_HOLDOVER_TIME] s s.pllLost := fun o ho => by
  simp only [List.mem_cons, List.not_mem_nil, or_false, not_or] at ho
  obtain ⟨hstatus, htime⟩ := ho
  have hu : (if s.flag F.CLK_STATUS_HOLDOVER then s.holdoverEnds else s).rd o = s.rd o := by
    split
    · exact (rd_put_ne _ _ _ hstatus).trans (rd_wr_ne _ _ htime)
    · rfl
  exact (abandonSync_rd _ hstatus).trans ((rd_put_ne _ _ _ hstatus).trans hu)

theorem pllUnlock_leaves (hpll : s.clk.pllUp = true) (hfree : s.flag F.CLK_STATUS_HOLDOVER = false ∨ s.clk.slewing = true)
    (harmed : s.armed = false) :
    ∃ t, exec .pllUnlock s = .next t ∧ t.flag F.CLK_STATUS_PLL_LOCK = false ∧ t.flag F.CLK_STATUS_HOLDOVER = false ∧
      t.flag F.CLK_STATUS_TIME_VALID = false ∧ t.flag F.CLK_STATUS_SYNC_BUSY = false ∧ t.summary P.CLK B.CLK_PLL_UNLOCK = true ∧
      (t.rd (Hdr.ERR_COUNT P.CLK)).toNat = min ((s.rd (Hdr.ERR_COUNT P.CLK)).toNat + 1) 0xFFFFFFFF ∧
      t = { s with regs := t.regs, evt := t.evt, glade := t.glade, clk := t.clk } := by
  have hdue : (s.clk.pllUp && (!s.flag F.CLK_STATUS_HOLDOVER || s.clk.slewing)) = true := by
    rcases hfree with h | h
    · rw [hpll, h]
      rfl
    · rw [hpll, h, Bool.or_true]
      rfl
  have hunarmed : ((s.pllLost.errInc P.CLK).raise P.CLK B.CLK_PLL_UNLOCK Evn.CLK_PLL_UNLOCK).armed = false := by
    rw [State.armed, errRaised_flag _ _ _ (by decide), State.flag, State.get, pllLost_rd s _ (by decide)]
    exact harmed
  obtain ⟨hlock, hhold⟩ := pllLost_flags s
  refine ⟨_, (if_pos hdue).trans (congrArg Host.Outcome.next (paceFault_unarmed hunarmed _ _)), ?_, ?_, ?_, ?_,
    raise_summary _ _ _ _ _ _ (by decide) (by decide), ?_, ((pllLost_frame s).errInc _).raise ..⟩
  · exact (errRaised_flag _ _ _ (by decide)).trans hlock
  · exact (errRaised_flag _ _ _ (by decide)).trans hhold
  · exact (errRaised_flag _ _ _ (by decide)).trans (abandonSync_invalid _)
  · exact (errRaised_flag _ _ _ (by decide)).trans (abandonSync_idle _)
  · rw [raise_rd _ _ _ _ _ _ (by decide) (by decide), State.errInc, State.putB, rd_put_ne _ _ _ (by decide), bump_one_toNat,
      pllLost_rd s _ (by decide)]

theorem pllRelock_locks (hpll : s.clk.pllUp = true) (hlocked : s.flag F.CLK_STATUS_HOLDOVER = false) :
    exec .pllRelock s = .next (s.putB F.CLK_STATUS_PLL_LOCK true) :=
  if_pos (by rw [hpll, hlocked]; rfl)

/-! ## REFCLK_WAIT_TIMEOUT -/

theorem toFault_only (s : State) (pg : Nat) : s.toFault pg = { s with regs := (s.toFault pg).regs } :=
  congrArg (fun t : State => { t with regs := (s.toFault pg).regs }) (setFn_only s pg fnFault)

/-- A page's STATE register is not among those of an error. -/
theorem errInc_state (s : State) (pg lo w : Nat) : (s.errInc pg).get ⟨pg + 0xC, lo, w⟩ = s.get ⟨pg + 0xC, lo, w⟩ := by
  have hcount : pg + 0xC ≠ Hdr.ERR_COUNT pg := by
    show pg + 0xC ≠ pg + 0x20
    omega
  have hsummary : pg + 0xC ≠ Hdr.EVT_SUMMARY pg := by
    show pg + 0xC ≠ pg + 0x14
    omega
  exact (get_put_off _ _ _ _ hsummary).trans (get_wr_off _ _ _ _ hcount)

theorem toFault_fn {pg : Nat} (hbusy : s.flag (Hdr.RESET_BUSY pg) = false) : (s.toFault pg).fn pg = fnFault := by
  have hother : ∀ g : Fld, (Hdr.PENDING_ENABLE pg).disj g = true → ((s.setFn pg fnFault).putB (Hdr.PENDING_ENABLE pg) false).get g =
      (s.setFn pg fnFault).get g := fun g hg => get_put_disj _ _ _ _ (show 8 + 1 ≤ 32 by decide) hg
  have hapart : ∀ a b : Nat × Nat, a.1 + a.2 ≤ b.1 ∨ b.1 + b.2 ≤ a.1 → (⟨pg + 0xC, a.1, a.2⟩ : Fld).disj ⟨pg + 0xC, b.1, b.2⟩ = true :=
    fun a b hab => by simpa [Fld.disj] using hab
  have hsummary : pg + 0xC ≠ pg + 0x14 := by omega
  have hreset : (s.toFault pg).get (Hdr.RESET_BUSY pg) = s.get (Hdr.RESET_BUSY pg) :=
    (errInc_state _ pg 9 1).trans ((hother _ (hapart (8, 1) (9, 1) (by decide))).trans
      (setFn_get_disj s (hapart (0, 3) (9, 1) (by decide)) hsummary))
  have hstate : (s.toFault pg).fnReg pg = fnFault :=
    (errInc_state _ pg 0 3).trans ((hother _ (hapart (8, 1) (0, 3) (by decide))).trans (setFn_fnReg s (by decide)))
  rw [State.fn, State.flag, hreset, hstate]
  exact if_neg (ne_true_of_eq_false hbusy)

theorem fn_starting {pg : Nat} (h : s.fn pg = fnStarting) : s.flag (Hdr.RESET_BUSY pg) = false := by
  unfold State.fn at h
  split at h
  · exact absurd h (by decide)
  · next hbusy => exact Bool.eq_false_iff.2 hbusy

theorem refclkWaitTimeout_faults (hstart : s.fn P.CLK = fnStarting) (hnone : s.flag F.CLK_STATUS_REF_PRESENT = false) :
    ∃ t, exec .refclkWaitTimeout s = .next t ∧ t.fn P.CLK = fnFault ∧ t = { s with regs := t.regs } :=
  ⟨_, if_pos ⟨hstart, congrArg not hnone⟩, toFault_fn (fn_starting hstart), toFault_only s P.CLK⟩

/-- Settles O11: the loss, the expiry, the acceptance and the return of the reference, and the root PLL's lock. -/
theorem referenceClockAndPllCommands : Obligations.ReferenceClockAndPllCommands := by
  unfold Obligations.ReferenceClockAndPllCommands
  intro s
  exact ⟨refLost_leaves, refLost_none, holdoverExpired_leaves, holdoverCommands_none, fun h => if_pos h, refRestored_leaves, pllUnlock_leaves,
    pllRelock_locks, refclkWaitTimeout_faults, fun h => if_neg fun hdue => h hdue.1⟩

end Sys2Proof.Machine
end

section
/-! SUPPORT. Refusing a load (R157, R411, R414, R415): what is recorded, and what the operations around it leave. -/

namespace Sys2Proof.Machine

/-! ## What a load's messages and reports leave alone -/

/-- CLK.STATUS, the registers from the page STAND up, and the armed image are as before. -/
structure StandKept (s t : State) : Prop where
  rd    : ∀ o, o = Reg.CLK_STATUS ∨ P.STAND ≤ o → t.rd o = s.rd o
  image : t.image = s.image

theorem StandKept.refl (s : State) : StandKept s s := ⟨fun _ _ => rfl, rfl⟩

theorem StandKept.trans {s t u : State} (h : StandKept s t) (h' : StandKept t u) : StandKept s u :=
  ⟨fun o ho => (h'.rd o ho).trans (h.rd o ho), h'.image.trans h.image⟩

theorem StandKept.of_regs {s t : State} (hregs : t.regs = s.regs) (himage : t.image = s.image) : StandKept s t :=
  ⟨fun o _ => rd_congr hregs o, himage⟩

/-- The registers of the page EVT hold neither. -/
theorem standKept_wr (s : State) {o : Nat} (ho : o ≠ Reg.CLK_STATUS ∧ o < P.STAND) (v : Word) : StandKept s (s.wr o v) :=
  ⟨fun p hp => rd_wr_ne s v (by
    rintro rfl
    exact hp.elim ho.1 (Nat.not_le.2 ho.2)), rfl⟩

theorem standKept_off {o : Nat} (ho : o = Reg.CLK_STATUS ∨ P.STAND ≤ o) : o ∉ evtOffs ∧ ¬ (0x8000 ≤ o ∧ o < 0xA000) ∧ o ≠ Hdr.OWNER P.EVT := by
  have hlow : ∀ p ∈ Hdr.OWNER P.EVT :: evtOffs, p ≠ Reg.CLK_STATUS ∧ p < P.STAND := by decide
  have hne : o ∉ Hdr.OWNER P.EVT :: evtOffs := fun hmem => ho.elim (hlow o hmem).1 (Nat.not_le.2 (hlow o hmem).2)
  rw [List.mem_cons, not_or] at hne
  refine ⟨hne.2, ?_, hne.1⟩
  rcases ho with rfl | ho
  · decide
  · exact fun h => absurd (Nat.lt_of_lt_of_le h.2 (by decide : 0xA000 ≤ P.STAND)) (Nat.not_lt.2 ho)

theorem standKept_raiseBare (s : State) (ev : EvKind) : StandKept s (s.raiseBare P.STAND ev) :=
  ⟨fun _ ho => raiseBare_rd _ _ _ _ _ (standKept_off ho).1, State.raiseBare_image ..⟩

theorem standKept_taken (s : State) (off : Nat) (hoff : pageOf off = P.EVT) (data : Word) : StandKept s (s.taken .host off data) :=
  ⟨fun o ho => by
    obtain ⟨hevt, hcanopy, howner⟩ := standKept_off ho
    exact taken_rd s .host off data hevt hcanopy (by rw [hoff]; exact howner), State.taken_image ..⟩

/-- Messages go out by the links. -/
theorem sendAll_only (s : State) (ls : List Nat) (b : SvcBody) :
    s.sendAll ls b = { s with links := (s.sendAll ls b).links, out := (s.sendAll ls b).out } := by
  induction ls generalizing s with
  | nil => rfl
  | cons l ls ih =>
    exact (ih (s.sendMsg l b)).trans (congrArg
      (fun t : State => { t with links := (s.sendAll (l :: ls) b).links, out := (s.sendAll (l :: ls) b).out }) (sendMsg_leaves s l b).2)

theorem standKept_sendMsg (s : State) (l : Nat) (b : SvcBody) : StandKept s (s.sendMsg l b) := by
  rw [(sendMsg_leaves s l b).2]
  exact .of_regs rfl rfl

theorem sendMsg_group (s : State) (l : Nat) (b : SvcBody) : (s.sendMsg l b).group = s.group := by rw [(sendMsg_leaves s l b).2]

theorem standKept_sendAll (s : State) (ls : List Nat) (b : SvcBody) : StandKept s (s.sendAll ls b) := by
  rw [sendAll_only]
  exact .of_regs rfl rfl

theorem sendAll_group (s : State) (ls : List Nat) (b : SvcBody) : (s.sendAll ls b).group = s.group := by rw [sendAll_only]

theorem standKept_loadCounts (s : State) : StandKept s s.loadCounts := by
  have hcounts := (standKept_wr s (o := Reg.EVT_CHUNKS_NEED) (by decide) (BitVec.ofNat 32 (ownChunks s.group.load).length)).trans
    (standKept_wr _ (o := Reg.EVT_CHUNKS_HAVE) (by decide)
      (BitVec.ofNat 32 ((ownChunks s.group.load).filter (fun d => (heldChunk s.group.load d).isSome)).length))
  unfold State.loadCounts
  dsimp only
  split
  · exact hcounts
  · exact hcounts.trans (standKept_wr _ (by decide) _)

theorem loadCounts_group (s : State) : s.loadCounts.group = s.group := by
  unfold State.loadCounts
  dsimp only
  split <;> rfl

/-! ## The end of a load -/

/-- A load that is refused is discarded with its report in place. -/
theorem loadDiscard_refused {s : State} (h : s.get F.STAND_LOAD_STATUS_RESULT = 3) : s.loadDiscard = (s.setLoad {}).loadState 5 := by
  have hne : ¬ s.get F.STAND_LOAD_STATUS_RESULT = 1 := by
    rw [h]
    decide
  unfold State.loadDiscard
  rw [if_neg hne]

/-- The counts of a new load. -/
theorem standKept_newLoad (s : State) (n : Nat) :
    StandKept s ({ s with group := { s.group with listed := n, ready := [], refused := [] } }).missingCount := by
  let t : State := { s with group := { s.group with listed := n, ready := [], refused := [] } }
  have ht : StandKept s t := .of_regs rfl rfl
  exact ht.trans (standKept_wr t (o := Reg.EVT_MISSING_COUNT) (by decide) _)

/-- START as the host writes it. -/
theorem loadCtrlWrite_start {s : State} (hok : s.loadStartOk = true) (habs : s.absent P.EVT = false) :
    s.loadCtrlWrite { req := .host, data := 1, be := 15 } =
      (s.taken .host Reg.EVT_LOAD_CTRL 1).loadBegin.trackWrite .host Reg.EVT_LOAD_CTRL ((s.snoop Reg.EVT_LOAD_CTRL .host 1).rd Reg.EVT_LOAD_CTRL) := by
  have hstart : (1 : Word).toNat.testBit 0 = true := by decide
  have hcancel : (1 : Word).toNat.testBit 1 = false := by decide
  unfold State.loadCtrlWrite
  simp only [hstart, hcancel, hok, Bool.not_true, Bool.not_false, Bool.false_or, Bool.true_or, Bool.and_true, Bool.false_and,
    Bool.false_eq_true, if_true, if_false]
  exact gateW_host rfl (by decide) (by decide) habs

/-- END, as it is taken and goes on: `fromParent` says whether END has come from the parent link by now. -/
def State.endPassed (s : State) (l : Nat) (fromParent : Bool) : State :=
  let u := (s.takeInbox l .imageEnd).setLoad { s.group.load with ended := true, endParent := fromParent }
  if !s.group.load.ended then u.sendAll (s.group.load.sent.filter fun k => decide (k ≠ l)) .imageEnd else u

theorem endPassed_kept (s : State) (l : Nat) (fromParent : Bool) : StandKept s (s.endPassed l fromParent) := by
  have hset : StandKept s ((s.takeInbox l .imageEnd).setLoad { s.group.load with ended := true, endParent := fromParent }) := .of_regs rfl rfl
  unfold State.endPassed
  dsimp only
  split
  · exact hset.trans (standKept_sendAll ..)
  · exact hset

theorem endPassed_load (s : State) (l : Nat) (fromParent : Bool) :
    (s.endPassed l fromParent).group.load = { s.group.load with ended := true, endParent := fromParent } := by
  unfold State.endPassed
  dsimp only
  split
  · rw [sendAll_group]
    rfl
  · rfl

theorem execImageEndRx_eq (s : State) (l : Fin 96) : execImageEndRx l s =
    let fresh := decide (s.group.load.parent = some l.val) && !s.group.load.endParent
    let u := s.endPassed l.val (s.group.load.endParent || fresh)
    if s.group.load.man.isNone then .next (s.takeInbox l.val .imageEnd)
    else if fresh && !s.group.load.checked then
      .next (if (missingChunks u.loadCounts.group.load).isEmpty then u.loadCounts.loadCheck else u.loadCounts.repairAsk)
    else .next u := rfl

/-- END from the parent link of a member that has every chunk. -/
theorem imageEndRx_complete {s : State} {l : Fin 96} (hman : s.group.load.man ≠ none) (hparent : s.group.load.parent = some l.val)
    (hopen : s.group.load.endParent = false) (hnew : s.group.load.checked = false) (hall : missingChunks s.group.load = []) :
    exec (.imageEndRx l) s = .next (s.endPassed l.val true).loadCounts.loadCheck := by
  have hhas : s.group.load.man.isNone = false := Option.isNone_eq_false_iff.2 (Option.isSome_iff_ne_none.2 hman)
  have hmissing : (missingChunks (s.endPassed l.val true).loadCounts.group.load).isEmpty = true := by
    rw [loadCounts_group, endPassed_load]
    exact List.isEmpty_iff.2 hall
  refine (execImageEndRx_eq s l).trans ?_
  simp only [hhas, hparent, hopen, hnew, hmissing, decide_true, Bool.not_false, Bool.and_true, Bool.or_true, Bool.false_eq_true, if_false, if_true]

/-- The load has gone from here. -/
structure LoadGone (s t : State) : Prop extends StandKept s t where
  state : t.rd Reg.EVT_LOAD_STATE = 5
  load  : t.group.load = {}

theorem loadDiscard_gone {s t : State} (hkept : StandKept s t) (h : s.get F.STAND_LOAD_STATUS_RESULT = 3) : LoadGone s t.loadDiscard := by
  have hresult : t.get F.STAND_LOAD_STATUS_RESULT = 3 := (congrArg (bitsOf · 0 4) (hkept.rd _ (.inr (by decide)))).trans h
  rw [loadDiscard_refused hresult]
  have hset : StandKept s (t.setLoad {}) := hkept.trans (.of_regs rfl rfl)
  exact { toStandKept := hset.trans (standKept_wr _ (o := Reg.EVT_LOAD_STATE) (by decide) _), state := rd_wr_same .., load := rfl }

/-- The lead's own refusal ends the load as a member's does. -/
theorem armRefusedAtLead_gone {s : State} (h : s.get F.STAND_LOAD_STATUS_RESULT = 3) (member reason : Nat) :
    LoadGone s (s.armRefusedAtLead member reason) := by
  have hgroup : StandKept s { s with group := { s.group with refused := s.group.refused ++ [(member, reason)] } } := .of_regs rfl rfl
  have hcount := hgroup.trans (standKept_wr _ (o := Reg.EVT_MISSING_COUNT) (by decide)
    (BitVec.ofNat 32 (s.group.listed - s.group.ready.length)))
  exact loadDiscard_gone ((hcount.trans (standKept_raiseBare _ Evn.COMPUTE_LOAD_INCOMPLETE)).trans (standKept_sendAll ..)) h

/-! ## The refusal -/

/-- The load is refused here (R157), and no stand is armed by it. -/
structure LoadRefused (s t : State) : Prop where
  result  : t.get F.STAND_LOAD_STATUS_RESULT = 3
  summary : t.summary P.STAND B.STAND_LOAD_REFUSED = true
  armed   : t.armed = s.armed
  image   : t.image = s.image

theorem LoadRefused.parts {s t : State} (h : LoadRefused s t) : t.get F.STAND_LOAD_STATUS_RESULT = 3 ∧
    t.summary P.STAND B.STAND_LOAD_REFUSED = true ∧ t.armed = s.armed ∧ t.image = s.image :=
  ⟨h.result, h.summary, h.armed, h.image⟩

/-- What comes before and after a refusal. -/
theorem LoadRefused.around {s t u v : State} (h : LoadRefused t u) (hbefore : StandKept s t) (hafter : StandKept u v) : LoadRefused s v where
  result := (congrArg (bitsOf · 0 4) (hafter.rd Reg.STAND_LOAD_STATUS (.inr (by decide)))).trans h.result
  summary := (congrArg (fun w => bitsOf w B.STAND_LOAD_REFUSED 1 != 0) (hafter.rd (Hdr.EVT_SUMMARY P.STAND) (.inr (by decide)))).trans h.summary
  armed := ((congrArg (fun w => bitsOf w 0 1 != 0) (hafter.rd Reg.STAND_STATUS (.inr (by decide)))).trans h.armed).trans
    (congrArg (fun w => bitsOf w 0 1 != 0) (hbefore.rd Reg.STAND_STATUS (.inr (by decide))))
  image := hafter.image.trans (h.image.trans hbefore.image)

/-- The report of a refusal. -/
def State.refusalReported (s : State) (f : LoadFail) : State :=
  ((s.wr Reg.STAND_LOAD_STATUS (BitVec.ofNat 32 (3 + 256 * f.reason + 65536 * f.unit))).wr Reg.STAND_LOAD_DETAIL
    (BitVec.ofNat 32 f.detail)).raise P.STAND B.STAND_LOAD_REFUSED Evn.COMPUTE_LOAD_REFUSED

theorem refusalReported_refused (s : State) (f : LoadFail) : LoadRefused s (s.refusalReported f) where
  result := by
    rw [State.get, State.refusalReported, raise_rd _ _ _ _ _ _ (by decide) (by decide), rd_wr_ne _ _ (by decide), rd_wr_same]
    show (BitVec.ofNat 32 (3 + 256 * f.reason + 65536 * f.unit)).toNat / 2 ^ 0 % 2 ^ 4 = 3
    rw [BitVec.toNat_ofNat]
    omega
  summary := raise_summary _ _ _ _ _ _ (by decide) (by decide)
  armed := by
    have hstatus : (s.refusalReported f).rd Reg.STAND_STATUS = s.rd Reg.STAND_STATUS := by
      rw [State.refusalReported, raise_rd _ _ _ _ _ _ (by decide) (by decide), rd_wr_ne _ _ (by decide), rd_wr_ne _ _ (by decide)]
    simp only [State.armed, State.flag, State.get, hstatus]
  image := State.raise_image ..

theorem refusalReported_group (s : State) (f : LoadFail) : (s.refusalReported f).group = s.group := State.raise_group ..

/-- The member has answered. -/
def State.refusalAnswered (s : State) (f : LoadFail) : State :=
  (s.refusalReported f).setLoad { (s.refusalReported f).group.load with checked := true }

theorem refusalAnswered_refused (s : State) (f : LoadFail) : LoadRefused s (s.refusalAnswered f) :=
  (refusalReported_refused s f).around (.refl s) (.of_regs rfl rfl)

theorem refusalAnswered_load (s : State) (f : LoadFail) : (s.refusalAnswered f).group.load = { s.group.load with checked := true } :=
  congrArg (fun g : GroupSt => { g.load with checked := true }) (refusalReported_group s f)

theorem loadRefuse_eq (s : State) (f : LoadFail) : s.loadRefuse f =
    if s.group.load.lead then (s.refusalAnswered f).armRefusedAtLead s.group.load.member f.reason
    else match s.group.load.parent with
      | some p => (s.refusalAnswered f).sendMsg p (.armRefused (BitVec.ofNat 13 s.group.load.member) (BitVec.ofNat 8 f.reason))
      | none => s.refusalAnswered f := by
  rw [← refusalReported_group s f]
  rfl

theorem loadRefuse_lead {s : State} (hlead : s.group.load.lead = true) (f : LoadFail) : LoadRefused s (s.loadRefuse f) ∧
    (s.loadRefuse f).rd Reg.EVT_LOAD_STATE = 5 ∧ (s.loadRefuse f).group.load = {} := by
  have hanswered := refusalAnswered_refused s f
  obtain ⟨hkept, hstate, hload⟩ := armRefusedAtLead_gone hanswered.result s.group.load.member f.reason
  rw [loadRefuse_eq, if_pos hlead]
  exact ⟨hanswered.around (.refl s) hkept, hstate, hload⟩

theorem loadRefuse_member {s : State} (hlead : s.group.load.lead = false) (f : LoadFail) : LoadRefused s (s.loadRefuse f) ∧
    (s.loadRefuse f).group.load = { s.group.load with checked := true } := by
  have hanswered := refusalAnswered_refused s f
  rw [loadRefuse_eq, if_neg (ne_true_of_eq_false hlead)]
  split
  · rw [sendMsg_group]
    exact ⟨hanswered.around (.refl s) (standKept_sendMsg ..), refusalAnswered_load s f⟩
  · exact ⟨hanswered, refusalAnswered_load s f⟩

end Sys2Proof.Machine
end

section
/-! Loading and arming without a valid time (R49): one lemma for each part of O6. -/

namespace Sys2Proof.Machine

/-! ## TIME -/

theorem StandKept.timeValid {s t : State} (h : StandKept s t) (hinvalid : s.flag F.CLK_STATUS_TIME_VALID = false) :
    t.flag F.CLK_STATUS_TIME_VALID = false :=
  (congrArg (fun w => bitsOf w 4 1 != 0) (h.rd Reg.CLK_STATUS (.inl rfl))).trans hinvalid

section
variable {s : State} (hinvalid : s.flag F.CLK_STATUS_TIME_VALID = false)
include hinvalid

theorem loadTime_invalid : s.loadTime = some { reason := lrTime } := by
  rw [State.loadTime, hinvalid]
  rfl

theorem manifestFail_invalid (raw : List Byte) (m : Manifest) : ∃ f, s.manifestFail raw m = some f := by
  refine Option.isSome_iff_exists.1 ?_
  simp only [State.manifestFail, loadTime_invalid hinvalid, Option.isSome_or, Option.isSome_some, Bool.or_true, Bool.true_or]

/-! ## The manifest -/

/-- What a load that begins here holds of itself. -/
theorem manifestTake_invalid (raw : List Byte) (man : Manifest) (lead : Bool) (parent : Option Nat) : ∃ (f : LoadFail) (ld : LoadSt) (ls : List Nat),
    ld.lead = lead ∧ ld.image = none ∧ s.manifestTake raw man lead parent = ((s.setLoad ld).loadRefuse f).sendAll ls (.manifest raw) := by
  obtain ⟨f, hfail⟩ := manifestFail_invalid hinvalid raw man
  refine ⟨f, _, _, ?_, ?_, by simp only [State.manifestTake, hfail]; rfl⟩ <;> rfl

theorem manifestRx_invalid {l : Fin 96} {raw : List Byte} (hnone : s.group.load.raw = []) :
    ∃ t, exec (.manifestRx l raw) s = .next t ∧ LoadRefused s t ∧ t.group.load.image = none := by
  have htaken : StandKept s (s.takeInbox l.val (.manifest raw)) := .of_regs rfl rfl
  obtain ⟨f, ld, ls, hlead, himage, htake⟩ :=
    manifestTake_invalid (htaken.timeValid hinvalid) raw (manifestOf raw) false (some l.val)
  obtain ⟨hrefused, hload⟩ := loadRefuse_member (s := (s.takeInbox l.val (.manifest raw)).setLoad ld) hlead f
  have hempty : (s.takeInbox l.val (.manifest raw)).group.load.raw.isEmpty = true := List.isEmpty_iff.2 hnone
  refine ⟨_, (if_pos hempty).trans (congrArg Host.Outcome.next htake),
    hrefused.around (htaken.trans (.of_regs rfl rfl)) (standKept_sendAll ..), ?_⟩
  rw [sendAll_group, hload]
  exact himage

/-! ## START at the lead -/

theorem loadBegin_invalid : LoadRefused s s.loadBegin ∧ s.loadBegin.rd Reg.EVT_LOAD_STATE = 5 ∧ s.loadBegin.group.load = {} := by
  let raw := s.manifestAt (s.rd64 Reg.EVT_MANIFEST_LO).toNat
  let u : State := ({ s with group := { s.group with listed := (manifestOf raw).members.length, ready := [], refused := [] } }).missingCount
  have hu : StandKept s u := standKept_newLoad s _
  obtain ⟨f, ld, ls, hlead, _, htake⟩ := manifestTake_invalid (hu.timeValid hinvalid) raw (manifestOf raw) true none
  obtain ⟨hrefused, hstate, hload⟩ := loadRefuse_lead (s := u.setLoad ld) hlead f
  have hgone : (u.manifestTake raw (manifestOf raw) true none).group.load = {} := by rw [htake, sendAll_group, hload]
  have hbegin : s.loadBegin = u.manifestTake raw (manifestOf raw) true none := by
    refine if_pos (.inl ?_)
    rw [hgone]
    rfl
  rw [hbegin]
  refine ⟨?_, ?_, hgone⟩
  · rw [htake]
    exact hrefused.around (hu.trans (.of_regs rfl rfl)) (standKept_sendAll ..)
  · rw [htake, sendAll_only]
    exact hstate

theorem loadStart_invalid (hok : s.loadStartOk = true) (habs : s.absent P.EVT = false) :
    ∃ t, exec (.loadStart .host) s = .next t ∧ LoadRefused s t ∧ t.rd Reg.EVT_LOAD_STATE = 5 ∧ t.group.load = {} := by
  have htaken := standKept_taken s Reg.EVT_LOAD_CTRL (by decide) 1
  obtain ⟨hrefused, hstate, hload⟩ := loadBegin_invalid (htaken.timeValid hinvalid)
  refine ⟨_, congrArg Host.Outcome.next (loadCtrlWrite_start hok habs), hrefused.around htaken (.of_regs (trackWrite_regs ..) (State.trackWrite_image ..)), ?_, ?_⟩
  · rw [trackWrite_rd, hstate]
  · rw [State.trackWrite_group, hload]

/-! ## END -/

/-- A member whose image is complete checks the time first, if the image can be read at all. -/
theorem loadCheck_invalid (hman : s.group.load.man ≠ none) (hnew : s.group.load.checked = false) (hend : s.group.load.endParent = true)
    (hall : missingChunks s.group.load = []) : ∃ f, s.loadCheck = s.loadRefuse f := by
  obtain ⟨man, hman⟩ := Option.ne_none_iff_exists'.1 hman
  have hdue : (s.group.load.checked || !s.group.load.endParent || !(missingChunks s.group.load).isEmpty) = false := by
    rw [hnew, hend, hall]
    rfl
  simp only [State.loadCheck, hman, hdue, Bool.false_eq_true, if_false, loadTime_invalid hinvalid, Option.some_or]
  split <;> exact ⟨_, rfl⟩

theorem imageEndRx_invalid {l : Fin 96} (hman : s.group.load.man ≠ none) (hlead : s.group.load.lead = false)
    (hparent : s.group.load.parent = some l.val) (hopen : s.group.load.endParent = false) (hnew : s.group.load.checked = false)
    (hall : missingChunks s.group.load = []) : ∃ t, exec (.imageEndRx l) s = .next t ∧ LoadRefused s t ∧
      t.group.load.image = s.group.load.image ∧ t.group.load.checked = true := by
  have hkept : StandKept s (s.endPassed l.val true).loadCounts := (endPassed_kept s l.val true).trans (standKept_loadCounts _)
  have hload : (s.endPassed l.val true).loadCounts.group.load = { s.group.load with ended := true, endParent := true } := by
    rw [loadCounts_group, endPassed_load]
  obtain ⟨f, hcheck⟩ := loadCheck_invalid (hkept.timeValid hinvalid) (by rw [hload]; exact hman) (by rw [hload]; exact hnew)
    (by rw [hload]) (by rw [hload]; exact hall)
  obtain ⟨hrefused, hanswered⟩ := loadRefuse_member (s := (s.endPassed l.val true).loadCounts) (by rw [hload]; exact hlead) f
  refine ⟨_, imageEndRx_complete hman hparent hopen hnew hall, ?_⟩
  rw [hcheck, hanswered, hload]
  exact ⟨hrefused.around hkept (.refl _), rfl, rfl⟩

/-! ## T_rel -/

theorem armTick_invalid {im : Image} {r : ReleaseMsg} (himage : s.group.load.image = some im) (hrelease : s.group.load.release = some r)
    (hnow : r.tRel = s.ftime) :
    ∃ t, exec .armTick s = .next t ∧ LoadRefused s t ∧ t.rd Reg.EVT_LOAD_STATE = 5 ∧ t.group.load = {} := by
  obtain ⟨f, hfail⟩ : ∃ f, ((need (decide (s.mod.mstate = .ready) && !s.armed) ({ reason := lrState } : LoadFail)).or s.loadTime).or
      (s.loadLatLong im) = some f := by
    refine Option.isSome_iff_exists.1 ?_
    simp only [loadTime_invalid hinvalid, Option.isSome_or, Option.isSome_some, Bool.or_true, Bool.true_or]
  have hexec : exec .armTick s = .next (if s.group.load.lead then s.loadRefuse f
      else ((s.loadRefuse f).sendAll (loadPeers s.group.load) .cancel).loadDiscard) := by
    show execArmTick s = _
    simp only [execArmTick, himage, hrelease, if_pos hnow, hfail]
  refine ⟨_, hexec, ?_⟩
  cases hlead : s.group.load.lead
  · obtain ⟨hrefused, _⟩ := loadRefuse_member hlead f
    obtain ⟨hkept, hstate, hload⟩ := loadDiscard_gone (standKept_sendAll (s.loadRefuse f) (loadPeers s.group.load) .cancel) hrefused.result
    exact ⟨hrefused.around (.refl s) hkept, hstate, hload⟩
  · exact loadRefuse_lead hlead f

end

/-- Settles O6: the manifest, START, END and T_rel, each refused for the time. -/
theorem noLoadOrArmingWithoutValidTime : Obligations.NoLoadOrArmingWithoutValidTime := by
  unfold Obligations.NoLoadOrArmingWithoutValidTime
  intro s l raw hinvalid
  refine ⟨fun hnone => ?_, fun hok habs => ?_, fun hman hlead hparent hopen hnew hall => ?_, fun im r himage hrelease hnow => ?_⟩
  · obtain ⟨t, hexec, hrefused, hload⟩ := manifestRx_invalid hinvalid hnone
    exact ⟨t, hexec, hrefused.parts, hload⟩
  · obtain ⟨t, hexec, hrefused, hload⟩ := loadStart_invalid hinvalid hok habs
    exact ⟨t, hexec, hrefused.parts, hload⟩
  · obtain ⟨t, hexec, hrefused, hload⟩ := imageEndRx_invalid hinvalid hman hlead hparent hopen hnew hall
    exact ⟨t, hexec, hrefused.parts, hload⟩
  · obtain ⟨t, hexec, hrefused, hload⟩ := armTick_invalid hinvalid himage hrelease hnow
    exact ⟨t, hexec, hrefused.parts, hload⟩

end Sys2Proof.Machine
end

section
/-! SUPPORT. The fields of a word, and the condition under which a decoder answers. -/

namespace Sys2Proof.Machine

/-! ## Fields of a word -/

/-- Two fields that stand side by side are one field. -/
theorem fld_append_fld {w : Nat} (x : BitVec w) {hi lo m n : Nat} (h : hi = lo + n) : fld x hi m ++ fld x lo n = fld x lo (m + n) := by
  subst h
  ext i hi
  simp only [BitVec.getElem_append, BitVec.getElem_extractLsb']
  split
  · rfl
  · congr 1; omega

/-- The field of a word's own width is the word. -/
theorem fld_whole {w : Nat} (x : BitVec w) {lo : Nat} (h : lo = 0) : fld x lo w = x := by
  subst h; exact BitVec.extractLsb'_eq_self

theorem fld_append_low {m n : Nat} (a : BitVec m) (b : BitVec n) {lo k : Nat} (h : lo + k ≤ n) : fld (a ++ b) lo k = fld b lo k :=
  BitVec.extractLsb'_append_eq_of_add_le h

theorem fld_append_high {m n : Nat} (a : BitVec m) (b : BitVec n) {lo k : Nat} (h : n ≤ lo) : fld (a ++ b) lo k = fld a (lo - n) k :=
  BitVec.extractLsb'_append_eq_of_le h

theorem bit1_append_low {m n : Nat} (a : BitVec m) (b : BitVec n) {i : Nat} (h : i < n) : bit1 (a ++ b) i = bit1 b i := by
  simp [bit1, BitVec.getLsbD_append, h]

theorem bit1_append_high {m n : Nat} (a : BitVec m) (b : BitVec n) {i : Nat} (h : n ≤ i) : bit1 (a ++ b) i = bit1 a (i - n) := by
  simp [bit1, BitVec.getLsbD_append, Nat.not_lt.2 h]

/-- A one-bit field is the bit there. -/
theorem b1_bit1 {w : Nat} (x : BitVec w) (i : Nat) : b1 (bit1 x i) = fld x i 1 := by
  ext j hj
  obtain rfl : j = 0 := by omega
  simp [b1]

theorem bit1_b1 (b : Bool) {i : Nat} (h : i = 0) : bit1 (b1 b) i = b := by
  subst h; cases b <;> rfl

/-- A word whose opcode and remaining bits are 0 is 0. -/
theorem zero_eq_of_fields {m n : Nat} {w : BitVec (m + n)} (hop : fld w n m = 0#m) (hrest : fld w 0 n = 0#n) : 0 = w :=
  calc (0 : BitVec (m + n)) = fld w n m ++ fld w 0 n := by rw [hop, hrest]; simp
    _ = w := by rw [fld_append_fld _ (Nat.zero_add n).symm, fld_whole _ rfl]

theorem guardSome_eq_some {α : Type} {c : Bool} {v u : α} : guardSome c v = some u ↔ c = true ∧ v = u := by
  cases c <;> simp [guardSome]

end Sys2Proof.Machine
end

section
/-! The bundle's encoding and its decoder (R92, R94), slot by slot: a valid slot decodes from its encoding, and a word that decodes is the
encoding of a valid slot. -/

namespace Sys2Proof.Machine

/-! ## The CTL slot (Table 5.4) -/

/-- The opcode of a CTL operation. -/
def Ctl.opcode : Ctl → BitVec 4
  | .nop => 0
  | .wait _ => 1
  | .loop _ => 2
  | .endloop .. => 3
  | .epochWait _ => 4
  | .fence _ => 5
  | .seg _ => 6
  | .evt _ => 7
  | .halt => 8
  | .xset .. => 9

theorem encodeCtl_opcode (c : Ctl) : fld (encodeCtl c) 28 4 = c.opcode := by
  cases c <;> simp (disch := decide) only [encodeCtl, fld_append_high, Ctl.opcode] <;> rfl

theorem decodeCtl_encodeCtl {c : Ctl} (h : c.ok = true) : decodeCtl (encodeCtl c) = some c := by
  cases c <;> simp only [decodeCtl, encodeCtl_opcode, Ctl.opcode, BitVec.ofNat_eq_ofNat, BitVec.reduceEq, ↓reduceIte, guardSome_eq_some]
  all_goals simp (disch := decide) only [encodeCtl, fld_append_low, fld_append_high, bit1_append_low, bit1_append_high, fld_whole, bit1_b1]
  case endloop | xset => simpa [Ctl.ok] using h
  all_goals decide

theorem encodeCtl_of_decodeCtl {w : BitVec 32} {c : Ctl} (h : decodeCtl w = some c) : c.ok = true ∧ encodeCtl c = w := by
  simp only [decodeCtl, BitVec.ofNat_eq_ofNat] at h
  split_ifs at h with hnop hwait hloop hendloop hepoch hfence hseg hevt hhalt hxset
  all_goals
    simp only [guardSome_eq_some, Bool.and_eq_true, beq_iff_eq] at h
    obtain ⟨hcond, rfl⟩ := h
  · exact ⟨rfl, zero_eq_of_fields hnop hcond⟩
  · exact ⟨rfl, by simp (disch := decide) only [encodeCtl, ← hwait, ← hcond, fld_append_fld, fld_whole]⟩
  · exact ⟨rfl, by simp (disch := decide) only [encodeCtl, ← hloop, ← hcond, fld_append_fld, fld_whole]⟩
  · obtain ⟨hx, hzero⟩ := hcond
    exact ⟨hx, by simp (disch := decide) only [encodeCtl, ← hendloop, ← hzero, b1_bit1, fld_append_fld, fld_whole]⟩
  · exact ⟨rfl, by simp (disch := decide) only [encodeCtl, ← hepoch, ← hcond, fld_append_fld, fld_whole]⟩
  · exact ⟨rfl, by simp (disch := decide) only [encodeCtl, ← hfence, ← hcond, fld_append_fld, fld_whole]⟩
  · exact ⟨rfl, by simp (disch := decide) only [encodeCtl, ← hseg, ← hcond, fld_append_fld, fld_whole]⟩
  · exact ⟨rfl, by simp (disch := decide) only [encodeCtl, ← hevt, ← hcond, fld_append_fld, fld_whole]⟩
  · exact ⟨rfl, by simp (disch := decide) only [encodeCtl, ← hhalt, ← hcond, fld_append_fld, fld_whole]⟩
  · obtain ⟨hx, hzero⟩ := hcond
    exact ⟨hx, by simp (disch := decide) only [encodeCtl, ← hxset, ← hzero, fld_append_fld, fld_whole]⟩

/-! ## The TEN slot (Table 5.5) -/

/-- The opcode of a TEN operation. -/
def Ten.opcode : Ten → BitVec 4
  | .nop => 0
  | .mma .. => 1
  | .loadw .. => 2
  | .drain .. => 3
  | .accadd .. => 4

theorem encodeTen_opcode (t : Ten) : fld (encodeTen t) 60 4 = t.opcode := by
  cases t <;> simp (disch := decide) only [encodeTen, fld_append_high, Ten.opcode] <;> rfl

theorem decodeTen_encodeTen {t : Ten} (h : t.ok = true) : decodeTen (encodeTen t) = some t := by
  cases t <;> simp only [decodeTen, encodeTen_opcode, Ten.opcode, BitVec.ofNat_eq_ofNat, BitVec.reduceEq, ↓reduceIte, guardSome_eq_some]
  case nop => decide
  all_goals
    simp (disch := decide) only [encodeTen, fld_append_low, fld_append_high, bit1_append_low, bit1_append_high, fld_whole, bit1_b1]
    simpa [Ten.ok, and_assoc] using h

theorem encodeTen_of_decodeTen {w : BitVec 64} {t : Ten} (h : decodeTen w = some t) : t.ok = true ∧ encodeTen t = w := by
  simp only [decodeTen, BitVec.ofNat_eq_ofNat] at h
  split_ifs at h with hnop hmma hloadw hdrain haccadd
  all_goals
    simp only [guardSome_eq_some, Bool.and_eq_true, beq_iff_eq] at h
    obtain ⟨hcond, rfl⟩ := h
  · exact ⟨rfl, zero_eq_of_fields hnop hcond⟩
  · obtain ⟨⟨⟨hzero, hfmt⟩, hkb⟩, hrows⟩ := hcond
    exact ⟨by simp only [Ten.ok, hfmt, hkb, hrows, Bool.and_self],
      by simp (disch := decide) only [encodeTen, ← hmma, ← hzero, b1_bit1, fld_append_fld, fld_whole]⟩
  · obtain ⟨⟨hzero, hfmt⟩, hkb⟩ := hcond
    exact ⟨by simp only [Ten.ok, hfmt, hkb, Bool.and_self],
      by simp (disch := decide) only [encodeTen, ← hloadw, ← hzero, b1_bit1, fld_append_fld, fld_whole]⟩
  · obtain ⟨⟨hzero, hrows⟩, hout⟩ := hcond
    exact ⟨by simp only [Ten.ok, hrows, hout, Bool.and_self],
      by simp (disch := decide) only [encodeTen, ← hdrain, ← hzero, b1_bit1, fld_append_fld, fld_whole]⟩
  · obtain ⟨hzero, hrows⟩ := hcond
    exact ⟨hrows, by simp (disch := decide) only [encodeTen, ← haccadd, ← hzero, b1_bit1, fld_append_fld, fld_whole]⟩

/-! ## The VEC slot (R109) -/

theorem splitVec_encodeVec (v : Vec) : splitVec (encodeVec v) = v := by
  simp (disch := decide) only [splitVec, encodeVec, fld_append_low, fld_append_high, fld_whole]

theorem encodeVec_splitVec (w : BitVec 64) : encodeVec (splitVec w) = w := by
  simp (disch := decide) only [splitVec, encodeVec, fld_append_fld, fld_whole]

theorem decodeVec_encodeVec {v : Vec} (h : vecOk v = true) : decodeVec (encodeVec v) = some v := by
  rw [decodeVec, splitVec_encodeVec, guardSome_eq_some]
  exact ⟨h, rfl⟩

theorem encodeVec_of_decodeVec {w : BitVec 64} {v : Vec} (h : decodeVec w = some v) : vecOk v = true ∧ encodeVec v = w := by
  obtain ⟨hok, rfl⟩ := guardSome_eq_some.1 h
  exact ⟨hok, encodeVec_splitVec w⟩

/-! ## The MEMA and MEMB slots (Table 5.7) -/

/-- The opcode of a memory operation. -/
def Mem.opcode : Mem → BitVec 6
  | .nop => 0x00
  | .ld .. => 0x01
  | .st .. => 0x02
  | .seta .. => 0x03
  | .adda .. => 0x04
  | .send .. => 0x08
  | .recv .. => 0x09
  | .gather .. => 0x0C
  | .scatter .. => 0x0D
  | .dmat .. => 0x10

theorem encodeMem_opcode (m : Mem) : fld (encodeMem m) 42 6 = m.opcode := by
  cases m <;> simp (disch := decide) only [encodeMem, fld_append_high, Mem.opcode] <;> rfl

theorem decodeMem_encodeMem {m : Mem} (h : m.ok = true) : decodeMem (encodeMem m) = some m := by
  cases m <;> simp only [decodeMem, encodeMem_opcode, Mem.opcode, BitVec.ofNat_eq_ofNat, BitVec.reduceEq, ↓reduceIte, guardSome_eq_some]
  case nop => decide
  all_goals simp (disch := decide) only [encodeMem, fld_append_low, fld_append_high, bit1_append_low, bit1_append_high, fld_whole, bit1_b1]
  case ld | st => exact ⟨h, trivial⟩
  all_goals decide

theorem encodeMem_of_decodeMem {w : BitVec 48} {m : Mem} (h : decodeMem w = some m) : m.ok = true ∧ encodeMem m = w := by
  simp only [decodeMem, BitVec.ofNat_eq_ofNat] at h
  split_ifs at h with hnop hld hst hseta hadda hsend hrecv hgather hscatter hdmat
  all_goals
    simp only [guardSome_eq_some, Bool.and_eq_true, beq_iff_eq] at h
    obtain ⟨hcond, rfl⟩ := h
  · exact ⟨rfl, zero_eq_of_fields hnop hcond⟩
  · exact ⟨hcond, by simp (disch := decide) only [encodeMem, ← hld, b1_bit1, fld_append_fld, fld_whole]⟩
  · exact ⟨hcond, by simp (disch := decide) only [encodeMem, ← hst, b1_bit1, fld_append_fld, fld_whole]⟩
  · exact ⟨rfl, by simp (disch := decide) only [encodeMem, ← hseta, ← hcond, fld_append_fld, fld_whole]⟩
  · exact ⟨rfl, by simp (disch := decide) only [encodeMem, ← hadda, ← hcond, fld_append_fld, fld_whole]⟩
  · exact ⟨rfl, by simp (disch := decide) only [encodeMem, ← hsend, ← hcond, fld_append_fld, fld_whole]⟩
  · exact ⟨rfl, by simp (disch := decide) only [encodeMem, ← hrecv, ← hcond, fld_append_fld, fld_whole]⟩
  · exact ⟨rfl, by simp (disch := decide) only [encodeMem, ← hgather, ← hcond, fld_append_fld, fld_whole]⟩
  · exact ⟨rfl, by simp (disch := decide) only [encodeMem, ← hscatter, ← hcond, fld_append_fld, fld_whole]⟩
  · exact ⟨rfl, by simp (disch := decide) only [encodeMem, ← hdmat, ← hcond, fld_append_fld, fld_whole]⟩

/-! ## The bundle (Table 5.2) -/

theorem bundle_ok_iff (b : Bundle) : b.ok = true ↔
    b.ctl.ok = true ∧ b.ten.ok = true ∧ vecOk b.vec = true ∧ b.mema.ok = true ∧ b.memb.ok = true := by
  simp only [Bundle.ok, Bool.and_eq_true, and_assoc]

/-- Only a word whose five slots decode is a bundle. -/
theorem decodeBundle_eq_some {w : BitVec 256} {b : Bundle} : decodeBundle w = some b ↔
    decodeCtl (fld w 224 32) = some b.ctl ∧ decodeTen (fld w 160 64) = some b.ten ∧ decodeVec (fld w 96 64) = some b.vec ∧
      decodeMem (fld w 48 48) = some b.mema ∧ decodeMem (fld w 0 48) = some b.memb := by
  unfold decodeBundle
  constructor
  · intro h
    split at h
    · next hctl hten hvec hmema hmemb =>
      obtain rfl := Option.some.inj h
      exact ⟨hctl, hten, hvec, hmema, hmemb⟩
    · simp at h
  · rintro ⟨hctl, hten, hvec, hmema, hmemb⟩
    simp only [hctl, hten, hvec, hmema, hmemb]

theorem decodeBundle_encodeBundle {b : Bundle} (h : b.ok = true) : decodeBundle (encodeBundle b) = some b := by
  obtain ⟨hctl, hten, hvec, hmema, hmemb⟩ := (bundle_ok_iff b).1 h
  rw [decodeBundle_eq_some]
  simp (disch := decide) only [encodeBundle, fld_append_low, fld_append_high, fld_whole, decodeCtl_encodeCtl hctl,
    decodeTen_encodeTen hten, decodeVec_encodeVec hvec, decodeMem_encodeMem hmema, decodeMem_encodeMem hmemb, and_self]

theorem encodeBundle_of_decodeBundle {w : BitVec 256} {b : Bundle} (h : decodeBundle w = some b) : b.ok = true ∧ encodeBundle b = w := by
  obtain ⟨hctl, hten, hvec, hmema, hmemb⟩ := decodeBundle_eq_some.1 h
  obtain ⟨hctlOk, hctl⟩ := encodeCtl_of_decodeCtl hctl
  obtain ⟨htenOk, hten⟩ := encodeTen_of_decodeTen hten
  obtain ⟨hvecOk, hvec⟩ := encodeVec_of_decodeVec hvec
  obtain ⟨hmemaOk, hmema⟩ := encodeMem_of_decodeMem hmema
  obtain ⟨hmembOk, hmemb⟩ := encodeMem_of_decodeMem hmemb
  refine ⟨(bundle_ok_iff b).2 ⟨hctlOk, htenOk, hvecOk, hmemaOk, hmembOk⟩, ?_⟩
  simp (disch := decide) only [encodeBundle, hctl, hten, hvec, hmema, hmemb, fld_append_fld, fld_whole]

/-- Settles O13: slot by slot, the encoding's fields are the slot's, and the fields of a decoded word make up the word. -/
theorem bundleDecodingInvertsEncoding : Obligations.BundleDecodingInvertsEncoding := by
  unfold Obligations.BundleDecodingInvertsEncoding
  exact ⟨fun _ h => decodeBundle_encodeBundle h, fun _ _ h => encodeBundle_of_decodeBundle h⟩

end Sys2Proof.Machine
end

section
/-! SUPPORT. An engine's record in the state, and the slots of the bundle it is issuing. -/

namespace Sys2Proof.Machine

@[simp] theorem eng_setEng_same (s : State) (i : Nat) (x : EngineSt) : (s.setEng i x).eng i = x := aget_aset_same ..

theorem eng_setEng_ne (s : State) {i j : Nat} (x : EngineSt) (h : j ≠ i) : (s.setEng i x).eng j = s.eng j := aget_aset_ne _ _ _ x h

section
variable {s : State} {a : Eng} {i : Nat} (f : Nat → EngineSt → State)

theorem slot_issuing {ok : Bool} (h : s.issuing a = some i) (hok : ok = true) : s.slot a ok f = .next (f i (s.eng i)) := by
  simp only [State.slot, h, hok, ↓reduceIte]

/-- A slot that no engine issues has no effect (R94). -/
theorem slot_reserved {ok : Bool} (hok : ok = false) : s.slot a ok f = .next s := by
  simp only [State.slot, hok, Bool.false_eq_true, ↓reduceIte]
  split <;> rfl

theorem slot_idle (ok : Bool) (h : s.issuing a = none) : s.slot a ok f = .next s := by
  simp only [State.slot, h]

end

end Sys2Proof.Machine
end

section
/-! SUPPORT. The lanes of a vector register, and the operations on them. -/

namespace Sys2Proof.Machine

/-! ## Lanes -/

/-- The 256 lanes whose values a function gives. -/
def lanes (f : Nat → Word) : List Word := (List.range 256).map f

@[simp] theorem length_lanes (f : Nat → Word) : (lanes f).length = 256 := by simp [lanes]

theorem getD_lanes (f : Nat → Word) {k : Nat} (h : k < 256) : (lanes f).getD k 0 = f k := by simp [lanes, h]

theorem v_eq_lanes (x : EngineSt) (r : Nat) : x.v r = lanes (x.lane r) := rfl

theorem map_lanes (f : Word → Word) (g : Nat → Word) : (lanes g).map f = lanes (fun k => f (g k)) := List.map_map ..

theorem zipWith_lanes (f : Word → Word → Word) (g h : Nat → Word) : List.zipWith f (lanes g) (lanes h) = lanes (fun k => f (g k) (h k)) := by
  simp only [lanes, List.zipWith_map, List.zipWith_self]

theorem zipWith3_lanes (f : Word → Word → Word → Word) (g h j : Nat → Word) :
    List.zipWith (fun p c => f p.1 p.2 c) ((lanes g).zip (lanes h)) (lanes j) = lanes (fun k => f (g k) (h k) (j k)) := by
  simp only [lanes, List.zip_map', List.zipWith_map, List.zipWith_self]

theorem zipIdx_lanes (f : Nat → Word → Word) (g : Nat → Word) : (lanes g).zipIdx.map (fun p => f p.2 p.1) = lanes (fun k => f k (g k)) := by
  refine List.ext_getElem (by simp) fun k hk _ => ?_
  simp [lanes]

theorem replicate_eq_lanes (w : Word) : List.replicate 256 w = lanes (fun _ => w) := by
  rw [lanes, List.map_const', List.length_range]

/-! ## What a vector operation queues (R95, Table 5.3) -/

/-- The state after a vector operation of engine `i`: one write of VD and one pending VEC operation, `lat` ticks on. -/
def State.queueVec (s : State) (i : Nat) (vd : BitVec 6) (lat : Nat) (v : List Word) : State :=
  s.setEng i { s.eng i with
    writes := (s.eng i).writes ++ [((s.eng i).tick + lat, .vreg vd.toNat v)]
    ops := (s.eng i).ops ++ [⟨5, (s.eng i).tick + lat⟩] }

/-- The outcome queues, lane by lane, the values of `f`. -/
def QueuesLanes (s : State) (i : Nat) (vd : BitVec 6) (o : Host.Outcome State Fault Refusal) (lat : Nat) (f : Nat → Word) : Prop :=
  ∃ v : List Word, v.length = 256 ∧ (∀ k, k < 256 → v.getD k 0 = f k) ∧ o = .next (s.queueVec i vd lat v)

section
variable {s : State} {a : Eng} {i : Nat} (h : s.issuing a = some i)
include h

theorem vecOp_queues {ok : Bool} (hok : ok = true) (vd : BitVec 6) (lat : Nat) (f : Nat → EngineSt → List Word) :
    s.vecOp a ok vd lat f = .next (s.queueVec i vd lat (f i (s.eng i))) := by
  simp only [State.vecOp, slot_issuing _ h hok, EngineSt.start, State.queueVec, List.append_nil]

theorem vecOp_queuesLanes {o : Host.Outcome State Fault Refusal} {ok : Bool} {vd : BitVec 6} {lat : Nat} {f : Nat → EngineSt → List Word}
    {g : Nat → Word} (ho : o = s.vecOp a ok vd lat f) (hok : ok = true) (hf : f i (s.eng i) = lanes g) : QueuesLanes s i vd o lat g :=
  ⟨lanes g, length_lanes g, fun _ => getD_lanes g, by rw [ho, vecOp_queues h hok, hf]⟩

theorem vec1_queues {o : Host.Outcome State Fault Refusal} {vd va : BitVec 6} {lat : Nat} {f : Word → Word} (ho : o = s.vec1 a vd va lat f) :
    QueuesLanes s i vd o lat (fun k => f ((s.eng i).lane va.toNat k)) :=
  vecOp_queuesLanes h ho rfl (map_lanes f _)

theorem vec2_queues {o : Host.Outcome State Fault Refusal} {vd va vb : BitVec 6} {lat : Nat} {f : Word → Word → Word}
    (ho : o = s.vec2 a vd va vb lat f) :
    QueuesLanes s i vd o lat (fun k => f ((s.eng i).lane va.toNat k) ((s.eng i).lane vb.toNat k)) :=
  vecOp_queuesLanes h ho rfl (zipWith_lanes f _ _)

theorem vec3_queues {o : Host.Outcome State Fault Refusal} {vd va vb vc : BitVec 6} {lat : Nat} {f : Word → Word → Word → Word}
    (ho : o = s.vec3 a vd va vb vc lat f) :
    QueuesLanes s i vd o lat (fun k => f ((s.eng i).lane va.toNat k) ((s.eng i).lane vb.toNat k) ((s.eng i).lane vc.toNat k)) :=
  vecOp_queuesLanes h ho rfl (zipWith3_lanes f _ _ _)

end

/-- Settles O14: every operation of the lists is one of the lane-wise forms, with its row's latency and function. -/
theorem vectorOperationsQueueTheirResult : Obligations.VectorOperationsQueueTheirResult := by
  unfold Obligations.VectorOperationsQueueTheirResult
  intro s a i vd va vb vc imm n cond h
  refine ⟨fun p hp => ?_, fun p hp => ?_, ?_, ?_, ?_, fun hcond => ?_⟩
  · have hform : exec p.1 s = s.vec2 a vd va vb p.2.1 p.2.2 := by
      simp only [List.mem_cons, List.not_mem_nil, or_false] at hp
      rcases hp with rfl | rfl | rfl | rfl | rfl | rfl | rfl | rfl | rfl | rfl <;> rfl
    exact vec2_queues h hform
  · have hform : exec p.1 s = s.vec1 a vd va p.2.1 p.2.2 := by
      simp only [List.mem_cons, List.not_mem_nil, or_false] at hp
      rcases hp with rfl | rfl | rfl | rfl | rfl | rfl | rfl | rfl | rfl | rfl | rfl | rfl <;> rfl
    exact vec1_queues h hform
  · exact vec3_queues h (f := fmaF32) rfl
  · exact vec3_queues h (f := fun p q c => if c = 0 then q else p) rfl
  · exact vecOp_queuesLanes h (f := fun _ _ => List.replicate 256 imm) rfl rfl (replicate_eq_lanes imm)
  · exact vecOp_queuesLanes h
      (f := fun _ x => List.zipWith (fun p q => if condF32 cond.toNat p q then 0xFFFFFFFF else 0) (x.v va.toNat) (x.v vb.toNat))
      rfl (decide_eq_true hcond) (zipWith_lanes _ _ _)

/-! ## Conversions, reductions and moves -/

section
variable {s : State} {a : Eng} {i : Nat} (h : s.issuing a = some i) (vd va vb : BitVec 6) (fmt : BitVec 4) (rm : BitVec 2)
  (xsel : BitVec 3) (osa : BitVec 15)
include h

theorem vcvtf_queues (hok : cvtOk 0x30 fmt rm = true) : exec (.vcvtf a vd va vb fmt rm) s = .next (s.queueVec i vd 6
    (vcvtf fmt.toNat rm.toNat (s.laneRand i (s.eng i)) ((s.eng i).v va.toNat) ((s.eng i).v vb.toNat))) :=
  vecOp_queues h hok vd 6 fun i x => vcvtf fmt.toNat rm.toNat (s.laneRand i x) (x.v va.toNat) (x.v vb.toNat)

theorem vcvtn_queues (hok : cvtOk 0x31 fmt rm = true) : exec (.vcvtn a vd va vb fmt rm) s = .next (s.queueVec i vd 6
    (vcvtn fmt.toNat rm.toNat (s.laneRand i (s.eng i)) ((s.eng i).v va.toNat) ((s.eng i).v vb.toNat))) :=
  vecOp_queues h hok vd 6 fun i x => vcvtn fmt.toNat rm.toNat (s.laneRand i x) (x.v va.toNat) (x.v vb.toNat)

theorem vbmax_queues (hok : cvtOk 0x32 fmt rm = true) : exec (.vbmax a vd va fmt rm) s = .next (s.queueVec i vd 8
    (vbmax fmt.toNat ((s.eng i).v va.toNat))) :=
  vecOp_queues h hok vd 8 fun _ x => vbmax fmt.toNat (x.v va.toNat)

theorem vecIdx_queues {ok : Bool} (hok : ok = true) (lat : Nat) (f : Nat → EngineSt → Nat → Word → Word) :
    s.vecOp a ok vd lat (fun i x => (x.v va.toNat).zipIdx.map fun p => f i x p.2 p.1) =
      .next (s.queueVec i vd lat (lanes fun k => f i (s.eng i) k ((s.eng i).lane va.toNat k))) := by
  rw [vecOp_queues h hok, v_eq_lanes, zipIdx_lanes]

theorem vftoi_queues (hrm : rm.toNat ≤ 2) : exec (.vftoi a vd va rm) s = .next (s.queueVec i vd 6
    (lanes fun k => ftoi rm.toNat (s.laneRand i (s.eng i) k) ((s.eng i).lane va.toNat k))) :=
  vecIdx_queues h vd va (ok := cvtOk 0x33 0 rm) (by simp [cvtOk, cvtFmtOk, hrm]) 6 fun i x k => ftoi rm.toNat (s.laneRand i x k)

theorem vitof_queues (hrm : rm.toNat ≤ 2) : exec (.vitof a vd va rm) s = .next (s.queueVec i vd 6
    (lanes fun k => itof rm.toNat (s.laneRand i (s.eng i) k) ((s.eng i).lane va.toNat k))) :=
  vecIdx_queues h vd va (ok := cvtOk 0x34 0 rm) (by simp [cvtOk, cvtFmtOk, hrm]) 6 fun i x k => itof rm.toNat (s.laneRand i x k)

theorem vld_queues : exec (.vld a vd xsel osa) s = .next (s.queueVec i vd 4
    (lanes fun k => (((s.eng i).ln ((s.eng i).osa xsel osa + k / 16)) >>> (32 * (k % 16))).setWidth 32)) :=
  vecOp_queues h rfl vd 4 fun _ x => (List.range 256).map fun k => ((x.ln (x.osa xsel osa + k / 16)) >>> (32 * (k % 16))).setWidth 32

theorem vrsum_queues : exec (.vrsum a vd va) s = .next (s.queueVec i vd 10 (laneZero ((treeF32 addF32 8 ((s.eng i).v va.toNat)).headD 0))) :=
  vecOp_queues h rfl vd 10 fun _ x => laneZero ((treeF32 addF32 8 (x.v va.toNat)).headD 0)

theorem vrmax_queues : exec (.vrmax a vd va) s = .next (s.queueVec i vd 10 (laneZero ((treeF32 maxF32 8 ((s.eng i).v va.toNat)).headD 0))) :=
  vecOp_queues h rfl vd 10 fun _ x => laneZero ((treeF32 maxF32 8 (x.v va.toNat)).headD 0)

theorem vst_queues : exec (.vst a va xsel osa) s = .next (s.setEng i { s.eng i with
    writes := (s.eng i).writes ++ (List.range 16).map (fun j =>
      ((s.eng i).tick + 2, .store (((s.eng i).osa xsel osa + j) % 32768) (vregLine ((s.eng i).v va.toNat) j)))
    ops := (s.eng i).ops ++ [⟨5, (s.eng i).tick + 2⟩] }) := by
  show execVst a va xsel osa s = _
  simp only [execVst, slot_issuing _ h, EngineSt.start, List.append_nil]

theorem vnop_none : exec (.vnop a) s = .next s := slot_issuing (fun _ _ => s) h rfl

end

section
variable {s : State} (a : Eng) (vd va vb : BitVec 6) {fmt : BitVec 4} {rm : BitVec 2} {cond : BitVec 3}

theorem vcmp_reserved (hcond : 4 < cond.toNat) : exec (.vcmp a vd va vb cond) s = .next s := by
  show execVcmp a vd va vb cond s = _
  rw [execVcmp, State.vecOp, slot_reserved _ (decide_eq_false (Nat.not_le.2 hcond))]

theorem vcvtf_reserved (hbad : cvtOk 0x30 fmt rm = false) : exec (.vcvtf a vd va vb fmt rm) s = .next s := by
  show execVcvtf a vd va vb fmt rm s = _
  rw [execVcvtf, State.vecOp, slot_reserved _ hbad]

theorem vcvtn_reserved (hbad : cvtOk 0x31 fmt rm = false) : exec (.vcvtn a vd va vb fmt rm) s = .next s := by
  show execVcvtn a vd va vb fmt rm s = _
  rw [execVcvtn, State.vecOp, slot_reserved _ hbad]

theorem vbmax_reserved (hbad : cvtOk 0x32 fmt rm = false) : exec (.vbmax a vd va fmt rm) s = .next s := by
  show execVbmax a vd va fmt rm s = _
  rw [execVbmax, State.vecOp, slot_reserved _ hbad]

end

/-- Settles O15: conversions, reductions and moves for the issuing engine, and the slots that nothing issues. -/
theorem vectorConversionsReductionsAndMoves : Obligations.VectorConversionsReductionsAndMoves := by
  unfold Obligations.VectorConversionsReductionsAndMoves
  intro s a vd va vb fmt rm xsel osa cond
  refine ⟨fun i h => ⟨vcvtf_queues h vd va vb fmt rm, vcvtn_queues h vd va vb fmt rm, vbmax_queues h vd va fmt rm,
    fun hrm => ⟨⟨_, vftoi_queues h vd va rm hrm, fun _ => getD_lanes _⟩, ⟨_, vitof_queues h vd va rm hrm, fun _ => getD_lanes _⟩⟩,
    vrsum_queues h vd va, vrmax_queues h vd va, ⟨_, vld_queues h vd xsel osa, fun _ => getD_lanes _⟩,
    ⟨_, by rw [List.length_map, List.length_range], vst_queues h va xsel osa, fun j hj => by simp [hj]⟩, vnop_none h,
    vcmp_reserved a vd va vb, vcvtf_reserved a vd va vb, vcvtn_reserved a vd va vb, vbmax_reserved a vd va⟩, fun h c hc => ?_⟩
  simp only [List.mem_cons, List.not_mem_nil, or_false] at hc
  rcases hc with rfl | rfl | rfl | rfl | rfl | rfl
  · show execVadd a vd va vb s = _
    rw [execVadd, State.vec2, State.vecOp, slot_idle _ _ h]
  · show execVcvtf a vd va vb fmt rm s = _
    rw [execVcvtf, State.vecOp, slot_idle _ _ h]
  · show execVrsum a vd va s = _
    rw [execVrsum, State.vecOp, slot_idle _ _ h]
  · show execVld a vd xsel osa s = _
    rw [execVld, State.vecOp, slot_idle _ _ h]
  · show execVst a va xsel osa s = _
    rw [execVst, slot_idle _ _ h]
  · show execVnop a s = _
    rw [execVnop, slot_idle _ _ h]

end Sys2Proof.Machine
end

section
/-! One tick of a stalled engine at which one of its writes is due (R95). -/

namespace Sys2Proof.Machine

/-- A write of one register or one line of the engine. -/
def WriteOp.plain : WriteOp → Bool
  | .areg .. | .vreg .. | .store .. => true
  | _ => false

/-- An engine with one write due, at the tick at which it is. -/
def EngineSt.atTick (x : EngineSt) (tau : Nat) : EngineSt := { x with writes := [], reads := [], tick := tau }

section
variable {s : State} {i tau : Nat} {op : WriteOp}

theorem engTick_plain (hreads : (s.eng i).reads = []) (hwrites : (s.eng i).writes = [(tau, op)]) (hop : op.plain = true) :
    s.engTick i tau = (s.setEng i ((s.eng i).atTick tau)).setEng i (((s.eng i).atTick tau).applyWrite op).1 := by
  cases op <;> simp only [WriteOp.plain, Bool.false_eq_true] at hop
  all_goals simp [State.engTick, hreads, hwrites, orderWrites, State.applyWrites, State.applyWrite, EngineSt.applyWrite, EngineSt.atTick]

/-- With issue stalled by a WAIT, the engine goes on to the tick of its next write. -/
theorem opResultVisible_plain {a : Eng} {T : Nat} (hidx : s.engIdx a = some i) (hstall : (s.eng i).stall = .wait T)
    (hreads : (s.eng i).reads = []) (hlt : tau < T) (hwrites : (s.eng i).writes = [(tau, op)]) (hop : op.plain = true) :
    exec (.opResultVisible a) s = .next ((s.setEng i ((s.eng i).atTick tau)).setEng i (((s.eng i).atTick tau).applyWrite op).1) := by
  have hnext : (s.eng i).nextDue (T - 1) = some tau := by
    have hle : tau ≤ T - 1 := by omega
    simp [EngineSt.nextDue, hreads, hwrites, hle]
  show execOpResultVisible a s = _
  simp only [execOpResultVisible, hidx, hstall, hnext, engTick_plain hreads hwrites hop]

theorem opResultVisible_none {a : Eng} {T : Nat} (hidx : s.engIdx a = some i) (hstall : (s.eng i).stall = .wait T)
    (hreads : (s.eng i).reads = []) (hwrites : (s.eng i).writes = []) : exec (.opResultVisible a) s = .next s := by
  have hnext : (s.eng i).nextDue (T - 1) = none := by simp [EngineSt.nextDue, hreads, hwrites]
  show execOpResultVisible a s = _
  simp only [execOpResultVisible, hidx, hstall, hnext]

end

/-- Settles O18: the tick of the one outstanding write takes place, and the write is the engine's own. -/
theorem queuedWritesBecomeVisible : Obligations.QueuedWritesBecomeVisible := by
  unfold Obligations.QueuedWritesBecomeVisible
  intro s a i T tau hidx hstall hreads hlt
  refine ⟨fun r v hwrites => ⟨_, opResultVisible_plain hidx hstall hreads hlt hwrites rfl, ?_⟩,
    fun r v hwrites => ⟨_, opResultVisible_plain hidx hstall hreads hlt hwrites rfl, ?_⟩,
    fun n v hn hwrites => ⟨_, opResultVisible_plain hidx hstall hreads hlt hwrites rfl, ?_⟩, opResultVisible_none hidx hstall hreads⟩
  · rw [eng_setEng_same]
    exact ⟨aget_aset_same .., fun q hq => aget_aset_ne _ _ _ _ hq, rfl, rfl, rfl, rfl,
      fun j hj => by rw [eng_setEng_ne _ _ hj, eng_setEng_ne _ _ hj], rfl⟩
  · rw [eng_setEng_same]
    refine ⟨aget_aset_same .., fun q hq => ?_, rfl, rfl, rfl⟩
    exact congrArg (fun l : List Word => (List.range 256).map fun k => l.getD k 0) (aget_aset_ne _ _ _ _ hq)
  · rw [eng_setEng_same]
    refine ⟨aget_aset_same .., fun m hm hne => aget_aset_ne _ _ _ _ ?_, rfl, rfl, rfl⟩
    rwa [Nat.mod_eq_of_lt hm, Nat.mod_eq_of_lt hn]

end Sys2Proof.Machine
end

section
/-! SUPPORT. The end of a bundle (R93): what is counted, where the engine goes on, and what is left alone. -/

namespace Sys2Proof.Machine

/-! ## 64-bit pairs -/

@[simp] theorem rd64_wr64_same (s : State) (lo : Nat) (v : Dword) : (s.wr64 lo v).rd64 lo = v := by
  have hlo : (s.wr64 lo v).rd lo = v.setWidth 32 := by rw [State.wr64, rd_wr_ne _ _ (by omega), rd_wr_same]
  have hhi : (s.wr64 lo v).rd (lo + 4) = (v >>> 32).setWidth 32 := rd_wr_same ..
  rw [State.rd64, hlo, hhi]
  ext k hk
  rw [BitVec.getElem_append]
  split
  · rw [BitVec.getElem_setWidth, BitVec.getLsbD_eq_getElem hk]
  · next hge =>
    have hk' : 32 + (k - 32) = k := by omega
    rw [BitVec.getElem_setWidth, BitVec.getLsbD_ushiftRight, hk', BitVec.getLsbD_eq_getElem hk]

theorem rd64_wr_ne (s : State) {lo o : Nat} (v : Word) (hlo : lo ≠ o) (hhi : lo + 4 ≠ o) : (s.wr o v).rd64 lo = s.rd64 lo := by
  rw [State.rd64, State.rd64, rd_wr_ne s v hlo, rd_wr_ne s v hhi]

/-! ## Engines with nothing in flight -/

theorem engRun_idle {s : State} {i : Nat} (hreads : (s.eng i).reads = []) (hwrites : (s.eng i).writes = []) (t n : Nat) :
    s.engRun i t n = s := by
  cases n with
  | zero => rfl
  | succ n => simp [State.engRun, EngineSt.nextDue, hreads, hwrites]

/-- With nothing in flight, time moves on and the operations done by then are no longer pending. -/
theorem engAdvance_idle {s : State} {i : Nat} (hreads : (s.eng i).reads = []) (hwrites : (s.eng i).writes = []) (t : Nat) :
    s.engAdvance i t = s.setEng i { s.eng i with tick := max (s.eng i).tick t, ops := (s.eng i).ops.filter (fun o => t < o.done) } := by
  simp only [State.engAdvance, engRun_idle hreads hwrites]

theorem engResume_idle {s : State} {i : Nat} (hreads : (s.eng i).reads = []) (hwrites : (s.eng i).writes = []) (t : Nat) :
    s.engResume i t = (s.setEng i { s.eng i with stall := .none }).setEng i
      { s.eng i with stall := .none, tick := max (s.eng i).tick t, ops := (s.eng i).ops.filter (fun o => t < o.done) } := by
  rw [State.engResume, engAdvance_idle (by rwa [eng_setEng_same]) (by rwa [eng_setEng_same]), eng_setEng_same]

/-! ## The end of a bundle -/

/-- ISSUE has risen by one, and LAST_PC holds the bundle's address and loop depth (Tables 5.8, 5.10). -/
def Counted (s t : State) (i : Nat) : Prop :=
  t.rd64 (Reg.ENGINE_ISSUE_LO (i / 16) (i % 16)) = s.rd64 (Reg.ENGINE_ISSUE_LO (i / 16) (i % 16)) + 1 ∧
    t.rd (Reg.ENGINE_LAST_PC (i / 16) (i % 16)) = BitVec.ofNat 32 ((s.eng i).pc.toNat + 8192 * (s.eng i).loops.length)

theorem countBundle_counted (s : State) (i : Nat) : Counted s (s.countBundle i) i := by
  refine ⟨?_, rd_wr_same ..⟩
  rw [State.countBundle, rd64_wr_ne _ _ (by simp) (by simp), State.bump64, rd64_wr64_same]
  rfl

theorem Counted.of_regs {s t u : State} {i : Nat} (h : Counted s t i) (hregs : u.regs = t.regs) : Counted s u i := by
  rw [Counted, State.rd64, rd_congr hregs, rd_congr hregs, rd_congr hregs]
  exact h

/-- A field of a register that holds what it held. -/
theorem flag_of_rd {s t : State} {o : Nat} (h : t.rd o = s.rd o) (lo w : Nat) : t.flag ⟨o, lo, w⟩ = s.flag ⟨o, lo, w⟩ :=
  congrArg (fun v => bitsOf v lo w != 0) h

/-- Registers of the page other than ISSUE and LAST_PC are left alone. -/
theorem countBundle_rd (s : State) (i k : Nat) (hk : k ∉ [0x54, 0x58, 0x5C]) :
    (s.countBundle i).rd (P.ENGINE (i / 16) (i % 16) + k) = s.rd (P.ENGINE (i / 16) (i % 16) + k) := by
  simp only [List.mem_cons, List.not_mem_nil, or_false, not_or] at hk
  obtain ⟨hlo, hhi, hlast⟩ := hk
  have hne {m : Nat} (hm : k ≠ m) : P.ENGINE (i / 16) (i % 16) + k ≠ P.ENGINE (i / 16) (i % 16) + m := fun h => hm (Nat.add_left_cancel h)
  rw [State.countBundle, rd_wr_ne _ _ (hne hlast), State.bump64, State.wr64, rd_wr_ne _ _ (hne hhi), rd_wr_ne _ _ (hne hlo)]

theorem eng_congr {s t : State} (h : t.engines = s.engines) (j : Nat) : t.eng j = s.eng j := by
  rw [State.eng, State.eng, h]

theorem countBundle_eng (s : State) (i j : Nat) : (s.countBundle i).eng j = s.eng j := eng_congr rfl j

/-- The engine goes on with `y` at the next tick, its operations done by then no longer pending. -/
def EngineSt.afterBundle (y : EngineSt) : EngineSt :=
  { y with count := y.count + 1, tick := y.tick + 1, ops := y.ops.filter (fun o => y.tick + 1 < o.done) }

/-- Only the engine and its counts have changed. -/
def BundleLeaves (s t : State) (i : Nat) (y : EngineSt) : Prop :=
  Counted s t i ∧ t.eng i = y ∧ (∀ j, j ≠ i → t.eng j = s.eng j) ∧ t = { s with regs := t.regs, engines := t.engines }

section
variable (s : State) (i : Nat) {y : EngineSt}

theorem endBundle_stalled (hstall : y.stall ≠ .none) :
    s.endBundle i y = (s.countBundle i).setEng i { y with count := y.count + 1 } := if_neg hstall

theorem endBundle_idle (hstall : y.stall = .none) (hreads : y.reads = []) (hwrites : y.writes = []) :
    s.endBundle i y = ((s.countBundle i).setEng i { y with count := y.count + 1 }).setEng i y.afterBundle := by
  rw [State.endBundle, if_pos hstall, engAdvance_idle (by rwa [eng_setEng_same]) (by rwa [eng_setEng_same]), eng_setEng_same]
  simp [EngineSt.afterBundle]

theorem endBundle_regs (h : y.stall ≠ .none ∨ y.stall = .none ∧ y.reads = [] ∧ y.writes = []) :
    (s.endBundle i y).regs = (s.countBundle i).regs := by
  rcases h with hstall | ⟨hstall, hreads, hwrites⟩
  · rw [endBundle_stalled s i hstall, State.setEng_regs]
  · rw [endBundle_idle s i hstall hreads hwrites, State.setEng_regs, State.setEng_regs]

theorem endBundle_stalls (hstall : y.stall ≠ .none) : BundleLeaves s (s.endBundle i y) i { y with count := y.count + 1 } := by
  rw [endBundle_stalled s i hstall]
  exact ⟨(countBundle_counted s i).of_regs rfl, eng_setEng_same .., fun j hj => (eng_setEng_ne _ _ hj).trans (countBundle_eng s i j), rfl⟩

theorem endBundle_ends (hstall : y.stall = .none) (hreads : y.reads = []) (hwrites : y.writes = []) :
    BundleLeaves s (s.endBundle i y) i y.afterBundle := by
  rw [endBundle_idle s i hstall hreads hwrites]
  exact ⟨(countBundle_counted s i).of_regs rfl, eng_setEng_same ..,
    fun j hj => by rw [eng_setEng_ne _ _ hj, eng_setEng_ne _ _ hj, countBundle_eng], rfl⟩

end

end Sys2Proof.Machine
end

section
/-! The operations of the CTL slot (Table 5.4): the bundle they end, or the stall they begin. -/

namespace Sys2Proof.Machine

section
variable {s : State} {a : Eng} {i : Nat}

theorem engIdx_of_issuing (h : s.issuing a = some i) : s.engIdx a = some i ∧ (s.eng i).stall = .none := by
  unfold State.issuing at h
  split at h
  · next j hj =>
    split at h
    · next hstep =>
      obtain rfl := Option.some.inj h
      exact ⟨hj, of_decide_eq_true (Bool.and_eq_true_iff.1 hstep).2⟩
    · cases h
  · cases h

/-! ## What each operation does for the engine that is issuing -/

variable (h : s.issuing a = some i)
include h

theorem nop_issued : exec (.nop a) s = .next (s.endBundle i (s.eng i).next) := slot_issuing (fun i x => s.endBundle i x.next) h rfl

theorem wait_issued (n : BitVec 16) :
    exec (.wait a n) s = .next (s.endBundle i { (s.eng i).next with stall := .wait ((s.eng i).tick + 2 + n.toNat) }) :=
  slot_issuing (fun i x => s.endBundle i { x.next with stall := .wait (x.tick + 2 + n.toNat) }) h rfl

theorem loop_issued (n : BitVec 16) : exec (.loop a n) s = .next (if (s.eng i).loops.length < 4 then
    s.endBundle i { (s.eng i).next with loops := ⟨n.toNat + 1, (s.eng i).pc + 1⟩ :: (s.eng i).loops } else s) := by
  show execLoop a n s = _
  rw [execLoop, slot_issuing _ h rfl]

theorem epochWait_issued (e : BitVec 16) :
    exec (.epochWait a e) s = .next (s.endBundle i { (s.eng i).next with stall := .epoch (4096 * e.toNat) }) :=
  slot_issuing (fun i x => s.endBundle i { x.next with stall := .epoch (4096 * e.toNat) }) h rfl

theorem fence_issued (m : BitVec 6) :
    exec (.fence a m) s = .next (if (s.eng i).ops.any (fun o => m.getLsbD o.cls) || (m.getLsbD 3 && s.dmaOutstanding i) then
      s.endBundle i { (s.eng i).next with stall := .fence m } else s.endBundle i (s.eng i).next) := by
  show execFence a m s = _
  rw [execFence, slot_issuing _ h rfl]

theorem seg_issued (target : BitVec 13) : exec (.seg a target) s = .next (s.endBundle i { s.eng i with pc := target }) :=
  slot_issuing (fun i x => s.endBundle i { x with pc := target }) h rfl

theorem xset_issued {r : BitVec 3} (hr : r ≠ 0) (v : BitVec 16) : exec (.xset a r v) s =
    .next (s.endBundle i { (s.eng i).next with xregs := aset 0 (s.eng i).xregs r.toNat v }) :=
  slot_issuing (fun i x => s.endBundle i { x.next with xregs := aset 0 x.xregs r.toNat v }) h (bne_iff_ne.2 hr)

theorem endloop_unopened (r : BitVec 3) (xen : Bool) (st : BitVec 16) (hloops : (s.eng i).loops = []) :
    exec (.endloop a r xen st) s = .next s := by
  show execEndloop a r xen st s = _
  cases hok : Ctl.ok (.endloop r xen st)
  · rw [execEndloop, slot_reserved _ hok]
  · rw [execEndloop, slot_issuing _ h hok]
    simp only [hloops]

/-- The engine with index register `r` stepped where the ENDLOOP says so. -/
def EngineSt.stepX (x : EngineSt) (r : BitVec 3) (xen : Bool) (st : BitVec 16) : EngineSt :=
  if xen then { x with xregs := aset 0 x.xregs r.toNat (aget 0 x.xregs r.toNat + st) } else x

theorem endloop_issued {r : BitVec 3} (hr : r ≠ 0) (xen : Bool) (st : BitVec 16) {l : LoopLevel} {ls : List LoopLevel}
    (hloops : (s.eng i).loops = l :: ls) : exec (.endloop a r xen st) s = .next (if l.count ≤ 1 then
      s.endBundle i { ((s.eng i).stepX r xen st).next with loops := ls }
      else s.endBundle i { (s.eng i).stepX r xen st with pc := l.body, loops := { l with count := l.count - 1 } :: ls }) := by
  have hok : Ctl.ok (.endloop r xen st) = true := bne_iff_ne.2 hr
  show execEndloop a r xen st s = _
  rw [execEndloop, slot_issuing _ h hok]
  revert hloops
  generalize s.eng i = x
  intro hloops
  cases x
  cases hloops
  rfl

/-- COMPUTE.STAND_EVT raised by engine `i` (R101). -/
def State.standEvt (s : State) (i : Nat) (code : BitVec 8) : State :=
  s.raise (P.ENGINE (i / 16) (i % 16)) B.ENGINE_STAND_EVT Evn.COMPUTE_STAND_EVT
    (some (Config.standEvt 0 code.toNat (s.leiOf i) (s.rd Reg.STAND_CUR_STEP_LO) (s.eng i).count))
    (some (Config.standEvt 1 code.toNat (s.leiOf i) (s.rd Reg.STAND_CUR_STEP_LO) (s.eng i).count))

theorem evt_issued (code : BitVec 8) : exec (.evt a code) s = .next ((s.standEvt i code).endBundle i (s.eng i).next) := by
  show execEvt a code s = _
  rw [execEvt, slot_issuing _ h rfl]
  rfl

/-- HALT: issue is over, and STATUS says so (R102). -/
def State.haltReached (s : State) (i : Nat) : State :=
  (s.putB (F.ENGINE_STATUS_ISSUING (i / 16) (i % 16)) false).putB (F.ENGINE_STATUS_HALT_REACHED (i / 16) (i % 16)) true

theorem halt_issued : exec (.halt a) s = .next ((s.haltReached i).endBundle i { s.eng i with stall := .halted }) :=
  slot_issuing (fun i x => (s.haltReached i).endBundle i { x with stall := .halted }) h rfl

end

theorem haltReached_flags (s : State) (i : Nat) : (s.haltReached i).flag (F.ENGINE_STATUS_ISSUING (i / 16) (i % 16)) = false ∧
    (s.haltReached i).flag (F.ENGINE_STATUS_HALT_REACHED (i / 16) (i % 16)) = true := by
  refine ⟨?_, flag_putB_same _ _ _ (by simp) rfl⟩
  rw [State.haltReached, flag_putB_disj _ _ _ _ (by simp) (by simp [Fld.disj]), flag_putB_same _ _ _ (by simp) rfl]

theorem haltReached_issue (s : State) (i : Nat) : (s.haltReached i).rd64 (Reg.ENGINE_ISSUE_LO (i / 16) (i % 16)) =
    s.rd64 (Reg.ENGINE_ISSUE_LO (i / 16) (i % 16)) :=
  (rd64_wr_ne _ _ (by simp) (by simp)).trans (rd64_wr_ne _ _ (by simp) (by simp))

/-! ## The stalls' ends (R97, R99) -/

section
variable {s : State} {a : Eng} {i : Nat} (hidx : s.engIdx a = some i)
include hidx

theorem waitExpire_resumes {T : Nat} (hstall : (s.eng i).stall = .wait T) : exec (.waitExpire a) s = .next (s.engResume i T) := by
  show execWaitExpire a s = _
  simp only [execWaitExpire, hidx, hstall]

theorem epochWaitRelease_stalled {T : Nat} (hstall : (s.eng i).stall = .epoch T) :
    exec (.epochWaitRelease a) s = if T ≤ 4096 * s.stepEpoch then .next (s.engResume i T) else .next s := by
  show execEpochWaitRelease a s = _
  simp only [execEpochWaitRelease, hidx, hstall]

theorem fenceResume_resumes {m : BitVec 6} (hstall : (s.eng i).stall = .fence m) (hdma : m.getLsbD 3 = false) :
    exec (.fenceResume a) s = .next (s.engResume i ((s.eng i).fenceTick m)) := by
  show execFenceResume a s = _
  simp only [execFenceResume, hidx, hstall, hdma, Bool.false_and, Bool.false_eq_true, ↓reduceIte]

end

end Sys2Proof.Machine
end

section
/-! The CTL slot: one lemma for each part of O16. -/

namespace Sys2Proof.Machine

/-! ## For the engine that is issuing -/

section
variable {s : State} {a : Eng} {i : Nat} (h : s.issuing a = some i)
include h

/-- Where the engine goes on unstalled and nothing is in flight, the bundle ends. -/
theorem ends_of_exec {c : Instr} {y : EngineSt} (hexec : exec c s = .next (s.endBundle i y)) (hstall : y.stall = (s.eng i).stall)
    (hreads : y.reads = []) (hwrites : y.writes = []) : ∃ t, exec c s = .next t ∧ Counted s t i ∧ t.eng i = y.afterBundle ∧
      (∀ j, j ≠ i → t.eng j = s.eng j) ∧ t = { s with regs := t.regs, engines := t.engines, evt := t.evt, glade := t.glade } := by
  obtain ⟨hcounted, heng, hothers, hframe⟩ := endBundle_ends s i (hstall.trans (engIdx_of_issuing h).2) hreads hwrites
  refine ⟨_, hexec, hcounted, heng, hothers, ?_⟩
  rw [hframe]

theorem evt_raises (code : BitVec 8) (hreads : (s.eng i).reads = []) (hwrites : (s.eng i).writes = []) : ∃ t, exec (.evt a code) s = .next t ∧
    t.summary (P.ENGINE (i / 16) (i % 16)) B.ENGINE_STAND_EVT = true ∧
    (t.eng i).pc = (s.eng i).pc + 1 ∧ (t.eng i).count = (s.eng i).count + 1 ∧ (t.eng i).tick = (s.eng i).tick + 1 := by
  have hstall : (s.eng i).next.stall = .none := (engIdx_of_issuing h).2
  have hpage : P.ENGINE (i / 16) (i % 16) % 4096 = 0 := by
    show (0x101000 + 0x10000 * (i / 16) + 0x1000 * (i % 16)) % 4096 = 0
    omega
  have hset : (s.standEvt i code).summary (P.ENGINE (i / 16) (i % 16)) B.ENGINE_STAND_EVT = true :=
    raise_summary _ _ _ _ _ _ (by decide) hpage
  have hkept : ((s.standEvt i code).endBundle i (s.eng i).next).rd (Hdr.EVT_SUMMARY (P.ENGINE (i / 16) (i % 16))) =
      (s.standEvt i code).rd (Hdr.EVT_SUMMARY (P.ENGINE (i / 16) (i % 16))) :=
    (rd_congr (endBundle_regs _ i (.inr ⟨hstall, hreads, hwrites⟩)) _).trans (countBundle_rd _ i 0x14 (by decide))
  obtain ⟨_, heng, _⟩ := endBundle_ends (s.standEvt i code) i hstall hreads hwrites
  refine ⟨_, evt_issued h code, (flag_of_rd hkept _ _).trans hset, ?_⟩
  rw [heng]
  exact ⟨rfl, rfl, rfl⟩

theorem halt_stalls : ∃ t, exec (.halt a) s = .next t ∧ BundleLeaves s t i { s.eng i with stall := .halted, count := (s.eng i).count + 1 } ∧
    t.flag (F.ENGINE_STATUS_ISSUING (i / 16) (i % 16)) = false ∧ t.flag (F.ENGINE_STATUS_HALT_REACHED (i / 16) (i % 16)) = true := by
  have hstall : ({ s.eng i with stall := .halted } : EngineSt).stall ≠ .none := nofun
  have hstatus : ((s.haltReached i).endBundle i { s.eng i with stall := .halted }).rd (Reg.ENGINE_STATUS (i / 16) (i % 16)) =
      (s.haltReached i).rd (Reg.ENGINE_STATUS (i / 16) (i % 16)) :=
    (rd_congr (endBundle_regs _ i (.inl hstall)) _).trans (countBundle_rd _ i 0x44 (by decide))
  obtain ⟨⟨hissue, hlast⟩, heng, hothers, hframe⟩ := endBundle_stalls (s.haltReached i) i hstall
  obtain ⟨hissuing, hreached⟩ := haltReached_flags s i
  refine ⟨_, halt_issued h, ⟨⟨hissue.trans ?_, hlast⟩, heng, hothers, ?_⟩, (flag_of_rd hstatus 0 1).trans hissuing,
    (flag_of_rd hstatus 1 1).trans hreached⟩
  · rw [haltReached_issue]
  · rw [hframe]
    rfl

end

theorem stalls_of_exec {s : State} {i : Nat} {c : Instr} {y : EngineSt} (hexec : exec c s = .next (s.endBundle i y)) (hstall : y.stall ≠ .none) :
    ∃ t, exec c s = .next t ∧ BundleLeaves s t i { y with count := y.count + 1 } :=
  ⟨_, hexec, endBundle_stalls s i hstall⟩

/-- Settles O16: each operation ends the bundle or stalls issue, and each stall ends at its tick. -/
theorem controlSlotsEndTheBundle : Obligations.ControlSlotsEndTheBundle := by
  unfold Obligations.ControlSlotsEndTheBundle
  intro s a i
  refine ⟨fun h => ⟨?_, fun n hlen => ?_, fun n hlen => ?_, fun r st => ?_, fun r st l ls hr hloops hcount => ?_,
    fun r st l ls hr hloops hcount => ?_, fun target => ?_, fun r v hr => ?_, fun m hops hdma => ?_, evt_raises h, fun n => ?_, fun e => ?_,
    fun m hany => ?_, ?_, ?_⟩, fun h c hc => ?_, fun hidx hreads hwrites => ⟨fun T hstall => ?_, fun T hstall hdue => ?_, fun T hstall hdue => ?_,
    fun m hstall hdma => ?_⟩⟩
  · exact ends_of_exec h (nop_issued h) rfl
  · exact ends_of_exec h ((loop_issued h n).trans (congrArg _ (if_pos hlen))) rfl
  · exact (loop_issued h n).trans (congrArg _ (if_neg (by omega)))
  · exact endloop_unopened h r false st
  · exact ends_of_exec h ((endloop_issued h hr true st hloops).trans (congrArg _ (if_pos hcount))) rfl
  · exact ends_of_exec h ((endloop_issued h hr false st hloops).trans (congrArg _ (if_neg (by omega)))) rfl
  · exact ends_of_exec h (seg_issued h target) rfl
  · exact ends_of_exec h (xset_issued h hr v) rfl
  · have hdone : ¬ ((s.eng i).ops.any (fun o => m.getLsbD o.cls) || (m.getLsbD 3 && s.dmaOutstanding i)) = true := by
      rw [hops, hdma]
      simp
    exact ends_of_exec h ((fence_issued h m).trans (congrArg _ (if_neg hdone))) rfl
  · exact stalls_of_exec (wait_issued h n) nofun
  · exact stalls_of_exec (epochWait_issued h e) nofun
  · exact stalls_of_exec ((fence_issued h m).trans (congrArg _ (if_pos (by rw [hany, Bool.true_or])))) nofun
  · obtain ⟨t, hexec, hleaves, _⟩ := halt_stalls h
    exact ⟨t, hexec, hleaves⟩
  · obtain ⟨t, hexec, _, hflags⟩ := halt_stalls h
    exact ⟨t, hexec, hflags⟩
  · simp only [List.mem_cons, List.not_mem_nil, or_false] at hc
    rcases hc with rfl | rfl | rfl | rfl | rfl
    · show execNop a s = _
      rw [execNop, slot_idle _ _ h]
    · show execWait a 0 s = _
      rw [execWait, slot_idle _ _ h]
    · show execLoop a 0 s = _
      rw [execLoop, slot_idle _ _ h]
    · show execSeg a 0 s = _
      rw [execSeg, slot_idle _ _ h]
    · show execHalt a s = _
      rw [execHalt, slot_idle _ _ h]
  · exact (waitExpire_resumes hidx hstall).trans (congrArg _ (engResume_idle hreads hwrites T))
  · exact (epochWaitRelease_stalled hidx hstall).trans ((if_pos hdue).trans (congrArg _ (engResume_idle hreads hwrites T)))
  · exact (epochWaitRelease_stalled hidx hstall).trans (if_neg (Nat.not_le.2 hdue))
  · exact (fenceResume_resumes hidx hstall hdma).trans (congrArg _ (engResume_idle hreads hwrites _))

end Sys2Proof.Machine
end

section
/-! What the units' own registers and fields leave of the module: the frame of a step's start and end (R163 to R168). -/

namespace Sys2Proof.Machine

/-! ## The registers below the units' pages -/

/-- The registers of the pages below those of the groves, without those that an event may change. -/
abbrev Core (o : Nat) : Prop := o < 0x100000 ∧ o ∉ evtOffs

/-- A register of unit `i` of a kind of units. -/
theorem unit_reg {base i k : Nat} (h : 0x100000 ≤ base) : 0x100000 ≤ base + i + k :=
  Nat.le_add_right_of_le (Nat.le_add_right_of_le h)

/-- A register of part `j` of unit `i`: of an engine of a grove, of a window. -/
theorem part_reg {base i j k : Nat} (h : 0x100000 ≤ base) : 0x100000 ≤ base + i + j + k := Nat.le_add_right_of_le (unit_reg h)

/-- From `s` to `t` only registers that are not `Core` change, and the fields that `e` erases. -/
structure Within (e : State → State) (s t : State) : Prop where
  rd   : ∀ o, Core o → t.rd o = s.rd o
  same : e { t with regs := [] } = e { s with regs := [] }

/-- The state without the event arbiter and Glade. -/
def State.sansEvents (s : State) : State := { s with evt := {}, glade := {} }

def State.sansEngines (s : State) : State := { s with engines := [] }

def State.sansGroves (s : State) : State := { s with groves := [] }

variable {e : State → State} {s₀ s t : State}

theorem Within.refl (s : State) : Within e s s := ⟨fun _ _ => rfl, rfl⟩

theorem Within.of_regs (hr : t.regs = s.regs) (hs : e { t with regs := [] } = e { s with regs := [] }) : Within e s t :=
  ⟨fun o _ => rd_congr hr o, hs⟩

theorem Within.trans (h : Within e s₀ s) (h' : Within e s t) : Within e s₀ t :=
  ⟨fun o ho => (h'.rd o ho).trans (h.rd o ho), h'.same.trans h.same⟩

/-- What `e` and the registers have no part in. -/
theorem Within.proj {α : Type} (h : Within e s t) (p : State → α) (hp : ∀ u : State, p (e { u with regs := [] }) = p u) : p t = p s :=
  (hp t).symm.trans ((congrArg p h.same).trans (hp s))

/-- A frame that erases more. -/
theorem Within.weaken {e' : State → State} (h : Within e s t) (he : ∀ u, e' (e u) = e' u) : Within e' s t :=
  ⟨h.rd, (he _).symm.trans ((congrArg e' h.same).trans (he _))⟩

theorem Within.regsOnly (h : Within id s t) : t = { s with regs := t.regs } :=
  congrArg (fun u : State => { u with regs := t.regs }) h.same

theorem Within.get (h : Within e s t) {f : Fld} (hf : Core f.off) : t.get f = s.get f := congrArg (bitsOf · f.lo f.w) (h.rd _ hf)

theorem Within.flag (h : Within e s t) {f : Fld} (hf : Core f.off) : t.flag f = s.flag f := congrArg (· != 0) (h.get hf)

section
variable (h : Within e s₀ s)
include h

theorem Within.wr {o : Nat} {v : Word} (ho : 0x100000 ≤ o) : Within e s₀ (s.wr o v) :=
  ⟨fun _ hp => (rd_wr_ne s v (Nat.ne_of_lt (Nat.lt_of_lt_of_le hp.1 ho))).trans (h.rd _ hp), h.same⟩

theorem Within.putB {f : Fld} {b : Bool} (ho : 0x100000 ≤ f.off) : Within e s₀ (s.putB f b) := h.wr ho
theorem Within.bumpW {o n : Nat} (ho : 0x100000 ≤ o) : Within e s₀ (s.bumpW o n) := h.wr ho

theorem Within.onlyIf {c : Prop} {_ : Decidable c} (k : Within e s₀ t) : Within e s₀ (if c then t else s) := by
  split <;> assumption

theorem Within.onlyIfNot {c : Prop} {_ : Decidable c} (k : Within e s₀ t) : Within e s₀ (if c then s else t) := by
  split <;> assumption

theorem Within.foldl {α : Type} {f : State → α → State} {l : List α} (hf : ∀ x s, Within e s₀ s → Within e s₀ (f s x)) :
    Within e s₀ (l.foldl f s) :=
  List.foldlRecOn l f h fun s hs x _ => hf x s hs

theorem Within.fold {n : Nat} {f : (i : Nat) → i < n → State → State} (hf : ∀ i hi s, Within e s₀ s → Within e s₀ (f i hi s)) :
    Within e s₀ (n.fold f s) := by
  induction n with
  | zero => exact h
  | succ n ih => exact hf n _ _ (ih fun i hi => hf i (by omega))

/-! ## The operations of the units -/

theorem Within.groveDirtyRegs {g : Nat} : Within e s₀ (s.groveDirtyRegs g) :=
  (h.fold fun _ _ _ h => h.wr (part_reg (by decide))).putB (unit_reg (by decide))

theorem Within.lpDirtyRegs : Within e s₀ s.lpDirtyRegs :=
  h.fold fun _ _ _ h => (h.wr (unit_reg (by decide))).putB (unit_reg (by decide))

theorem Within.groveUncommitted {b : Bool} : Within e s₀ (s.groveUncommitted b) := h.fold fun _ _ _ h => h.putB (unit_reg (by decide))

end

end Sys2Proof.Machine
end

section
/-! The windows of the groves and of the LPDDR5X at the end of a step (R141, R166, R245). -/

namespace Sys2Proof.Machine

variable {s₀ s t : State}

/-! ## An operation on every listed grove -/

theorem grove_setGrove (s : State) (g g' : Nat) (x : GroveSt) : (s.setGrove g x).grove g' = if g' = g then x else s.grove g' := aget_aset ..

theorem Within.setGrove (h : Within State.sansGroves s₀ s) {g : Nat} {x : GroveSt} : Within State.sansGroves s₀ (s.setGrove g x) :=
  ⟨h.rd, h.same⟩

theorem groveDirtyRegs_grove (s : State) (g g' : Nat) : (s.groveDirtyRegs g).grove g' = s.grove g' := by
  rw [State.grove, State.grove, ((Within.refl (e := id) s).groveDirtyRegs (g := g)).proj State.groves fun _ => rfl]

section
variable {f : State → Nat × GroveSt → State} {k : GroveSt → GroveSt → GroveSt}
  (hf : ∀ s e g, (f s e).grove g = if g = e.1 then k e.2 (s.grove g) else s.grove g)
include hf

theorem foldl_grove_of_absent {l : List (Nat × GroveSt)} {g : Nat} (hg : ∀ e ∈ l, g ≠ e.1) (s : State) :
    (l.foldl f s).grove g = s.grove g := by
  refine List.foldlRecOn (motive := fun t : State => t.grove g = s.grove g) l f rfl fun t ht e he => ?_
  rw [hf, if_neg (hg e he), ht]

theorem foldl_grove_of_mem {l : List (Nat × GroveSt)} {g : Nat} {x : GroveSt} (hkeys : l.Pairwise fun a b => a.1 < b.1) (hg : (g, x) ∈ l)
    (s : State) : (l.foldl f s).grove g = k x (s.grove g) := by
  induction l generalizing s with
  | nil => cases hg
  | cons e l ih =>
    obtain ⟨hlt, hkeys⟩ := List.pairwise_cons.1 hkeys
    rcases List.mem_cons.1 hg with rfl | hg
    · exact (foldl_grove_of_absent hf (fun e he => Nat.ne_of_lt (hlt e he)) _).trans ((hf s (g, x) g).trans (if_pos rfl))
    · have hne : g ≠ e.1 := Nat.ne_of_gt (hlt _ hg)
      rw [List.foldl_cons, ih hkeys hg, hf, if_neg hne]

end

theorem groves_pairwise (h : s.unitsInRange = true) : s.groves.Pairwise fun a b => a.1 < b.1 := by
  obtain ⟨_, ⟨hwf, _⟩, _⟩ := (unitsInRange_iff s).1 h
  exact (keysRising_iff _).1 (Bool.and_eq_true_iff.1 hwf).1

/-! ## Commit -/

/-- A grove after a commit: its dirty lines flip their select bit and dirty clears. -/
def GroveSt.flipped (x : GroveSt) : GroveSt := { x with sel := flipSel x.sel x.dirty, dirty := [] }

/-- The commit of a grove, which stands as `y`, on behalf of its entry `x`. -/
def GroveSt.flipFor (x y : GroveSt) : GroveSt := if x.wins.isEmpty then y else y.flipped

/-- Every grove with windows commits them. -/
def State.flipGroves (s : State) : State :=
  s.groves.foldl (fun (s : State) e => if e.2.wins.isEmpty then s else s.groveCommit e.1) s

theorem groveCommit_grove (s : State) (g g' : Nat) : (s.groveCommit g).grove g' = if g' = g then (s.grove g').flipped else s.grove g' := by
  refine (groveDirtyRegs_grove (s.setGrove g (s.grove g).flipped) g g').trans ((grove_setGrove ..).trans ?_)
  split <;> simp [*]

theorem flipGroves_grove (h : s.unitsInRange = true) {g : Nat} (hwins : (s.grove g).wins ≠ []) :
    s.flipGroves.grove g = (s.grove g).flipped := by
  have hstep (s : State) (e : Nat × GroveSt) (g : Nat) :
      State.grove (if e.2.wins.isEmpty then s else s.groveCommit e.1) g =
        if g = e.1 then e.2.flipFor (s.grove g) else s.grove g := by
    by_cases hempty : e.2.wins.isEmpty = true
    · simp [hempty, GroveSt.flipFor]
    · simp [hempty, GroveSt.flipFor, groveCommit_grove]
  have hmem : (g, s.grove g) ∈ s.groves := (aget_eq_or_mem ({} : GroveSt) s.groves g).resolve_left fun hd => hwins <| by
    rw [State.grove, hd]
  have hfull : (s.grove g).wins.isEmpty ≠ true := fun he => hwins (List.isEmpty_iff.1 he)
  exact (foldl_grove_of_mem hstep (groves_pairwise h) hmem s).trans (if_neg hfull)

theorem flipGroves_within (s : State) : Within State.sansGroves s s.flipGroves :=
  (Within.refl s).foldl fun _ _ h => h.onlyIfNot (h.setGrove.groveDirtyRegs.bumpW (unit_reg (by decide)))

/-! ## Abort -/

/-- A grove without dirty bits. -/
def GroveSt.cleared (x : GroveSt) : GroveSt := { x with dirty := [] }

/-- Every grove drops its dirty bits. -/
def State.clearGroves (s : State) : State := s.groves.foldl (fun (s : State) e => s.groveClear e.1) s

theorem groveClear_grove (s : State) (g g' : Nat) : (s.groveClear g).grove g' = if g' = g then (s.grove g').cleared else s.grove g' := by
  refine (groveDirtyRegs_grove (s.setGrove g (s.grove g).cleared) g g').trans ((grove_setGrove ..).trans ?_)
  split <;> simp [*]

theorem clearGroves_grove (h : s.unitsInRange = true) (g : Nat) : s.clearGroves.grove g = (s.grove g).cleared := by
  have hstep (s : State) (e : Nat × GroveSt) (g : Nat) :
      (s.groveClear e.1).grove g = if g = e.1 then (Function.const GroveSt GroveSt.cleared) e.2 (s.grove g) else s.grove g :=
    groveClear_grove ..
  by_cases hmem : ∃ x, (g, x) ∈ s.groves
  · obtain ⟨x, hx⟩ := hmem
    exact foldl_grove_of_mem hstep (groves_pairwise h) hx s
  · have hne : ∀ e ∈ s.groves, g ≠ e.1 := fun e he hg => hmem ⟨e.2, hg ▸ he⟩
    have hgrove : s.grove g = {} := aget_absent _ _ _ fun e he => (hne e he).symm
    refine (foldl_grove_of_absent hstep hne s).trans ?_
    rw [hgrove]
    rfl

theorem clearGroves_within (s : State) : Within State.sansGroves s s.clearGroves :=
  (Within.refl s).foldl fun _ _ h => h.setGrove.groveDirtyRegs

/-! ## The step flags -/

theorem raise_eq (s : State) (pg bit : Nat) (ev : EvKind) :
    s.raise pg bit ev = { s with regs := (s.raise pg bit ev).regs, evt := (s.raise pg bit ev).evt, glade := (s.raise pg bit ev).glade } :=
  (eventOf_frame (s.putB ⟨Hdr.EVT_SUMMARY pg, bit, 1⟩ true) pg ev ev.sev none none).1

theorem Within.raise (h : Within State.sansEvents s₀ s) {pg bit : Nat} {ev : EvKind} (hpg : 0x100000 ≤ pg) :
    Within State.sansEvents s₀ (s.raise pg bit ev) where
  rd o ho := (raise_rd _ _ _ _ _ _ ho.2 (Nat.ne_of_lt (Nat.lt_of_lt_of_le ho.1 (Nat.le_add_right_of_le hpg)))).trans (h.rd o ho)
  same := (congrArg (fun u : State => State.sansEvents { u with regs := [] }) (raise_eq s pg bit ev)).trans h.same

theorem Within.publishFlags (h : Within State.sansEvents s₀ s) : Within State.sansEvents s₀ s.publishFlags :=
  h.foldl fun _ _ h => h.onlyIf <| by
    extract_lets f s1 s2
    have h1 : Within State.sansEvents s₀ s1 := (h.wr (part_reg (by decide))).wr (part_reg (by decide))
    have h2 : Within State.sansEvents s₀ s2 := h1.wr (part_reg (by decide))
    exact h2.onlyIfNot (h2.raise (unit_reg (by decide)))

end Sys2Proof.Machine
end

section
/-! A step commits or aborts at its commit epoch (R166 to R168). -/

namespace Sys2Proof.Machine

variable {s t : State}

/-! ## What the sequencer and the lead do not do -/

theorem fn_congr {pg : Nat} (h : t.rd (pg + 0xC) = s.rd (pg + 0xC)) : t.fn pg = s.fn pg := by
  have hget (f : Fld) (hf : f.off = pg + 0xC) : t.get f = s.get f := by
    rw [State.get, State.get, hf, h]
  unfold State.fn State.flag State.fnReg
  rw [hget _ rfl, hget _ rfl]

theorem handling_congr (h : t.rd (P.SERVE + 0xC) = s.rd (P.SERVE + 0xC)) : t.handling = s.handling := by
  unfold State.handling State.serving
  rw [fn_congr h]

theorem serving_of_handling (h : s.handling = false) : s.serving = false := (Bool.or_eq_false_iff.1 h).1

theorem seqOnStart_idle (h : s.handling = false) (step : Dword) : s.seqOnStart step = s := by
  simp [State.seqOnStart, serving_of_handling h]

theorem seqOnCommit_idle (h : s.handling = false) (step : Dword) : s.seqOnCommit step = s := by
  simp [State.seqOnCommit, h]

theorem seqOnAbort_idle (h : s.handling = false) (hend : s.serve.ending = false) : s.seqOnAbort = s := by
  simp [State.seqOnAbort, hend, serving_of_handling h]

theorem unloadStart_running (h : s.stand.ending = false) : s.unloadStart = s := by
  simp [State.unloadStart, h]

theorem dropIssues_none (hissue : s.flag F.STAND_STATUS_ISSUE_PENDING = false) (hann : s.stand.announce = none)
    (hrx : s.stand.announceRx = none) : s.dropIssues = s := by
  have hstand : { s.stand with announce := none, announceRx := none } = s.stand := by
    conv_rhs => rw [show s.stand = { s.stand with announce := s.stand.announce, announceRx := s.stand.announceRx } from rfl, hann, hrx]
  simp [State.dropIssues, hissue, hann, hrx, hstand]

/-! ## The windows of the module -/

/-- The state without what the end of a step changes in the units, beside registers. -/
def State.sansUnits (s : State) : State := { s with evt := {}, glade := {}, groves := [], lpddr := {} }

/-- What a step's end makes of the units, with a stand's record of its own. -/
theorem eq_of_sansUnits {u : State} (h : Within State.sansUnits s u)
    (ht : t = { u with regs := t.regs, evt := t.evt, glade := t.glade, stand := t.stand }) :
    t = { s with regs := t.regs, evt := t.evt, glade := t.glade, stand := t.stand, groves := t.groves, lpddr := t.lpddr } := by
  have hu : t.groves = u.groves ∧ t.lpddr = u.lpddr := by
    rw [ht]
    exact ⟨rfl, rfl⟩
  have hs := congrArg (fun v : State =>
    { v with regs := t.regs, evt := t.evt, glade := t.glade, stand := t.stand, groves := u.groves, lpddr := u.lpddr }) h.same
  rw [hu.1, hu.2]
  exact ht.trans hs

/-- The LPDDR5X controllers' state replaced. -/
def State.setLpddr (s : State) (x : LpddrSt) : State := { s with lpddr := x }

theorem setLpddr_within (s : State) (x : LpddrSt) : Within State.sansUnits s (s.setLpddr x) := .of_regs rfl rfl

/-- Windows committed, step flags published and UNCOMMITTED cleared, everywhere. -/
def State.committed (s : State) : State := s.flipGroves.lpCommit.publishFlags.groveUncommitted false

theorem lpCommit_within (s : State) :
    Within id (s.setLpddr { s.lpddr with sel := flipSel s.lpddr.sel s.lpddr.dirty, dirty := [] }) s.lpCommit := (Within.refl _).lpDirtyRegs

theorem lpClear_within (s : State) : Within id (s.setLpddr { s.lpddr with dirty := [] }) s.lpClear := (Within.refl _).lpDirtyRegs

/-- What follows the commit of the windows writes registers and raises events. -/
theorem published_within (s : State) : Within State.sansEvents s.lpCommit (s.lpCommit.publishFlags.groveUncommitted false) :=
  (Within.refl _).publishFlags.groveUncommitted

theorem committed_within (s : State) : Within State.sansUnits s s.committed :=
  have hlp : Within State.sansUnits s.flipGroves s.flipGroves.lpCommit :=
    (setLpddr_within ..).trans ((lpCommit_within s.flipGroves).weaken fun _ => rfl)
  (((flipGroves_within s).weaken fun _ => rfl).trans hlp).trans ((published_within _).weaken fun _ => rfl)

theorem committed_groves (s : State) : s.committed.groves = s.flipGroves.groves :=
  ((published_within _).proj State.groves fun _ => rfl).trans ((lpCommit_within _).proj State.groves fun _ => rfl)

theorem committed_lpddr (s : State) : s.committed.lpddr = { s.lpddr with sel := flipSel s.lpddr.sel s.lpddr.dirty, dirty := [] } := by
  have hlp := ((published_within s.flipGroves).proj State.lpddr fun _ => rfl).trans ((lpCommit_within _).proj State.lpddr fun _ => rfl)
  rw [(flipGroves_within s).proj State.lpddr fun _ => rfl] at hlp
  exact hlp

/-! ## COMMIT -/

/-- What COMMIT writes of the stand's own page, before its event. -/
def State.commitRecord (s : State) (step : Dword) : State :=
  let s := ({ s with stand := { s.stand with current := none, vote := none, lastFate := .commit } }).wr64 Reg.STAND_LAST_COMMIT_LO step
  { s.bumpW Reg.STAND_COMMITS 1 with stand := { s.stand with anyCommit := true } }

/-- An event of the stand leaves the other registers of its page. -/
theorem raise_stand_rd (s : State) (bit : Nat) (ev : EvKind) {o : Nat} (ho : Core o) (hne : o ≠ Hdr.EVT_SUMMARY P.STAND) :
    (s.raise P.STAND bit ev).rd o = s.rd o := raise_rd _ _ _ _ _ _ ho.2 hne

theorem commitRecord_rd (s : State) (step : Dword) {o : Nat}
    (ho : o ∉ [Reg.STAND_LAST_COMMIT_LO, Reg.STAND_LAST_COMMIT_LO + 4, Reg.STAND_COMMITS]) : (s.commitRecord step).rd o = s.rd o := by
  simp only [List.mem_cons, List.not_mem_nil, or_false, not_or] at ho
  obtain ⟨hlo, hhi, hcount⟩ := ho
  exact (rd_wr_ne _ _ hcount).trans ((rd_wr_ne _ _ hhi).trans (rd_wr_ne _ _ hlo))

theorem commitRecord_step (s : State) (step : Dword) : (s.commitRecord step).rd64 Reg.STAND_LAST_COMMIT_LO = step :=
  (rd64_wr_ne _ _ (by decide) (by decide)).trans (rd64_wr64_same ..)

theorem commitRecord_count (s : State) (step : Dword) : (s.commitRecord step).rd Reg.STAND_COMMITS = s.rd Reg.STAND_COMMITS + 1 := by
  refine (rd_wr_same ..).trans (congrArg (· + 1) ?_)
  exact (rd_wr_ne _ _ (by decide)).trans (rd_wr_ne _ _ (by decide))

/-- The state that COMMIT leaves. -/
structure StepCommitted (s t : State) (step : Dword) : Prop where
  last    : t.rd64 Reg.STAND_LAST_COMMIT_LO = step
  stand   : t.stand = { s.stand with current := none, vote := none, lastFate := .commit, anyCommit := true }
  commits : t.rd Reg.STAND_COMMITS = s.rd Reg.STAND_COMMITS + 1
  event   : t.summary P.STAND B.STAND_STEP_COMMIT = true
  groves  : ∀ g, (s.grove g).wins ≠ [] → t.grove g = { s.grove g with sel := flipSel (s.grove g).sel (s.grove g).dirty, dirty := [] }
  lpddr   : t.lpddr = { s.lpddr with sel := flipSel s.lpddr.sel s.lpddr.dirty, dirty := [] }
  frame   : t = { s with regs := t.regs, evt := t.evt, glade := t.glade, stand := t.stand, groves := t.groves, lpddr := t.lpddr }

/-- A commit's record and event, from the state with its windows committed. -/
def State.commitEvent (s : State) (step : Dword) : State := (s.commitRecord step).raise P.STAND B.STAND_STEP_COMMIT Evn.COMPUTE_STEP_COMMIT

theorem commitStep_eq (s : State) (step : Dword) : s.commitStep step = (s.committed.commitEvent step).seqOnCommit step := rfl

theorem commitEvent_rd (s : State) (step : Dword) {o : Nat} (ho : Core o)
    (hne : o ∉ [Hdr.EVT_SUMMARY P.STAND, Reg.STAND_LAST_COMMIT_LO, Reg.STAND_LAST_COMMIT_LO + 4, Reg.STAND_COMMITS]) :
    (s.commitEvent step).rd o = s.rd o :=
  have ⟨hevt, hrec⟩ := not_or.1 (mt List.mem_cons.2 hne)
  (raise_stand_rd _ _ _ ho hevt).trans (commitRecord_rd _ _ hrec)

theorem commitEvent_step (s : State) (step : Dword) : (s.commitEvent step).rd64 Reg.STAND_LAST_COMMIT_LO = step :=
  (rd64_congr (raise_stand_rd _ _ _ (by decide) (by decide)) (raise_stand_rd _ _ _ (by decide) (by decide))).trans (commitRecord_step s step)

theorem commitEvent_count (s : State) (step : Dword) : (s.commitEvent step).rd Reg.STAND_COMMITS = s.rd Reg.STAND_COMMITS + 1 :=
  (raise_stand_rd _ _ _ (by decide) (by decide)).trans (commitRecord_count s step)

theorem commitEvent_summary (s : State) (step : Dword) : (s.commitEvent step).summary P.STAND B.STAND_STEP_COMMIT = true :=
  raise_summary _ _ _ _ _ _ (by decide) (by decide)

theorem commitEvent_stand (s : State) (step : Dword) :
    (s.commitEvent step).stand = { s.stand with current := none, vote := none, lastFate := .commit, anyCommit := true } :=
  State.raise_stand ..

theorem commitEvent_only (s : State) (step : Dword) : s.commitEvent step =
    { s with regs := (s.commitEvent step).regs, evt := (s.commitEvent step).evt, glade := (s.commitEvent step).glade,
             stand := (s.commitEvent step).stand } := by
  rw [commitEvent_stand]
  exact raise_eq ..

theorem commitStep_commits (hhandle : s.handling = false) (hunits : s.unitsInRange = true) (step : Dword) :
    StepCommitted s (s.commitStep step) step := by
  have hunit := committed_within s
  have hidle : (s.committed.commitEvent step).handling = false :=
    (handling_congr ((commitEvent_rd _ _ (by decide) (by decide)).trans (hunit.rd _ (by decide)))).trans hhandle
  rw [commitStep_eq, seqOnCommit_idle hidle]
  have honly := commitEvent_only s.committed step
  have hgroves : (s.committed.commitEvent step).groves = s.flipGroves.groves := by rw [honly, committed_groves]
  exact
    { last := commitEvent_step ..
      stand := by rw [commitEvent_stand, hunit.proj State.stand fun _ => rfl]
      commits := by rw [commitEvent_count, hunit.rd _ (by decide)]
      event := commitEvent_summary ..
      groves := fun g hwins => by
        rw [State.grove, hgroves]
        exact flipGroves_grove hunits hwins
      lpddr := by rw [honly, committed_lpddr]
      frame := eq_of_sansUnits hunit honly }

/-! ## ABORT -/

/-- Every dirty bit cleared, the aborts counted and UNCOMMITTED cleared, everywhere. -/
def State.aborted (s : State) : State :=
  (s.groves.foldl (fun (s : State) e => if e.2.wins.isEmpty then s else s.bumpW (Reg.GWIN_ABORTS e.1) 1)
    s.clearGroves.lpClear).groveUncommitted false

/-- What follows the clearing of the dirty bits writes registers only. -/
theorem aborted_counts (s : State) : Within id s.clearGroves.lpClear s.aborted :=
  ((Within.refl _).foldl fun _ _ h => h.onlyIfNot (h.bumpW (unit_reg (by decide)))).groveUncommitted

theorem aborted_within (s : State) : Within State.sansUnits s s.aborted :=
  have hlp : Within State.sansUnits s.clearGroves s.clearGroves.lpClear :=
    (setLpddr_within ..).trans ((lpClear_within s.clearGroves).weaken fun _ => rfl)
  (((clearGroves_within s).weaken fun _ => rfl).trans hlp).trans ((aborted_counts s).weaken fun _ => rfl)

theorem aborted_groves (s : State) : s.aborted.groves = s.clearGroves.groves :=
  ((aborted_counts s).proj State.groves fun _ => rfl).trans ((lpClear_within _).proj State.groves fun _ => rfl)

theorem aborted_lpddr (s : State) : s.aborted.lpddr = { s.lpddr with dirty := [] } := by
  have hlp := ((aborted_counts s).proj State.lpddr fun _ => rfl).trans ((lpClear_within _).proj State.lpddr fun _ => rfl)
  rw [(clearGroves_within s).proj State.lpddr fun _ => rfl] at hlp
  exact hlp

/-- An abort's record and event, from the state with its dirty bits cleared. -/
def State.abortEvent (s : State) : State :=
  (({ s with stand := { s.stand with current := none, vote := none, lastFate := .abort } }).bumpW Reg.STAND_ABORTS 1).raise
    P.STAND B.STAND_STEP_ABORT Evn.COMPUTE_STEP_ABORT

theorem abortStep_eq (s : State) : s.abortStep = s.aborted.abortEvent.dropIssues := rfl

theorem abortEvent_rd (s : State) {o : Nat} (ho : Core o) (hne : o ∉ [Hdr.EVT_SUMMARY P.STAND, Reg.STAND_ABORTS]) :
    s.abortEvent.rd o = s.rd o := by
  simp only [List.mem_cons, List.not_mem_nil, or_false, not_or] at hne
  obtain ⟨hevt, hcount⟩ := hne
  exact (raise_stand_rd _ _ _ ho hevt).trans (rd_wr_ne _ _ hcount)

theorem abortEvent_count (s : State) : s.abortEvent.rd Reg.STAND_ABORTS = s.rd Reg.STAND_ABORTS + 1 :=
  (raise_stand_rd _ _ _ (by decide) (by decide)).trans (rd_wr_same ..)

theorem abortEvent_summary (s : State) : s.abortEvent.summary P.STAND B.STAND_STEP_ABORT = true :=
  raise_summary _ _ _ _ _ _ (by decide) (by decide)

theorem abortEvent_stand (s : State) : s.abortEvent.stand = { s.stand with current := none, vote := none, lastFate := .abort } :=
  State.raise_stand ..

theorem abortEvent_only (s : State) : s.abortEvent =
    { s with regs := s.abortEvent.regs, evt := s.abortEvent.evt, glade := s.abortEvent.glade, stand := s.abortEvent.stand } := by
  rw [abortEvent_stand]
  exact raise_eq ..

/-- The state that ABORT leaves. -/
structure StepAborted (s t : State) : Prop where
  aborts : t.rd Reg.STAND_ABORTS = s.rd Reg.STAND_ABORTS + 1
  stand  : t.stand = { s.stand with current := none, vote := none, lastFate := .abort }
  event  : t.summary P.STAND B.STAND_STEP_ABORT = true
  groves : ∀ g, t.grove g = { s.grove g with dirty := [] }
  lpddr  : t.lpddr = { s.lpddr with dirty := [] }
  frame  : t = { s with regs := t.regs, evt := t.evt, glade := t.glade, stand := t.stand, groves := t.groves, lpddr := t.lpddr }
  idle   : t.handling = s.handling

/-- With no step announced or pending, there is none to cancel. -/
theorem abortStep_aborts (hunits : s.unitsInRange = true) (hann : s.stand.announce = none) (hrx : s.stand.announceRx = none)
    (hissue : s.flag F.STAND_STATUS_ISSUE_PENDING = false) : StepAborted s s.abortStep := by
  have hunit := aborted_within s
  have hstand : s.aborted.stand = s.stand := hunit.proj State.stand fun _ => rfl
  have hrd {o : Nat} (ho : Core o) (hne : o ∉ [Hdr.EVT_SUMMARY P.STAND, Reg.STAND_ABORTS]) : s.aborted.abortEvent.rd o = s.rd o :=
    (abortEvent_rd _ ho hne).trans (hunit.rd _ ho)
  have hpending : s.aborted.abortEvent.flag F.STAND_STATUS_ISSUE_PENDING = false :=
    (flag_of_rd (hrd (o := Reg.STAND_STATUS) (by decide) (by decide)) _ _).trans hissue
  have honly := abortEvent_only s.aborted
  have hgroves : s.aborted.abortEvent.groves = s.clearGroves.groves := by rw [honly, aborted_groves]
  rw [abortStep_eq, dropIssues_none hpending (by rw [abortEvent_stand, hstand, hann]) (by rw [abortEvent_stand, hstand, hrx])]
  exact
    { aborts := by rw [abortEvent_count, hunit.rd _ (by decide)]
      stand := by rw [abortEvent_stand, hstand]
      event := abortEvent_summary ..
      groves := fun g => by
        rw [State.grove, hgroves]
        exact clearGroves_grove hunits g
      lpddr := by rw [honly, aborted_lpddr]
      frame := eq_of_sansUnits hunit honly
      idle := handling_congr (hrd (by decide) (by decide)) }

/-! ## COMMIT_TICK -/

variable {c : StepAt} {v : VoteSt}

theorem commitTick_none (hcur : s.stand.current = none) : exec .commitTick s = .next s := by
  show execCommitTick s = _
  simp [execCommitTick, hcur]

theorem commitTick_early (hcur : s.stand.current = some c) (htick : s.gepoch ≠ s.commitEpochOf c) (hrun : s.suspended = false) :
    exec .commitTick s = .next s := by
  show execCommitTick s = _
  cases hvote : s.stand.vote <;> simp [execCommitTick, hcur, hvote, htick, hrun]

/-- At the commit epoch the verdict is applied; nothing else is due while the stand is not ending. -/
theorem commitTick_applies (hcur : s.stand.current = some c) (hvote : s.stand.vote = some v) (hepochs : s.stand.epochs = true)
    (htick : s.gepoch = s.commitEpochOf c) (ht : s.applyVerdict c.step v.verdict = t) (hsuspend : t.stand.suspendAtC = false)
    (hend : t.stand.ending = false) : exec .commitTick s = .next (if v.verdict = .abort then t.seqOnAbort else t) := by
  show execCommitTick s = _
  simp [execCommitTick, hcur, hvote, hepochs, htick, ht, hsuspend, unloadStart_running hend]

end Sys2Proof.Machine
end

section
/-! A step starts (R163), and this member's vote on it is sampled (R165). -/

namespace Sys2Proof.Machine

variable {s t : State} {a c : StepAt}

/-! ## A map in which every entry is replaced -/

theorem aget_amap {α : Type} [DecidableEq α] {d : α} {f : Nat → α → α} {m : AMap α} (hm : m.Pairwise fun a b => a.1 < b.1) {k : Nat}
    (hf : f k d = d) : aget d (amap d f m) k = f k (aget d m k) := by
  induction m with
  | nil => exact hf.symm
  | cons e m ih =>
    obtain ⟨i, v⟩ := e
    obtain ⟨hlt, hm⟩ := List.pairwise_cons.1 hm
    have hcons : amap d f ((i, v) :: m) = if f i v = d then amap d f m else (i, f i v) :: amap d f m := by
      by_cases hd : f i v = d <;> simp [amap, hd]
    rw [hcons]
    by_cases hi : i = k
    · subst hi
      have habsent : aget d (amap d f m) i = d := aget_absent _ _ _ fun e he => by
        obtain ⟨x, hx, rfl⟩ := List.mem_map.1 (List.mem_filter.1 he).1
        exact Nat.ne_of_gt (hlt x hx)
      have hget : aget d ((i, v) :: m) i = v := by simp [aget]
      rw [hget]
      split
      · next hd => rw [habsent, hd]
      · simp [aget]
    · split <;> simp [aget, hi, ih hm]

theorem reduce_pairwise (h : s.unitsInRange = true) : s.reduce.Pairwise fun a b => a.1 < b.1 := by
  obtain ⟨_, _, ⟨hwf, _⟩, _⟩ := (unitsInRange_iff s).1 h
  exact (keysRising_iff _).1 (Bool.and_eq_true_iff.1 hwf).1

/-! ## STEP_START -/

theorem stepStart_none (h : s.stand.epochs = false ∨ s.stand.announce = none ∨ s.stand.current.isSome = true) :
    exec .stepStart s = .next s := by
  show execStepStart s = _
  unfold execStepStart
  split
  · next a hann =>
    refine if_neg fun hgo => ?_
    obtain ⟨hepochs, _, hcur⟩ := hgo
    rcases h with h | h | h
    · simp [h] at hepochs
    · simp [h] at hann
    · simp [Option.isNone_iff_eq_none.1 hcur] at h
  · rfl

theorem stepStart_due (hepochs : s.stand.epochs = true) (hann : s.stand.announce = some a) (hstart : a.start = s.gepoch)
    (hcur : s.stand.current = none) : exec .stepStart s = .next ((s.stepBegin a).seqOnStart a.step) := by
  show execStepStart s = _
  simp [execStepStart, hann, hepochs, hstart, hcur]

/-- The stand's page when a step starts: its number, its first epoch, STEP_ACTIVE and no vote to abort. -/
def State.startRecord (s : State) (a : StepAt) : State :=
  (((s.wr64 Reg.STAND_CUR_STEP_LO a.step).wr64 Reg.STAND_START_EPOCH_LO (BitVec.ofNat 64 a.start)).putB
    F.STAND_STATUS_STEP_ACTIVE true).putB F.STAND_STATUS_ABORT_VOTE false

/-- The units' pages say that a step is executing. -/
def State.unitsOn (s : State) : State :=
  let s : State := s.putB F.FLOOR_STATUS_SCHED_RUNNING true
  let s : State := (16).fold (fun g _ (s : State) => if s.flag (F.GROVE_STATUS_STAND_ARMED g) then
      (s.putB (F.GROVE_STATUS_STEP_ACTIVE g) true).putB (F.GROVE_STATUS_UNCOMMITTED g) true else s) s
  ((s.image.map (fun im => im.frames.map (fun f => f.m.val))).getD []).foldl (fun s m => s.putB (F.LPDDR_STATUS_FRAMES_ACTIVE m) true) s

/-- The step is current, with empty queues and buffers. -/
def State.stepQueues (s : State) (a : StepAt) : State :=
  { s with
    stand := { s.stand with current := some a, announce := none, vote := none }
    links := amap {} (fun _ x => { x with txBuf := [], rxBuf := [] }) s.links
    reduce := amap {} (fun _ x => { prog := x.prog }) s.reduce
    sample := {}
    lpddr := { s.lpddr with outq := [], waitq := [], inq := [] } }

/-- Every stream of the image starts on its engine. -/
def State.streamsStart (s : State) : State :=
  ((s.image.map (fun im => im.streams)).getD []).foldl (fun (s : State) t => s.streamStart t) s

/-- An idle module runs. -/
def State.powerRun (s : State) : State := if s.mod.power = .idle then s.setPower .run else s

theorem startRecord_only (s : State) (a : StepAt) : s.startRecord a = { s with regs := (s.startRecord a).regs } := by
  unfold State.startRecord
  simp only [State.putB, State.put, State.wr64, State.wr]

theorem unitsOn_within (s : State) : Within id s s.unitsOn := by
  unfold State.unitsOn
  exact (((Within.refl s).putB (by decide)).fold fun _ _ _ h => h.onlyIf ((h.putB (unit_reg (by decide))).putB (unit_reg (by decide)))).foldl
    fun _ _ h => h.putB (unit_reg (by decide))

theorem streamsStart_within (s : State) : Within State.sansEngines s s.streamsStart := by
  unfold State.streamsStart
  refine (Within.refl s).foldl fun x s' h => ?_
  unfold State.streamStart
  split
  · exact h
  · next i _ =>
    have hset : Within State.sansEngines s (s'.setEng i ((s'.eng i).stepStart x.entry)) := ⟨h.rd, h.same⟩
    exact (hset.putB (part_reg (by decide))).putB (part_reg (by decide))

theorem powerRun_mod (s : State) : s.powerRun = { s with mod := { s.mod with power := if s.mod.power = .idle then .run else s.mod.power } } := by
  unfold State.powerRun
  split <;> rfl

/-- A step starts by its record, by registers of the units, and by streams on engines. -/
theorem stepBegin_parts (s : State) (a : StepAt) : ∃ (m : AMap Word) (v : State), Within id (s.startRecord a) { s with regs := m } ∧
    Within State.sansEngines (({ s with regs := m }).stepQueues a) v ∧ s.stepBegin a = v.powerRun := by
  have hrecord := congrArg (fun u : State => { u with regs := (s.startRecord a).unitsOn.regs }) (startRecord_only s a)
  have hunits : (s.startRecord a).unitsOn = { s with regs := (s.startRecord a).unitsOn.regs } :=
    (unitsOn_within (s.startRecord a)).regsOnly.trans hrecord
  refine ⟨(s.startRecord a).unitsOn.regs, ((s.startRecord a).unitsOn.stepQueues a).streamsStart, ?_, ?_, rfl⟩
  · rw [← hunits]
    exact unitsOn_within _
  · rw [← hunits]
    exact streamsStart_within _

/-- The state without what the start of a step changes, beside registers. -/
def State.sansStart (s : State) : State :=
  { s with stand := {}, links := [], reduce := [], sample := {}, lpddr := {}, engines := [], mod := {} }

theorem eq_of_sansStart (h : State.sansStart { t with regs := [] } = State.sansStart { s with regs := [] }) :
    t = { s with regs := t.regs, stand := t.stand, links := t.links, reduce := t.reduce, sample := t.sample, lpddr := t.lpddr,
                 engines := t.engines, mod := t.mod } :=
  congrArg (fun u : State =>
    { u with regs := t.regs, stand := t.stand, links := t.links, reduce := t.reduce, sample := t.sample, lpddr := t.lpddr,
             engines := t.engines, mod := t.mod }) h

theorem startRecord_rd (s : State) (a : StepAt) {o : Nat}
    (ho : o ∉ [Reg.STAND_CUR_STEP_LO, Reg.STAND_CUR_STEP_LO + 4, Reg.STAND_START_EPOCH_LO, Reg.STAND_START_EPOCH_LO + 4, Reg.STAND_STATUS]) :
    (s.startRecord a).rd o = s.rd o := by
  simp only [List.mem_cons, List.not_mem_nil, or_false, not_or] at ho
  obtain ⟨hlo, hhi, hlo', hhi', hstatus⟩ := ho
  unfold State.startRecord
  exact (rd_put_ne _ _ _ hstatus).trans ((rd_put_ne _ _ _ hstatus).trans ((rd_wr_ne _ _ hhi').trans ((rd_wr_ne _ _ hlo').trans
    ((rd_wr_ne _ _ hhi).trans (rd_wr_ne _ _ hlo)))))

/-- The state that STEP_START leaves. -/
structure StepStarted (s t : State) (a : StepAt) : Prop where
  stand  : t.stand = { s.stand with current := some a, announce := none, vote := none }
  number : t.rd64 Reg.STAND_CUR_STEP_LO = a.step
  active : t.stepActive = true
  vote   : t.flag F.STAND_STATUS_ABORT_VOTE = false
  sample : t.sample = {}
  reduce : ∀ l, t.red l = { prog := (s.red l).prog }
  mod    : t.mod = { s.mod with power := (if s.mod.power = .idle then .run else s.mod.power) }
  frame  : t = { s with regs := t.regs, stand := t.stand, links := t.links, reduce := t.reduce, sample := t.sample, lpddr := t.lpddr,
                        engines := t.engines, mod := t.mod }

theorem startRecord_step (s : State) (a : StepAt) : (s.startRecord a).rd64 Reg.STAND_CUR_STEP_LO = a.step := by
  unfold State.startRecord
  refine Eq.trans ?_ (rd64_wr64_same s Reg.STAND_CUR_STEP_LO a.step)
  exact (rd64_wr_ne _ _ (by decide) (by decide)).trans ((rd64_wr_ne _ _ (by decide) (by decide)).trans
    ((rd64_wr_ne _ _ (by decide) (by decide)).trans (rd64_wr_ne _ _ (by decide) (by decide))))

theorem startRecord_active (s : State) (a : StepAt) : (s.startRecord a).stepActive = true := by
  unfold State.startRecord
  exact (flag_putB_disj _ _ _ _ (by decide) (by decide)).trans (flag_putB_same _ _ _ (by decide) rfl)

theorem startRecord_vote (s : State) (a : StepAt) : (s.startRecord a).flag F.STAND_STATUS_ABORT_VOTE = false := by
  unfold State.startRecord
  exact flag_putB_same _ _ _ (by decide) rfl

theorem stepBegin_starts (hunits : s.unitsInRange = true) (a : StepAt) :
    StepStarted s (s.stepBegin a) a ∧ (s.stepBegin a).handling = s.handling := by
  obtain ⟨m, v, hrecord, hstreams, hbegin⟩ := stepBegin_parts s a
  have hregs : v.powerRun.regs = v.regs := by rw [powerRun_mod]
  have hrd {o : Nat} (ho : Core o) : v.powerRun.rd o = (s.startRecord a).rd o :=
    (rd_congr hregs o).trans ((hstreams.rd o ho).trans (hrecord.rd o ho))
  have hmod : v.mod = s.mod := hstreams.proj State.mod fun _ => rfl
  have hreduce : v.reduce = amap {} (fun _ x => { prog := x.prog }) s.reduce := hstreams.proj State.reduce fun _ => rfl
  have hsame : State.sansStart { v.powerRun with regs := [] } = State.sansStart { s with regs := [] } := by
    have hstart := congrArg State.sansStart hstreams.same
    simp only [State.sansStart, State.sansEngines, State.stepQueues] at hstart
    simpa only [powerRun_mod, State.sansStart] using hstart
  rw [hbegin]
  refine ⟨?_, (handling_congr ((hrd (by decide)).trans (startRecord_rd s a (by decide))))⟩
  exact
    { stand := by
        rw [powerRun_mod]
        exact hstreams.proj State.stand fun _ => rfl
      number := (rd64_congr (hrd (by decide)) (hrd (by decide))).trans (startRecord_step s a)
      active := (flag_of_rd (hrd (o := Reg.STAND_STATUS) (by decide)) 1 1).trans (startRecord_active s a)
      vote := (flag_of_rd (hrd (o := Reg.STAND_STATUS) (by decide)) 7 1).trans (startRecord_vote s a)
      sample := by
        rw [powerRun_mod]
        exact hstreams.proj State.sample fun _ => rfl
      reduce := fun l => by
        rw [powerRun_mod, State.red, hreduce]
        exact aget_amap (d := ({} : ReduceSt)) (f := fun _ x => { prog := x.prog }) (reduce_pairwise hunits) rfl
      mod := by rw [powerRun_mod, hmod]
      frame := eq_of_sansStart hsame }

theorem stepStart_starts (hhandle : s.handling = false) (hunits : s.unitsInRange = true) (hepochs : s.stand.epochs = true)
    (hann : s.stand.announce = some a) (hstart : a.start = s.gepoch) (hcur : s.stand.current = none) :
    ∃ t, exec .stepStart s = .next t ∧ StepStarted s t a := by
  obtain ⟨hstarted, hidle⟩ := stepBegin_starts hunits a
  exact ⟨_, (stepStart_due hepochs hann hstart hcur).trans (congrArg _ (seqOnStart_idle (hidle.trans hhandle) _)), hstarted⟩

/-! ## VOTE_SAMPLE -/

theorem voteSample_none (hcur : s.stand.current = none) : exec .voteSample s = .next s := by
  show execVoteSample s = _
  simp [execVoteSample, hcur]

theorem voteSample_early (hcur : s.stand.current = some c) (h : s.stepActive = false ∨ s.gepoch ≠ s.lastEpochOf c) :
    exec .voteSample s = .next s := by
  show execVoteSample s = _
  rcases h with h | h <;> simp [execVoteSample, hcur, h]

/-- The stand's and the units' pages after the last epoch of a step. -/
def State.stepRested (s : State) : State := s.stepOff.putB F.STAND_STATUS_ABORT_VOTE false

/-- This member's vote on the step. -/
def State.voteOf (s : State) (c : StepAt) : VoteSt :=
  { lastEpoch := s.lastEpochOf c, step := c.step, own := s.flag F.STAND_STATUS_ABORT_VOTE }

/-- With no fault held for the end of the epoch the vote is sampled. -/
theorem voteSample_due (hcur : s.stand.current = some c) (hepochs : s.stand.epochs = true) (hactive : s.stepActive = true)
    (hlast : s.gepoch = s.lastEpochOf c) (heoe : s.stand.eoe = []) : exec .voteSample s =
      .next { s.stepRested.powerIdle with
                stand := { s.stepRested.powerIdle.stand with
                             vote := some { s.voteOf c with lastEpoch := s.stepRested.powerIdle.lastEpochOf c } } } := by
  have hheld : s.declareEoe = s := by simp [State.declareEoe, heoe]
  show execVoteSample s = _
  simp only [execVoteSample, hcur, hepochs, hactive, hlast, hheld, and_self, if_true]
  rfl

/-- The pages of the floor, the groves and the LPDDR5X controllers say that no step is executing. -/
def State.unitsOff (s : State) : State :=
  let s := s.putB F.FLOOR_STATUS_SCHED_RUNNING false
  let s := (16).fold (fun g _ s => s.putB (F.GROVE_STATUS_STEP_ACTIVE g) false) s
  (16).fold (fun m _ s => s.putB (F.LPDDR_STATUS_FRAMES_ACTIVE m) false) s

theorem stepOff_eq (s : State) : s.stepOff = (s.putB F.STAND_STATUS_STEP_ACTIVE false).unitsOff := by
  unfold State.unitsOff
  rfl

theorem unitsOff_within (s : State) : Within id s s.unitsOff := by
  unfold State.unitsOff
  exact (((Within.refl s).putB (by decide)).fold fun _ _ _ h => h.putB (unit_reg (by decide))).fold fun _ _ _ h => h.putB (unit_reg (by decide))

theorem stepRested_rd (s : State) {o : Nat} (ho : Core o) (hne : o ≠ Reg.STAND_STATUS) : s.stepRested.rd o = s.rd o := by
  rw [State.stepRested, stepOff_eq]
  exact (rd_put_ne _ _ _ hne).trans (((unitsOff_within _).rd o ho).trans (rd_put_ne _ _ _ hne))

theorem stepRested_active (s : State) : s.stepRested.stepActive = false := by
  rw [State.stepRested, stepOff_eq]
  exact (flag_putB_disj _ _ _ _ (by decide) (by decide)).trans (((unitsOff_within _).flag (by decide)).trans (flag_putB_same _ _ _ (by decide) rfl))

theorem stepRested_vote (s : State) : s.stepRested.flag F.STAND_STATUS_ABORT_VOTE = false := flag_putB_same _ _ _ (by decide) rfl

theorem stepRested_only (s : State) : s.stepRested = { s with regs := s.stepRested.regs } := by
  have hunits := (unitsOff_within (s.putB F.STAND_STATUS_STEP_ACTIVE false)).regsOnly
  rw [State.stepRested, stepOff_eq]
  exact congrArg (fun u : State =>
    { u with regs := ((s.putB F.STAND_STATUS_STEP_ACTIVE false).unitsOff.putB F.STAND_STATUS_ABORT_VOTE false).regs }) hunits

theorem powerIdle_mod (s : State) : s.powerIdle = { s with mod := { s.mod with power := if s.mod.power = .run then .idle else s.mod.power } } := by
  unfold State.powerIdle
  split <;> rfl

/-- The state that VOTE_SAMPLE leaves. -/
structure StepVoted (s t : State) (c : StepAt) : Prop where
  stand  : t.stand = { s.stand with vote := some (s.voteOf c) }
  active : t.stepActive = false
  vote   : t.flag F.STAND_STATUS_ABORT_VOTE = false
  mod    : t.mod = { s.mod with power := (if s.mod.power = .run then .idle else s.mod.power) }
  frame  : t = { s with regs := t.regs, stand := t.stand, mod := t.mod }

theorem voteSample_votes (hcur : s.stand.current = some c) (hepochs : s.stand.epochs = true) (hactive : s.stepActive = true)
    (hlast : s.gepoch = s.lastEpochOf c) (heoe : s.stand.eoe = []) : ∃ t, exec .voteSample s = .next t ∧ StepVoted s t c := by
  refine ⟨_, voteSample_due hcur hepochs hactive hlast heoe, ?_⟩
  have hregs : s.stepRested.powerIdle.regs = s.stepRested.regs := by rw [powerIdle_mod]
  have hgeom : s.stepRested.powerIdle.lastEpochOf c = s.lastEpochOf c := by
    rw [State.lastEpochOf, State.lastEpochOf, State.nEpochs, State.nEpochs, get_congr hregs, State.get, State.get,
      stepRested_rd s (by decide) (by decide)]
  have hactive : s.stepRested.stepActive = false := stepRested_active s
  have hvote := stepRested_vote s
  rw [hgeom, powerIdle_mod]
  rw [stepRested_only] at hactive hvote ⊢
  generalize s.stepRested.regs = m at hactive hvote ⊢
  exact
    { stand := rfl
      active := (flag_congr (s := { s with regs := m }) rfl _).trans hactive
      vote := (flag_congr (s := { s with regs := m }) rfl _).trans hvote
      mod := rfl
      frame := rfl }

end Sys2Proof.Machine
end

section
/-! A member disarms (R180): what leaves with the stand, and what stays. -/

namespace Sys2Proof.Machine

variable {s₀ s t : State}

/-! ## What stays -/

/-- The state `s`, reached from `s₀`, has its memory, its errors, its Deadwood list and its module state. -/
structure Lasting (s₀ s : State) : Prop where
  mem    : s.mem = s₀.mem
  poison : s.poison = s₀.poison
  dwood  : s.dwood = s₀.dwood
  mod    : s.mod = s₀.mod

theorem Lasting.refl (s : State) : Lasting s s := ⟨rfl, rfl, rfl, rfl⟩

section
variable (h : Lasting s₀ s)
include h

/-- An update of the fields that `Lasting` does not speak of. -/
theorem Lasting.same {regs evt stand image engines groves reduce lpddr group glade} :
    Lasting s₀ { s with regs := regs, evt := evt, stand := stand, image := image, engines := engines, groves := groves, reduce := reduce,
                        lpddr := lpddr, group := group, glade := glade } := ⟨h.mem, h.poison, h.dwood, h.mod⟩

theorem Lasting.ite {c : Prop} {_ : Decidable c} (ht : Lasting s₀ t) : Lasting s₀ (if c then s else t) := by
  split <;> assumption

theorem Lasting.foldl {α : Type} {f : State → α → State} {l : List α} (hf : ∀ x s, Lasting s₀ s → Lasting s₀ (f s x)) :
    Lasting s₀ (l.foldl f s) :=
  List.foldlRecOn l f h fun s hs x _ => hf x s hs

theorem Lasting.fold {n : Nat} {f : (i : Nat) → i < n → State → State} (hf : ∀ i hi s, Lasting s₀ s → Lasting s₀ (f i hi s)) :
    Lasting s₀ (n.fold f s) := by
  induction n with
  | zero => exact h
  | succ n ih => exact hf n _ _ (ih fun i hi => hf i (by omega))

theorem Lasting.wr {o : Nat} {v : Word} : Lasting s₀ (s.wr o v) := h.same
theorem Lasting.put {f : Fld} {x : Nat} : Lasting s₀ (s.put f x) := h.same
theorem Lasting.putB {f : Fld} {b : Bool} : Lasting s₀ (s.putB f b) := h.same

theorem Lasting.enginesStop : Lasting s₀ s.enginesStop := by
  unfold State.enginesStop
  extract_lets s1
  have h1 : Lasting s₀ s1 := h.foldl fun _ _ h => h.putB
  exact h1.same

theorem Lasting.dmaStopAll : Lasting s₀ s.dmaStopAll := by
  unfold State.dmaStopAll
  extract_lets s1
  have h1 : Lasting s₀ s1 := h.foldl fun _ _ h => h.wr.foldl fun _ _ h => h.putB
  exact h1.same

theorem Lasting.reduceStop : Lasting s₀ s.reduceStop := by
  unfold State.reduceStop
  extract_lets s1
  have h1 : Lasting s₀ s1 := h.foldl fun _ _ h => h.putB.putB.put.put.wr
  exact h1.same

theorem Lasting.stepOff : Lasting s₀ s.stepOff := (h.putB.putB.fold fun _ _ _ h => h.putB).fold fun _ _ _ h => h.putB

theorem Lasting.setGrove {g : Nat} {x : GroveSt} : Lasting s₀ (s.setGrove g x) := h.same

theorem Lasting.groveClear {g : Nat} : Lasting s₀ (s.groveClear g) := (h.setGrove.fold fun _ _ _ h => h.wr).putB

theorem Lasting.setLpddr {x : LpddrSt} : Lasting s₀ (s.setLpddr x) := h.same

theorem Lasting.lpClear : Lasting s₀ s.lpClear :=
  Lasting.fold (s := s.setLpddr { s.lpddr with dirty := [] }) h.setLpddr fun _ _ _ h => h.wr.putB

theorem Lasting.clearDirty : Lasting s₀ s.clearDirty := (h.foldl fun _ _ h => h.groveClear).lpClear

theorem Lasting.groveUncommitted {b : Bool} : Lasting s₀ (s.groveUncommitted b) := h.fold fun _ _ _ h => h.putB

theorem Lasting.discardStep : Lasting s₀ s.discardStep := by
  unfold State.discardStep
  extract_lets s1 s2
  have h2 : Lasting s₀ s2 := h.enginesStop.dmaStopAll.reduceStop.stepOff.clearDirty.groveUncommitted
  clear_value s2
  exact h2.same

theorem Lasting.groveFoldStart {g : Nat} : Lasting s₀ (s.groveFoldStart g) := h.ite h.putB

theorem Lasting.lpFoldStart : Lasting s₀ s.lpFoldStart := by
  unfold State.lpFoldStart
  extract_lets ms s1
  have h1 : Lasting s₀ s1 := h.foldl fun _ _ h => h.putB
  clear_value s1
  exact h.ite (h1.same)

theorem Lasting.clearStand : Lasting s₀ s.clearStand := by
  unfold State.clearStand
  extract_lets s1 s2 s3 s4 s5 s6 s7
  have h1 : Lasting s₀ s1 := h.foldl fun _ _ h => h.putB.putB
  have h2 : Lasting s₀ s2 := h1.fold fun _ _ _ h => h.putB.putB
  have h4 : Lasting s₀ s4 := h2.putB.foldl fun _ _ h => h.putB.put
  have h6 : Lasting s₀ s6 := h4.putB.putB.wr.wr.wr
  clear_value s6
  exact h6.same

end

/-! ## What leaves: registers at their reset value are not listed -/

/-- The register `o` is not listed, and so reads its reset value. -/
def Unlisted (o : Nat) (s : State) : Prop := ∀ e ∈ s.regs, e.1 ≠ o

theorem Unlisted.rd {o : Nat} (h : Unlisted o s) : s.rd o = resetOf o := aget_absent _ _ _ h

theorem unlisted_wr_reset (s : State) {o : Nat} {v : Word} (hv : v = resetOf o) : Unlisted o (s.wr o v) := fun e he ho => by
  subst hv
  simp only [State.wr, aset, List.mem_append, List.mem_filter, decide_eq_true_eq, if_true, List.not_mem_nil, or_false] at he
  omega

section
variable {o : Nat} (h : Unlisted o s)
include h

theorem Unlisted.wr {p : Nat} {v : Word} (hp : p ≠ o) : Unlisted o (s.wr p v) := fun e he => by
  rcases eq_or_mem_of_mem_aset he with hold | ⟨rfl, _⟩
  · exact h e hold
  · exact hp

theorem Unlisted.put {f : Fld} {x : Nat} (hp : f.off ≠ o) : Unlisted o (s.put f x) := h.wr hp

/-- An update of other fields. -/
theorem Unlisted.same {evt glade mod serve image stand group lpddr reduce groves} : Unlisted o
    { s with evt := evt, glade := glade, mod := mod, serve := serve, image := image, stand := stand, group := group, lpddr := lpddr,
             reduce := reduce, groves := groves } := h

theorem Unlisted.ite {c : Prop} {_ : Decidable c} (ht : Unlisted o t) : Unlisted o (if c then s else t) := by
  split <;> assumption

theorem Unlisted.readyCounts : Unlisted o s.readyCounts := fun e he => by
  obtain ⟨x, hx, rfl⟩ := List.mem_map.1 (List.mem_filter.1 he).1
  split <;> exact h x hx

theorem Unlisted.setMState {m : MState} (hp : F.MODULE_MSTATE_STATE.off ≠ o) : Unlisted o (s.setMState m) :=
  (h.readyCounts.ite h).same.put hp

end

/-! ## Events leave the other registers unlisted -/

section
variable {o : Nat} (ho : o ∉ evtOffs)
include ho

theorem Unlisted.evt (h : Unlisted o s) {p : Nat} (hp : p ∈ evtOffs) {v : Word} : Unlisted o (s.wr p v) := h.wr fun e => ho (e ▸ hp)

theorem Unlisted.evtStatus (h : Unlisted o s) : Unlisted o s.evtStatus := by
  have hlatch : Unlisted o (if s.evt.queue.length < 256 then { s with evt := { s.evt with ovfLatch := false } } else s) :=
    Unlisted.ite h.same h
  exact (hlatch.evt ho (by decide)).evt ho (by decide)

theorem Unlisted.countDrop (h : Unlisted o s) {code : Nat} : Unlisted o (s.countDrop code) := by
  unfold State.countDrop State.bumpF
  dsimp only
  split
  · exact h.evt ho (show Reg.EVT_DROP0 ∈ evtOffs by decide)
  · exact h.evt ho (show Reg.EVT_DROP1 ∈ evtOffs by decide)

theorem Unlisted.evtDropped (h : Unlisted o s) {code : Nat} : Unlisted o (s.evtDropped code) := by
  have herr : Unlisted o ((s.countDrop code).errInc P.EVT) := ((h.countDrop ho).evt ho (by decide)).evt ho (by decide)
  unfold State.evtDropped
  dsimp only
  exact Unlisted.ite herr (herr.evt ho (by decide)).same

theorem Unlisted.evtEnter (h : Unlisted o s) {e : EvEntry} : Unlisted o (s.evtEnter e) := by
  unfold State.evtEnter
  split
  · exact (h.evt ho (by decide)).same
  · split
    · exact h.same.evtStatus ho
    · split
      · split
        · exact (h.same.evtDropped ho).evtStatus ho
        · exact (h.evtDropped ho).evtStatus ho
      · exact (h.evtDropped ho).evtStatus ho

theorem Unlisted.islandLog (h : Unlisted o s) {e : EvEntry} : Unlisted o (s.islandLog e) := by
  unfold State.islandLog
  split
  · exact h.same.evt ho (by decide)
  · exact h.evt ho (by decide)

theorem Unlisted.eventOf (h : Unlisted o s) {pg : Nat} {ev : EvKind} {sev : Nat} {d0 d1 : Option Word} :
    Unlisted o (s.eventOf pg ev sev d0 d1) := by
  unfold State.eventOf
  dsimp only
  split
  · exact Unlisted.ite (h.islandLog ho) h
  · split
    · exact Unlisted.ite (h.islandLog ho) (Unlisted.ite h.same h.same)
    · exact h.evtEnter ho

end

/-! ## The stand leaves -/

/-- The stand's page where it tells which stand is armed. -/
def standRegs : List Nat := [Reg.STAND_STATUS, Reg.STAND_STAND_ID, Reg.STAND_MEMBERSHIP]

/-- No stand is armed and nothing of one is held. -/
structure StandGone (s : State) : Prop where
  image  : s.image = none
  stand  : s.stand = {}
  reduce : s.reduce = []
  regs   : ∀ o ∈ standRegs, Unlisted o s

theorem clearStand_gone (s : State) : StandGone s.clearStand := by
  unfold State.clearStand
  extract_lets s1 s2 s3 s4 s5 s6 s7
  have h6 : ∀ o ∈ standRegs, Unlisted o s6 := by
    simp only [standRegs, List.mem_cons, List.not_mem_nil, or_false, forall_eq_or_imp, forall_eq]
    exact ⟨((unlisted_wr_reset s5 (by decide)).wr (by decide)).wr (by decide), (unlisted_wr_reset _ (by decide)).wr (by decide),
      unlisted_wr_reset _ (by decide)⟩
  clear_value s6
  exact ⟨rfl, rfl, rfl, fun o ho => (h6 o ho).same⟩

section
variable (h : StandGone s)
include h

/-- An update of other fields, and of registers other than those of the stand. -/
theorem StandGone.of_eq (ht : t.image = s.image ∧ t.stand = s.stand ∧ t.reduce = s.reduce)
    (hregs : ∀ o ∈ standRegs, Unlisted o s → Unlisted o t) : StandGone t :=
  ⟨ht.1.trans h.image, ht.2.1.trans h.stand, ht.2.2.trans h.reduce, fun o ho => hregs o ho (h.regs o ho)⟩

theorem StandGone.wr {p : Nat} {v : Word} (hp : ∀ o ∈ standRegs, p ≠ o) : StandGone (s.wr p v) :=
  h.of_eq ⟨rfl, rfl, rfl⟩ fun o ho hl => hl.wr (hp o ho)

theorem StandGone.raiseBare {pg : Nat} {ev : EvKind} : StandGone (s.raiseBare pg ev) :=
  h.of_eq ⟨State.raiseBare_image .., State.raiseBare_stand .., State.raiseBare_reduce ..⟩ fun o ho hl =>
    hl.eventOf ((by decide : ∀ o ∈ standRegs, o ∉ evtOffs) o ho)

theorem StandGone.setMState {m : MState} : StandGone (s.setMState m) := by
  refine h.of_eq ?_ fun o ho hl => hl.setMState ((by decide : ∀ o ∈ standRegs, F.MODULE_MSTATE_STATE.off ≠ o) o ho)
  unfold State.setMState
  split <;> exact ⟨rfl, rfl, rfl⟩

theorem StandGone.powerIdle : StandGone s.powerIdle := by
  rw [powerIdle_mod]
  exact h.of_eq ⟨rfl, rfl, rfl⟩ fun _ _ hl => hl.same

theorem StandGone.rd {o : Nat} (ho : o ∈ standRegs) : s.rd o = 0 :=
  (h.regs o ho).rd.trans ((by decide : ∀ o ∈ standRegs, resetOf o = 0) o ho)

theorem StandGone.armed : s.armed = false := by
  rw [State.armed, State.flag, State.get, h.rd (by decide)]
  rfl

end

theorem setMState_memory (s : State) (m : MState) :
    (s.setMState m).mem = s.mem ∧ (s.setMState m).poison = s.poison ∧ (s.setMState m).dwood = s.dwood := by
  unfold State.setMState
  split <;> exact ⟨rfl, rfl, rfl⟩

/-- The state that the disarming of a running member leaves. -/
structure StandDisarmed (s t : State) : Prop where
  gone   : StandGone t
  mstate : t.mod.mstate = .ready
  mem    : t.mem = s.mem
  poison : t.poison = s.poison
  dwood  : t.dwood = s.dwood

/-- A running member whose stand has gone is READY. -/
theorem ready_disarmed (h : Lasting s₀ s) (hgone : StandGone s) : StandDisarmed s₀ (s.setMState .ready).powerIdle := by
  obtain ⟨hmem, hpoison, hdwood⟩ := setMState_memory s .ready
  have hstate : (s.setMState .ready).mod.mstate = .ready := by rw [setMState_mod]
  have hend := hgone.setMState (m := .ready).powerIdle
  rw [powerIdle_mod] at hend ⊢
  exact ⟨hend, hstate, hmem.trans h.mem, hpoison.trans h.poison, hdwood.trans h.dwood⟩

theorem disarm_disarms (harmed : s.armed = true) (hrun : s.mod.mstate = .running) : StandDisarmed s s.disarm := by
  unfold State.disarm
  rw [if_pos harmed]
  extract_lets s1 s2 s3 s4 s5 halted s6 s7 serve s8
  have h0 : Lasting s s := .refl s
  have h1 : Lasting s s1 := h0.discardStep.ite h0.clearDirty
  have h2 : Lasting s s2 := (h1.fold fun _ _ _ h => h.groveFoldStart).lpFoldStart
  have h4 : Lasting s s4 := h2.clearStand.wr.put
  have h5 : Lasting s s5 := ⟨(State.raiseBare_mem ..).trans h4.mem, (State.raiseBare_poison ..).trans h4.poison,
    (State.raiseBare_dwood ..).trans h4.dwood, (State.raiseBare_mod ..).trans h4.mod⟩
  have hgone : StandGone s5 := (((clearStand_gone s2).wr (by decide)).wr (by decide)).raiseBare
  have hstate : s5.mod.mstate = .running := (congrArg ModSt.mstate h5.mod).trans hrun
  have hhalted : halted = false := by simp [halted, hstate]
  have h7 : StandDisarmed s s7 := by
    have hready : s6 = s5.setMState .ready := if_pos (.inl hstate)
    show StandDisarmed s s6.powerIdle
    rw [hready]
    exact ready_disarmed h5 hgone
  rw [hhalted]
  clear_value s7
  show StandDisarmed s s8
  by_cases hserve : s7.fn P.SERVE = fnReady
  · rw [show s8 = _ from if_pos hserve]
    exact ⟨h7.gone.of_eq ⟨rfl, rfl, rfl⟩ fun _ _ hl => hl.same, h7.mstate, h7.mem, h7.poison, h7.dwood⟩
  · rw [show s8 = s7 from if_neg hserve]
    exact h7

theorem standDisarm_none (h : s.stand.unloadRx = none) : exec .standDisarm s = .next s := by
  show execStandDisarm s = _
  rw [execStandDisarm, h]

theorem standDisarm_some {r : Nat} (h : s.stand.unloadRx = some r) :
    exec .standDisarm s = .next (if s.stand.epochs && decide (r + 2 ≤ s.gepoch) then s.disarm else s) := by
  show execStandDisarm s = _
  rw [execStandDisarm, h]

end Sys2Proof.Machine
end

section
/-! O25: a step starts, is voted on, commits, aborts or stays uncommitted, and a member disarms. -/

namespace Sys2Proof.Machine

/-- Settles O25: each clause is the state of its operation, whose folds over the units keep to the units' own pages and fields. -/
theorem stepsStartAndAreVotedOn : Obligations.StepsStartAndAreVotedOn := by
  unfold Obligations.StepsStartAndAreVotedOn
  intro s hhandle hunits
  refine ⟨stepStart_none, fun a hepochs hann hstart hcur => ?_, fun hcur => ⟨voteSample_none hcur, commitTick_none hcur⟩, fun c hcur hepochs =>
    ⟨voteSample_early hcur, fun hactive hlast heoe => ?_, commitTick_early hcur, fun v htick hvote hsuspend hend => ⟨fun hcommit => ?_,
      fun habort hann hrx hissue hserve => ?_, fun hnone => ?_⟩⟩, standDisarm_none, fun r hrx => ⟨fun hearly => ?_,
      fun harmed hepochs hdue hrun => ?_⟩⟩
  · obtain ⟨t, hexec, h⟩ := stepStart_starts hhandle hunits hepochs hann hstart hcur
    exact ⟨t, hexec, h.stand, h.number, h.active, h.vote, h.sample, h.reduce, h.mod, h.frame⟩
  · obtain ⟨t, hexec, h⟩ := voteSample_votes hcur hepochs hactive hlast heoe
    exact ⟨t, hexec, h.stand, h.active, h.vote, h.mod, h.frame⟩
  · have h := commitStep_commits hhandle hunits c.step
    have happly : s.applyVerdict c.step v.verdict = s.commitStep c.step := by rw [hcommit, State.applyVerdict]
    refine ⟨s.commitStep c.step, ?_, h.last, h.stand, h.commits, h.event, h.groves, h.lpddr, h.frame⟩
    rw [commitTick_applies hcur hvote hepochs htick happly (by rw [h.stand, hsuspend]) (by rw [h.stand, hend]), hcommit]
    rfl
  · have h := abortStep_aborts hunits hann hrx hissue
    have happly : s.applyVerdict c.step v.verdict = s.abortStep := by rw [habort, State.applyVerdict]
    have hending : s.abortStep.serve.ending = false := by rw [h.frame, hserve]
    refine ⟨s.abortStep, ?_, h.aborts, h.stand, h.event, h.groves, h.lpddr, h.frame⟩
    rw [commitTick_applies hcur hvote hepochs htick happly (by rw [h.stand, hsuspend]) (by rw [h.stand, hend]), if_pos habort,
      seqOnAbort_idle (h.idle.trans hhandle) hending]
  · have happly := congrArg (s.applyVerdict c.step) hnone
    refine ⟨s.applyVerdict c.step .none, ?_, flag_putB_same _ _ _ (by decide) rfl, rfl⟩
    rw [commitTick_applies hcur hvote hepochs htick happly hsuspend hend, hnone]
    rfl
  · rw [standDisarm_some hrx]
    have hnot : ¬ r + 2 ≤ s.gepoch := Nat.not_le.2 hearly
    simp [hnot]
  · have h := disarm_disarms harmed hrun
    refine ⟨s.disarm, ?_, h.gone.armed, h.gone.image, h.gone.stand, h.mstate, h.gone.rd (by decide), h.gone.rd (by decide), h.gone.reduce,
      h.mem, h.poison, h.dwood⟩
    rw [standDisarm_some hrx]
    simp [hepochs, hdue]

end Sys2Proof.Machine
end

section
/-! SUPPORT. Module memory: a byte and a line read after a write (R131, R251). -/

namespace Sys2Proof.Machine

/-! ## Bytes -/

theorem aget_append_of_absent {α : Type} (d : α) (m n : AMap α) (k : Nat) (h : ∀ e ∈ n, e.1 ≠ k) : aget d (m ++ n) k = aget d m k := by
  by_cases hm : ∃ e ∈ m, e.1 = k
  · exact aget_append_of_mem d m n k hm
  · have hm' : ∀ e ∈ m, e.1 ≠ k := fun e he hk => hm ⟨e, he, hk⟩
    rw [aget_append_of_not_mem d m n k hm', aget_absent d n k h, aget_absent d m k hm']

theorem memByte_cellsOf (bs : List Byte) (a i : Nat) (hi : i < bs.length) : memByte (cellsOf a bs) (a + i) = bs[i] := by
  induction bs generalizing a i with
  | nil => cases hi
  | cons b bs ih =>
    have hrest : ∀ e ∈ cellsOf (a + 1) bs, e.1 ≠ a := fun e he => Nat.ne_of_gt ((cellsOf_spec bs (a + 1)).2 e he).1
    cases i with
    | zero =>
      unfold cellsOf
      split
      · next hb => exact (aget_absent _ _ _ hrest).trans hb.symm
      · exact if_pos rfl
    | succ i =>
      have hi' : i < bs.length := Nat.lt_of_succ_lt_succ hi
      have hplace : a + (i + 1) = a + 1 + i := by omega
      have hne : a ≠ a + 1 + i := by omega
      rw [hplace, List.getElem_cons_succ, cellsOf]
      split
      · exact ih (a + 1) i hi'
      · exact (if_neg hne).trans (ih (a + 1) i hi')

theorem memByte_memWrite_in (m : List Host.Cell) (a : Nat) (bs : List Byte) (i : Nat) (hi : i < bs.length) :
    memByte (memWrite m a bs) (a + i) = bs[i] := by
  have hbelow : ∀ e ∈ m.filter (fun e => decide (e.1 < a)), e.1 ≠ a + i := fun e he => by
    simp only [List.mem_filter, decide_eq_true_eq] at he
    omega
  have habove : ∀ e ∈ m.filter (fun e => decide (a + bs.length ≤ e.1)), e.1 ≠ a + i := fun e he => by
    simp only [List.mem_filter, decide_eq_true_eq] at he
    omega
  unfold memByte memWrite
  rw [aget_append_of_absent _ _ _ _ habove, aget_append_of_not_mem _ _ _ _ hbelow]
  exact memByte_cellsOf bs a i hi

theorem memByte_memWrite_out (m : List Host.Cell) (a : Nat) (bs : List Byte) (k : Nat) (hk : k < a ∨ a + bs.length ≤ k) :
    memByte (memWrite m a bs) k = memByte m k := by
  have hcells : ∀ e ∈ cellsOf a bs, e.1 ≠ k := fun e he => by
    obtain ⟨hlo, hhi, _⟩ := (cellsOf_spec bs a).2 e he
    omega
  unfold memByte memWrite
  rcases hk with hk | hk
  · have habove : ∀ e ∈ m.filter (fun e => decide (a + bs.length ≤ e.1)), e.1 ≠ k := fun e he => by
      simp only [List.mem_filter, decide_eq_true_eq] at he
      omega
    rw [aget_append_of_absent _ _ _ _ habove, aget_append_of_absent _ _ _ _ hcells]
    exact aget_filter 0 m k (fun x => decide (x < a)) (decide_eq_true hk)
  · have hbelow : ∀ e ∈ m.filter (fun e => decide (e.1 < a)), e.1 ≠ k := fun e he => by
      simp only [List.mem_filter, decide_eq_true_eq] at he
      omega
    rw [List.append_assoc, aget_append_of_not_mem _ _ _ _ hbelow, aget_append_of_not_mem _ _ _ _ hcells]
    exact aget_filter 0 m k (fun x => decide (a + bs.length ≤ x)) (decide_eq_true hk)

/-! ## Lines -/

@[simp] theorem length_leBytes (n v : Nat) : (leBytes n v).length = n := by
  induction n generalizing v with
  | zero => rfl
  | succ n ih => rw [leBytes, List.length_cons, ih]

theorem length_lineBytes (v : Line) : (lineBytes v).length = 64 := length_leBytes 64 _

theorem leValue_leBytes (n v : Nat) : leValue (leBytes n v) = v % 2 ^ (8 * n) := by
  induction n generalizing v with
  | zero => exact (Nat.mod_one v).symm
  | succ n ih =>
    rw [leBytes, leValue, ih, Nat.mul_succ, Nat.add_comm (8 * n), Nat.pow_add, Nat.mod_mul]
    rfl

/-- A line's bytes make up the line. -/
theorem lineOf_lineBytes (v : Line) : lineOf (lineBytes v) = v := by
  rw [lineOf, lineBytes, leValue_leBytes, Nat.mod_eq_of_lt v.isLt, BitVec.ofNat_toNat, BitVec.setWidth_eq]

theorem memBytes_memWrite_same (m : List Host.Cell) (a : Nat) (bs : List Byte) : memBytes (memWrite m a bs) a bs.length = bs := by
  refine List.ext_getElem (by simp [memBytes]) fun i _ hi => ?_
  simp only [memBytes, List.getElem_map, List.getElem_range]
  exact memByte_memWrite_in m a bs i hi

theorem memBytes_memWrite_apart (m : List Host.Cell) (a : Nat) (bs : List Byte) (k n : Nat) (h : k + n ≤ a ∨ a + bs.length ≤ k) :
    memBytes (memWrite m a bs) k n = memBytes m k n := by
  refine List.map_congr_left fun i hi => memByte_memWrite_out m a bs _ ?_
  have := List.mem_range.1 hi
  omega

/-- A line is read from the memory alone. -/
theorem line_congr {s t : State} (h : t.mem = s.mem) (n : Nat) : t.line n = s.line n := by
  rw [State.line, State.line, h]

theorem line_setLine (s : State) (n k : Nat) (v : Line) : (s.setLine n v).line k = if k = n then v else s.line k := by
  unfold State.setLine State.line
  split
  · next h =>
    subst h
    rw [← length_lineBytes v, memBytes_memWrite_same, lineOf_lineBytes]
  · next h =>
    have hlen := length_lineBytes v
    rw [memBytes_memWrite_apart _ _ _ _ _ (by omega)]

theorem line_setLine_same (s : State) (n : Nat) (v : Line) : (s.setLine n v).line n = v := (line_setLine s n n v).trans (if_pos rfl)

theorem line_setLine_ne (s : State) {n k : Nat} (v : Line) (h : k ≠ n) : (s.setLine n v).line k = s.line k :=
  (line_setLine s n k v).trans (if_neg h)

/-- A line written whole has no error (R131). -/
theorem poison_setLine {s : State} {k : Nat} (n : Nat) (v : Line) (h : aget false s.poison k = false) :
    aget false (s.setLine n v).poison k = false := by
  show aget false (aset false s.poison n false) k = false
  rw [aget_aset, h, ite_self]

end Sys2Proof.Machine
end

section
/-! SUPPORT. Reading grove SRAM (R128, R129): a line without an error, and a line that the codes correct. -/

namespace Sys2Proof.Machine

/-! ## Counters -/

theorem bump_toNat (s : State) (o n : Nat) : ((s.bump o n).rd o).toNat = min ((s.rd o).toNat + n) 0xFFFFFFFF := by
  rw [State.bump, rd_wr_same, BitVec.toNat_ofNat, Nat.mod_eq_of_lt (by omega)]

theorem bump_rd_ne (s : State) {o p : Nat} (n : Nat) (h : p ≠ o) : (s.bump o n).rd p = s.rd p := rd_wr_ne s _ h

/-- Nothing counted leaves every register as it was. -/
theorem bump_zero_rd (s : State) (o p : Nat) : (s.bump o 0).rd p = s.rd p := by
  by_cases h : p = o
  · subst h
    apply BitVec.eq_of_toNat_eq
    rw [bump_toNat]
    omega
  · exact bump_rd_ne s 0 h

theorem unit_not_evt {o : Nat} (h : 0x100000 ≤ o) : o ∉ evtOffs := fun ho => by
  have hlow : ∀ o ∈ evtOffs, o < 0x100000 := by decide
  exact absurd (hlow o ho) (Nat.not_lt.2 h)

/-! ## A grove's record -/

@[simp] theorem grove_setGrove_same (s : State) (g : Nat) (x : GroveSt) : (s.setGrove g x).grove g = x := aget_aset_same ..

theorem grove_congr {s t : State} (h : t.groves = s.groves) (g : Nat) : t.grove g = s.grove g := by
  rw [State.grove, State.grove, h]

@[simp] theorem grove_bump (s : State) (o n g : Nat) : (s.bump o n).grove g = s.grove g := rfl

/-- `t` is `s` but for the registers and the groves' records. -/
def GroveFrame (s t : State) : Prop := t = { s with regs := t.regs, groves := t.groves }

theorem GroveFrame.refl (s : State) : GroveFrame s s := rfl

section
variable {s t : State} (h : GroveFrame s t)
include h

theorem GroveFrame.trans {u : State} (h' : GroveFrame t u) : GroveFrame s u := by
  unfold GroveFrame at h
  rw [h] at h'
  exact h'

theorem GroveFrame.mem : t.mem = s.mem := by
  unfold GroveFrame at h
  rw [h]

theorem GroveFrame.setRegs (m : AMap Word) : GroveFrame s { t with regs := m } := h.trans rfl
theorem GroveFrame.wr {o : Nat} {v : Word} : GroveFrame s (t.wr o v) := h.setRegs _
theorem GroveFrame.put {f : Fld} {x : Nat} : GroveFrame s (t.put f x) := h.wr
theorem GroveFrame.putB {f : Fld} {b : Bool} : GroveFrame s (t.putB f b) := h.put
theorem GroveFrame.bump {o n : Nat} : GroveFrame s (t.bump o n) := h.wr
theorem GroveFrame.bumpW {o n : Nat} : GroveFrame s (t.bumpW o n) := h.wr
theorem GroveFrame.bump64 {o n : Nat} : GroveFrame s (t.bump64 o n) := GroveFrame.wr (GroveFrame.wr h)
theorem GroveFrame.setGrove {g : Nat} {x : GroveSt} : GroveFrame s (t.setGrove g x) := h.trans rfl
theorem GroveFrame.setChan {g ch : Nat} {c : DmaCh} : GroveFrame s (t.setChan g ch c) := h.setGrove

end

/-! ## A line without an error -/

theorem sramCorrected_clean (s : State) (g b : Nat) (v : Line) :
    s.sramCorrected g b { bad := false, v := v, inner := 0, outer := false } = s.bump (Reg.GSRAM_CORR_INNER g) 0 := by
  simp [State.sramCorrected]

/-- A line that holds no error is read as it stands, and nothing is counted. -/
theorem groveFetch_clean {s : State} {g n : Nat} (h : aget false s.poison (groveLine g n) = false) (who : ReadBy) :
    s.groveFetch g n who none =
      (s.bump (Reg.GSRAM_CORR_INNER g) 0, { bad := false, v := s.line (groveLine g n), inner := 0, outer := false }) := by
  simp [State.groveFetch, decodeLine, h, sramCorrected_clean]

/-! ## A line that the codes correct -/

/-- `t` is `s` but for the registers, the event arbiter, Glade's island log and the groves' records. -/
def SramFrame (s t : State) : Prop := t = { s with regs := t.regs, evt := t.evt, glade := t.glade, groves := t.groves }

theorem SramFrame.refl (s : State) : SramFrame s s := rfl

theorem SramFrame.trans {s t u : State} (h : SramFrame s t) (h' : SramFrame t u) : SramFrame s u := by
  unfold SramFrame at h
  rw [h] at h'
  exact h'

section
variable {s t : State} (h : SramFrame s t)
include h

theorem SramFrame.poison : t.poison = s.poison := by
  unfold SramFrame at h
  rw [h]

theorem SramFrame.bump {o n : Nat} : SramFrame s (t.bump o n) := h.trans rfl
theorem SramFrame.bumpW {o n : Nat} : SramFrame s (t.bumpW o n) := h.trans rfl
theorem SramFrame.setGrove {g : Nat} {x : GroveSt} : SramFrame s (t.setGrove g x) := h.trans rfl

theorem SramFrame.raise {pg bit : Nat} {ev : EvKind} : SramFrame s (t.raise pg bit ev) := by
  refine h.trans ?_
  unfold SramFrame
  rw [State.raise_groves]
  exact raise_eq ..

end

/-- With the wear threshold off, `t` is `s` with `n` corrections of the inner code counted at grove `g`. -/
structure SramCounted (s t : State) (g n : Nat) : Prop where
  frame : SramFrame s t
  wb    : (t.grove g).wb = (s.grove g).wb
  inner : (t.rd (Reg.GSRAM_CORR_INNER g)).toNat = min ((s.rd (Reg.GSRAM_CORR_INNER g)).toNat + n) 0xFFFFFFFF

/-- MEM.SRAM_CORR, raised on a grove's SRAM page, after a count. -/
def State.corrRaised (s : State) (g n : Nat) : State :=
  (s.bump (Reg.GSRAM_CORR_INNER g) n).raise (P.GSRAM g) B.GSRAM_SRAM_CORR Evn.MEM_SRAM_CORR

theorem corrRaised_rd (s : State) (g n k : Nat) (hk : k ≠ 0x14) :
    (s.corrRaised g n).rd (P.GSRAM g + k) = (s.bump (Reg.GSRAM_CORR_INNER g) n).rd (P.GSRAM g + k) :=
  raise_rd _ _ _ _ _ _ (unit_not_evt (unit_reg (by decide))) fun h => hk (Nat.add_left_cancel h)

theorem corrRaised_counted (s : State) (g n : Nat) : SramCounted s (s.corrRaised g n) g n where
  frame := (SramFrame.refl s).bump.raise
  wb := congrArg GroveSt.wb (grove_congr (State.raise_groves ..) g)
  inner := by rw [corrRaised_rd s g n 0x40 (by decide), bump_toNat]

/-- A line corrected by the outer code, counted at its grove and its bank. -/
def State.outerCounted (s : State) (g b : Nat) : State :=
  (s.bump (Reg.GSRAM_CORR_OUTER g) 1).setGrove g { s.grove g with corr := aset 0 (s.grove g).corr b (aget 0 (s.grove g).corr b + 1) }

theorem SramCounted.outer {s t : State} {g n : Nat} (h : SramCounted s t g n) (b : Nat) : SramCounted s (t.outerCounted g b) g n where
  frame := h.frame.bump.setGrove
  wb := (congrArg GroveSt.wb (grove_setGrove_same ..)).trans h.wb
  inner := (congrArg BitVec.toNat (bump_rd_ne _ _ (by simp))).trans h.inner

theorem sramCorrected_counted {s : State} {g : Nat} (b : Nat) {d : Decoded} (hinner : 0 < d.inner)
    (hthresh : s.rd (Reg.GSRAM_WEAR_THRESH g) = 0) : SramCounted s (s.sramCorrected g b d) g d.inner := by
  have h := corrRaised_counted s g d.inner
  have hoff : ((s.corrRaised g d.inner).bump (Reg.GSRAM_CORR_OUTER g) 1).rd (Reg.GSRAM_WEAR_THRESH g) = 0 := by
    rw [bump_rd_ne _ _ (by simp), corrRaised_rd _ _ _ 0x50 (by decide), bump_rd_ne _ _ (by simp), hthresh]
  have hcorr : s.sramCorrected g b d =
      if d.outer then (s.corrRaised g d.inner).outerCounted g b else s.corrRaised g d.inner := by
    unfold State.corrRaised at hoff
    simp [State.sramCorrected, State.outerCounted, State.corrRaised, hinner, hoff]
  rw [hcorr]
  split
  · exact h.outer b
  · exact h

end Sys2Proof.Machine
end

section
/-! The scrubber (R126, R133), and O19. -/

namespace Sys2Proof.Machine

variable {s : State} {g b row : Nat}

/-! ## One owned bank -/

/-- What the codes make of the line `v`, which they correct. -/
def correctedLine (v : Line) (o : LineObs) : Decoded :=
  { bad := false, v := v, inner := o.inner.toNat, outer := decide (0 < o.erased.toNat + o.errors.toNat) }

theorem groveFetch_corrected {n : Nat} (h : aget false s.poison (groveLine g n) = false) {o : LineObs}
    (ho : o.erased.toNat + 2 * o.errors.toNat ≤ 8) (who : ReadBy) :
    s.groveFetch g n who (some o) =
      (s.sramCorrected g (n % 512) (correctedLine (s.line (groveLine g n)) o), correctedLine (s.line (groveLine g n)) o) := by
  simp [State.groveFetch, decodeLine, correctedLine, h, Nat.not_lt.2 ho]

theorem scrubBank_clean (hwb : aget none (s.grove g).wb b = none) (hrow : aget false s.poison (groveLine g (row * 512 + b)) = false) :
    s.scrubBank g b row none = s.bump (Reg.GSRAM_CORR_INNER g) 0 := by
  simp [State.scrubBank, hwb, groveFetch_clean hrow]

/-- The line `w` that waits for bank `b` is written back. -/
def State.wroteBack (s : State) (g b : Nat) (w : ScrubWb) : State :=
  (s.setLine (groveLine g w.line) w.v).setGrove g { s.grove g with wb := aset none (s.grove g).wb b none }

theorem scrubBank_writesBack {w : ScrubWb} (hwb : aget none (s.grove g).wb b = some w)
    (hrow : aget false s.poison (groveLine g (row * 512 + b)) = false) :
    s.scrubBank g b row none = (s.wroteBack g b w).bump (Reg.GSRAM_CORR_INNER g) 0 := by
  have hclean : aget false (s.wroteBack g b w).poison (groveLine g (row * 512 + b)) = false :=
    poison_setLine (groveLine g w.line) w.v hrow
  have hfetch := groveFetch_clean hclean .scrub
  unfold State.wroteBack at hfetch ⊢
  simp [State.scrubBank, hwb, hfetch]

/-- A line that waits for the next scrub tick of its bank. -/
def State.heldBack (s : State) (g b : Nat) (w : ScrubWb) : State :=
  s.setGrove g { s.grove g with wb := aset none (s.grove g).wb b (some w) }

/-- A line that the codes correct is counted and waits. -/
theorem scrubBank_corrects (hwb : aget none (s.grove g).wb b = none) (hrow : aget false s.poison (groveLine g (row * 512 + b)) = false)
    {o : LineObs} (ho : o.erased.toNat + 2 * o.errors.toNat ≤ 8) (hinner : 0 < o.inner.toNat) (hthresh : s.rd (Reg.GSRAM_WEAR_THRESH g) = 0) :
    ∃ t, SramCounted s t g o.inner.toNat ∧ s.scrubBank g b row (some o) =
      t.heldBack g b { line := row * 512 + b, v := s.line (groveLine g (row * 512 + b)) } := by
  refine ⟨s.sramCorrected g ((row * 512 + b) % 512) (correctedLine (s.line (groveLine g (row * 512 + b))) o),
    sramCorrected_counted _ hinner hthresh, ?_⟩
  simp [State.scrubBank, State.heldBack, hwb, groveFetch_corrected hrow ho, correctedLine, hinner]

/-! ## The tick -/

/-- The end of scrub tick `tau`: the counter goes on, and a pass is counted after every row of every bank. -/
def State.scrubCount (s : State) (g tau : Nat) : State :=
  let s := s.setGrove g { s.grove g with scrubTau := tau + 1 }
  if (tau + 1) % 8388608 = 0 then s.bumpW (Reg.GSRAM_SCRUB_PASS g) 1 else s

theorem scrubTick_ready {g : Fin 16} (hready : s.fn (P.GROVE g.val) = fnReady) (o o' : Option LineObs) :
    exec (.scrubTick g o o') s = .next (State.scrubCount
      ((s.scrubBank g.val ((s.grove g.val).scrubTau % 256) ((s.grove g.val).scrubTau / 256 % 32768) o).scrubBank g.val
        ((s.grove g.val).scrubTau % 256 + 256) ((s.grove g.val).scrubTau / 256 % 32768) o') g.val (s.grove g.val).scrubTau) :=
  if_pos hready

theorem scrubTick_unready {g : Fin 16} (hready : s.fn (P.GROVE g.val) ≠ fnReady) (o o' : Option LineObs) :
    exec (.scrubTick g o o') s = .next s := if_neg hready

section
variable (s : State) (g tau : Nat)

theorem scrubCount_frame : GroveFrame s (s.scrubCount g tau) := by
  unfold State.scrubCount
  dsimp only
  split
  · exact (GroveFrame.refl s).setGrove.bumpW
  · exact (GroveFrame.refl s).setGrove

theorem SramFrame.scrubCount {s t : State} (h : SramFrame s t) {g tau : Nat} : SramFrame s (t.scrubCount g tau) := by
  unfold State.scrubCount
  dsimp only
  split
  · exact h.setGrove.bumpW
  · exact h.setGrove

theorem scrubCount_line (n : Nat) : (s.scrubCount g tau).line n = s.line n := line_congr (scrubCount_frame s g tau).mem n

theorem scrubCount_grove : (s.scrubCount g tau).grove g = { s.grove g with scrubTau := tau + 1 } := by
  unfold State.scrubCount
  dsimp only
  split <;> exact grove_setGrove_same ..

theorem scrubCount_rd {o : Nat} (h : o ≠ Reg.GSRAM_SCRUB_PASS g) : (s.scrubCount g tau).rd o = s.rd o := by
  unfold State.scrubCount
  dsimp only
  split
  · exact rd_wr_ne _ _ h
  · rfl

theorem scrubCount_pass : (s.scrubCount g tau).rd (Reg.GSRAM_SCRUB_PASS g) =
    if (tau + 1) % 8388608 = 0 then s.rd (Reg.GSRAM_SCRUB_PASS g) + 1 else s.rd (Reg.GSRAM_SCRUB_PASS g) := by
  unfold State.scrubCount
  dsimp only
  split
  · exact rd_wr_same ..
  · rfl

end

/-! ## What a tick does -/

section
variable {g : Fin 16} (hready : s.fn (P.GROVE g.val) = fnReady) (hb : (s.grove g.val).scrubTau % 256 = b)
  (hr : (s.grove g.val).scrubTau / 256 % 32768 = row) (hwb1 : aget none (s.grove g.val).wb (b + 256) = none)
  (hrow0 : aget false s.poison (groveLine g.val (row * 512 + b)) = false)
  (hrow1 : aget false s.poison (groveLine g.val (row * 512 + (b + 256))) = false)
include hready hb hr hwb1 hrow0 hrow1

theorem scrubTick_clean (hwb0 : aget none (s.grove g.val).wb b = none) :
    exec (.scrubTick g none none) s = .next
      (((s.bump (Reg.GSRAM_CORR_INNER g.val) 0).bump (Reg.GSRAM_CORR_INNER g.val) 0).scrubCount g.val (s.grove g.val).scrubTau) := by
  have hbank1 : (s.bump (Reg.GSRAM_CORR_INNER g.val) 0).scrubBank g.val (b + 256) row none = _ := scrubBank_clean hwb1 hrow1
  rw [scrubTick_ready hready, hb, hr, scrubBank_clean hwb0 hrow0, hbank1]

theorem scrubTick_writesBack {w : ScrubWb} (hwb0 : aget none (s.grove g.val).wb b = some w) :
    exec (.scrubTick g none none) s = .next ((((s.wroteBack g.val b w).bump (Reg.GSRAM_CORR_INNER g.val) 0).bump
      (Reg.GSRAM_CORR_INNER g.val) 0).scrubCount g.val (s.grove g.val).scrubTau) := by
  have hwb : aget none ((s.wroteBack g.val b w).grove g.val).wb (b + 256) = none := by
    rw [State.wroteBack, grove_setGrove_same, aget_aset_ne _ _ _ _ (by omega), hwb1]
  have hbank1 : ((s.wroteBack g.val b w).bump (Reg.GSRAM_CORR_INNER g.val) 0).scrubBank g.val (b + 256) row none = _ :=
    scrubBank_clean hwb (poison_setLine (groveLine g.val w.line) w.v hrow1)
  rw [scrubTick_ready hready, hb, hr, scrubBank_writesBack hwb0 hrow0, hbank1]

theorem scrubTick_corrects (hwb0 : aget none (s.grove g.val).wb b = none) {o : LineObs} (ho : o.erased.toNat + 2 * o.errors.toNat ≤ 8)
    (hinner : 0 < o.inner.toNat) (hthresh : s.rd (Reg.GSRAM_WEAR_THRESH g.val) = 0) :
    ∃ t, SramCounted s t g.val o.inner.toNat ∧ exec (.scrubTick g (some o) none) s = .next
      (((t.heldBack g.val b { line := row * 512 + b, v := s.line (groveLine g.val (row * 512 + b)) }).bump (Reg.GSRAM_CORR_INNER g.val) 0).scrubCount
        g.val (s.grove g.val).scrubTau) := by
  obtain ⟨t, h, hbank0⟩ := scrubBank_corrects hwb0 hrow0 ho hinner hthresh
  have hwb : aget none ((t.heldBack g.val b
      { line := row * 512 + b, v := s.line (groveLine g.val (row * 512 + b)) }).grove g.val).wb (b + 256) = none := by
    rw [State.heldBack, grove_setGrove_same, aget_aset_ne _ _ _ _ (by omega), h.wb, hwb1]
  have hpoison : aget false t.poison (groveLine g.val (row * 512 + (b + 256))) = false := by rw [h.frame.poison, hrow1]
  refine ⟨t, h, ?_⟩
  rw [scrubTick_ready hready, hb, hr, hbank0, scrubBank_clean hwb hpoison]

end

/-- Settles O19: both owned banks are read without an error, or the first corrects a line, or writes one back. -/
theorem scrubTickReadsItsOwnedBanks : Obligations.ScrubTickReadsItsOwnedBanks := by
  unfold Obligations.ScrubTickReadsItsOwnedBanks
  intro s g x b row
  refine ⟨fun hready => scrubTick_unready hready, fun hready hwb1 hrow0 hrow1 => ⟨fun hwb0 => ?_, fun o hwb0 ho hinner hthresh => ?_,
    fun w hwb0 => ?_⟩⟩
  · refine ⟨_, scrubTick_clean hready rfl rfl hwb1 hrow0 hrow1 hwb0, scrubCount_grove .., ?_, fun o ho => ?_,
      (GroveFrame.refl s).bump.bump.trans (scrubCount_frame ..)⟩
    · simp only [scrubCount_pass, bump_zero_rd]
      rfl
    · rw [scrubCount_rd _ _ _ (by simpa using ho), bump_zero_rd, bump_zero_rd]
  · obtain ⟨t, h, hexec⟩ := scrubTick_corrects hready rfl rfl hwb1 hrow0 hrow1 hwb0 ho hinner hthresh
    refine ⟨_, hexec, ?_, ?_, h.frame.setGrove.bump.scrubCount⟩
    · rw [scrubCount_grove, grove_bump, State.heldBack, grove_setGrove_same, aget_aset_same]
    · rw [scrubCount_rd _ _ _ (by simp), bump_zero_rd]
      exact h.inner
  · refine ⟨_, scrubTick_writesBack hready rfl rfl hwb1 hrow0 hrow1 hwb0, ?_, ?_, fun n hn => ?_, fun o ho => ?_, ?_⟩
    · rw [scrubCount_grove, grove_bump, grove_bump, State.wroteBack, grove_setGrove_same, aget_aset_same]
    · exact (scrubCount_line ..).trans (line_setLine_same ..)
    · exact (scrubCount_line ..).trans (line_setLine_ne _ _ hn)
    · rw [scrubCount_rd _ _ _ (by simpa using ho), bump_zero_rd, bump_zero_rd]
      rfl
    · rw [show State.scrubCount _ _ _ = _ from scrubCount_frame ..]
      rfl

end Sys2Proof.Machine
end

section
/-! SUPPORT. A grove DMA descriptor starts (R145, R146): its source lines are read, and its channel runs. -/

namespace Sys2Proof.Machine

/-- The state with another register map. -/
def State.setRegs (s : State) (m : AMap Word) : State := { s with regs := m }

/-! ## The source lines -/

section
variable {s : State} {g a : Nat}

theorem groveSchedRead_clean (h : aget false s.poison (s.groveReadLine g a) = false) :
    s.groveSchedRead g a none = (s.bump (Reg.GSRAM_CORR_INNER g) 0, s.line (s.groveReadLine g a)) := by
  simp only [State.groveSchedRead, groveFetch_clean h, State.groveReadLine]

/-- Lines that hold no error are read as they stand, and every register reads as before. -/
theorem readLines_clean {n : Nat} (h : ∀ i < n, aget false s.poison (s.groveReadLine g (a + i)) = false) :
    ∃ m, (∀ o, (s.setRegs m).rd o = s.rd o) ∧
      s.readLines g a n = (s.setRegs m, (List.range n).map fun i => s.line (s.groveReadLine g (a + i))) := by
  induction n generalizing s a with
  | zero => exact ⟨s.regs, fun _ => rfl, rfl⟩
  | succ n ih =>
    have hrest : ∀ i < n, aget false (s.bump (Reg.GSRAM_CORR_INNER g) 0).poison
        ((s.bump (Reg.GSRAM_CORR_INNER g) 0).groveReadLine g (a + 1 + i)) = false := fun i hi => by
      rw [Nat.add_right_comm]
      exact h (i + 1) (Nat.succ_lt_succ hi)
    have hfirst : aget false s.poison (s.groveReadLine g a) = false := h 0 (Nat.succ_pos n)
    obtain ⟨m, hrd, hread⟩ := ih hrest
    refine ⟨m, fun o => (hrd o).trans (bump_zero_rd s _ o), ?_⟩
    rw [State.readLines, groveSchedRead_clean hfirst, hread, List.range_succ_eq_map, List.map_cons, List.map_map]
    refine congrArg (fun l => (s.setRegs m, s.line (s.groveReadLine g a) :: l)) (List.map_congr_left fun i _ => ?_)
    rw [Nat.add_right_comm]
    rfl

end

/-! ## The channel -/

@[simp] theorem chan_setChan_same (s : State) (g ch : Nat) (c : DmaCh) : (s.setChan g ch c).chan g ch = c := by
  rw [State.chan, State.setChan, grove_setGrove_same]
  exact aget_aset_same ..

theorem chan_congr {s t : State} (h : t.groves = s.groves) (g ch : Nat) : t.chan g ch = s.chan g ch := by
  rw [State.chan, State.chan, grove_congr h]

/-- What a scheduled start of descriptor `desc` runs (Table 6.2). -/
def State.dmaRunOf (s : State) (g ch desc : Nat) : DmaRun :=
  let d := aget 0 (s.grove g).descs (256 * ch + desc)
  let len := descField d 0 16 16 + 1
  { desc := desc, kind := descField d 0 0 4, rate := descField d 0 4 3, eng := descField d 0 8 3, half := descField d 0 11 1, len := len,
    src := descField d 1 0 24, dst := descField d 2 0 24, sched := true, byEng := none,
    lines := (List.range len).map fun i => s.line (s.groveReadLine g (descField d 1 0 24 + i)), moved := 0 }

/-- Channel `ch` runs `r`, scheduled. -/
def State.dmaRuns (s : State) (g ch : Nat) (r : DmaRun) : State :=
  let c := s.chan g ch
  let s := s.setChan g ch { c with run := some r, outbuf := if r.kind = 1 then c.outbuf ++ r.lines else c.outbuf }
  ((s.bumpW (Reg.GDMA_STARTS g) 1).putB ⟨Reg.GDMA_BUSY g, ch, 1⟩ true).wr (Reg.GDMA_CH_STATE g ch)
    (BitVec.ofNat 32 (r.desc % 256 + 256 + 512 + 65536 * min r.len 0xFFFF))

section
variable (s : State) (g ch : Nat) (r : DmaRun)

theorem dmaRuns_frame : GroveFrame s (s.dmaRuns g ch r) := (GroveFrame.refl s).setChan.bumpW.putB.wr

theorem dmaRuns_chan : (s.dmaRuns g ch r).chan g ch =
    { s.chan g ch with run := some r, outbuf := if r.kind = 1 then (s.chan g ch).outbuf ++ r.lines else (s.chan g ch).outbuf } :=
  chan_setChan_same ..

theorem dmaRuns_starts : (s.dmaRuns g ch r).rd (Reg.GDMA_STARTS g) = s.rd (Reg.GDMA_STARTS g) + 1 := by
  have hstate : Reg.GDMA_STARTS g ≠ Reg.GDMA_CH_STATE g ch := by
    show P.GDMA g + 0x44 ≠ P.GDMA g + 0x80 + 0x4 * ch
    omega
  have hbusy : Reg.GDMA_STARTS g ≠ Reg.GDMA_BUSY g := by simp
  rw [State.dmaRuns, rd_wr_ne _ _ hstate, State.putB, rd_put_ne _ _ _ hbusy]
  exact rd_wr_same ..

theorem dmaRuns_busy (hch : ch < 16) : (s.dmaRuns g ch r).flag ⟨Reg.GDMA_BUSY g, ch, 1⟩ = true := by
  have hstate : Reg.GDMA_BUSY g ≠ Reg.GDMA_CH_STATE g ch := by
    show P.GDMA g + 0x40 ≠ P.GDMA g + 0x80 + 0x4 * ch
    omega
  have hbits : ch + 1 ≤ 32 := by omega
  rw [State.dmaRuns, State.flag, get_wr_off _ ⟨Reg.GDMA_BUSY g, ch, 1⟩ _ _ hstate]
  exact flag_putB_same _ ⟨Reg.GDMA_BUSY g, ch, 1⟩ true hbits rfl

theorem dmaRuns_state : ((s.dmaRuns g ch r).rd (Reg.GDMA_CH_STATE g ch)).toNat = r.desc % 256 + 768 + 65536 * min r.len 0xFFFF := by
  rw [State.dmaRuns, rd_wr_same, BitVec.toNat_ofNat, Nat.mod_eq_of_lt (by omega)]

theorem dmaRuns_running : (s.dmaRuns g ch r).flag (F.GDMA_CH_STATE_BUSY g ch) = true := by
  rw [State.flag, State.get, bitsOf, dmaRuns_state]
  show (((r.desc % 256 + 768 + 65536 * min r.len 0xFFFF) / 256 % 2) != 0) = true
  rw [bne_iff_ne]
  omega

theorem dmaRuns_remaining : (s.dmaRuns g ch r).get (chRemaining g ch) = min r.len 0xFFFF := by
  show bitsOf ((s.dmaRuns g ch r).rd (Reg.GDMA_CH_STATE g ch)) 16 16 = _
  rw [bitsOf, dmaRuns_state]
  omega

theorem dmaRuns_rd : onlyRegs [Reg.GDMA_STARTS g, Reg.GDMA_BUSY g, Reg.GDMA_CH_STATE g ch] s (s.dmaRuns g ch r) := fun o ho => by
  simp only [List.mem_cons, List.not_mem_nil, or_false, not_or] at ho
  obtain ⟨hstarts, hbusy, hstate⟩ := ho
  rw [State.dmaRuns, rd_wr_ne _ _ hstate, State.putB, rd_put_ne _ _ _ hbusy]
  exact rd_wr_ne _ _ hstarts

end

/-! ## The start -/

section
variable {s : State} {g ch : Nat}

theorem dmaTakeIn_other {r : DmaRun} (hrun : (s.chan g ch).run = some r) (hkind : r.kind ≠ 2) : s.dmaTakeIn g ch = s := by
  simp only [State.dmaTakeIn, hrun, hkind, ↓reduceIte]

theorem dmaStart_busy {r : DmaRun} (hrun : (s.chan g ch).run = some r) (desc : Nat) (sched : Bool) (e : Option Nat) :
    s.dmaStart g ch desc sched e = s := by
  simp only [State.dmaStart, hrun]

theorem dmaStart_runs {desc : Nat} (hrun : (s.chan g ch).run = none) (hkind : (s.dmaRunOf g ch desc).kind ≠ 2)
    (hclean : ∀ i < (s.dmaRunOf g ch desc).len, aget false s.poison (s.groveReadLine g ((s.dmaRunOf g ch desc).src + i)) = false) :
    ∃ m, (∀ o, (s.setRegs m).rd o = s.rd o) ∧
      s.dmaStart g ch desc true none = (s.setRegs m).dmaRuns g ch (s.dmaRunOf g ch desc) := by
  obtain ⟨m, hrd, hread⟩ := readLines_clean hclean
  refine ⟨m, hrd, ?_⟩
  have hother := dmaTakeIn_other (s := (s.setRegs m).dmaRuns g ch (s.dmaRunOf g ch desc)) (congrArg DmaCh.run (dmaRuns_chan ..)) hkind
  rw [← hother]
  simp only [State.dmaRunOf] at hread hkind
  simp only [State.dmaStart, hrun, hkind, ↓reduceIte, hread]
  rfl

end

theorem dmaSchedStart_none {s : State} {g ch : Fin 16} (h : s.stepActive = false ∨ (s.chan g.val ch.val).run.isSome = true) (desc : BitVec 8) :
    exec (.dmaSchedStart g ch desc) s = .next s := by
  show execDmaSchedStart g ch desc s = _
  unfold execDmaSchedStart
  split
  · next hstep =>
    obtain ⟨r, hrun⟩ := Option.isSome_iff_exists.1 (h.resolve_left (by rw [hstep]; decide))
    rw [dmaStart_busy hrun]
  · rfl

end Sys2Proof.Machine
end

section
/-! SUPPORT. A grove DMA descriptor completes (R146): its lines are written, and its channel is idle. -/

namespace Sys2Proof.Machine

/-! ## The scrubber's write-back is dropped (R133) -/

theorem wbDrop_eq (s : State) (g n : Nat) : s.wbDrop g n = { s with groves := (s.wbDrop g n).groves } := by
  unfold State.wbDrop
  dsimp only
  split
  · split <;> rfl
  · rfl

theorem wbDrop_wins (s : State) (g n : Nat) : ((s.wbDrop g n).grove g).wins = (s.grove g).wins := by
  unfold State.wbDrop
  dsimp only
  split
  · split
    · rw [grove_setGrove_same]
    · rfl
  · rfl

theorem wbDrop_line (s : State) (g n k : Nat) : (s.wbDrop g n).line k = s.line k := line_congr (congrArg State.mem (wbDrop_eq s g n)) k

/-! ## Lines written to a grove without windows -/

theorem groveWrite_plain {s : State} {g : Nat} (hwins : (s.grove g).wins = []) (a : Nat) (v : Line) :
    s.groveWrite g a v = (s.wbDrop g a).setLine (groveLine g a) v := by
  have hplace : stepWriteLine 1 (s.grove g).wins (s.grove g).sel a = a := by
    rw [hwins]
    rfl
  have hafter : (((s.wbDrop g a).setLine (groveLine g a) v).grove g).wins = [] := (wbDrop_wins s g a).trans hwins
  simp only [State.groveWrite, hplace, State.groveDirty, hafter, winAt]

/-- `t` is `s` but for module memory, its error marks and the groves' records. -/
def LineFrame (s t : State) : Prop := t = { s with groves := t.groves, mem := t.mem, poison := t.poison }

theorem LineFrame.refl (s : State) : LineFrame s s := rfl

theorem LineFrame.trans {s t u : State} (h : LineFrame s t) (h' : LineFrame t u) : LineFrame s u := by
  unfold LineFrame at h
  rw [h] at h'
  exact h'

theorem LineFrame.regs {s t : State} (h : LineFrame s t) : t.regs = s.regs := by
  unfold LineFrame at h
  rw [h]

theorem wbDrop_frame (s : State) (g n : Nat) : LineFrame s (s.wbDrop g n) := by
  unfold LineFrame
  rw [wbDrop_eq]

theorem LineFrame.wbDrop {s t : State} (h : LineFrame s t) {g n : Nat} : LineFrame s (t.wbDrop g n) :=
  h.trans (wbDrop_frame t g n)

theorem LineFrame.setLine {s t : State} (h : LineFrame s t) {n : Nat} {v : Line} : LineFrame s (t.setLine n v) := h.trans rfl

/-- `t` is `s` with the lines `vs` written from line `a` of grove `g`. -/
structure LinesAt (s t : State) (g a : Nat) (vs : List Line) : Prop where
  frame : LineFrame s t
  lines : ∀ i (h : i < vs.length), t.line (groveLine g (a + i)) = vs[i]
  apart : ∀ n, (∀ i < vs.length, n ≠ groveLine g (a + i)) → t.line n = s.line n

theorem groveLine_ne {g a b : Nat} (h : a ≠ b) : groveLine g a ≠ groveLine g b := fun heq => h (Nat.add_left_cancel heq)

theorem writeLines_plain {s : State} {g : Nat} (hwins : (s.grove g).wins = []) (a : Nat) (vs : List Line) :
    LinesAt s (s.writeLines g a vs) g a vs := by
  induction vs generalizing s a with
  | nil => exact ⟨rfl, fun _ h => absurd h (Nat.not_lt_zero _), fun _ _ => rfl⟩
  | cons v vs ih =>
    have hfirst := groveWrite_plain hwins a v
    have hwins' : ((s.groveWrite g a v).grove g).wins = [] := by
      rw [hfirst]
      exact (wbDrop_wins s g a).trans hwins
    obtain ⟨hrest, hlines, hapart⟩ := ih hwins' (a + 1)
    rw [hfirst] at hrest hlines hapart
    rw [State.writeLines, hfirst]
    refine ⟨(LineFrame.refl s).wbDrop.setLine.trans hrest, fun i hi => ?_, fun n hn => ?_⟩
    · cases i with
      | zero => exact (hapart _ fun i _ => groveLine_ne (by omega)).trans (line_setLine_same ..)
      | succ i =>
        have hplace : a + (i + 1) = a + 1 + i := by omega
        rw [hplace]
        exact hlines i (Nat.lt_of_succ_lt_succ hi)
    · refine (hapart n fun i hi => ?_).trans ((line_setLine_ne _ _ (hn 0 (Nat.succ_pos _))).trans (wbDrop_line ..))
      rw [Nat.add_right_comm]
      exact hn (i + 1) (Nat.succ_lt_succ hi)

/-! ## The channel -/

/-- Channel `ch` is idle again, and the lines of its descriptor are counted. -/
def State.dmaEnds (s : State) (g ch len : Nat) : State :=
  let s := s.setChan g ch { s.chan g ch with run := none }
  let s := (s.putB ⟨Reg.GDMA_BUSY g, ch, 1⟩ false).putB (F.GDMA_CH_STATE_BUSY g ch) false
  (s.put (chRemaining g ch) 0).bump64 (Reg.GDMA_LINES_LO g) len

section
variable (s : State) (g ch len : Nat)

theorem dmaEnds_frame : GroveFrame s (s.dmaEnds g ch len) := (GroveFrame.refl s).setChan.putB.putB.put.bump64

theorem dmaEnds_chan : (s.dmaEnds g ch len).chan g ch = { s.chan g ch with run := none } := by
  rw [State.dmaEnds, chan_congr (State.bump64_groves ..)]
  exact chan_setChan_same ..

/-- Everything but the count of lines. -/
theorem dmaEnds_rd {o : Nat} (hlo : o ≠ Reg.GDMA_LINES_LO g) (hhi : o ≠ Reg.GDMA_LINES_HI g) : (s.dmaEnds g ch len).rd o =
    ((((s.setChan g ch { s.chan g ch with run := none }).putB ⟨Reg.GDMA_BUSY g, ch, 1⟩ false).putB (F.GDMA_CH_STATE_BUSY g ch) false).put
      (chRemaining g ch) 0).rd o :=
  (rd_wr_ne _ _ hhi).trans (rd_wr_ne _ _ hlo)

theorem state_ne_busy : Reg.GDMA_CH_STATE g ch ≠ Reg.GDMA_BUSY g := by
  show P.GDMA g + 0x80 + 0x4 * ch ≠ P.GDMA g + 0x40
  omega

theorem state_ne_lines : Reg.GDMA_CH_STATE g ch ≠ Reg.GDMA_LINES_LO g ∧ Reg.GDMA_CH_STATE g ch ≠ Reg.GDMA_LINES_HI g := by
  show P.GDMA g + 0x80 + 0x4 * ch ≠ P.GDMA g + 0x48 ∧ P.GDMA g + 0x80 + 0x4 * ch ≠ P.GDMA g + 0x4C
  omega

theorem dmaEnds_busy (hch : ch < 16) : (s.dmaEnds g ch len).flag ⟨Reg.GDMA_BUSY g, ch, 1⟩ = false := by
  have hbits : ch + 1 ≤ 32 := by omega
  have hstate := (state_ne_busy g ch).symm
  have hrd := (dmaEnds_rd s g ch len (o := Reg.GDMA_BUSY g) (by simp) (by simp)).trans
    ((rd_put_ne _ (chRemaining g ch) _ hstate).trans (rd_put_ne _ (F.GDMA_CH_STATE_BUSY g ch) _ hstate))
  exact (flag_of_rd hrd ch 1).trans (flag_putB_same _ ⟨Reg.GDMA_BUSY g, ch, 1⟩ false hbits rfl)

theorem dmaEnds_idle : (s.dmaEnds g ch len).flag (F.GDMA_CH_STATE_BUSY g ch) = false := by
  have hdisj : (chRemaining g ch).disj (F.GDMA_CH_STATE_BUSY g ch) = true := by simp [Fld.disj, chRemaining]
  refine (flag_of_rd (dmaEnds_rd s g ch len (state_ne_lines g ch).1 (state_ne_lines g ch).2) 8 1).trans ?_
  refine (congrArg (· != 0) (get_put_disj _ (chRemaining g ch) (F.GDMA_CH_STATE_BUSY g ch) 0 (by simp [chRemaining]) hdisj)).trans ?_
  exact flag_putB_same _ (F.GDMA_CH_STATE_BUSY g ch) false (by simp) rfl

theorem dmaEnds_remaining : (s.dmaEnds g ch len).get (chRemaining g ch) = 0 := by
  have hrd := dmaEnds_rd s g ch len (state_ne_lines g ch).1 (state_ne_lines g ch).2
  exact (congrArg (bitsOf · 16 16) hrd).trans (get_put_same _ (chRemaining g ch) 0 (by simp [chRemaining]))

theorem dmaEnds_lines : (s.dmaEnds g ch len).rd64 (Reg.GDMA_LINES_LO g) = s.rd64 (Reg.GDMA_LINES_LO g) + BitVec.ofNat 64 len := by
  have hkeep {o : Nat} (hbusy : o ≠ Reg.GDMA_BUSY g) (hstate : o ≠ Reg.GDMA_CH_STATE g ch) :=
    (rd_put_ne ((s.setChan g ch { s.chan g ch with run := none }).putB ⟨Reg.GDMA_BUSY g, ch, 1⟩ false |>.putB (F.GDMA_CH_STATE_BUSY g ch) false)
      (chRemaining g ch) 0 hstate).trans ((rd_put_ne _ (F.GDMA_CH_STATE_BUSY g ch) _ hstate).trans (rd_put_ne _ ⟨Reg.GDMA_BUSY g, ch, 1⟩ _ hbusy))
  refine (rd64_wr64_same ..).trans (congrArg (· + BitVec.ofNat 64 len) (rd64_congr (hkeep ?_ ?_) (hkeep ?_ ?_)))
  · simp
  · exact (state_ne_lines g ch).1.symm
  · simp
  · exact (state_ne_lines g ch).2.symm

theorem dmaEnds_only : onlyRegs [Reg.GDMA_BUSY g, Reg.GDMA_CH_STATE g ch, Reg.GDMA_LINES_LO g, Reg.GDMA_LINES_HI g] s (s.dmaEnds g ch len) :=
  fun o ho => by
    simp only [List.mem_cons, List.not_mem_nil, or_false, not_or] at ho
    obtain ⟨hbusy, hstate, hlo, hhi⟩ := ho
    rw [dmaEnds_rd _ _ _ _ hlo hhi, rd_put_ne _ (chRemaining g ch) _ hstate, State.putB, rd_put_ne _ (F.GDMA_CH_STATE_BUSY g ch) _ hstate]
    exact rd_put_ne _ _ _ hbusy

end

/-! ## The completion -/

section
variable {s : State} {g ch : Fin 16}

theorem dmaComplete_idle (hrun : (s.chan g.val ch.val).run = none) : exec (.dmaComplete g ch []) s = .next s := by
  show execDmaComplete g ch [] s = _
  simp only [execDmaComplete, hrun]

variable {r : DmaRun} (hrun : (s.chan g.val ch.val).run = some r)
include hrun

theorem dmaComplete_waits (hkind : r.kind = 1) (hout : (s.chan g.val ch.val).outbuf ≠ []) : exec (.dmaComplete g ch []) s = .next s := by
  show execDmaComplete g ch [] s = _
  simp [execDmaComplete, hrun, hkind, hout]

theorem dmaComplete_writes (hkind : r.kind = 0) :
    exec (.dmaComplete g ch []) s = .next ((s.writeLines g.val r.dst r.lines).dmaEnds g.val ch.val r.len) := by
  show execDmaComplete g ch [] s = _
  simp [execDmaComplete, hrun, hkind, State.dmaObs, State.dmaEnds]

end

end Sys2Proof.Machine
end

section
/-! SUPPORT. The end of a grove's fold (R143): selected lines are copied back, and the windows are removed. -/

namespace Sys2Proof.Machine

/-! ## Lines copied -/

theorem copyLineTo_frame (s : State) (src dst : Nat) : LineFrame s (s.copyLineTo src dst) := by
  unfold State.copyLineTo
  split <;> rfl

theorem copyLineTo_line (s : State) (src dst n : Nat) : (s.copyLineTo src dst).line n = if n = dst then s.line src else s.line n := by
  have hmem : (s.copyLineTo src dst).mem = (s.setLine dst (s.line src)).mem := by
    unfold State.copyLineTo
    split <;> rfl
  rw [line_congr hmem, line_setLine]

/-- Lines of grove `g` copied in turn: the second of each pair to the first. -/
def State.copyLines (s : State) (g : Nat) (moves : List (Nat × Nat)) : State :=
  moves.foldl (fun s p => s.copyLineTo (groveLine g p.2) (groveLine g p.1)) s

section
variable (s : State) (g : Nat) (moves : List (Nat × Nat))

theorem copyLines_frame : LineFrame s (s.copyLines g moves) :=
  List.foldlRecOn moves _ (motive := LineFrame s) (LineFrame.refl s) fun _ h _ _ => h.trans (copyLineTo_frame ..)

theorem copyLines_apart {n : Nat} (hn : ∀ p ∈ moves, n ≠ groveLine g p.1) : (s.copyLines g moves).line n = s.line n :=
  List.foldlRecOn moves _ (motive := fun t : State => t.line n = s.line n) rfl fun _ h p hp => by
    rw [copyLineTo_line, if_neg (hn p hp), h]

end

/-- Where no line is copied to twice, and none that is copied to is copied from, each line stands where it is copied to. -/
theorem copyLines_moved (s : State) (g : Nat) (moves : List (Nat × Nat)) (hnodup : (moves.map (·.1)).Nodup)
    (hapart : ∀ p ∈ moves, ∀ q ∈ moves, p.1 ≠ q.2) :
    ∀ p ∈ moves, (s.copyLines g moves).line (groveLine g p.1) = s.line (groveLine g p.2) := by
  induction moves generalizing s with
  | nil => exact fun p hp => absurd hp (List.not_mem_nil)
  | cons p moves ih =>
    obtain ⟨hfresh, hrest⟩ := List.nodup_cons.1 hnodup
    have hcopy : s.copyLines g (p :: moves) = (s.copyLineTo (groveLine g p.2) (groveLine g p.1)).copyLines g moves := rfl
    rw [hcopy]
    intro q hq
    rcases List.mem_cons.1 hq with rfl | hq
    · have hkeep : ∀ r ∈ moves, groveLine g q.1 ≠ groveLine g r.1 := fun r hr =>
        groveLine_ne fun heq => hfresh (List.mem_map.2 ⟨r, hr, heq.symm⟩)
      rw [copyLines_apart _ _ _ hkeep, copyLineTo_line, if_pos rfl]
    · have hsource : groveLine g q.2 ≠ groveLine g p.1 :=
        (groveLine_ne (hapart p List.mem_cons_self q (List.mem_cons_of_mem p hq))).symm
      rw [ih _ hrest (fun a ha b hb => hapart a (List.mem_cons_of_mem p ha) b (List.mem_cons_of_mem p hb)) q hq, copyLineTo_line, if_neg hsource]

/-! ## Windows removed -/

/-- The registers of a grove's window page. -/
def WinPage (g o : Nat) : Prop := P.GWIN g ≤ o ∧ o < P.GWIN g + 0x1000

theorem winPage_ne {g o k : Nat} (ho : ¬ WinPage g o) (hk : k < 0x1000) : o ≠ P.GWIN g + k := fun h => ho (by unfold WinPage; omega)

/-- The registers of the first `n` windows cleared. -/
def State.clearWins (s : State) (g n : Nat) : State :=
  n.fold (fun i _ s => (((s.wr (Reg.GWIN_BASE g i) 0).wr (Reg.GWIN_LEN g i) 0).wr (Reg.GWIN_ALT g i) 0).wr (Reg.GWIN_DIRTY g i) 0) s

theorem clearWins_succ (s : State) (g n : Nat) : s.clearWins g (n + 1) =
    ((((s.clearWins g n).wr (Reg.GWIN_BASE g n) 0).wr (Reg.GWIN_LEN g n) 0).wr (Reg.GWIN_ALT g n) 0).wr (Reg.GWIN_DIRTY g n) 0 := rfl

theorem clearWins_frame (s : State) (g n : Nat) : GroveFrame s (s.clearWins g n) := by
  induction n with
  | zero => rfl
  | succ n ih => exact ih.wr.wr.wr.wr

theorem clearWins_rd (s : State) {g n o : Nat} (hn : n ≤ 64) (ho : ¬ WinPage g o) : (s.clearWins g n).rd o = s.rd o := by
  induction n with
  | zero => rfl
  | succ n ih =>
    have hne (k : Nat) (hk : k < 0x110) : o ≠ P.GWIN g + k + 0x10 * n := by
      rw [Nat.add_assoc]
      exact winPage_ne ho (by omega)
    rw [clearWins_succ, rd_wr_ne _ _ (hne 0x10C (by decide)), rd_wr_ne _ _ (hne 0x108 (by decide)), rd_wr_ne _ _ (hne 0x104 (by decide)),
      rd_wr_ne _ _ (hne 0x100 (by decide)), ih (Nat.le_of_succ_le hn)]

/-! ## The fold -/

/-- A grove without windows. -/
def GroveSt.folded (x : GroveSt) : GroveSt := { x with wins := [], sel := [], dirty := [] }

/-- Grove `g`, whose record was `x`, has no windows. -/
def State.winsGone (s : State) (g : Nat) (x : GroveSt) : State :=
  let s := (s.clearWins g x.wins.length).setGrove g x.folded
  (((s.put (F.GWIN_STATUS_WIN_COUNT g) 0).putB (F.GWIN_STATUS_DIRTY g) false).putB (F.GWIN_STATUS_FOLD_BUSY g) false).wr (Reg.GWIN_WIN_LINES g) 0

theorem groveFold_eq (s : State) (g : Nat) :
    s.groveFold g = (s.copyLines g (foldList 1 (s.grove g).wins (s.grove g).sel)).winsGone g (s.grove g) := rfl

section
variable (s : State) (g : Nat) (x : GroveSt)

theorem winsGone_frame : GroveFrame s (s.winsGone g x) := (clearWins_frame ..).setGrove.put.putB.putB.wr

theorem winsGone_grove : (s.winsGone g x).grove g = x.folded := grove_setGrove_same ..

theorem winsGone_idle : (s.winsGone g x).flag (F.GWIN_STATUS_FOLD_BUSY g) = false := by
  rw [State.winsGone, State.flag, get_wr_off _ (F.GWIN_STATUS_FOLD_BUSY g) _ _ (by simp)]
  exact flag_putB_same _ (F.GWIN_STATUS_FOLD_BUSY g) false (by simp) rfl

theorem winsGone_count : (s.winsGone g x).get (F.GWIN_STATUS_WIN_COUNT g) = 0 := by
  rw [State.winsGone, get_wr_off _ (F.GWIN_STATUS_WIN_COUNT g) _ _ (by simp), State.putB,
    get_put_disj _ (F.GWIN_STATUS_FOLD_BUSY g) (F.GWIN_STATUS_WIN_COUNT g) _ (by simp) (by simp [Fld.disj]), State.putB,
    get_put_disj _ (F.GWIN_STATUS_DIRTY g) (F.GWIN_STATUS_WIN_COUNT g) _ (by simp) (by simp [Fld.disj])]
  exact get_put_same _ (F.GWIN_STATUS_WIN_COUNT g) 0 (by simp)

theorem winsGone_rd {o : Nat} (hwins : x.wins.length ≤ 64) (ho : ¬ WinPage g o) : (s.winsGone g x).rd o = s.rd o := by
  have hstatus : o ≠ Reg.GWIN_STATUS g := winPage_ne ho (by decide)
  rw [State.winsGone, rd_wr_ne _ _ (winPage_ne ho (by decide)), State.putB, rd_put_ne _ (F.GWIN_STATUS_FOLD_BUSY g) _ hstatus, State.putB,
    rd_put_ne _ (F.GWIN_STATUS_DIRTY g) _ hstatus, rd_put_ne _ (F.GWIN_STATUS_WIN_COUNT g) _ hstatus]
  exact clearWins_rd s hwins ho

end

/-! ## FOLD_DONE -/

theorem unloadEnd_eq (s : State) : s.unloadEnd = { s with regs := s.unloadEnd.regs } := by
  unfold State.unloadEnd
  split <;> rfl

theorem unloadEnd_rd (s : State) {o : Nat} (h : o ≠ Reg.STAND_LOAD_STATUS) : s.unloadEnd.rd o = s.rd o := by
  unfold State.unloadEnd
  split
  · exact rd_put_ne _ _ _ h
  · rfl

/-- The end of a fold is reported, and with the last one an unloading ends. -/
def State.foldReported (s : State) (g : Nat) : State := (s.raise (P.GWIN g) B.GWIN_FOLD_DONE Evn.MEM_FOLD_DONE).unloadEnd

section
variable (s : State) (g : Nat)

theorem foldReported_eq : s.foldReported g =
    { s with regs := (s.foldReported g).regs, evt := (s.foldReported g).evt, glade := (s.foldReported g).glade } := by
  rw [State.foldReported, unloadEnd_eq, raise_eq]

theorem foldReported_mem : (s.foldReported g).mem = s.mem := by rw [foldReported_eq]

theorem foldReported_groves : (s.foldReported g).groves = s.groves := by rw [foldReported_eq]

theorem foldReported_rd {o : Nat} (hevt : o ∉ evtOffs) (hsummary : o ≠ Hdr.EVT_SUMMARY (P.GWIN g)) (hload : o ≠ Reg.STAND_LOAD_STATUS) :
    (s.foldReported g).rd o = s.rd o := (unloadEnd_rd _ hload).trans (raise_rd _ _ _ _ _ _ hevt hsummary)

theorem winPage_not_low {o : Nat} (ho : WinPage g o) : o ∉ evtOffs ∧ o ≠ Reg.STAND_LOAD_STATUS := by
  have hhigh : 0x100000 ≤ o := Nat.le_trans (unit_reg (k := 0) (by decide)) ho.1
  exact ⟨unit_not_evt hhigh, fun h => absurd (h ▸ hhigh) (by decide)⟩

theorem foldReported_status : (s.foldReported g).rd (Reg.GWIN_STATUS g) = s.rd (Reg.GWIN_STATUS g) := by
  obtain ⟨hevt, hload⟩ := winPage_not_low g (o := Reg.GWIN_STATUS g) ⟨by simp, by simp⟩
  exact foldReported_rd s g hevt (by simp) hload

theorem foldReported_summary : (s.foldReported g).summary (P.GWIN g) B.GWIN_FOLD_DONE = true := by
  have hpage : P.GWIN g % 4096 = 0 := by
    show (0x10B000 + 0x10000 * g) % 4096 = 0
    omega
  obtain ⟨-, hload⟩ := winPage_not_low g (o := Hdr.EVT_SUMMARY (P.GWIN g)) ⟨by simp, by simp⟩
  exact (flag_of_rd (unloadEnd_rd _ hload) _ _).trans (raise_summary _ _ _ _ _ _ (by decide) hpage)

end

theorem foldDone_idle {s : State} {g : Fin 16} (h : s.flag (F.GWIN_STATUS_FOLD_BUSY g.val) = false) : exec (.foldDone g) s = .next s :=
  if_neg (by rw [h]; decide)

theorem foldDone_folds {s : State} {g : Fin 16} (h : s.flag (F.GWIN_STATUS_FOLD_BUSY g.val) = true) :
    exec (.foldDone g) s = .next ((s.groveFold g.val).foldReported g.val) := if_pos h

end Sys2Proof.Machine
end

section
/-! Grove DMA descriptors (R145, R146) and the end of a fold (R143): one lemma for each part of O20. -/

namespace Sys2Proof.Machine

section
variable {s : State} {g ch : Fin 16}

/-! ## A start -/

theorem dmaSchedStart_runs {desc : BitVec 8} (hstep : s.stepActive = true) (hrun : (s.chan g.val ch.val).run = none)
    (hkind : (s.dmaRunOf g.val ch.val desc.toNat).kind ≠ 2)
    (hclean : ∀ i < (s.dmaRunOf g.val ch.val desc.toNat).len,
      aget false s.poison (s.groveReadLine g.val ((s.dmaRunOf g.val ch.val desc.toNat).src + i)) = false) :
    ∃ m, (∀ o, (s.setRegs m).rd o = s.rd o) ∧ exec (.dmaSchedStart g ch desc) s =
      .next ((s.setRegs m).dmaRuns g.val ch.val (s.dmaRunOf g.val ch.val desc.toNat)) := by
  obtain ⟨m, hrd, hstart⟩ := dmaStart_runs hrun hkind hclean
  refine ⟨m, hrd, ?_⟩
  rw [← hstart]
  exact if_pos hstep

/-! ## A completion -/

/-- The state that a completed SRAM to SRAM descriptor leaves. -/
structure DmaCopied (s t : State) (g ch : Nat) (r : DmaRun) : Prop where
  idle      : (t.chan g ch).run = none
  lines     : ∀ i (h : i < r.lines.length), t.line (groveLine g (r.dst + i)) = r.lines[i]
  apart     : ∀ n, (∀ i, i < r.lines.length → n ≠ groveLine g (r.dst + i)) → t.line n = s.line n
  busy      : t.flag ⟨Reg.GDMA_BUSY g, ch, 1⟩ = false
  chBusy    : t.flag (F.GDMA_CH_STATE_BUSY g ch) = false
  remaining : t.get (chRemaining g ch) = 0
  count     : t.rd64 (Reg.GDMA_LINES_LO g) = s.rd64 (Reg.GDMA_LINES_LO g) + BitVec.ofNat 64 r.len
  regs      : onlyRegs [Reg.GDMA_BUSY g, Reg.GDMA_CH_STATE g ch, Reg.GDMA_LINES_LO g, Reg.GDMA_LINES_HI g] s t
  frame     : t = { s with regs := t.regs, groves := t.groves, mem := t.mem, poison := t.poison }

theorem writeLines_dmaEnds_copied {g ch : Nat} (hch : ch < 16) (hwins : (s.grove g).wins = []) (r : DmaRun) :
    DmaCopied s ((s.writeLines g r.dst r.lines).dmaEnds g ch r.len) g ch r := by
  obtain ⟨hframe, hlines, hapart⟩ := writeLines_plain hwins r.dst r.lines
  generalize s.writeLines g r.dst r.lines = u at hframe hlines hapart ⊢
  have hend := dmaEnds_frame u g ch r.len
  have hregs := hframe.regs
  exact
    { idle := by rw [dmaEnds_chan]
      lines := fun i h => (line_congr hend.mem _).trans (hlines i h)
      apart := fun n hn => (line_congr hend.mem _).trans (hapart n hn)
      busy := dmaEnds_busy u g ch r.len hch
      chBusy := dmaEnds_idle ..
      remaining := dmaEnds_remaining ..
      count := (dmaEnds_lines ..).trans (congrArg (· + _) (rd64_congr (rd_congr hregs _) (rd_congr hregs _)))
      regs := fun o ho => (dmaEnds_only u g ch r.len o ho).trans (rd_congr hregs o)
      frame := by
        unfold LineFrame at hframe
        rw [show u.dmaEnds g ch r.len = _ from hend, hframe] }

/-! ## The end of a fold -/

/-- The state that the end of a fold leaves. -/
structure Folded (s t : State) (g : Nat) (moves : List (Nat × Nat)) : Prop where
  grove   : t.grove g = (s.grove g).folded
  moved   : (moves.map (·.1)).Nodup → (∀ p ∈ moves, ∀ q ∈ moves, p.1 ≠ q.2) →
    ∀ p ∈ moves, t.line (groveLine g p.1) = s.line (groveLine g p.2)
  apart   : ∀ n, (∀ p ∈ moves, n ≠ groveLine g p.1) → t.line n = s.line n
  idle    : t.flag (F.GWIN_STATUS_FOLD_BUSY g) = false
  count   : t.get (F.GWIN_STATUS_WIN_COUNT g) = 0
  summary : t.summary (P.GWIN g) B.GWIN_FOLD_DONE = true
  regs    : ∀ o, ¬ WinPage g o → o ≠ Reg.STAND_LOAD_STATUS → o ∉ evtOffs → t.rd o = s.rd o
  frame   : t = { s with regs := t.regs, evt := t.evt, glade := t.glade, groves := t.groves, mem := t.mem, poison := t.poison }

/-- Lines copied, then windows removed, then an event. -/
theorem fold_frame {u v t : State} (hcopy : LineFrame s u) (hgone : GroveFrame u v)
    (hend : t = { v with regs := t.regs, evt := t.evt, glade := t.glade }) :
    t = { s with regs := t.regs, evt := t.evt, glade := t.glade, groves := t.groves, mem := t.mem, poison := t.poison } := by
  unfold LineFrame at hcopy
  unfold GroveFrame at hgone
  rw [hend, hgone, hcopy]

theorem groveFold_foldReported_folded {g : Nat} (hwins : (s.grove g).wins.length ≤ 64) :
    Folded s ((s.groveFold g).foldReported g) g (foldList 1 (s.grove g).wins (s.grove g).sel) := by
  rw [groveFold_eq]
  generalize foldList 1 (s.grove g).wins (s.grove g).sel = moves
  have hcopy := copyLines_frame s g moves
  have hgone := winsGone_frame (s.copyLines g moves) g (s.grove g)
  have hend := foldReported_eq ((s.copyLines g moves).winsGone g (s.grove g)) g
  have hstatus := foldReported_status ((s.copyLines g moves).winsGone g (s.grove g)) g
  have hline (n : Nat) : (((s.copyLines g moves).winsGone g (s.grove g)).foldReported g).line n = (s.copyLines g moves).line n :=
    line_congr ((foldReported_mem ..).trans hgone.mem) n
  exact
    { grove := (grove_congr (foldReported_groves ..) g).trans (winsGone_grove ..)
      moved := fun hnodup hapart p hp => (hline _).trans (copyLines_moved s g moves hnodup hapart p hp)
      apart := fun n hn => (hline n).trans (copyLines_apart s g moves hn)
      idle := (flag_of_rd hstatus _ _).trans (winsGone_idle ..)
      count := (congrArg (bitsOf · 0 7) hstatus).trans (winsGone_count ..)
      summary := foldReported_summary ..
      regs := fun o hpage hload hevt => by
        rw [foldReported_rd _ _ hevt (winPage_ne hpage (by decide)) hload, winsGone_rd _ _ _ hwins hpage, rd_congr hcopy.regs]
      frame := fold_frame hcopy hgone hend }

end

/-- Settles O20: each clause is the state of its operation. -/
theorem groveDmaAndFoldCommands : Obligations.GroveDmaAndFoldCommands := by
  unfold Obligations.GroveDmaAndFoldCommands
  intro s g ch desc x c d kind len src from_
  refine ⟨fun h => dmaSchedStart_none h desc, fun hstep hrun hkind hclean => ?_, dmaComplete_idle, fun r hrun hkind hout =>
    dmaComplete_waits hrun hkind hout, fun r hrun hkind hwins => ?_, foldDone_idle, fun hbusy hlen => ?_⟩
  · obtain ⟨m, hrd, hexec⟩ := dmaSchedStart_runs hstep hrun hkind hclean
    refine ⟨_, _, hexec, congrArg DmaCh.run (dmaRuns_chan ..), rfl, rfl, rfl, rfl, rfl, congrArg DmaCh.outbuf (dmaRuns_chan ..),
      (dmaRuns_starts ..).trans (congrArg (· + 1) (hrd _)), dmaRuns_busy _ _ _ _ ch.isLt, dmaRuns_running .., dmaRuns_remaining .., fun o ho => ?_,
      (GroveFrame.refl s).setRegs m |>.trans (dmaRuns_frame ..)⟩
    refine (dmaRuns_rd _ _ _ _ o fun hmem => ho ?_).trans (hrd o)
    exact List.mem_append_left [Reg.GSRAM_CORR_INNER g.val] hmem
  · have h := writeLines_dmaEnds_copied ch.isLt hwins r
    exact ⟨_, dmaComplete_writes hrun hkind, h.idle, h.lines, h.apart, h.busy, h.chBusy, h.remaining, h.count, h.regs, h.frame⟩
  · have h := groveFold_foldReported_folded hlen
    exact ⟨_, foldDone_folds hbusy, h.grove, h.moved, h.apart, h.idle, h.count, h.summary, h.regs, h.frame⟩

end Sys2Proof.Machine
end

section
/-! SUPPORT. Background access (R131, R136, R262): the address map, one whole line carried, and requests held. -/

namespace Sys2Proof.Machine

/-! ## The address map -/

section
variable {s t : State} (hregs : ∀ o, o % 0x1000 ≠ 0x4C → t.rd o = s.rd o) (hlpddr : t.lpddr = s.lpddr)
include hregs

theorem absent_map {pg : Nat} (hpg : pg % 0x1000 = 0) : t.absent pg = s.absent pg := absent_of_rd (hregs _ (by omega))

theorem lpPresent_map : t.lpPresent = s.lpPresent := by
  have habs (m : Nat) : t.absent (P.LPDDR m) = s.absent (P.LPDDR m) := absent_map hregs (by
    show (0x300000 + 0x1000 * m) % 0x1000 = 0
    omega)
  simp only [State.lpPresent, habs]

include hlpddr

theorem lpPlace_map (b : Nat) : t.lpPlace b = s.lpPlace b := by simp only [State.lpPlace, lpPresent_map hregs, hlpddr]

theorem lpPages_map : t.lpPages = s.lpPages := by
  have hgeom (m : Nat) : t.get (F.LPDDR_GEOMETRY_PKG_GIB m) = s.get (F.LPDDR_GEOMETRY_PKG_GIB m) :=
    congrArg (bitsOf · _ _) (hregs (Reg.LPDDR_GEOMETRY m) (by
      show (0x300000 + 0x1000 * m + 0x48) % 0x1000 ≠ 0x4C
      omega))
  simp only [State.lpPages, State.lpRuns, State.lpQ, hgeom, lpPresent_map hregs, hlpddr]

theorem lpUsable_map : t.lpUsable = s.lpUsable := by simp only [State.lpUsable, lpPages_map hregs hlpddr, hlpddr]

/-- The address map stands in the LPDDR5X record and in registers other than those at offset 0x4C of a page. -/
theorem target_map (n : Nat) : t.target n = s.target n := by
  have habs : t.absent (P.GROVE (n / 0x1000000)) = s.absent (P.GROVE (n / 0x1000000)) := absent_map hregs (by
    show (0x100000 + 0x10000 * (n / 0x1000000)) % 0x1000 = 0
    omega)
  have hret : t.bankRetired (n / 0x1000000) (n % 0x1000000 % 512) = s.bankRetired (n / 0x1000000) (n % 0x1000000 % 512) :=
    congrArg (fun v : Word => v.toNat.testBit _) (hregs (Reg.GSRAM_RETIRED _ _) (by
      show (0x10A000 + 0x10000 * (n / 0x1000000) + 0x80 + 0x4 * (n % 0x1000000 % 512 / 32)) % 0x1000 ≠ 0x4C
      omega))
  have hfn (m : Nat) : t.fn (P.LPDDR m) = s.fn (P.LPDDR m) := fn_congr (hregs _ (by
    show (0x300000 + 0x1000 * m + 0xC) % 0x1000 ≠ 0x4C
    omega))
  simp only [State.target, habs, hret, lpPlace_map hregs hlpddr, lpUsable_map hregs hlpddr, hfn]

end

/-- The line of a target stands in the windows of its grove or of the LPDDR5X. -/
theorem bgLineOf_congr {s t : State} (hgroves : t.groves = s.groves) (hlpddr : t.lpddr = s.lpddr) (x : Target) :
    t.bgLineOf x = s.bgLineOf x := by
  cases x with
  | grove g a => simp only [State.bgLineOf, grove_congr hgroves]
  | lpddr b => simp only [State.bgLineOf, hlpddr]

theorem isAlt_congr {s t : State} (hstatus : t.rd Reg.STAND_STATUS = s.rd Reg.STAND_STATUS) (hgroves : t.groves = s.groves)
    (hlpddr : t.lpddr = s.lpddr) (x : Target) : t.isAlt x = s.isAlt x := by
  have harmed : t.armed = s.armed := flag_of_rd hstatus _ _
  cases x with
  | grove g a => simp only [State.isAlt, harmed, grove_congr hgroves]
  | lpddr b => simp only [State.isAlt, harmed, hlpddr]

/-- An access of one whole line has one part. -/
theorem accParts_line {addr : Dword} (h : addr.toNat % 64 = 0) : accParts addr 64 = [(addr.toNat / 64, 0, 64)] := by
  simp [accParts, partsOf, h]

/-! ## One whole line carried -/

section
variable (s : State) (x : Target)

theorem bgCount_eq : s.bgCount x = { s with regs := (s.bgCount x).regs } := by
  cases x with
  | grove g a => rfl
  | lpddr b =>
    unfold State.bgCount
    dsimp only
    split <;> rfl

theorem bgCount_lines : ((s.bgCount x).rd Reg.FLOOR_BG_LINES).toNat = min ((s.rd Reg.FLOOR_BG_LINES).toNat + 1) 0xFFFFFFFF := by
  cases x with
  | grove g a => exact bump_toNat ..
  | lpddr b =>
    unfold State.bgCount
    dsimp only
    split
    · next pl _ =>
      have hne : Reg.FLOOR_BG_LINES ≠ Reg.LPDDR_BG_BLOCKS pl.m := by
        show 0x310000 + 0x4C ≠ 0x300000 + 0x1000 * pl.m + 0x68
        omega
      rw [bump_rd_ne _ _ hne]
      exact bump_toNat ..
    · exact bump_toNat ..

theorem bgCount_poison : (s.bgCount x).poison = s.poison := by rw [bgCount_eq]

theorem bgCount_line (n : Nat) : (s.bgCount x).line n = s.line n := line_congr (by rw [bgCount_eq]) n

theorem bgCount_bgLineOf : (s.bgCount x).bgLineOf x = s.bgLineOf x := bgLineOf_congr (by rw [bgCount_eq]) (by rw [bgCount_eq]) x

theorem bgStore_frame (v : Line) : LineFrame s (s.bgStore x v) := by
  cases x with
  | grove g a => exact (LineFrame.refl s).wbDrop.setLine
  | lpddr b => exact (LineFrame.refl s).setLine

theorem bgStore_line (v : Line) (n : Nat) : (s.bgStore x v).line n = if n = s.bgLineOf x then v else s.line n := by
  cases x with
  | grove g a => exact (line_setLine ..).trans (by rw [wbDrop_line])
  | lpddr b => exact line_setLine ..

/-- A whole line written by the background, and counted. -/
def State.bgPut (v : Line) : State := (s.bgCount x).bgStore x v

theorem bgPut_line (v : Line) (n : Nat) : (s.bgPut x v).line n = if n = s.bgLineOf x then v else s.line n := by
  rw [State.bgPut, bgStore_line, bgCount_bgLineOf, bgCount_line]

theorem bgPut_count (v : Line) : ((s.bgPut x v).rd Reg.FLOOR_BG_LINES).toNat = min ((s.rd Reg.FLOOR_BG_LINES).toNat + 1) 0xFFFFFFFF :=
  (congrArg BitVec.toNat (rd_congr (bgStore_frame ..).regs _)).trans (bgCount_lines s x)

theorem bgPut_eq (v : Line) : s.bgPut x v = { s with regs := (s.bgPut x v).regs, groves := (s.bgPut x v).groves, mem := (s.bgPut x v).mem,
                                                     poison := (s.bgPut x v).poison } := by
  have hstore := bgStore_frame (s.bgCount x) x v
  unfold LineFrame at hstore
  rw [State.bgPut, hstore, bgCount_eq]

theorem bgPut_bg (v : Line) : (s.bgPut x v).bg = s.bg := by rw [bgPut_eq]

theorem bgWritePart_line {bs : List Byte} (hlen : bs.length = 64) (halt : s.isAlt x = false) (obs : Option LineObs) :
    s.bgWritePart x 0 bs obs = s.bgPut x (lineOf bs) := by
  simp [State.bgWritePart, State.bgPut, hlen, halt]

end

/-- A line that holds no error is fetched as it stands. -/
theorem bgFetch_clean {s : State} {x : Target} (h : aget false s.poison (s.bgLineOf x) = false) :
    s.bgFetch x none = ({ s with regs := (s.bgFetch x none).1.regs },
      { bad := false, v := s.line (s.bgLineOf x), inner := 0, outer := false }) := by
  cases x with
  | grove g a =>
    rw [State.bgFetch, groveFetch_clean h]
    rfl
  | lpddr b =>
    simp only [State.bgLineOf] at h
    simp only [State.bgFetch, State.lpFetch, State.bgLineOf, h, decodeLine]
    split
    · rfl
    · simp [State.lpCorrected, State.bump, State.wr]

theorem bgReadPart_line {s : State} {x : Target} (halt : s.isAlt x = false) (h : aget false s.poison (s.bgLineOf x) = false) :
    s.bgReadPart x 0 64 none = ({ s with regs := ((s.bgCount x).bgFetch x none).1.regs }, lineBytes (s.line (s.bgLineOf x)), false) := by
  have hclean : aget false (s.bgCount x).poison ((s.bgCount x).bgLineOf x) = false := by rw [bgCount_poison, bgCount_bgLineOf, h]
  have hbytes : ((lineBytes (s.line (s.bgLineOf x))).drop 0).take 64 = lineBytes (s.line (s.bgLineOf x)) :=
    List.take_of_length_le (length_lineBytes _).le
  rw [State.bgReadPart, halt, if_neg Bool.false_ne_true, bgFetch_clean hclean, bgCount_bgLineOf, bgCount_line]
  dsimp only
  rw [hbytes, bgCount_eq]

/-! ## Requests held -/

theorem behindHeld_none {s : State} (h : s.bg = []) (x : Target) (write : Bool) : s.behindHeld x write = false := by
  rw [State.behindHeld, h]
  rfl

/-- BG_HELD is shown in registers alone. -/
theorem bgHeldFlags_eq (s : State) : s.bgHeldFlags = { s with regs := s.bgHeldFlags.regs } :=
  have hgroves : Within id s _ := (Within.refl s).fold fun _ _ _ h => h.putB (unit_reg (by decide))
  (hgroves.fold fun _ _ _ h => h.putB (unit_reg (by decide))).regsOnly

end Sys2Proof.Machine
end

section
/-! BG_ACCESS and BG_HELD_SERVE (R136, R236, R262): one lemma for each part of O21. -/

namespace Sys2Proof.Machine

/-! ## An access arrives -/

section
variable {s : State} {b : BgAccess} {x : Target}

/-- The module serves background accesses. -/
def BgOpen (s : State) : Prop := s.mod.power = .run ∨ s.mod.power = .idle

theorem bgArrive_write (hopen : BgOpen s) {bs : List Byte} (hwrite : b.write = some bs) (obs : List (Nat × LineObs)) :
    s.bgArrive b obs =
      if (s.bgWriteParts b obs 0 bs (accParts b.addr bs.length)).bg.any
          (fun h => h.acc.tag == b.tag && h.acc.via == b.via && h.acc.write.isSome) then
        s.bgWriteParts b obs 0 bs (accParts b.addr bs.length)
      else (s.bgWriteParts b obs 0 bs (accParts b.addr bs.length)).bgWrote b .ok := by
  rcases hopen with h | h <;> simp only [State.bgArrive, h, hwrite]

/-- A read of one whole line is refused, held or served as a whole. -/
theorem bgArrive_read (hopen : BgOpen s) (hwrite : b.write = none) (halign : b.addr.toNat % 64 = 0) (hlen : b.len = 64)
    (obs : List (Nat × LineObs)) : s.bgArrive b obs =
      match s.target (b.addr.toNat / 64) with
      | none => s.addrInvalid.bgAbort b
      | some x => if s.holds x false || s.behindHeld x false then s.bgHold b else s.bgServeRead b obs := by
  rcases hopen with h | h <;> cases htarget : s.target (b.addr.toNat / 64) <;>
    simp [State.bgArrive, h, hwrite, hlen, accParts_line halign, htarget]

theorem bgAccess_invalid (hopen : BgOpen s) (hvia : b.via = .core) (hwrite : b.write = none) (halign : b.addr.toNat % 64 = 0)
    (hlen : b.len = 64) (htarget : s.target (b.addr.toNat / 64) = none) :
    exec (.bgAccess b []) s = .next (s.addrInvalid.emit (.bgDone b.tag .aborted [])) := by
  show Host.Outcome.next (s.bgArrive b []) = _
  rw [bgArrive_read hopen hwrite halign hlen, htarget]
  simp only [State.bgAbort, hvia]

theorem bgAccess_held (hopen : BgOpen s) (hwrite : b.write = none) (halign : b.addr.toNat % 64 = 0) (hlen : b.len = 64)
    (htarget : s.target (b.addr.toNat / 64) = some x) (hheld : s.holds x false = true) : exec (.bgAccess b []) s = .next (s.bgHold b) := by
  show Host.Outcome.next (s.bgArrive b []) = _
  rw [bgArrive_read hopen hwrite halign hlen, htarget]
  simp only [hheld, Bool.true_or, ↓reduceIte]

theorem bgAccess_reads (hopen : BgOpen s) (hbg : s.bg = []) (hvia : b.via = .core) (hwrite : b.write = none)
    (halign : b.addr.toNat % 64 = 0) (hlen : b.len = 64) (htarget : s.target (b.addr.toNat / 64) = some x) (hfree : s.holds x false = false)
    (halt : s.isAlt x = false) (hclean : aget false s.poison (s.bgLineOf x) = false) :
    exec (.bgAccess b []) s = .next (({ s with regs := ((s.bgCount x).bgFetch x none).1.regs } : State).emit
      (.bgDone b.tag .ok (lineBytes (s.line (s.bgLineOf x))))) := by
  show Host.Outcome.next (s.bgArrive b []) = _
  rw [bgArrive_read hopen hwrite halign hlen, htarget]
  have hpart := bgReadPart_line halt hclean
  simp [hfree, behindHeld_none hbg, State.bgServeRead, hvia, hlen, accParts_line halign, State.bgReadParts, htarget, obsAt, hpart]

theorem bgAccess_writes (hopen : BgOpen s) (hbg : s.bg = []) (hvia : b.via = .core) {bs : List Byte} (hwrite : b.write = some bs)
    (hbytes : bs.length = 64) (halign : b.addr.toNat % 64 = 0) (htarget : s.target (b.addr.toNat / 64) = some x)
    (hfree : s.holds x true = false) (halt : s.isAlt x = false) :
    exec (.bgAccess b []) s = .next ((s.bgPut x (lineOf bs)).emit (.bgDone b.tag .ok [])) := by
  have htake : bs.take 64 = bs := List.take_of_length_le hbytes.le
  have hparts : s.bgWriteParts b [] 0 bs (accParts b.addr bs.length) = s.bgPut x (lineOf bs) := by
    simp [hbytes, accParts_line halign, State.bgWriteParts, htarget, hfree, behindHeld_none hbg, htake, bgWritePart_line s x hbytes halt]
  have hnone : (s.bgPut x (lineOf bs)).bg = [] := (bgPut_bg ..).trans hbg
  show Host.Outcome.next (s.bgArrive b []) = _
  rw [bgArrive_write hopen hwrite, hparts, hnone]
  simp [State.bgWrote, hvia]

theorem bgAccess_hold (hpower : s.mod.power = .hold) (hvia : b.via = .core) : exec (.bgAccess b []) s =
    .next ((s.raise P.HOSTDMA B.HOSTDMA_MEM_UNAVAILABLE Evn.HOST_MEM_UNAVAILABLE).emit
      (.bgDone b.tag (if b.write.isSome then .dropped else .aborted) [])) := by
  show Host.Outcome.next (s.bgArrive b []) = _
  cases hwrite : b.write <;> simp [State.bgArrive, hpower, State.bgInHold, hwrite, State.refusedFor, State.bgWrote, State.bgAbort, hvia]

theorem bgAccess_standby (hpower : s.mod.power = .standby) : exec (.bgAccess b []) s = .next s := by
  show Host.Outcome.next (s.bgArrive b []) = _
  rw [State.bgArrive, hpower]

theorem bgHold_eq : s.bgHold b = { s with regs := (s.bgHold b).regs, bg := s.bg ++ [{ num := s.bgNext, acc := b, at_ := s.now }],
                                          bgNext := s.bgNext + 1 } := by
  rw [State.bgHold, bgHeldFlags_eq]

end

/-! ## Fences (R39) -/

/-- `t` is `s` but for the fences that wait and for outputs, none of which is taken back. -/
def FenceFrame (s t : State) : Prop := t = { s with ctx := t.ctx, out := t.out } ∧ ∀ o ∈ s.out, o ∈ t.out

theorem fencesDone_frame (s : State) : FenceFrame s s.fencesDone := by
  refine List.foldlRecOn s.ctx _ (motive := FenceFrame s) ⟨rfl, fun _ ho => ho⟩ fun t ht e _ => ?_
  obtain ⟨heq, hout⟩ := ht
  dsimp only
  split
  · refine ⟨?_, fun o ho => List.mem_cons_of_mem _ (hout o ho)⟩
    rw [heq]
    rfl
  · exact ⟨heq, hout⟩

/-! ## Requests held are served -/

section
variable {s : State} {h : BgHeld} {x : Target}

theorem bgHeldServe_closed (hpower : s.mod.power = .hold ∨ s.mod.power = .standby) : exec (.bgHeldServe []) s = .next s := by
  refine if_neg ?_
  rcases hpower with hp | hp <;> rw [hp] <;> decide

theorem bgHeldServe_open (hopen : BgOpen s) : exec (.bgHeldServe []) s = .next (s.bgRelease []) := if_pos hopen

theorem bgServeAll_held {hs : List BgHeld} (hheld : ∀ h ∈ hs, s.stillHeld h.acc = true) (obs : List (Nat × LineObs)) :
    s.bgServeAll obs hs = s := by
  induction hs with
  | nil => rfl
  | cons h hs ih =>
    rw [State.bgServeAll, if_pos (hheld h List.mem_cons_self)]
    exact ih fun h' hh => hheld h' (List.mem_cons_of_mem h hh)

theorem bgWaited_eq (s : State) (h : BgHeld) : s.bgWaited h = { s with regs := (s.bgWaited h).regs } := by
  unfold State.bgWaited
  split
  · dsimp only
    split <;> rfl
  · rfl

theorem bgWaited_rd (s : State) (h : BgHeld) {o : Nat} (ho : o % 0x1000 ≠ 0x4C) : (s.bgWaited h).rd o = s.rd o := by
  unfold State.bgWaited
  split
  · next g _ _ =>
    have hne : o ≠ Reg.GROVE_BG_WAIT_MAX g := by
      show o ≠ 0x100000 + 0x10000 * g + 0x4C
      omega
    dsimp only
    split
    · exact rd_wr_ne _ _ hne
    · rfl
  · rfl

/-- The state in which the held request `h` is served: its wait is recorded, and it is held no more. -/
def State.bgFreed (s : State) (h : BgHeld) : State :=
  { s.bgWaited h with bg := (s.bgWaited h).bg.filter (fun y => decide (y.num ≠ h.num)) }

theorem bgFreed_eq (hbg : s.bg = [h]) : s.bgFreed h = { s with regs := (s.bgFreed h).regs, bg := [] } := by
  have hfilter : s.bg.filter (fun y => decide (y.num ≠ h.num)) = [] := by simp [hbg]
  rw [State.bgFreed, bgWaited_eq, hfilter]

/-- What serving a held write makes of the state in which it is served. -/
theorem bgServeOne_write {bs : List Byte} (hwrite : h.acc.write = some bs) (htarget : (s.bgFreed h).target (h.acc.addr.toNat / 64) = some x) :
    s.bgServeOne h [] =
      if ((s.bgFreed h).bgWritePart x (h.acc.addr.toNat % 64) bs none).bg.any
          (fun y => y.acc.tag == h.acc.tag && y.acc.via == h.acc.via && y.acc.write.isSome) then
        (s.bgFreed h).bgWritePart x (h.acc.addr.toNat % 64) bs none
      else ((s.bgFreed h).bgWritePart x (h.acc.addr.toNat % 64) bs none).bgWrote h.acc .ok := by
  unfold State.bgFreed at htarget ⊢
  simp only [State.bgServeOne, hwrite] at htarget ⊢
  rw [htarget]
  rfl

theorem stillHeld_line {b : BgAccess} (halign : b.addr.toNat % 64 = 0) (hlen : b.len = 64) (htarget : s.target (b.addr.toNat / 64) = some x) :
    s.stillHeld b = s.holds x b.write.isSome := by
  simp [State.stillHeld, hlen, accParts_line halign, htarget]

theorem bgServeOne_writes (hbg : s.bg = [h]) (hvia : h.acc.via = .core) {bs : List Byte} (hwrite : h.acc.write = some bs)
    (hbytes : bs.length = 64) (halign : h.acc.addr.toNat % 64 = 0) (htarget : s.target (h.acc.addr.toNat / 64) = some x)
    (halt : s.isAlt x = false) : s.bgServeOne h [] = ((s.bgFreed h).bgPut x (lineOf bs)).emit (.bgDone h.acc.tag .ok []) := by
  have heq := bgFreed_eq hbg
  have hgroves : (s.bgFreed h).groves = s.groves := by rw [heq]
  have hlpddr : (s.bgFreed h).lpddr = s.lpddr := by rw [heq]
  have htarget' : (s.bgFreed h).target (h.acc.addr.toNat / 64) = some x :=
    (target_map (fun o ho => bgWaited_rd s h ho) hlpddr _).trans htarget
  have halt' : (s.bgFreed h).isAlt x = false := (isAlt_congr (bgWaited_rd s h (by decide)) hgroves hlpddr x).trans halt
  have hnone : ((s.bgFreed h).bgPut x (lineOf bs)).bg = [] := by rw [bgPut_bg, heq]
  rw [bgServeOne_write hwrite htarget', halign, bgWritePart_line _ _ hbytes halt', hnone]
  simp [State.bgWrote, hvia]

theorem bgRelease_writes (hbg : s.bg = [h]) (hheld : s.stillHeld h.acc = false) :
    s.bgRelease [] = (s.bgServeOne h []).bgHeldFlags.fencesDone := by
  rw [State.bgRelease, hbg, State.bgServeAll, hheld]
  rfl

end

end Sys2Proof.Machine
end

section
/-! O21: background accesses are served, held, refused or dropped. -/

namespace Sys2Proof.Machine

section
variable {s : State}

/-- A completion after a line carried. -/
theorem emit_of_carried {t : State} (h : t = { s with regs := t.regs, groves := t.groves, mem := t.mem, poison := t.poison }) (o : Out) :
    (t.emit o).out = o :: s.out ∧ t.emit o = { s with regs := (t.emit o).regs, groves := (t.emit o).groves, mem := (t.emit o).mem,
                                                      poison := (t.emit o).poison, out := (t.emit o).out } := by
  rw [h]
  exact ⟨rfl, rfl⟩

/-- A completion after an event. -/
theorem emit_of_raised {t : State} (h : t = { s with regs := t.regs, evt := t.evt, glade := t.glade }) (o : Out) :
    (t.emit o).out = o :: s.out ∧ t.emit o = { s with regs := (t.emit o).regs, evt := (t.emit o).evt, glade := (t.emit o).glade,
                                                      out := (t.emit o).out } := by
  rw [h]
  exact ⟨rfl, rfl⟩

/-- What is left when requests have been served: BG_HELD is shown, and fences end. -/
theorem bgHeldFlags_fencesDone (t : State) : ∃ u, t.bgHeldFlags.fencesDone = u ∧ u = { t with regs := u.regs, ctx := u.ctx, out := u.out } ∧
    ∀ o ∈ t.out, o ∈ u.out := by
  refine ⟨_, rfl, ?_⟩
  obtain ⟨hfence, hout⟩ := fencesDone_frame t.bgHeldFlags
  generalize t.bgHeldFlags.fencesDone = u at hfence hout ⊢
  rw [bgHeldFlags_eq] at hfence hout
  exact ⟨by rw [hfence], hout⟩

theorem bgHeldServe_writes {h : BgHeld} {x : Target} (hopen : BgOpen s) (hbg : s.bg = [h]) (hvia : h.acc.via = .core)
    {bs : List Byte} (hwrite : h.acc.write = some bs) (hbytes : bs.length = 64) (halign : h.acc.addr.toNat % 64 = 0) (hlen : h.acc.len = 64)
    (htarget : s.target (h.acc.addr.toNat / 64) = some x) (hfree : s.holds x true = false) (halt : s.isAlt x = false) :
    ∃ t, exec (.bgHeldServe []) s = .next t ∧ t.bg = [] ∧
      (∀ n, t.line n = if n = s.bgLineOf x then lineOf bs else s.line n) ∧ .bgDone h.acc.tag .ok [] ∈ t.out := by
  have hheld : s.stillHeld h.acc = false := by rw [stillHeld_line halign hlen htarget, hwrite, Option.isSome_some, hfree]
  have hfreed := bgFreed_eq hbg
  obtain ⟨t, ht, heq, hout⟩ := bgHeldFlags_fencesDone (((s.bgFreed h).bgPut x (lineOf bs)).emit (.bgDone h.acc.tag .ok []))
  obtain ⟨hdone, -⟩ := emit_of_carried (bgPut_eq (s.bgFreed h) x (lineOf bs)) (.bgDone h.acc.tag .ok [])
  have hmem : t.mem = ((s.bgFreed h).bgPut x (lineOf bs)).mem := by
    rw [heq]
    rfl
  have hempty : (s.bgFreed h).bg = [] := by rw [hfreed]
  have hnone : t.bg = [] := by
    rw [heq]
    exact (bgPut_bg _ x (lineOf bs)).trans hempty
  refine ⟨t, ?_, hnone, fun n => ?_, hout _ (by rw [hdone]; exact List.mem_cons_self)⟩
  · rw [bgHeldServe_open hopen, bgRelease_writes hbg hheld, bgServeOne_writes hbg hvia hwrite hbytes halign htarget halt, ht]
  · have hplace : (s.bgFreed h).bgLineOf x = s.bgLineOf x := bgLineOf_congr (by rw [hfreed]) (by rw [hfreed]) x
    have hbefore : (s.bgFreed h).line n = s.line n := line_congr (by rw [hfreed]) n
    rw [line_congr hmem, bgPut_line, hplace, hbefore]

theorem bgHeldServe_keeps (hopen : BgOpen s) (hheld : ∀ h ∈ s.bg, s.stillHeld h.acc = true) :
    ∃ t, exec (.bgHeldServe []) s = .next t ∧ t.bg = s.bg ∧ t = { s with regs := t.regs, ctx := t.ctx, out := t.out } := by
  obtain ⟨t, ht, heq, -⟩ := bgHeldFlags_fencesDone s
  refine ⟨t, ?_, by rw [heq], heq⟩
  rw [bgHeldServe_open hopen, State.bgRelease, bgServeAll_held hheld, ht]

end

/-- Settles O21: each clause is the state of its operation, and what that state holds. -/
theorem backgroundAccessesAreServedHeldOrRefused : Obligations.BackgroundAccessesAreServedHeldOrRefused := by
  unfold Obligations.BackgroundAccessesAreServedHeldOrRefused
  intro s b hvia n
  refine ⟨fun hopen hbg halign hlen => ⟨fun x bs htarget hfree halt hwrite hbytes => ?_, fun x htarget hfree halt hwrite hclean => ?_,
    fun g a htarget hstep hwrite => ?_, fun htarget hwrite => ?_⟩, fun hpower => ?_, bgAccess_standby, bgHeldServe_closed,
    fun hopen => ⟨fun h x bs hbg hacc halign hlen hwrite hbytes htarget hfree halt => ?_, bgHeldServe_keeps hopen⟩⟩
  · obtain ⟨hout, heq⟩ := emit_of_carried (bgPut_eq s x (lineOf bs)) (.bgDone b.tag .ok [])
    exact ⟨_, bgAccess_writes hopen hbg hvia hwrite hbytes halign htarget hfree halt, (bgPut_line ..).trans (if_pos rfl),
      fun m hm => (bgPut_line ..).trans (if_neg hm), hout, bgPut_count s x (lineOf bs), heq⟩
  · exact ⟨_, bgAccess_reads hopen hbg hvia hwrite halign hlen htarget hfree halt hclean, rfl, rfl⟩
  · have hheld : s.holds (.grove g a) false = true := by rw [State.holds, hstep, Bool.true_or]
    refine ⟨_, bgAccess_held hopen hwrite halign hlen htarget hheld, ?_, ?_⟩
    · rw [bgHold_eq, hbg]
      rfl
    · rw [bgHold_eq]
  · obtain ⟨hout, heq⟩ := emit_of_raised (raise_eq s P.FLOOR B.FLOOR_ADDR_INVALID Evn.MEM_ADDR_INVALID) (.bgDone b.tag .aborted [])
    exact ⟨_, bgAccess_invalid hopen hvia hwrite halign hlen htarget, raise_summary _ _ _ _ _ _ (by decide) (by decide), hout,
      fun o ho hevt => raise_rd _ _ _ _ _ _ hevt (by simpa using ho), heq⟩
  · obtain ⟨hout, heq⟩ := emit_of_raised (raise_eq s P.HOSTDMA B.HOSTDMA_MEM_UNAVAILABLE Evn.HOST_MEM_UNAVAILABLE)
      (.bgDone b.tag (if b.write.isSome then .dropped else .aborted) [])
    exact ⟨_, bgAccess_hold hpower hvia, raise_summary _ _ _ _ _ _ (by decide) (by decide), hout, heq⟩
  · subst hacc
    obtain ⟨t, hexec, hnone, hline, hout⟩ := bgHeldServe_writes hopen hbg hvia hwrite hbytes halign hlen htarget hfree halt
    exact ⟨t, hexec, hnone, (hline _).trans (if_pos rfl), fun m hm => (hline m).trans (if_neg hm), hout⟩

end Sys2Proof.Machine
end

section
/-! The floor crossbar (R132, R144, R226), and O22. -/

namespace Sys2Proof.Machine

/-! ## A line is taken and placed -/

/-- An engine whose send queue `q` holds the lines `vs`. -/
def EngineSt.sends (x : EngineSt) (q : Nat) (vs : List Line) : EngineSt := { x with sendq := aset [] x.sendq q vs }

/-- An engine whose receive queue `q` has taken the line `v`. -/
def EngineSt.receives (x : EngineSt) (q : Nat) (v : Line) : EngineSt := { x with recvq := aset [] x.recvq q (aget [] x.recvq q ++ [v]) }

theorem receives_recvq (x : EngineSt) (q k : Nat) (v : Line) :
    aget [] (x.receives q v).recvq k = if k = q then aget [] x.recvq q ++ [v] else aget [] x.recvq k := aget_aset ..

section
variable {s : State}

theorem xbarTake_queue {g : Fin 16} {e q : Fin 8} {i : Nat} {v : Line} {vs : List Line} (hidx : s.engIdx { g := g, e := e } = some i)
    (hsend : aget [] (s.eng i).sendq q.val = v :: vs) (dst : Port) :
    s.xbarTake (.queue g e q) dst = some (v, false, s.setEng i ((s.eng i).sends q.val vs)) := by
  simp only [State.xbarTake, hidx, hsend, EngineSt.sends]

theorem xbarPlace_queue {g : Fin 16} {e : Fin 8} {j : Nat} (hidx : s.engIdx { g := g, e := e } = some j) (src : Port) (q : Fin 8) (v : Line)
    (bad : Bool) : s.xbarPlace src (.queue g e q) v bad = s.setEng j ((s.eng j).receives q.val v) := by
  simp only [State.xbarPlace, hidx, EngineSt.receives]

/-- A link whose receive buffer is empty. -/
def State.linkEmptied (s : State) (l : Nat) : State := s.setLink l { s.link l with rxBuf := [] }

theorem xbarTake_link {l : Fin 96} {lo hi : BitVec 256} (hrx : (s.link l.val).rxBuf = [(lo, false, true), (hi, true, false)]) (dst : Port) :
    s.xbarTake (.link l) dst = some (halvesLine lo hi, true, s.linkEmptied l.val) := by
  simp [State.xbarTake, State.linkEmptied, takeHalf, hrx]

/-! ## A delivery -/

theorem xbarLineRx_none {src dst : Port} (h : s.stepActive = false ∨ s.xbarTake src dst = none) (copies : List Port) (obs : Option LineObs) :
    exec (.xbarLineRx src dst copies obs) s = .next s := by
  show execXbarLineRx src dst copies obs s = _
  unfold execXbarLineRx
  split
  · next hstep => rw [h.resolve_left (by rw [hstep]; decide)]
  · rfl

/-- The line `v` from `src` at each of its destinations, counted. -/
def State.xbarDelivered (s : State) (src : Port) (dsts : List Port) (v : Line) (bad : Bool) : State :=
  (dsts.foldl (fun s p => s.xbarPlace src p v bad) s).bump64 Reg.FLOOR_LINES_LO 1

/-- Without an error found at the receiving port, the line is as its source held it. -/
theorem xbarLineRx_delivers {src dst : Port} {v : Line} {held : Bool} {t : State} (hstep : s.stepActive = true)
    (htake : s.xbarTake src dst = some (v, held, t)) (copies : List Port) :
    exec (.xbarLineRx src dst copies none) s =
      .next ((if held then t.xbarUncorr else t).xbarDelivered src (dst :: copies) v held) := by
  show execXbarLineRx src dst copies none s = _
  rw [execXbarLineRx, if_pos hstep, htake]
  rfl

/-- A line marked by its source is found uncorrectable on arrival. -/
theorem xbarLineRx_marks {src dst : Port} {v : Line} {t : State} (hstep : s.stepActive = true)
    (htake : s.xbarTake src dst = some (v, true, t)) (copies : List Port) :
    exec (.xbarLineRx src dst copies none) s = .next (t.xbarUncorr.xbarDelivered src (dst :: copies) v true) := by
  rw [xbarLineRx_delivers hstep htake, if_pos rfl]

end

theorem bump64_only (s : State) (lo n : Nat) : onlyRegs [lo, lo + 4] s (s.bump64 lo n) := fun o ho => by
  simp only [List.mem_cons, List.not_mem_nil, or_false, not_or] at ho
  exact (rd_wr_ne _ _ ho.2).trans (rd_wr_ne _ _ ho.1)

/-! ## From one engine to another -/

section
variable {s : State} {g g' : Fin 16} {e e' : Fin 8} {i j : Nat} {v : Line} {vs : List Line} (hstep : s.stepActive = true)
  (hsrc : s.engIdx { g := g, e := e } = some i) (hdst : s.engIdx { g := g', e := e' } = some j) (hne : i ≠ j)
include hstep hsrc hdst hne

theorem xbarLineRx_queue {q : Fin 8} (hsend : aget [] (s.eng i).sendq q.val = v :: vs) (q' : Fin 8) :
    exec (.xbarLineRx (.queue g e q) (.queue g' e' q') [] none) s =
      .next (((s.setEng i ((s.eng i).sends q.val vs)).setEng j ((s.eng j).receives q'.val v)).bump64 Reg.FLOOR_LINES_LO 1) := by
  have hdst' : (s.setEng i ((s.eng i).sends q.val vs)).engIdx { g := g', e := e' } = some j := hdst
  rw [xbarLineRx_delivers hstep (xbarTake_queue hsrc hsend _), if_neg Bool.false_ne_true, State.xbarDelivered, List.foldl_cons, List.foldl_nil,
    xbarPlace_queue hdst', eng_setEng_ne _ _ hne.symm]

theorem xbarLineRx_queues {q : Fin 8} (hsend : aget [] (s.eng i).sendq q.val = v :: vs) (q' q2 : Fin 8) :
    exec (.xbarLineRx (.queue g e q) (.queue g' e' q') [.queue g' e' q2] none) s =
      .next ((((s.setEng i ((s.eng i).sends q.val vs)).setEng j ((s.eng j).receives q'.val v)).setEng j
        (((s.eng j).receives q'.val v).receives q2.val v)).bump64 Reg.FLOOR_LINES_LO 1) := by
  have hdst' : (s.setEng i ((s.eng i).sends q.val vs)).engIdx { g := g', e := e' } = some j := hdst
  have hdst2 : ((s.setEng i ((s.eng i).sends q.val vs)).setEng j ((s.eng j).receives q'.val v)).engIdx { g := g', e := e' } = some j := hdst
  rw [xbarLineRx_delivers hstep (xbarTake_queue hsrc hsend _), if_neg Bool.false_ne_true, State.xbarDelivered, List.foldl_cons, List.foldl_cons,
    List.foldl_nil, xbarPlace_queue hdst', eng_setEng_ne _ _ hne.symm, xbarPlace_queue hdst2, eng_setEng_same]

end

/-! ## From a link to the sampler -/

/-- A line found uncorrectable is counted, raised, and held for the end of the epoch. -/
theorem xbarUncorr_eq (s : State) : s.xbarUncorr =
    ((s.errInc P.FLOOR).raise P.FLOOR B.FLOOR_XBAR_UNCORR Evn.MEM_XBAR_UNCORR).eoeHeld causeXbarUncorr := paceFaultEoe_eq ..

theorem xbarUncorr_units (s : State) : s.xbarUncorr.links = s.links ∧ s.xbarUncorr.sample = s.sample := by
  rw [xbarUncorr_eq]
  exact ⟨State.raise_links .., State.raise_sample ..⟩

theorem xbarUncorr_summary (s : State) : s.xbarUncorr.summary P.FLOOR B.FLOOR_XBAR_UNCORR = true := by
  rw [xbarUncorr_eq]
  exact raise_summary _ _ _ _ _ _ (by decide) (by decide)

theorem xbarUncorr_count (s : State) :
    (s.xbarUncorr.rd (Hdr.ERR_COUNT P.FLOOR)).toNat = min ((s.rd (Hdr.ERR_COUNT P.FLOOR)).toNat + 1) 0xFFFFFFFF := by
  have hraise : s.xbarUncorr.rd (Hdr.ERR_COUNT P.FLOOR) = (s.errInc P.FLOOR).rd (Hdr.ERR_COUNT P.FLOOR) := by
    rw [xbarUncorr_eq]
    exact raise_rd _ _ _ _ _ _ (by decide) (by decide)
  rw [hraise, State.errInc, State.putB, rd_put_ne _ _ _ (by decide), bump_one_toNat]

/-- A line that reaches the sampler's buffer. -/
theorem xbarDelivered_sample (s : State) (src : Port) (v : Line) (bad : Bool) :
    (s.xbarDelivered src [.sample] v bad).sample.inbuf = s.sample.inbuf ++ [v] ∧ (s.xbarDelivered src [.sample] v bad).links = s.links ∧
      onlyRegs [Reg.FLOOR_LINES_LO, Reg.FLOOR_LINES_HI] s (s.xbarDelivered src [.sample] v bad) :=
  ⟨rfl, rfl, fun o ho => (bump64_only _ _ 1 o ho).trans rfl⟩

/-- Settles O22: the head of a send queue reaches one receive queue or two, and a poisoned line of a link the sampler. -/
theorem floorCrossbarDeliversLines : Obligations.FloorCrossbarDeliversLines := by
  unfold Obligations.FloorCrossbarDeliversLines
  intro s
  refine ⟨fun src dst copies obs h => xbarLineRx_none h copies obs, fun g g' e e' q q' q2 i j v vs hstep hsrc hdst hne hsend =>
    ⟨⟨_, xbarLineRx_queue hstep hsrc hdst hne hsend q', ?_⟩, fun hq => ⟨_, xbarLineRx_queues hstep hsrc hdst hne hsend q' q2, ?_⟩⟩,
    fun l lo hi hstep hrx => ⟨_, xbarLineRx_marks hstep (xbarTake_link hrx .sample) [], ?_⟩⟩
  · have heng (k : Nat) := eng_congr (State.bump64_engines ((s.setEng i ((s.eng i).sends q.val vs)).setEng j ((s.eng j).receives q'.val v))
      Reg.FLOOR_LINES_LO 1) k
    refine ⟨?_, ?_, fun k hki hkj => ?_, ?_, fun o ho => bump64_only _ _ 1 o ho, rfl⟩
    · rw [heng, eng_setEng_ne _ _ hne, eng_setEng_same, EngineSt.sends]
    · rw [heng, eng_setEng_same, EngineSt.receives]
    · rw [heng, eng_setEng_ne _ _ hkj, eng_setEng_ne _ _ hki]
    · exact rd64_wr64_same ..
  · have hne2 : q'.val ≠ q2.val := fun h => hq (Fin.ext h)
    rw [eng_congr (State.bump64_engines ..), eng_setEng_same]
    simp [receives_recvq, hne2, hne2.symm]
  · obtain ⟨hlinks, hsample⟩ := xbarUncorr_units (s.linkEmptied l.val)
    obtain ⟨hbuf, hkept, hregs⟩ := xbarDelivered_sample (s.linkEmptied l.val).xbarUncorr (.link l) (halvesLine lo hi) true
    refine ⟨?_, ?_, ?_, ?_⟩
    · rw [State.link, hkept, hlinks]
      exact congrArg LinkSt.rxBuf (aget_aset_same ..)
    · rw [hbuf, hsample, State.linkEmptied, State.setLink_sample]
    · exact (flag_of_rd (hregs _ (by decide)) _ _).trans (xbarUncorr_summary _)
    · rw [hregs _ (by decide), xbarUncorr_count]
      rfl

end Sys2Proof.Machine
end
